-- ==== Sys2Proof/Word.lean ====
section
/-! DEFINITION. The words of the machine: a byte, a 32-bit register, a 64-bit store word, and the sparse store type. -/

namespace Sys2Proof

/-- A byte of a frame, of a carriage, of an image. -/
abbrev Byte := BitVec 8

/-- A 32-bit word: a host register (R3), a manifest word. -/
abbrev W32 := BitVec 32

/-- A 64-bit word. -/
abbrev W64 := BitVec 64

/-- A sparse store: pairs of a key and a value, keys strictly rising. A key that is not listed reads as the store's
default, and no listed value equals that default (`SMap.wf`, in Machine/Ops.lean). -/
abbrev SMap (α : Type) := List (Nat × α)

end Sys2Proof
end

