-- ==== Sys2Proof/Machine/TypesFlt.lean ====
section
/-! DEFINITION. Plain-data state of the tick (chapter 1) and of the fault collector (chapter 17): everything those
chapters give the machine beside its registers. -/

namespace Sys2Proof.Machine

/-- A fault record (R381, Table 17.4): the fields of its eight words. -/
structure FltRec where
  src : Nat
  /-- 1 CORRECTED, 2 CONTAINED, 3 FATAL. -/
  cls : Nat
  react : Nat
  sec : Bool
  inj : Bool
  cleared : Bool
  /-- 0 Atkor, 1 Trelier: the die of the primary. -/
  pdie : Nat
  event : Nat
  seq : Nat
  tick : Nat
  cycle : Nat
  /-- 96 bits. -/
  detail : Nat
  primary : Nat
  deriving DecidableEq, Repr

/-- An open quench window (R389): its primary, and the tick whose start closes it. -/
structure QWindow where
  die : Nat
  seq : Nat
  src : Nat
  cls : Nat
  close : Nat
  deriving DecidableEq, Repr

/-- What a reaction asks of other blocks once its record is written (R383, Table 17.5a). -/
inductive Pend where
  /-- Revoke a holder (R390 to R392); true: by software. -/
  | revoke (holder : Nat) (sw : Bool)
  /-- The quarantine that Table 17.1 names for the source. -/
  | quarantine (src : Nat)
  /-- Release of the helm with a cause of Table 16.3 (R365). -/
  | releaseHelm (cause : Nat)
  deriving DecidableEq, Repr

/-- The stores whose words can hold an error (R376), and the arrays whose rows can flip (R137). -/
inductive Store where
  /-- Stage rows of a quad's replica (R77): bank × 2^16 + 512 × stage + row (R40); the source is the quad's lowest pipeline. -/
  | row
  /-- Parse states of a pipeline's replica: bank × 2^16 + state. -/
  | pstate
  /-- Parse transition entries of a pipeline's replica: bank × 2^16 + entry. -/
  | ptrans
  /-- A ternary array row of a bank (no check bits, R137). -/
  | asxArray
  /-- A shadow row of a bank. -/
  | asxShadow
  /-- An entry's associated data in a bank, by the row that begins the entry. -/
  | asxData
  /-- LPM, EXACT, DIRECT and tier-2 directory stores (Table 6.13), by their index. -/
  | lpm | exact | dir | member | t2dir
  /-- Flow contexts, by ID. -/
  | ctx
  /-- Lay-by entries, by entry. -/
  | layby
  /-- Carriage data and carriage headers, by carriage (R195). -/
  | carData | carHdr
  /-- Queue store. -/
  | queue
  /-- Wagon data and spill records in the stacks, by wagon (R238). -/
  | wagon | wagRec
  /-- A fault log slot (R382). -/
  | logSlot
  deriving DecidableEq, Repr

/-- A stored word in error: the source that owns the store, the store, the entry of the store and the 64-bit word of that entry (R376),
whether two bits are in error (else one, which SECDED corrects; of an array row: whether it will fail its read-back, R141), for an array
row the bits that flipped (80 value bits above 80 mask bits), and whether FLT_INJ put the error there (R394). -/
structure EccErr where
  src : Nat
  store : Store
  idx : Nat
  word : Nat
  dbl : Bool
  flip : Nat
  inj : Bool
  deriving DecidableEq, Repr

/-- The fault collector's two halves beside the FLT registers. `true` in a per-die pair is Trelier. -/
structure Flt where
  /-- Log slots that hold a VALID record, by slot number 0 to 2,047 (R382). -/
  logA : SMap FltRec
  logT : SMap FltRec
  /-- FATAL stores, oldest first, at most 16 (R382). -/
  fatA : List FltRec
  fatT : List FltRec
  /-- CORRECTED faults of each source in the 65,536-tick window in progress (R379). -/
  ceCount : SMap Nat
  /-- Sources whose storm is already logged in the window. -/
  stormed : List Nat
  /-- Open quench windows, earliest opened first (R389). -/
  windows : List QWindow
  /-- Holders revoked, with whether by software (R391). -/
  revoked : List (Nat × Bool)
  /-- Sources in recovery, with the reaction that began it: 2 QUARANTINE, 3 RESET_BLOCK (R388). -/
  recov : List (Nat × Nat)
  /-- Sources whose RESET_BLOCK starts at the next boundary (R383). -/
  pendReset : List Nat
  /-- Sources whose RESET_BLOCK may now start: a boundary has passed. -/
  dueReset : List Nat
  /-- A HALT: 1 waits for the next boundary, 2 is in effect there (R386). -/
  pendHalt : Nat
  /-- Reactions of records just written, not yet carried out. -/
  todo : List Pend
  /-- Injected bit errors waiting for the next word a source's store writes (R394): source, 1 single or 2 double. -/
  injArm : List (Nat × Nat)
  /-- Stored words now in error. -/
  ecc : List EccErr
  /-- A token check in progress: its outcome code, plus 256 times the token's PERMS (R392). -/
  tokenBusy : Option Nat
  /-- Tokens refused in this cold-reset period (R392). -/
  tokenRefused : Nat
  /-- PERMS of the accepted token (R393). -/
  perms : Nat
  /-- The TESTMODE_N strap as sampled: true when low (R392). -/
  testStrap : Bool
  /-- A reserved MODE strap drives FAULT_N low until cold reset (R2). -/
  strapFault : Bool
  deriving DecidableEq, Repr

/-- The fault collector after a cold reset: empty. -/
def Flt.reset : Flt :=
  { logA := [], logT := [], fatA := [], fatT := [], ceCount := [], stormed := [], windows := [], revoked := [],
    recov := [], pendReset := [], dueReset := [], pendHalt := 0, todo := [], injArm := [], ecc := [], tokenBusy := none, tokenRefused := 0,
    perms := 0, testStrap := false, strapFault := false }

/-- One output record of Table 1.8, waiting for the digest of its tick (R29). -/
structure OutRec where
  /-- The tick the record belongs to. -/
  tick : Nat
  /-- 0 to 63 ingress pipelines, 64 to 127 egress pipelines, 128 the scheduler, 129 the fabric interface. -/
  unit : Nat
  /-- The slot field: 0 to 503, or 0x1FF. -/
  slot : Nat
  /-- The rank of a frame dropped before it takes a slot. -/
  rank : Nat
  /-- The tick field. -/
  tickField : Nat
  /-- The type code of Table 1.8. -/
  type : Nat
  /-- Queue ID of a scheduler record, 0 otherwise. -/
  queue : Nat
  /-- The record serialised, type code first. -/
  bytes : List Byte
  deriving DecidableEq, Repr

/-- An admission record (R18, Table 1.3). -/
structure AdmRec where
  tick : Nat
  pipe : Nat
  slot : Nat
  /-- 0 WAN, 1 host inject, 2 fabric. -/
  kind : Nat
  source : Nat
  /-- Head-complete time in 0.25 ns. -/
  h : Nat
  len : Nat
  fcsBad : Bool
  bytes : List Byte
  deriving DecidableEq, Repr

/-- A WAN frame received and not yet admitted (R14, R15). -/
structure RxFrame where
  port : Nat
  h : Nat
  fcsBad : Bool
  bytes : List Byte
  deriving DecidableEq, Repr

/-- The tick and its admissions beside the TCK registers (chapter 1). -/
structure Tck where
  /-- Ticks run (R346: not before the first load, R352: the root from the end of calibration). -/
  running : Bool
  /-- Ticks begun since ticks run or the core dies were reset, at most 3: a tick's digest is made two ticks later (R29). -/
  begun : Nat
  /-- The tick in progress, 48 bits: what TCK_NOW shows. -/
  now : Nat
  /-- The next itinerary slot to issue, 0 to 504 (R9). -/
  slot : Nat
  /-- Core-clock cycles of the tick so far, gated ones included. -/
  cyc : Nat
  /-- Slack cycles of the tick so far (R10). -/
  slack : Nat
  /-- Frames whose heads are complete, in arrival order (R14). -/
  rx : List RxFrame
  /-- Admission records of the tick in progress and of ticks whose digest is not yet made. -/
  adm : List AdmRec
  /-- Output records not yet folded (R29). -/
  recs : List OutRec
  /-- Exposure masks of ticks not yet digested, by tick (R22, R23). -/
  exp : SMap Nat
  /-- The five digest registers are latched by a read of TCK_DIG_TICK_LO (R32): the values held. -/
  digLatch : Option (List (BitVec 32))
  deriving DecidableEq, Repr

/-- What a lost die-to-die transfer carried (R22): an enqueue request or a scheduler command that waits, by its place; a dequeued packet, by
the key of its slot; a fabric departure, by its key; the Trelier energy counts of a tick (R288). -/
inductive D2dLoss where
  | enqueue (i : Nat)
  | command (i : Nat)
  | dequeue (key : Nat)
  | departure (key : Nat)
  | counts (tick : Nat)
  deriving DecidableEq, Repr

/-- The tick at cold reset: no tick runs, no slot is due, nothing is held. -/
def Tck.reset : Tck :=
  { running := false, begun := 0, now := 0, slot := 504, cyc := 0, slack := 0, rx := [], adm := [], recs := [], exp := [],
    digLatch := none }

end Sys2Proof.Machine
end

