-- ==== Sys2Proof/Machine/TypesFwu.lean ====
section
/-! DEFINITION. Plain-data state of the update engine (chapter 19), and of straps, resets and supplies (chapters 15 and 20). -/

namespace Sys2Proof.Machine

/-- What an image header says (Table 19.1) that later checks and steps use. -/
structure Img where
  version : Nat
  minPeer : Nat
  proto : Nat
  setfProd : Nat
  setfLow : Nat
  setfHigh : Nat
  svn : Nat
  revoke : Nat
  aLen : Nat
  tLen : Nat
  deriving DecidableEq, Repr

/-- An incoming transfer (R421): sender's address, XID, the tick of the latest message, chunks since the latest ACK. -/
structure RxXfer where
  peer : Nat
  xid : Nat
  last : Nat
  chunks : Nat
  deriving DecidableEq, Repr

/-- An outgoing transfer (R421, R422): receiver's address, XID, bank, image length, next offset to send, the latest ACK, whether
it is accepted, the tick of the latest progress, and resends. -/
structure TxXfer where
  peer : Nat
  xid : Nat
  bank : Nat
  len : Nat
  next : Nat
  acked : Nat
  accepted : Bool
  last : Nat
  tries : Nat
  deriving DecidableEq, Repr

/-- A flash command in progress (R418): operation, address, data to program, and the code it will report if it is refused. -/
structure FlCmd where
  op : Nat
  addr : Nat
  data : List (BitVec 8)
  code : Nat
  deriving DecidableEq, Repr

/-- The update engine beside the FWU registers. -/
structure Fwu where
  /-- The boot flash, by byte address; unlisted bytes are erased, 0xFF. It survives every reset. -/
  flash : SMap (BitVec 8)
  /-- Header bytes as read, window, CXL, relay or host. -/
  hdr : List (BitVec 8)
  /-- Where the image in hand comes from: 0 window, 1 CXL, 2 convoy; and whether it goes to navigator memory at a cold start from
  host or convoy (R419). -/
  src : Nat
  boot : Bool
  /-- Payload blocks moved (window), and the next payload offset (CXL, convoy). -/
  blocks : List Nat
  next : Nat
  /-- The payload as moved into navigator memory at such a start, by byte, and that it has passed check 10. -/
  mem : SMap (BitVec 8)
  memOk : Bool
  /-- The next CXL staging read, its address, is outstanding. -/
  reading : Bool
  /-- A CXL read of the staging failed. -/
  cxlErr : Bool
  /-- The running image, the one it replaced, and the one loading or loaded. -/
  run : Option Img
  old : Option Img
  load : Option Img
  /-- The load is a REVERT (R431); the navigator pairs are split (R425). -/
  revert : Bool
  split : Bool
  /-- The activation tick X (R426). -/
  x : Option Nat
  /-- The handover records that old firmware wrote (R426): Atkor, Trelier. -/
  hoA : List (BitVec 8)
  hoT : List (BitVec 8)
  /-- The held settings slot (R429). -/
  held : Option Nat
  rx : Option RxXfer
  tx : Option TxXfer
  xid : Nat
  fl : Option FlCmd
  /-- MIN_PEER of each neighbour, by port (R423). -/
  nbrMin : SMap Nat
  /-- Fuses (R415): the security counter and revoked key slots. -/
  svn : Nat
  revoked : Nat
  deriving DecidableEq, Repr

def Fwu.reset : Fwu :=
  { flash := [], hdr := [], src := 0, boot := false, blocks := [], next := 0, mem := [], memOk := false, reading := false,
    cxlErr := false, run := none, old := none, load := none, revert := false, split := false, x := none, hoA := [], hoT := [],
    held := none, rx := none, tx := none, xid := 0, fl := none, nbrMin := [], svn := 0, revoked := 0 }

/-- Straps, resets and supplies. -/
structure Pwr where
  /-- BOOT_SRC as sampled (R439). -/
  bootSrc : Nat
  /-- The standby supply is present (R444). -/
  standby : Bool
  /-- Step 3 of the start is done (R352). -/
  step3 : Bool
  /-- The stacks must be trained anew, not only have their lists rebuilt (R356). -/
  retrain : Bool
  /-- Dies in brown-out, supervised rails out of tolerance, REFCLK_CORE lost (R356, R445, R447), and the code of
  GLB_RST_CAUSE.LAST for the warm reset that ends the hold. -/
  brown : List Nat
  rails : List Nat
  refLost : Bool
  cause : Nat
  /-- Dies whose latest highest reading is at or above WARN, above 150 °C, and at or above 155 °C (R448). -/
  hot : List Nat
  overs : List Nat
  tripped : List Nat
  /-- The setpoint that each regulator acknowledged last, in mV (R442). -/
  mvA : Nat
  mvT : Nat
  deriving DecidableEq, Repr

/-- Cold reset: both supplies present, setpoints at the 0.800 V that the regulators start at. -/
def Pwr.reset : Pwr :=
  { bootSrc := 0, standby := true, step3 := false, retrain := false, brown := [], rails := [], refLost := false, cause := 0, hot := [],
    overs := [], tripped := [], mvA := 800, mvT := 800 }

/-- What a cold reset samples and finds: the straps, whether the fuses read, the dies' highest junction readings, and whether the
regulators acknowledge their first commands. -/
structure ColdIn where
  mode : Nat
  root : Bool
  pref : Bool
  bootSrc : Nat
  testLow : Bool
  fuseOk : Bool
  tjA : Int
  tjT : Int
  ackA : Bool
  ackT : Bool
  deriving DecidableEq, Repr

/-- An FWR message as received. -/
structure FwrMsg where
  port : Nat
  dst : Nat
  src : Nat
  seq : Nat
  code : Nat
  xid : Nat
  offset : Nat
  arg : Nat
  data : List Byte
  deriving DecidableEq, Repr

end Sys2Proof.Machine
end

