-- ==== Sys2Proof/Machine/TypesCht.lean ====
section
/-! DEFINITION. Plain-data state of the chart banks, parse graph banks, load windows, chart swap and twin sequencers
(chapters 2 to 4). -/

namespace Sys2Proof.Machine

/-- The 512-byte manifest (R34). Byte 0 is the most significant byte, so an operand at offset o of W bytes is big-endian
(R35). -/
abbrev Manifest := BitVec 4096

/-- One chart bank with its parse graph bank (Table 3.1, Table 4.1). Unlisted entries are 0, as at cold reset (R75), but
for cost entries, whose unlisted value is the default of Table 2.16a. -/
structure ChartBank where
  /-- Ingress stage rows, key 512 × stage + row. -/
  rowsI : SMap (BitVec 256)
  /-- Egress stage rows, key 512 × stage + row. -/
  rowsE : SMap (BitVec 256)
  /-- Constant pool, 2,048 entries (R51). -/
  consts : SMap (BitVec 64)
  /-- Key profiles, 128 entries (R54). -/
  profs : SMap (BitVec 256)
  /-- Cost table, 16 entries in 1/64 EU (R69), only those changed from the default. -/
  costs : SMap Nat
  /-- Itinerary entries, key ((64 × direction + pipeline) × 4 + variant) × 512 + slot (R78). -/
  itin : SMap (BitVec 16)
  /-- Match table entries, key 16 × table + entry (R90). -/
  mtch : SMap (BitVec 64)
  /-- The bank descriptor (Table 3.13), DATA0 in the low word. -/
  desc : BitVec 256
  /-- Mirror sessions (Table 3.14). -/
  mirrors : SMap (BitVec 64)
  /-- Parse states (R106). -/
  states : SMap (BitVec 128)
  /-- Parse transition entries (R107). -/
  trans : SMap (BitVec 64)
  /-- Parse source entries (R115). -/
  srcs : SMap (BitVec 32)
  deriving DecidableEq, Repr

/-- A bank at cold reset: zero, costs at their defaults (R75, R99). -/
def ChartBank.reset : ChartBank :=
  { rowsI := [], rowsE := [], consts := [], profs := [], costs := [], itin := [], mtch := [], desc := 0#256,
    mirrors := [], states := [], trans := [], srcs := [] }

/-- A load window command in progress (R72, R118): the command bits, and the address and data registers as the command
found them. -/
structure LoadCmd where
  go : Bool
  rd : Bool
  addr : BitVec 32
  data : BitVec 256
  deriving DecidableEq, Repr

/-- A CHART_SWAP action held for a target tick (R103, R350). -/
structure HeldSwap where
  src : Nat
  seq : Nat
  target : Nat
  chartId : Nat
  receipt : Nat
  deriving DecidableEq, Repr

/-- Chart banks and sequencers beside the CHT and PRS registers. -/
structure Cht where
  bank0 : ChartBank
  bank1 : ChartBank
  /-- The chart load command in progress. -/
  ld : Option LoadCmd
  /-- The parse graph load command in progress. -/
  prsLd : Option LoadCmd
  /-- The scope and target tick of the arm being checked or held (R97). -/
  armScope : Nat
  armTarget : Nat
  /-- The follower's swap command, once received (R103). -/
  held : Option HeldSwap
  /-- Twin B drives, for each of the 32 pairs (R86, R87). -/
  driverB : List Bool
  /-- Pairs with a faulty twin, with the tick of its reload (R87). -/
  resync : List (Nat × Nat)
  /-- Tokens of the exception punt limiter, in 1/1,024 (R117). -/
  tokens : Nat
  /-- The tick whose last parser exception PRS_STOP_LAST shows (R119). -/
  stopTick : Nat
  deriving DecidableEq, Repr

/-- Cold reset: both banks zero, no command in progress, the limiter full at the default depth of 64 tokens (R117). -/
def Cht.reset : Cht :=
  { bank0 := ChartBank.reset, bank1 := ChartBank.reset, ld := none, prsLd := none, armScope := 0, armTarget := 0,
    held := none, driverB := List.replicate 32 false, resync := [], tokens := 64 * 1024, stopTick := 0 }

end Sys2Proof.Machine
end

