-- ==== Sys2Proof/Machine/TypesPkt.lean ====
section
/-! DEFINITION. Plain-data state of packets, carriage chains, passes in flight, the lookup stores and the lay-by
(chapters 3, 6 and 7). -/

namespace Sys2Proof.Machine

/-- A tier-2 request a pass records (R59): the table with its descriptor in force at issue (R145; none: unserved), the key as the profile
forms it, whether the profile is VALID, and where the result goes. -/
structure T2Req where
  tbl : Nat
  desc : Option (BitVec 32 × BitVec 32)
  ok : Bool
  key : List Byte
  rdst : Nat
  words : Nat
  deriving DecidableEq, Repr

/-- A packet as units hand it on: its manifest, its carriage chain (by the model's chain number), the stage-0 row of its
next pass (R88), and whether it is a mirror copy, with the carriages a copy keeps, 0 for all, and for a copy of a deparsed frame that
frame (R95). -/
structure Pkt where
  m : Manifest
  chain : Nat
  row : Nat
  copy : Bool
  trunc : Nat
  frame : Option (List Byte)
  deriving DecidableEq, Repr

/-- A carriage chain (R177, R178): the header fields of its head, its frame bytes without FCS, and the pointers of the
carriages placed so far, head first. The header words of Tables 7.2 and 7.3 are computed from this (one home for each
field). -/
structure Chain where
  owner : Nat
  couple : Nat
  csrc : Nat
  terr : Bool
  /-- An uncorrectable word was met in it, so that its output marks the FAULT bit (R23, R195). -/
  ue : Bool
  bytes : List Byte
  ptrs : List Nat
  /-- How many of `ptrs`, from the head on, a punt's copy has already let go (R311). -/
  gone : Nat
  /-- Carriages of a refilled chain that a splice took from the shared depot (R187). -/
  shr : Nat
  /-- Wagons reserved for a transit chain (R183, R186). -/
  wagons : Nat
  deriving DecidableEq, Repr

/-- Why a read port reads a carriage. -/
inductive ReadFor where
  /-- A departure of a packet, by the key of its EGRESS_ARRIVE slot. -/
  | depart (key : Nat)
  /-- A punt copied into the punt buffer (R311), by its ring and its number. -/
  | punt (ring id : Nat)
  /-- A spill of a packet, by its identity (R232). -/
  | spill (id : Nat)
  deriving DecidableEq, Repr

/-- A carriage read that a read port owes: its port, the chain and the place of the carriage in it, why it is read, and the first
continuous slot cycle in which it may issue (R176, R196, R230). -/
structure CarRead where
  port : Nat
  chain : Nat
  idx : Nat
  why : ReadFor
  from_ : Nat
  deriving DecidableEq, Repr

/-- A read in flight: the slot cycle of issue, and the carriage with the slot cycle in which the port holds its bank (R174, R176);
none once its words have been read. -/
structure InFlight where
  rd : CarRead
  at_ : Nat
  touch : Option (Nat × Nat)
  deriving DecidableEq, Repr

/-- A carriage handed to a write port and not yet placed (R175): its port and chain, the holder that allocated it, and whether it is a
refill, which gives way to admissions (R233). -/
structure Place where
  port : Nat
  chain : Nat
  by_ : Nat
  refill : Bool
  deriving DecidableEq, Repr

/-- The carriage store, its depots and its auditor beside the DPT registers (chapter 7). -/
structure Dpt where
  /-- Chains by chain number. -/
  chains : SMap Chain
  /-- The next chain number (the model's own name for a chain). -/
  nextChain : Nat
  /-- Rows pushed onto each bank's free list since cold reset, latest first (R179). -/
  stack : SMap (List Nat)
  /-- The next row of each bank's cold-reset list (R179). -/
  fresh : SMap Nat
  /-- OWNER of each carriage that is no head (Table 7.2): the allocating holder, or of a free carriage the last releaser. -/
  own : SMap Nat
  /-- AMARK of each carriage. -/
  mark : SMap Nat
  /-- Held carriages that belong to no chain, each with its header word 0 as it stood, AMARK aside (R192, R198). -/
  orphans : SMap Nat
  /-- Carriages handed to the write ports, in order, and the ports that have placed one in the slot cycle in progress (R173, R175). -/
  place : List Place
  placed : List Nat
  /-- Released carriages on their way to their free lists (R185). -/
  rejoin : List Nat
  /-- Chains whose carriages a punt hand-off already counts as free (R311), and their carriages on the way back. -/
  paid : List Nat
  rejoinPaid : List Nat
  /-- Credits of releases of this slot cycle: CSRC, carriages (R185). -/
  credit : List (Nat × Nat)
  /-- Reads owed, in order of request, and reads in flight, in order of issue. -/
  readQ : List CarRead
  reads : List InFlight
  /-- Departures that met an uncorrectable word in a carriage read (R196). -/
  hurt : List ReadFor
  /-- Chains that are gone, with their head pointers: what a late release of one names (R191). -/
  dead : SMap Nat
  /-- An audit is due (R192, R193). -/
  audWanted : Bool
  /-- The next header the sweep scans (R193). -/
  audPos : Nat
  /-- Orphans the sweep has found. -/
  audFound : List Nat
  deriving DecidableEq, Repr

/-- Cold reset: no chain, every free list in ascending order (R179). -/
def Dpt.reset : Dpt :=
  { chains := [], nextChain := 0, stack := [], fresh := [], own := [], mark := [], orphans := [], place := [],
    placed := [], rejoin := [], paid := [], rejoinPaid := [], credit := [], readQ := [], reads := [], hurt := [], dead := [], audWanted := false, audPos := 0, audFound := [] }

/-- A lookup result on its way (R56): the stage at whose end it lands, its RDST word, its bytes, and for a TCAM result the
bank of the copy that answers (R141). -/
structure PendLk where
  land : Nat
  issue : Nat
  rdst : Nat
  bytes : List Byte
  banks : Option (Nat × Nat)
  deriving DecidableEq, Repr

/-- Where a walk stands: the state's number, the header offset, the bound B, the steps taken, CLASS, the ten layer slots,
whether a length check compared, and PAD. -/
structure Walk where
  st : Nat
  o : Nat
  bound : Nat
  steps : Nat
  cls : Nat
  slots : List Nat
  compared : Bool
  pad : Bool
  deriving DecidableEq, Repr

/-- A pass in flight (R91). -/
structure Pass where
  /-- 0 ingress, 1 egress. -/
  dir : Nat
  pipe : Nat
  /-- Issue slot and issue tick. -/
  slot : Nat
  tick : Nat
  /-- Source code of Table 3.3. -/
  src : Nat
  /-- The bank it runs on (R88). -/
  bank : Nat
  /-- The holder under which its packet's chain is held: a recirculated packet keeps its own (Table 7.5). -/
  own : Nat
  pkt : Pkt
  /-- Slot cycles since issue. -/
  pos : Nat
  /-- The row of the next stage. -/
  row : Nat
  exited : Bool
  pend : List PendLk
  req : Option T2Req
  /-- The row of the next stage was fetched with an uncorrectable word (R40, R76, R91). -/
  bad : Bool
  /-- The parser's walk of an ingress pass until its record lands (R114), with its exception code once it has ended. -/
  walk : Option (Walk × Option Nat)
  /-- The exception the parser set in this pass (R113): its code, and the stop offset. -/
  stop : Option (Nat × Nat)
  /-- The queue an egress pass's packet came from, whose L0 node names the port of its departure (R201, R408). -/
  queue : Nat
  deriving DecidableEq, Repr

/-- What the allocator decided for a pass whose splice or copy-on-write needs carriages (R184, R187). -/
inductive Grow where
  | none_ | ok | fail | failShort
  deriving DecidableEq, Repr

/-- A pass whose end-of-pass actions are due (R92). -/
structure Ended where
  pass : Pass
  grow : Grow
  /-- The chain is coupled, so that the edit takes a copy (R187). -/
  cow : Bool
  deriving DecidableEq, Repr

/-- A packet waiting for a RECIRC slot (R84, R85): the slot of the pass that sent it, whether that pass was an egress one, the
tick in which it is owed a slot, and that slot once it is known, as 64 × slot + pipeline. -/
structure Waiter where
  pipe : Nat
  /-- The holder of its chain (Table 7.5). -/
  own : Nat
  slot : Nat
  egress : Bool
  owed : Nat
  pkt : Pkt
  ret : Option Nat
  deriving DecidableEq, Repr

/-- An admission waiting for its ARRIVE slot in the tick in progress (R16, R282, R31). -/
structure Arrival where
  pipe : Nat
  slot : Nat
  kind : Nat
  source : Nat
  h : Nat
  fcsBad : Bool
  /-- The frame as stored, without FCS (R38). -/
  bytes : List Byte
  /-- The carriages of the reassembly pool that hold a fabric packet (R282). -/
  pool : List Nat
  /-- The inject ring whose replay entry this is, consumed in the slot (R315, R316). -/
  ring : Option Nat
  deriving DecidableEq, Repr

/-- The pipelines. -/
structure Pipe where
  /-- Passes in flight, in order of issue. -/
  passes : List Pass
  /-- Egress pipelines whose stage-0 row of the next slot was fetched with an uncorrectable word (R76, R91). -/
  bad0 : List Nat
  ended : List Ended
  recirc : List Waiter
  arrivals : List Arrival
  deriving DecidableEq, Repr

def Pipe.reset : Pipe := { passes := [], bad0 := [], ended := [], recirc := [], arrivals := [] }

end Sys2Proof.Machine
end

