-- ==== Sys2Proof/Machine/TypesHst.lean ====
section
/-! DEFINITION. Plain-data state of the host endpoint, its rings and windows, and of the cage sideband (chapter 13). Rings are
numbered 0 to 63 for punt rings and 64 + n for inject ring n. -/

namespace Sys2Proof.Machine

/-- The admission record's head-complete time, length and FCS status, as a punt record names them (Table 13.5). -/
structure Head where
  h : Nat
  len : Nat
  fcsBad : Bool
  deriving DecidableEq, Repr

/-- A punt on its way to its hand-off (R311): ring, tick of hand-off, egress pass, pipeline, slot of the pass, the manifest at
the end of the pass, the frame as the pass leaves it, and its chain. -/
structure Punt where
  ring : Nat
  due : Nat
  egress : Bool
  pipe : Nat
  m : Manifest
  bytes : List Byte
  chain : Nat
  deriving DecidableEq, Repr

/-- A record in the punt buffer (R311): its ring, its number, its hand-off tick, what it holds, whether its copy is complete, and whether
the chain was bad. -/
structure PuntRec where
  ring : Nat
  id : Nat
  tick : Nat
  egress : Bool
  m : Manifest
  bytes : List Byte
  chain : Nat
  done : Bool
  terr : Bool
  deriving DecidableEq, Repr

/-- A host read outstanding (R319): ring, whether it fetches a descriptor or a frame, its length, the tick of its issue, and whether its
data is to be discarded. -/
structure HostRd where
  ring : Nat
  frame : Bool
  len : Nat
  tick : Nat
  stale : Bool
  deriving DecidableEq, Repr

/-- A fetched inject or replay descriptor (Tables 13.6 and 13.7). -/
structure InjDesc where
  addr : Nat
  len : Nat
  prefix_ : Bool
  metaBytes : List Byte
  kind : Nat
  fcsBad : Bool
  pipe : Nat
  slot : Nat
  source : Nat
  tick : Nat
  h : Nat
  deriving DecidableEq, Repr

/-- A part of a frame that one read request brings (R305): its place and length, the tag of the request once it is issued, and the bytes
once they have arrived. -/
structure InjPart where
  off : Nat
  len : Nat
  tag : Option Nat
  data : Option (List Byte)
  deriving DecidableEq, Repr

/-- A descriptor of an inject ring on its way: being fetched; fetched, its frame not yet given room; its frame being read; wholly
staged, with the tick in which it was. -/
inductive InjStage where
  | fetch
  | wait (x : InjDesc)
  | read (x : InjDesc) (parts : List InjPart)
  | staged (x : InjDesc) (bytes : List Byte) (tick : Nat)
  deriving DecidableEq, Repr

/-- A function's configuration space as the endpoint uses it: Bus Master Enable, D3hot, MSI-X enable and function mask, the
completion timeout value (Table 13.9), Max Payload Size and Max Read Request Size as PCIe codes them, 0 for 128 bytes, and ECRC generation
and checking (Table 13.1); its MSI-X table and pending bits (R307). -/
structure Func where
  mps : Nat
  mrrs : Nat
  ecrc : Nat
  bme : Bool
  d3 : Bool
  msixEn : Bool
  msixMask : Bool
  timeout : Nat
  table : SMap (BitVec 128)
  pba : List Nat
  deriving DecidableEq, Repr

/-- A function after a conventional reset, as PCIe lays down (PRESUMED, log entry 83): every vector masked, payloads of 128 bytes, read
requests of 512. -/
def Func.reset : Func :=
  { mps := 0, mrrs := 2, ecrc := 0, bme := false, d3 := false, msixEn := false, msixMask := false, timeout := 0, table := [], pba := [] }

/-- The host endpoint beside the HST registers. -/
structure Hst where
  pf0 : Func
  pf1 : Func
  /-- PERST_N asserted; the link training. -/
  perst : Bool
  training : Bool
  /-- PF0 interrupt sources whose condition was true when last looked at (Table 13.3). -/
  irq : List Nat
  /-- Admission records of packets, by admission (tick × 64 + pipeline) × 512 + slot. -/
  heads : SMap Head
  punts : List Punt
  recs : List PuntRec
  nextPunt : Nat
  /-- Host reads outstanding, by tag, and tags withheld, each with the tick from which it may be used again (R319). -/
  reads : SMap HostRd
  withheld : List (Nat × Nat)
  /-- Rings being armed (R317), and rings that wrote back, or consumed, in the tick (R312, R315). -/
  arming : List Nat
  wrote : List Nat
  /-- Descriptors of each inject ring on their way, from HEAD on. -/
  inj : SMap (List InjStage)
  /-- The place of the latest replay entry of each inject ring, as 32,768 × tick + 512 × pipeline + slot (R316). -/
  order : SMap Nat
  /-- The PCIe lanes are calibrated (R352). -/
  cal : Bool
  deriving DecidableEq, Repr

/-- Cold reset: PERST_N is taken as asserted until its deassertion is commanded. -/
def Hst.reset : Hst :=
  { pf0 := Func.reset, pf1 := Func.reset, perst := true, training := false, irq := [], heads := [], punts := [], recs := [], nextPunt := 0,
    reads := [], withheld := [], arming := [], wrote := [], inj := [], order := [], cal := false }

/-- What a configuration read names: the spec gives these fields' values, not their offsets (R305, R306, R319). -/
inductive CfgField where
  | deviceId | classCode
  /-- Bytes of BAR `k`, 0 where it is not implemented, and its type bits as PCI lays them down. -/
  | barSize (k : Nat) | barType (k : Nat)
  | expansionRom
  | maxPayloadSupported | tag10 | tag14 | timeoutRanges | timeoutDisable | flr | aer | ecrcCap | laneMargining
  /-- The features that Table 13.1 names as not supported. -/
  | absent
  | msixSize | msixTable | msixPba
  | bme | d3 | msixEnable | msixMask | timeout | mps | mrrs | ecrc
  deriving DecidableEq, Repr

/-- A PCIe configuration request (R305, R318, R319): a read, or a write of the fields the endpoint acts on. -/
inductive CfgReq where
  | read (fn : Nat) (what : CfgField)
  | mps (fn code : Nat)
  | mrrs (fn code : Nat)
  | ecrc (fn value : Nat)
  | bme (fn : Nat) (on : Bool)
  | d3 (fn : Nat) (on : Bool)
  | msix (fn : Nat) (enable mask : Bool)
  | timeout (fn value : Nat)
  deriving DecidableEq, Repr

/-- The function that a configuration request names. -/
def CfgReq.fn : CfgReq → Nat
  | .read fn _ => fn
  | .mps fn _ => fn
  | .mrrs fn _ => fn
  | .ecrc fn _ => fn
  | .bme fn _ => fn
  | .d3 fn _ => fn
  | .msix fn _ _ => fn
  | .timeout fn _ => fn

/-- A cage's sideband state (R324 to R328): the byte shifted out and not yet on the pins, the byte on the pins, the last good
inputs, the inputs captured and not yet applied, frames present in a row, frames of the button low and high in a row, whether
the button may set ABP, frames of reset left, and how far control writes have come: bit 0 for one written and not yet shifted out, bit 1 for
one shifted out and not yet on the pins. -/
structure Cage where
  out : Nat
  pins : Nat
  inp : Nat
  cap : Option Nat
  present : Nat
  low : Nat
  high : Nat
  armed : Bool
  rst : Nat
  cc : Nat
  deriving DecidableEq, Repr

/-- Cold reset: outputs as the reset CTL gives them (module off and in reset, LPMODE 1), inputs as an empty cage with nothing pressed and no power fault. -/
def Cage.reset : Cage :=
  { out := 0x40, pins := 0x40, inp := 0xF2, cap := none, present := 0, low := 0, high := 0, armed := true, rst := 0, cc := 0 }

/-- The cage sideband beside the CGE registers: cages, and for each chain bad and good frames in a row. -/
structure Cge where
  cages : SMap Cage
  bad : SMap Nat
  good : SMap Nat
  deriving DecidableEq, Repr

def Cge.reset : Cge := { cages := [], bad := [], good := [] }

end Sys2Proof.Machine
end

