-- ==== Sys2Proof/Machine/TypesLku.lean ====
section
/-! DEFINITION. Plain-data state of the lookup stores, the maintenance channels, the LKU write queue, the lay-by and the
tier-2 write buffer (chapter 6). -/

namespace Sys2Proof.Machine

/-- A slot of the EXACT store in use (R153): its table, padded key and data bytes 1 to 15. -/
structure ExSlot where
  tbl : Nat
  key : BitVec 128
  data : BitVec 120
  deriving DecidableEq, Repr

/-- An LKU operation in the write queue (R149), with its submitter's holder ID (R150). -/
structure LkuOp where
  holder : Nat
  op : Nat
  tbl : Nat
  index : Nat
  data : List (BitVec 32)
  deriving DecidableEq, Repr

/-- One table write of an LKU operation. -/
inductive LkuStep where
  /-- A trie write that no search reaches (R151). -/
  | trie
  | lpmPut (key : Nat) (route : BitVec 32)
  | lpmDel (key : Nat)
  | exPut (slot : Nat) (e : ExSlot)
  | exDelete (tbl : Nat) (key : BitVec 128)
  | exClear (slot : Nat)
  | dirPut (row : Nat) (off : Nat) (width : Nat) (bytes : List Byte)
  | member (i : Nat) (v : BitVec 64)
  | ctxPut (i : Nat) (v : BitVec 512)
  | ctxGet (i : Nat) (clear : Bool)
  | t2dir (i : Nat) (v : BitVec 64)
  | t2node (addr : Nat) (v : BitVec 64)
  deriving DecidableEq, Repr

/-- The running LKU operation and its steps still to apply. -/
structure LkuRun where
  op : LkuOp
  steps : List LkuStep
  deriving DecidableEq, Repr

/-- A tier-2 walk in progress (R167): address and family, bits used, reads made, the stored prefix, and the read
outstanding: its CXL address, its port, its tick of issue, and its time of issue in 0.25 ns. -/
structure T2Walk where
  v6 : Bool
  addr : Nat
  used : Nat
  reads : Nat
  rdAddr : Nat
  port : Nat
  tick : Nat
  at_ : Nat
  deriving DecidableEq, Repr

/-- How a tier-2 request stands. -/
inductive T2State where
  | walking (w : T2Walk)
  /-- Ended: 16 result bytes, and whether it ended in an error that R168 marks in tick T+6, with its event code (0 for the
  loss of a port, which logs nothing of its own). -/
  | done (result : List Byte) (err : Option Nat)
  deriving DecidableEq, Repr

/-- A lay-by entry (R166). -/
structure Parked where
  pkt : Pkt
  pipe : Nat
  slot : Nat
  /-- Issue tick of the parking pass. -/
  tick : Nat
  /-- The continuous slot cycle of dispatch. -/
  at_ : Nat
  req : T2Req
  st : T2State
  /-- The result has been written over the RDST words (R168), with the tick it was a deadline miss in. -/
  landed : Bool
  miss : Bool
  /-- The LAYBY_RET slot that it takes, once known (R85), as 64 × slot + pipeline. -/
  ret : Option Nat
  deriving DecidableEq, Repr

/-- A T2_WRITE held in the write buffer (R169). -/
structure T2Buf where
  addr : Nat
  data : BitVec 64
  /-- The continuous slot cycle of its step. -/
  at_ : Nat
  issued : Bool
  deriving DecidableEq, Repr

/-- The lookup engines beside the LKU and CTX registers. -/
structure Lku where
  /-- Prefixes, by (((table × 2^16 + VRF) × 2 + family) × 256 + length) × 2^128 + address. -/
  lpm : SMap (BitVec 32)
  exact : SMap ExSlot
  /-- DIRECT rows of 32 bytes. -/
  dir : SMap (BitVec 256)
  members : SMap (BitVec 64)
  ctx : SMap (BitVec 512)
  t2dir : SMap (BitVec 64)
  /-- Descriptors in force: EXACT as KLEN; DIRECT as its A and B registers, TIER2 as its A and B registers. -/
  exTbl : SMap Nat
  dirTbl : SMap (BitVec 32 × BitVec 32)
  t2Tbl : SMap (BitVec 32 × BitVec 32)
  queue : List LkuOp
  run : Option LkuRun
  /-- Steps applied in the tick (R147). -/
  stepped : Nat
  /-- Trie nodes the update unit must rewrite from its shadow (R171). -/
  lpmFix : List Nat
  /-- For each channel, whether the LKU queue applied its previous step (R147). -/
  lastLku : List Nat
  /-- Channels whose head step was withheld at an overrun, with 64 × direction + pipeline and whether the step is the LKU queue's (R146). -/
  held : SMap (Nat × Bool)
  layby : SMap Parked
  t2buf : List T2Buf
  /-- Directory entries that a step of the slot cycle in progress rewrote, as they were before it (R148, R167). -/
  t2old : SMap (BitVec 64)
  /-- Tier-2 reads whose request passed its deadline: lay-by entry's read, by address and port (R168). -/
  t2late : List T2Walk
  deriving DecidableEq, Repr

/-- Cold reset: every store zero (R172). -/
def Lku.reset : Lku :=
  { lpm := [], exact := [], dir := [], members := [], ctx := [], t2dir := [], exTbl := [], dirTbl := [], t2Tbl := [],
    queue := [], run := none, stepped := 0, lpmFix := [], lastLku := [], held := [], layby := [], t2buf := [], t2old := [],
    t2late := [] }

/-- Which tier-2 read returns (R167, R168): that of the walk of a lay-by entry, or a late one, named by its port and CXL address. -/
inductive T2Rd where
  | walk (entry : Nat)
  | late (port addr : Nat)
  deriving DecidableEq, Repr

/-- The lay-by has 4,096 entries, the device four CXL ports. -/
def T2Rd.wf : T2Rd → Bool
  | .walk entry => entry < 4096
  | .late port _ => port < 4

end Sys2Proof.Machine
end

