-- ==== Sys2Proof/Machine/TypesWan.lean ====
section
/-! DEFINITION. Plain-data state of the WAN ports, margin steering, and of departures on their way to the WAN transmitters
and the fabric interface (chapters 10 and 11). Instants are counted in units of 1/4,200 ns, in which slot instants (R13), wire
times (R251) and the sextant's 0.25 ns are whole numbers. -/

namespace Sys2Proof.Machine

/-- A departure handed over at the end of an egress pass (Table 3.10): its egress pipeline, the key of its EGRESS_ARRIVE slot, tick and
slot of departure, whether it goes to the fabric, its WAN or virtual port, the manifest as the pass left it, the deparsed frame without
FCS, how many stored bytes it was made of, and its chain. -/
structure Depart where
  pipe : Nat
  key : Nat
  tick : Nat
  slot : Nat
  fabric : Bool
  port : Nat
  m : Manifest
  bytes : List Byte
  stored : Nat
  chain : Nat
  deriving DecidableEq, Repr

/-- A departure that a WAN transmitter has begun (R196, R251): the frame as it goes out, its wire start, whether it ends with a stomp,
whether nothing is driven (R362, R386), and the offset of time of day, in seconds and quarter nanoseconds, once the tick of its transmit
timestamp has begun (R254). -/
structure TxFrame where
  x : Depart
  start : Nat
  stomp : Bool
  quiet : Bool
  ofs : Option (Nat × Nat)
  deriving DecidableEq, Repr

/-- A bearing message's fields beyond those fixed (Table 10.6), with the punt ring it came through (R265) and the tick of its admission. -/
structure BrgMsg where
  ring : Nat
  ver : Nat
  subtype : Nat
  sysid : Nat
  rport : Nat
  session : Nat
  seq : Nat
  retune : Bool
  reason : Nat
  entry : Nat
  ceil : Nat
  appsel : Nat
  cur : Nat
  esnr : Nat
  delay : Nat
  tick : Nat
  adm : Nat
  deriving DecidableEq, Repr

/-- An open bearing session beside WAN_MS_STn (R263 to R269). -/
structure Sess where
  id : Nat
  /-- Messages sent, and the SEQ received. -/
  sent : Nat
  heard : List Nat
  /-- Entry, ceiling and application before the change, and the target's ceiling and application. -/
  oldEntry : Nat
  oldCeil : Nat
  newCeil : Nat
  oldApp : Nat
  newApp : Nat
  /-- The last message sent, its tick, and the resends of it. -/
  last : List Byte
  lastTick : Nat
  tries : Nat
  /-- The leader's Td, whether this end's ceilings have been lowered, the tick of DRAIN sent, and twice the one-way delay once it is known
  (R267, R268). -/
  td : Nat
  fell : Bool
  drain : Nat
  owd2 : Option Nat
  /-- The tick in which SWITCH was admitted, an apply is due, the change was applied, and a ceiling is restored. -/
  switch_ : Option Nat
  apply_ : Option Nat
  applied : Option Nat
  restore : Option Nat
  ownClean : Bool
  peerConfirm : Bool
  deriving DecidableEq, Repr

/-- A two-wire transaction queued on a controller (R258, R259). -/
inductive BusOp where
  /-- A margin poll of a port's module (R261). -/
  | poll (port : Nat)
  /-- A navigator's read: page 00h module state, page 01h advertisements, page 11h data path states and configuration status. -/
  | nav (cage page : Nat)
  /-- The application that matches a cage's mode is selected (R248). -/
  | select (cage mode : Nat)
  /-- The host's mailbox transaction: cage, bank, page, offset, length, write data if a write. -/
  | host (cage bank page offset len : Nat) (wdata : Option (List Byte))
  /-- A steering write to a port's module: 0 stage an application, 1 ApplyImmediate, 2 ApplyDPInit. -/
  | steer (port kind app : Nat)
  deriving DecidableEq, Repr

/-- A record of the two-step FIFO (R254). -/
structure TsRec where
  port : Nat
  tag : Nat
  sec : Nat
  ns : Nat
  deriving DecidableEq, Repr

/-- The WAN ports beside the WAN registers. -/
structure Wan where
  /-- Departures handed over and not yet made. -/
  deps : List Depart
  /-- Departures begun whose carriages are still being read. -/
  tx : List TxFrame
  /-- When each port's previous frame ends on the wire (R251), and the frames in its transmit FIFO: wire end and bytes. -/
  busy : SMap Nat
  fifo : SMap (List (Nat × Nat))
  /-- Ports with alignment-marker lock, with a loss of RS-FEC lock, and receiving fault ordered sets: 2 × port for local ones, + 1 for
  remote ones (R250, R256). -/
  am : List Nat
  fecLoss : List Nat
  faults : List Nat
  /-- Ports sending remote fault ordered sets (R250). -/
  rf : List Nat
  /-- The tick in which a port's receive side was last not clean (R267). -/
  dirty : SMap Nat
  /-- The first boundary from which a port's link conditions all hold; and from which one of them fails, by 4 × port + condition: 0 block
  lock, 1 alignment-marker lock, 2 RS-FEC lock, 3 faults received (R256). -/
  good : SMap Nat
  bad : SMap Nat
  /-- Cages whose module went absent since the last boundary. -/
  gone : List Nat
  ts : List TsRec
  bus : SMap (List BusOp)
  /-- Readings of each port, latest first, and readings since its last session ended, of a port that has had one (R261, R263). -/
  esnr : SMap (List Int)
  since : SMap Nat
  sess : SMap Sess
  nextSess : Nat
  /-- Ports whose retune drain takes effect at the next boundary (R268). -/
  drainNext : List Nat
  /-- Cages whose module a navigator has seen in its Ready state since its insertion and the latest mode write (R253). -/
  ready : List Nat
  /-- The GEN of the settings slot that navigator firmware started from (R253, R418); none: every share is 1. -/
  settings : Option Nat
  deriving DecidableEq, Repr

def Wan.reset : Wan :=
  { deps := [], tx := [], busy := [], fifo := [], am := [], fecLoss := [], faults := [], rf := [], dirty := [],
    good := [], bad := [], gone := [], ts := [],
    bus := [], esnr := [], since := [], sess := [], nextSess := 1, drainNext := [], ready := [], settings := none }

end Sys2Proof.Machine
end

