-- ==== Sys2Proof/Syntax.lean ====
section
/-! DEFINITION. The commands that the block takes: one constructor for each row of the spec's opcode table. The operands are what the
host, a neighbour, a pin, a device outside or the environment supplies with the command; everything else is the block's own state. -/

namespace Sys2Proof

open Machine

/-- A command. -/
inductive Instr where
  /-- COLD_RESET (R352): The first release of SYS_RESET_N after VDD_AON comes up starts the cold start sequence of Table 15.5.
  `cold`: the straps as sampled, the fuses, the first junction readings and the regulators' answers. -/
  | coldReset (cold : ColdIn)
  /-- SERDES_CALIBRATION_DONE (R352): Step 2 of the cold start completes, and the root begins tick 0 while a member starts its
  provisional time base. -/
  | serdesCalibrationDone
  /-- BOOT_IMAGE_LOADED (R352): Step 3 of the cold start completes with an image checked and loaded, or fails over to the other bank
  or halts with BOOT_ERR. -/
  | bootImageLoaded
  /-- WARM_RESET (R355): Assertion of SYS_RESET_N after a cold reset resets the core dies and reruns boot, stack free-list rebuild
  and ready. -/
  | warmReset
  /-- GLB_WARM_RESET_CMD (R355): A write of GLB_RST_CTRL.WARM with KEY 0xA5C3 starts a warm reset. The fields of GLB_RST_CTRL as
  written. -/
  | glbWarmResetCmd (warm : Bool) (key : Nat)
  /-- BROWN_OUT (R302): A core rail crossing the reset level resets its die, logs a FATAL fault and releases the helm. `die` 0
  Atkor, 1 Trelier. -/
  | brownOut (die : Nat)
  /-- BROWN_OUT_RECOVERY (R356): Once both core rails are above the warning level, the device performs the warm reset, retraining
  stacks after a Trelier brown-out. -/
  | brownOutRecovery
  /-- RAIL_LOSS (R445): A supervised SerDes or HBM rail more than 10 % low for 1 µs causes a brown-out of the die it feeds and
  records the rail. `rail` as GLB_PWR_STATUS.RAIL codes it. -/
  | railLoss (rail : Nat)
  /-- STANDBY_SUPPLY_LOSS (R444): VDD_AON or VDD_IO falling below 90 % ends the standby supply, and the next rise of both is a cold
  reset. -/
  | standbySupplyLoss
  /-- REFCLK_LOSS (R447): REFCLK_CORE is declared lost, a FATAL fault is logged, and both core dies are held in warm reset. -/
  | refclkLoss
  /-- REFCLK_RETURN (R447): After REFCLK_CORE has been within ±50 ppm for 10 ms, the device performs a warm reset. -/
  | refclkReturn
  /-- JUNCTION_TEMP_READ (R448): Every 256 ticks the junction sensors are read and warning, over-temperature or trip thresholds are
  acted on. The dies' highest readings in °C; codes span 8 bits. -/
  | junctionTempRead (tjA tjT : Int)
  /-- AVS_ADJUST (R442): Every 2^22 ticks the AVS target is recomputed and the setpoint moves at most one 5 mV step, with retry and
  error on no acknowledge. Whether each regulator acknowledges, at last, and the lowest and highest sensor readings of each die in
  µV. -/
  | avsAdjust (ackA ackT : Bool) (readA readT : Nat × Nat)
  /-- BLOCK_RESET (R358): At the first tick boundary after revocation, the fault collector restarts one block as Table 15.9 lays
  down. The source whose block restarts. -/
  | blockReset (src : Nat)
  /-- TICK_START (R8): Tick N begins when the sextant's tick time reaches N × 384 ns, and the tick's boundary actions run. The
  core-clock cycles of the tick that ends, gated ones included, and of each port with RS-FEC codewords in it how many were corrected
  and how many uncorrectable. -/
  | tickStart (cycles : Nat) (fec : List (Nat × Nat × Nat))
  /-- SLOT_CYCLE (R91): An enabled core-clock edge issues the next itinerary slot and advances every pipeline by one position. Words
  that soft errors strike in the cycle, and pipelines whose self-test fails, as bits of `fails`. -/
  | slotCycle (errs : List EccErr) (fails : Nat)
  /-- SLACK_CYCLE (R10): A cycle after slot 503 carries scrubbing, shadow checks, audit marking and sweeping, and calibration steps.
  Words struck, and the words the scrubbers reach. -/
  | slackCycle (errs : List EccErr) (words : List (Nat × Store × Nat))
  /-- FRAME_RECEIVE (R250): A WAN frame is received, runts and over-long frames are discarded and counted, and the head-complete
  time h is taken. The port, the head-complete time in 0.25 ns, whether the FCS fails, and the frame with its FCS. -/
  | frameReceive (port h : Nat) (fcsBad : Bool) (bytes : List Byte)
  /-- CYC_MIN_RST (R32): Writing TCK_CTRL.CYC_MIN_RST sets TCK_CYC.MIN to 0x3FF. -/
  | cycMinRst
  /-- DIGEST_LATCH_READ (R32): A read of TCK_DIG_TICK_LO latches the other five digest registers until TCK_DIG_OUT_HI is read. The
  read is of TCK_DIG_TICK_LO, or with `last` of TCK_DIG_OUT_HI. -/
  | digestLatchRead (last : Bool)
  /-- LOOKUP_RESULT (R56): A lookup result lands in its RDST words at the end of stage k+L−1. -/
  | lookupResult
  /-- END_OF_PASS (R92): At the end of a pass the device carries out the disposition the pass chose, per Table 3.10. -/
  | endOfPass
  /-- CHART_LOAD_GO (R74): A CHT_LD_CMD GO command starts a checked write of CHT_LD_DATA to the shadow bank target. Whether the
  write also sets RD. -/
  | chartLoadGo (rd : Bool)
  /-- CHART_LOAD_READ (R75): A CHT_LD_CMD RD command starts a read-back of a shadow bank entry into CHT_LD_DATA. -/
  | chartLoadRead
  /-- CHART_LOAD_COMPLETE (R72): A chart load command completes 1 to 48 cycles later, writing every replica or refusing with a code.
  -/
  | chartLoadComplete
  /-- PARSE_LOAD_GO (R118): A PRS_LD_CMD GO command starts a checked write of a state, transition or source entry to the shadow
  graph. Whether the write also sets RD. -/
  | parseLoadGo (rd : Bool)
  /-- PARSE_LOAD_READ (R118): A PRS_LD_CMD RD command starts a read-back of a shadow graph entry. -/
  | parseLoadRead
  /-- PARSE_LOAD_COMPLETE (R118): A parse graph load command completes, writing the entry or reporting a code from Table 4.8. -/
  | parseLoadComplete
  /-- SWAP_ARM (R97): A write of CHT_SWAP_CTRL.ARM checks the scan-free conditions and starts the scan of the shadow bank. SCOPE,
  and whether the write also sets DISARM. -/
  | swapArm (scope : Nat) (dis : Bool)
  /-- SWAP_ARM_CHECKED (R97): The arm scan completes within 8 ticks, setting ARMED or ARM_ERR, and a lead sends its swap command. -/
  | swapArmChecked
  /-- SWAP_DISARM (R102): A write of CHT_SWAP_CTRL.DISARM clears ARMED if it lands early enough, and is ignored otherwise. -/
  | swapDisarm
  /-- CHART_SWAP (R99): At target tick S the armed bank becomes active for new admissions, egress passes and the itinerary. -/
  | chartSwap
  /-- SEQ_ROLE_SWAP (R86): Every 65,536 ticks all twin sequencer pairs swap driver and shadow roles. -/
  | seqRoleSwap
  /-- SEQ_MISMATCH (R87): Twin sequencer decisions differ, the faulty twin is chosen and reset, and a CORRECTED or FATAL fault is
  raised. The pair, and whether sequencer A or B holds an uncorrectable word. -/
  | seqMismatch (pair : Nat) (ueA ueB : Bool)
  /-- SEQ_RESYNC_DONE (R87): A reloaded twin sequencer resumes lockstep 2 ticks after its reload and RESYNC clears. The pair. -/
  | seqResyncDone (pair : Nat)
  /-- ASX_WRITE (R129): An ASX WRITE operation is submitted to write one entry of a table. The holder that submits, TBL, ENTRY and
  the data registers as written. -/
  | asxWrite (holder tbl entry : Nat) (data : List (BitVec 32))
  /-- ASX_CLEAR (R132): An ASX CLEAR operation is submitted to free one entry of a table. As ASX_WRITE. -/
  | asxClear (holder tbl entry : Nat)
  /-- ASX_INSERT (R133): An ASX INSERT operation is submitted to place an entry in order, moving neighbours as needed. As ASX_WRITE.
  -/
  | asxInsert (holder tbl entry : Nat) (data : List (BitVec 32))
  /-- ASX_MASKP (R129): An ASX MASKP operation is submitted to write one global mask profile. As ASX_WRITE. -/
  | asxMaskp (holder tbl entry : Nat) (data : List (BitVec 32))
  /-- ASX_READ (R129): An ASX READ operation is submitted to copy an entry from copy 0's shadow into the data registers. As
  ASX_WRITE. -/
  | asxRead (holder tbl entry : Nat)
  /-- ASX_OP_START (R130): An ASX operation reaches the queue head and is checked against the table and started. -/
  | asxOpStart
  /-- ASX_FAILOVER (R141): At the first boundary after a quarantine, the copy fails over to the table's spare. The bank. -/
  | asxFailover (bank : Nat)
  /-- ASX_BANK_RETURN (R142): A write of ASX_BANKn.RETURN starts reloading the quarantined bank from its shadow, or is refused. The
  bank. -/
  | asxBankReturn (bank : Nat)
  /-- ASX_RETURN_COMPLETE (R142): When every row reads back correctly, the quarantine clears at the next boundary and the spare is
  freed. The bank, and whether every row reads back correctly. -/
  | asxReturnComplete (bank : Nat) (readOk : Bool)
  /-- LPM_ADD (R151): An LPM_ADD operation is submitted to add or replace a prefix. The holder that submits, TBL, INDEX and the data
  registers as written. -/
  | lpmAdd (holder tbl index : Nat) (data : List (BitVec 32))
  /-- LPM_DEL (R151): An LPM_DEL operation is submitted to remove a prefix. As LPM_ADD. -/
  | lpmDel (holder tbl index : Nat) (data : List (BitVec 32))
  /-- EX_INSERT (R156): An EX_INSERT operation is submitted to insert a key with cuckoo displacement. As LPM_ADD. -/
  | exInsert (holder tbl index : Nat) (data : List (BitVec 32))
  /-- EX_UPDATE (R149): An EX_UPDATE operation is submitted to replace the data of a present key. As LPM_ADD. -/
  | exUpdate (holder tbl index : Nat) (data : List (BitVec 32))
  /-- EX_DELETE (R155): An EX_DELETE operation is submitted to clear every slot holding the key. As LPM_ADD. -/
  | exDelete (holder tbl index : Nat) (data : List (BitVec 32))
  /-- EX_SLOTCLR (R154): An EX_SLOTCLR operation is submitted to clear one EXACT slot. As LPM_ADD. -/
  | exSlotclr (holder tbl index : Nat)
  /-- DIR_WRITE (R149): A DIR_WRITE operation is submitted to write one direct table entry. As LPM_ADD. -/
  | dirWrite (holder tbl index : Nat) (data : List (BitVec 32))
  /-- MEMBER_WRITE (R158): A MEMBER_WRITE operation is submitted to write one ECMP pool member. As LPM_ADD. -/
  | memberWrite (holder tbl index : Nat) (data : List (BitVec 32))
  /-- CTX_WRITE (R161): A CTX_WRITE operation is submitted to write a flow context. As LPM_ADD. -/
  | ctxWrite (holder tbl index : Nat) (data : List (BitVec 32))
  /-- CTX_READ (R165): A CTX_READ operation is submitted to return a flow context's 64 bytes. As LPM_ADD. -/
  | ctxRead (holder tbl index : Nat)
  /-- CTX_READ_CLR (R165): A CTX_READ_CLR operation is submitted to return a context and zero its counters. As LPM_ADD. -/
  | ctxReadClr (holder tbl index : Nat)
  /-- T2_DIR_WRITE (R167): A T2_DIR_WRITE operation is submitted to write a tier-2 directory entry. As LPM_ADD. -/
  | t2DirWrite (holder tbl index : Nat) (data : List (BitVec 32))
  /-- T2_WRITE (R169): A T2_WRITE operation is submitted to write a tier-2 node entry through the write buffer. As LPM_ADD. -/
  | t2Write (holder tbl index : Nat) (data : List (BitVec 32))
  /-- LKU_OP_START (R149): An LKU operation reaches the queue head, is checked against the descriptors and starts its steps. -/
  | lkuOpStart
  /-- T2_READ_COMPLETE (R167): A tier-2 CXL read returns and the walk continues, ends, or the late data is discarded. The walk whose
  read returns or the late read, the eight bytes, poison, an error, and the latency. -/
  | t2ReadComplete (who : T2Rd) (data : BitVec 64) (poison err : Bool) (ns : Nat)
  /-- T2_DEADLINE (R168): At tick T+6 the lay-by writes each result, or a DEADLINE miss, over the parked RDST words. -/
  | t2Deadline
  /-- T2_BUF_WRITE_ISSUE (R169): A buffered T2_WRITE issues its CXL write once every earlier request has completed or passed its
  deadline. -/
  | t2BufWriteIssue
  /-- T2_BUF_WRITE_COMPLETE (R169): A buffered CXL write completes and frees its write-buffer entry. Which of the issued entries,
  oldest first, and whether the write ends in an error. -/
  | t2BufWriteComplete (entry : Nat) (err : Bool)
  /-- CARRIAGE_PLACE (R175): A write port places a carriage in the first held bank whose free list is not empty. The write port. -/
  | carriagePlace (port : Nat)
  /-- CARRIAGE_READ_RETURN (R176): A carriage read returns its 256 bytes 128 slot cycles after issue. The read port. -/
  | carriageReadReturn (port : Nat)
  /-- FREE_LIST_REJOIN (R185): Released carriages rejoin their banks' free lists within 256 slot cycles. -/
  | freeListRejoin
  /-- DPT_AUDIT_START_CMD (R193): A write of DPT_AUD_CTRL.START requests an audit at the next boundary at which none runs. -/
  | dptAuditStartCmd
  /-- AUDIT_START (R193): An audit starts at a tick boundary and flips the marking colour. -/
  | auditStart
  /-- AUDIT_APPLY (R193): At the first boundary after the sweep, orphans are reclaimed and the tick may take FAULT. -/
  | auditApply
  /-- QUE_CFG_WRITE (R204): A QUE WRITE operation is submitted to set an entity descriptor at a tick boundary. The holder that
  submits, TYPE, INDEX, AT, QUE_CFG_TICK and the data registers as written. -/
  | queCfgWrite (holder type index : Nat) (timed : Bool) (tick : Nat) (data : List (BitVec 32))
  /-- QUE_CFG_READ (R222): A QUE READ operation is submitted to return a descriptor or queue state at a boundary. As QUE_CFG_WRITE.
  -/
  | queCfgRead (holder type index : Nat) (timed : Bool) (tick : Nat)
  /-- QUE_CFG_READ_CLR (R222): A QUE READ_CLR operation is submitted to return queue state and zero its high-water mark and counts.
  As QUE_CFG_WRITE. -/
  | queCfgReadClr (holder type index : Nat) (timed : Bool) (tick : Nat)
  /-- HBM_COMMAND_ISSUE (R239): A pseudo-channel issues its next ready read or write under the open-row, age and drain rules. The
  stack and the pseudo-channel. -/
  | hbmCommandIssue (stack pc : Nat)
  /-- HBM_READ_COMPLETE (R238): An HBM read completes, with uncorrectable words setting TERR or dropping the packet with 0x33. The
  stack and the pseudo-channel. -/
  | hbmReadComplete (stack pc : Nat)
  /-- HBM_REFRESH (R241): A per-bank refresh comes due, is postponed or issued, splitting a burst at full credit. The stack and the
  pseudo-channel. -/
  | hbmRefresh (stack pc : Nat)
  /-- STACK_SR_ENTRY_DONE (R242): After 2 ticks in ENTERING, the stack goes to ASLEEP or EXITING. The stack. -/
  | stackSrEntryDone (stack : Nat)
  /-- STACK_SR_EXIT_DONE (R242): After 1 tick in EXITING, the stack becomes AWAKE. The stack. -/
  | stackSrExitDone (stack : Nat)
  /-- STACK_TEMP_READ (R243): Every 256 ticks a stack temperature is read and refresh doubling and thermal closure are set or
  cleared. The stack and its reading in °C. -/
  | stackTempRead (stack : Nat) (temp : Int)
  /-- STACK_TRAINING_DONE (R244): Stack training completes, building its free lists, or the stack enters FAILED. The stack, and
  whether it trained. -/
  | stackTrainingDone (stack : Nat) (ok : Bool)
  /-- HBM_CALIBRATION (R245): A periodic calibration step runs on a pseudo-channel every YRD_CAL.PERIOD ticks. The stack and the
  pseudo-channel. -/
  | hbmCalibration (stack pc : Nat)
  /-- WAN_DEPARTURE (R251): A departure enters the port's transmit FIFO and starts on the wire at d + C_tx or later. The egress
  pipeline. -/
  | wanDeparture (pipe : Nat)
  /-- TS_FIFO_POP (R254): A read of WAN_TS_ENT3 pops the head record of the two-step FIFO. -/
  | tsFifoPop
  /-- CM_READ (R260): A WAN_CM_CMD RD command queues a host read transaction on a cage's management bus. WAN_CM_ADDR and BANK as
  written; `len` is LEN + 1 bytes. -/
  | cmRead (cage page offset len bank : Nat)
  /-- CM_WRITE (R260): A WAN_CM_CMD WR command queues a host write transaction, refused for page 10h under margin steering. As
  CM_READ, with the data registers' bytes. -/
  | cmWrite (cage page offset len bank : Nat) (data : List Byte)
  /-- MGMT_BUS_TRANSACTION_DONE (R258): A two-wire transaction ends and the next one on that controller may start. The controller,
  the code of Table 10.9 and the bytes read. -/
  | mgmtBusTransactionDone (ctrl code : Nat) (data : List Byte)
  /-- MARGIN_POLL (R261): Every 2^POLL_LOG2 ticks firmware reads a module's eSNR and updates the filtered mean. The port, the eSNR
  reading if one was obtained, and whether the module changes its ceiling without a retune. -/
  | marginPoll (port : Nat) (reading : Option Int) (immediate : Bool)
  /-- WAN_BLOCK_LOCK (R256): A WAN lane gains block lock, or a port gains alignment-marker or RS-FEC lock, which starts the
  up-debounce of its link state. `kind` 0 block lock of lane `n`, 1 alignment-marker lock and 2 RS-FEC lock of port `n`. -/
  | wanBlockLock (kind n : Nat)
  /-- WAN_BLOCK_LOCK_LOSS (R256): A WAN lane loses block lock, or its port loses alignment-marker or RS-FEC lock, for instance after
  an SX_REFCLK loss, which breaks the up-debounce and starts the down-debounce. As WAN_BLOCK_LOCK. -/
  | wanBlockLockLoss (kind n : Nat)
  /-- LOCAL_OR_REMOTE_FAULT_RECEIVED (R250): Local or remote fault ordered sets begin or cease to be received on a WAN port, which
  bars or allows the link-up condition of R256. The port, whether the fault is remote, and whether the ordered sets begin or cease.
  -/
  | localOrRemoteFaultReceived (port : Nat) (remote present : Bool)
  /-- BEARING_PROPOSE (R270): A PROPOSE bearing message is received and accepted, aborted or resolved by SYSID. The port, the
  message, whether this end's module can do what it asks, and how many ticks ahead Td is placed. -/
  | bearingPropose (port : Nat) (m : BrgMsg) (capable : Bool) (gap : Nat)
  /-- BEARING_ACCEPT (R267): An ACCEPT bearing message is received by the proposer. The port and the message. -/
  | bearingAccept (port : Nat) (m : BrgMsg)
  /-- BEARING_DRAIN (R268): A DRAIN bearing message is received, and in a retune the proposer drains and echoes it. The port and the
  message. -/
  | bearingDrain (port : Nat) (m : BrgMsg)
  /-- BEARING_SWITCH (R267): A SWITCH bearing message is received and the proposer starts its clean-receive wait or schedules its
  apply. The port and the message. -/
  | bearingSwitch (port : Nat) (m : BrgMsg)
  /-- BEARING_CONFIRM (R267): A CONFIRM bearing message is received and the leader sets the new ceiling at admission + 3. The port
  and the message. -/
  | bearingConfirm (port : Nat) (m : BrgMsg)
  /-- BEARING_RESTORE (R267): A RESTORE bearing message is received and the proposer takes the new entry. The port and the message.
  -/
  | bearingRestore (port : Nat) (m : BrgMsg)
  /-- BEARING_ABORT (R269): An ABORT bearing message is received and the session ends with reversion. The port and the message. -/
  | bearingAbort (port : Nat) (m : BrgMsg)
  /-- BEARING_RESEND (R269): An end waiting RTO ticks resends its last message, or aborts with 0x06 when retries are spent. The
  port. -/
  | bearingResend (port : Nat)
  /-- ADAPTIVE_DRAIN (R267): At Td the leader's ceilings fall to min(old, new) and DRAIN is sent. The port. -/
  | adaptiveDrain (port : Nat)
  /-- ADAPTIVE_SWITCH (R267): At Ts the leader starts the ApplyImmediate write and sends SWITCH. The port. -/
  | adaptiveSwitch (port : Nat)
  /-- CEILING_RESTORE (R267): Three ticks after admitting CONFIRM or RESTORE, the new ceiling takes effect and MASKED clears. The
  port. -/
  | ceilingRestore (port : Nat)
  /-- CLEAN_RECEIVE (R267): The receive side has been clean for CONFIRM ticks and CONFIRM is sent. The port. -/
  | cleanReceive (port : Nat)
  /-- RETUNE_FIFO_DRAINED (R268): The leader's transmit FIFO empties and it injects SWITCH with its apply delay. The port. -/
  | retuneFifoDrained (port : Nat)
  /-- RETUNE_APPLY (R268): At its apply tick an end applies ApplyDPInit for the staged application. The port. -/
  | retuneApply (port : Nat)
  /-- RETUNE_TIMEOUT (R269): A retune whose link is not up within MAX ticks reverts to the old application. The port. -/
  | retuneTimeout (port : Nat)
  /-- FABRIC_DEPARTURE (R277): A fabric departure enters the group's transmit FIFO as cells spread over the transmit set. The egress
  pipeline. -/
  | fabricDeparture (pipe : Nat)
  /-- FABRIC_CODEWORD_RECEIVE (R273): A fabric codeword is decoded, and an uncorrectable one discards every overlapping cell. The
  lane, whether FEC can correct the codeword, its header, its 640 bytes and its arrival in 0.25 ns of tick time. -/
  | fabricCodewordReceive (lane : Nat) (good : Bool) (hdr : Nat) (stream : List Byte) (arrival : Nat)
  /-- FABRIC_DATA_CELL (R280): A DATA cell is checked and gathered into its packet's reassembly carriages. The cell's bytes. -/
  | fabricDataCell (bytes : List Byte)
  /-- FABRIC_XOFF (R278): An XOFF cell clears the grant bit of its device at the next boundary. The device the cell names. -/
  | fabricXoff (ddev : Nat)
  /-- FABRIC_XON (R278): An XON cell sets the grant bit of its device at the next boundary. The device the cell names. -/
  | fabricXon (ddev : Nat)
  /-- FABRIC_UNREACH (R278): An UNREACH cell clears the reach bit of its device at the next boundary. The device the cell names. -/
  | fabricUnreach (ddev : Nat)
  /-- FABRIC_REACH (R278): A REACH cell sets the reach bit of its device at the next boundary. The device the cell names. -/
  | fabricReach (ddev : Nat)
  /-- FABRIC_PROBE (R284): A PROBE cell gives a propagation measurement for its lane. The lane, the arrival in 0.25 ns of tick time,
  and ARG. -/
  | fabricProbe (lane arrival arg : Nat)
  /-- FABRIC_LSTAT (R283): An LSTAT cell reports the far receiver's state of a lane. The lane and GOOD. -/
  | fabricLstat (lane : Nat) (good : Bool)
  /-- FABRIC_ENABLE (R284): FAB_CTRL.EN = 1 takes effect, refusing without lock, and starts probing or takes FAB_HOP.TICKS. -/
  | fabricEnable
  /-- FABRIC_PROBE_DONE (R284): After 256 ticks of probing, L is computed and the interface starts or sets HOP_ERR. -/
  | fabricProbeDone
  /-- FABRIC_DISABLE (R286): FAB_CTRL.EN = 0 stops cells, discards gathered cells, releases the pool and takes FABRIC nodes down. -/
  | fabricDisable
  /-- FABRIC_CODEWORD_LOCK (R273): A fabric lane receiver locks to codewords by FEC decode and sets FAB_LANEn.RXLOCK, which starts
  its transmit-set debounce. The lane. -/
  | fabricCodewordLock (lane : Nat)
  /-- FABRIC_CODEWORD_LOCK_LOSS (R283): A fabric lane receiver loses FEC lock, clearing RXLOCK, so the lane leaves its transmit set
  at the next boundary. The lane. -/
  | fabricCodewordLockLoss (lane : Nat)
  /-- ENERGY_WINDOW_LATCH (R294): Every 2^WIN_LOG2 ticks the measured and modelled energies of the window are latched. The energy
  that the regulators report for the window. -/
  | energyWindowLatch (meas : Nat)
  /-- SAG_WARNING (R298): A sensor crossing the warning level stretches the die's clock to 7/8. `die` 0 Atkor, 1 Trelier; the
  reading in µV. -/
  | sagWarning (die low : Nat)
  /-- SAG_DEEP (R298): A sensor crossing the deep level stretches the die's clock to 3/4. `die` 0 Atkor, 1 Trelier; the reading in
  µV. -/
  | sagDeep (die low : Nat)
  /-- SAG_RETURN (R299): After 256 clean cycles the clock returns one level toward full. `die` 0 Atkor, 1 Trelier; the lowest
  reading of the die's sensors in µV. -/
  | sagReturn (die low : Nat)
  /-- PUNT_HANDOFF (R311): A punt record is handed to the DMA engine in tick T+2 and its carriages copied into the punt buffer. -/
  | puntHandoff
  /-- PUNT_WRITE (R310): A queued punt record and frame are written to a posted buffer with descriptor and head write-back. The
  ring, and the fetched descriptor's address and control words. -/
  | puntWrite (ring addr ctl : Nat)
  /-- PUNT_WAIT_EXPIRE (R311): A record outwaiting PUNT_WAIT is dropped and counted. The ring. -/
  | puntWaitExpire (ring : Nat)
  /-- PUNT_DOORBELL (R309): A TAIL write to a punt ring doorbell posts buffers, or puts the ring in ERROR when out of range. The
  ring and TAIL. -/
  | puntDoorbell (ring tail : Nat)
  /-- INJECT_DOORBELL (R313): A TAIL write to an inject ring doorbell posts descriptors for fetching. The ring and TAIL. -/
  | injectDoorbell (ring tail : Nat)
  /-- INJECT_DESCRIPTOR_FETCHED (R313): An inject or replay descriptor arrives and is checked, a bad one setting ERROR with 0x05.
  The read's tag and the 32 bytes. -/
  | injectDescriptorFetched (tag : Nat) (bytes : List Byte)
  /-- INJECT_FRAME_STAGED (R313): An inject frame's bytes have all arrived in the inject buffer. The read's tag and the frame. -/
  | injectFrameStaged (tag : Nat) (bytes : List Byte)
  /-- RING_ARM (R317): A write of CFG.ARM discards the ring's staged work and waits for its outstanding reads. The ring (64 and up:
  inject rings) and CFG as written, ARM taken as 1. -/
  | ringArm (ring value : Nat)
  /-- RING_ARM_COMPLETE (R317): With no read outstanding, HEAD, TAIL and PHASE reset and the ring enters RUN or DISABLED. The ring.
  -/
  | ringArmComplete (ring : Nat)
  /-- RING_DISABLE (R317): A write of CFG.EN = 0 disables the ring with the discards of an arm. The ring and CFG as written, EN and
  ARM taken as 0. -/
  | ringDisable (ring value : Nat)
  /-- BUS_MASTER_DISABLE (R318): Clearing PF1 Bus Master Enable stops requests and puts running rings in HALT_BME. -/
  | busMasterDisable
  /-- HOST_READ_COMPLETION (R319): A completion for a host read arrives, and errors or unknown tags put the ring in ERROR or are
  discarded. The tag and the completion's status, 0 successful. -/
  | hostReadCompletion (tag status : Nat)
  /-- COMPLETION_TIMEOUT (R319): A host read times out, putting its ring in ERROR and withholding its tag. The tag. -/
  | completionTimeout (tag : Nat)
  /-- WINDOW_READ (R321): A read TLP through a BAR2 window returns CXL data or Unsupported Request. The offset in BAR2 and the
  length. -/
  | windowRead (off len : Nat)
  /-- WINDOW_WRITE (R321): A write TLP through a BAR2 window is applied to CXL memory or discarded. The offset in BAR2 and the data.
  -/
  | windowWrite (off : Nat) (bytes : List Byte)
  /-- WINDOW_COMMIT (R321): A write of HST_WIN_COMMIT.COMMIT schedules the NEXT window copies for the next boundary. -/
  | windowCommit
  /-- FLR_PF0 (R322): A Function Level Reset of PF0 clears its configuration, MSI-X, interrupt maps and windows. -/
  | flrPf0
  /-- FLR_PF1 (R322): A Function Level Reset of PF1 disables every ring and clears its MSI-X table. -/
  | flrPf1
  /-- HOST_RESET (R323): A hot reset or PERST_N assertion applies both FLRs and retrains the link. A hot reset, or with `perst` an
  assertion of PERST_N. -/
  | hostReset (perst : Bool)
  /-- PCIE_LINK_LOSS (R323): DL_Down applies both FLRs, retrains, sets LINK_LOSS and logs a fault. -/
  | pcieLinkLoss
  /-- PCIE_CONFIGURATION_REQUEST (R353): A PCIe configuration request arrives, answered with Request Retry Status before boot
  completes and otherwise applied, including Bus Master Enable of PF0, D3hot entry and Device Control 2. The request. -/
  | pcieConfigurationRequest (q : CfgReq)
  /-- PERST_N_DEASSERTION (R353): PERST_N is deasserted and the endpoint starts link training once step 2 has calibrated its lanes.
  -/
  | perstNDeassertion
  /-- PCIE_LINK_TRAINED (R305): PCIe link training completes, setting HST_STATUS.LINK_UP, SPEED, WIDTH and FLIT. SPEED and WIDTH as
  HST_STATUS codes them, and flit mode. -/
  | pcieLinkTrained (speed width : Nat) (flit : Bool)
  /-- TAG_WITHHOLD_EXPIRE (R319): A read tag withheld after a completion timeout becomes usable again after twice the timeout value,
  and at least 1 s. The tag. -/
  | tagWithholdExpire (tag : Nat)
  /-- SUPERVISED_RAIL_RETURN (R445): A supervised SerDes or HBM rail that caused a brown-out returns within tolerance, ending the
  device's hold in warm reset. `rail` as GLB_PWR_STATUS.RAIL codes it. -/
  | supervisedRailReturn (rail : Nat)
  /-- SIDEBAND_FRAME (R324): Every 8 ticks a sideband frame shifts out cage outputs and captures inputs, ignoring frames with bad
  markers. The bytes shifted in, chain by chain. -/
  | sidebandFrame (inputs : List Nat)
  /-- SIDEBAND_INPUT_APPLY (R327): The inputs of a frame take effect at the boundary of tick 8k + 6. -/
  | sidebandInputApply
  /-- SLOT_CONTROL_WRITE (R326): A write to CGE_SLOTc_CTL changes cage outputs and sets CC once applied on the pins. The cage and
  the register as written. -/
  | slotControlWrite (cage value : Nat)
  /-- HOST_BAD_ACCESS (R3): A misaligned or non-32-bit register access completes with Unsupported Request and counts in
  HST_BAD_ACCESS. A read (0), a write (1) or an AtomicOp (2), its address in BAR0 and its length in bytes. -/
  | hostBadAccess (kind addr len : Nat)
  /-- UNMAPPED_ACCESS (R455): An access outside every block completes with Unsupported Request; a reserved offset reads 0. The
  function through whose BAR0 it comes, a write or a read, and its address there. -/
  | unmappedAccess (fn : Nat) (write : Bool) (addr : Nat)
  /-- REGISTER_WRITE (R4): A write to a register without a row of its own takes effect per its fields' access types. `fn` 0 and 1
  through BAR0 of PF0 and PF1, 2 and 3 by the navigator core of Atkor and of Trelier; the address and the word. -/
  | registerWrite (fn addr value : Nat)
  /-- CXL_RETRAIN (R331): A write of CXL_PORTn_CTL.RETRAIN with EN 1 starts training the port. The port and EN as written. -/
  | cxlRetrain (port : Nat) (en : Bool)
  /-- CXL_TRAINING_DONE (R331): The port's link comes up with CXL.mem and the port enters CONFIG. The port, whether CXL.mem was
  negotiated, whether Table 14.1 allows the device, and the link as CXL_PORTn_ST codes it. -/
  | cxlTrainingDone (port : Nat) (mem allowed flit : Bool) (speed width : Nat)
  /-- CXL_TRAINING_TIMEOUT (R331): Training not complete within 1 s returns the port to DOWN. The port. -/
  | cxlTrainingTimeout (port : Nat)
  /-- CXL_READY (R331): A write of CXL_PORTn_CTL.READY moves the port from CONFIG to UP. The port. -/
  | cxlReady (port : Nat)
  /-- CXL_READ_COMPLETE (R336): A CXL read completes, with poison or errors counted and passed to the reader. The port, the reader
  (0 a host window, 1 the staging engine), poison, an error, the latency and the data. -/
  | cxlReadComplete (port who : Nat) (poison err : Bool) (ns : Nat) (data : List Byte)
  /-- CXL_WRITE_COMPLETE (R336): A CXL write completes, an error being counted and logged. The port, and whether the write ends in
  an error. -/
  | cxlWriteComplete (port : Nat) (err : Bool)
  /-- CXL_READ_TIMEOUT (R337): A CXL read outstanding for CXL_TIMEOUT ticks times out and isolates the port. The port. -/
  | cxlReadTimeout (port : Nat)
  /-- CXL_LINK_DOWN (R338): DL_Down or a forbidden device is found on a CXL port. The port. -/
  | cxlLinkDown (port : Nat)
  /-- CONVOY_BLOCK_LOCK (R341): A convoy port acquires 64b/66b block lock, a root's CVU setting ROOT_ERR. `port` 0 CVU, 1 CVD0, 2
  CVD1. -/
  | convoyBlockLock (port : Nat)
  /-- CONVOY_BLOCK_LOCK_LOSS (R346): A convoy port loses block lock, clearing LOCKED when it is CVU. The port. -/
  | convoyBlockLockLoss (port : Nat)
  /-- CONVOY_PORT_RETRAIN (R345): A write of CVY_PORTn_CTL.RETRAIN reacquires block lock and remeasures the hop. The port. -/
  | convoyPortRetrain (port : Nat)
  /-- SYNC (R346): A SYNC message loads or slews the tick time and may set or clear LOCKED. The port, the tick time in the message,
  and the local arrival time, in 0.25 ns. -/
  | sync (port tdep tarr : Nat)
  /-- SYNC_SEND (R346): A locked device sends SYNC downstream at every sixteenth tick. The departure in tick time. -/
  | syncSend (tdep : Nat)
  /-- SYNC_TIMEOUT (R346): 64 ticks without a good SYNC clear LOCKED and start holdover. -/
  | syncTimeout
  /-- HOP_MEASURE (R345): Every 256 ticks the device sends DREQ to measure its CVU hop. The departure of DREQ. -/
  | hopMeasure (t1 : Nat)
  /-- DREQ (R345): A DREQ message on a downstream port is stamped and answered with DRESP. The port, T1 of the message, its arrival,
  and the answer's departure. -/
  | dreq (port t1 t2 t3 : Nat)
  /-- DRESP (R345): A DRESP message gives a hop measurement averaged into CVY_PORT0_HOP. The port, the three times of the message,
  and its arrival. -/
  | dresp (port t1 t2 t3 t4 : Nat)
  /-- SIZE (R348): A SIZE message gives a subtree's count, height and hop, or marks a late joiner. The port and the message's
  fields. -/
  | size (port count height hopmax : Nat) (late : Bool) (hop : Nat)
  /-- SIZE_WAIT_EXPIRE (R348): A downstream port with no SIZE within WAIT ticks counts as absent and the member sends its SIZE. The
  port. -/
  | sizeWaitExpire (port : Nat)
  /-- ASSIGN (R348): An ASSIGN message sets the member's address, K and generation and is passed down. The port and the message's
  fields. -/
  | assign (port src addr k gen : Nat)
  /-- KSET (R351): A KSET message sets the announce lead K in force. The port and the message's fields. -/
  | kset (port src seq k : Nat)
  /-- RECOUNT (R349): A RECOUNT message restarts the size phase of enumeration. The port and the message's fields. -/
  | recount (port src seq : Nat)
  /-- CONVOY_ENUM (R349): A write of CVY_CTRL.ENUM at the root broadcasts RECOUNT. -/
  | convoyEnum
  /-- ACTION (R350): An ACTION message is taken once if received by S − 3, holding a chart swap, firmware activation or navigator
  event. The port and the message's fields. -/
  | action (port src seq acode target arg : Nat)
  /-- NAV (R343): A NAV message is handed to navigator firmware. The port and the message. -/
  | nav (port dst src seq : Nat) (payload : List Byte)
  /-- CONVOY_BAD_MESSAGE (R342): A convoy message arrives with a failed CRC, cut short, led by a reserved control block type, or
  with a reserved MTYPE or a wrong LEN, and is discarded and counted. The port; `kind` 0 failed CRC, cut short or a reserved control
  block, 1 a reserved MTYPE or a wrong LEN, 2 an FWR message of LEN 1 or with a reserved OP (R420), whose fields follow. -/
  | convoyBadMessage (port kind dst src seq : Nat) (payload : List Byte)
  /-- HEALTH (R369): A HEALTH report from the partner is checked and used for comparison, reclaim and handover. The port and the
  message. -/
  | health (port dst src seq : Nat) (payload : List Byte)
  /-- HEALTH_REPORT_SEND (R369): At tick 256j + 264 the device sends its health report for block j. -/
  | healthReportSend
  /-- HEALTH_REPORT_MISS (R369): No partner report by 256j + 512 counts a miss, and MISS misses set PLOST. -/
  | healthReportMiss
  /-- HELM_IN_CHANGE (R364): The partner's HELM_IN and HELM_IN_N pattern changes, subject to the 20 ns glitch filter, fixing the
  instant from which the line reads Released, Asserted or Invalid. The pattern of HELM_IN and HELM_IN_N, and the instant it begins
  in tick time. -/
  | helmInChange (pat at_ : Nat)
  /-- HELM_RELEASE_CMD (R365): A write of HLM_CTRL.RELEASE releases the helm at the next boundary with cause 0x5. -/
  | helmReleaseCmd
  /-- HELM_KICK (R366): A write of HLM_KICK with KEY 0x5A1C restarts the helm watchdog. KEY as written. -/
  | helmKick (key : Nat)
  /-- HELM_WATCHDOG_EXPIRE (R366): The helm watchdog expires, releasing the helm and making the device ineligible. -/
  | helmWatchdogExpire
  /-- HELM_BACKOFF_END (R363): BACKOFF's hold time ends and the device returns to STANDBY. -/
  | helmBackoffEnd
  /-- RECLAIM_SET (R372): The wait-to-restore count reaches its limit and the preferred unit sets RECLAIM. -/
  | reclaimSet
  /-- PLANNED_HANDOVER (R372): At tick X the active non-preferred unit releases with cause 0x6. -/
  | plannedHandover
  /-- NAV_ROLE_SWAP (R373): Every 2^24 ticks each navigator pair swaps roles. -/
  | navRoleSwap
  /-- NAV_MISMATCH (R373): Twin navigator cores disagree and the faulty core is reloaded. The die, and which of its two cores holds
  an uncorrectable word. -/
  | navMismatch (die : Nat) (ueDriver ueShadow : Bool)
  /-- NAV_RESYNC_DONE (R373): A reloaded navigator core rejoins lockstep and RESYNC clears. The die. -/
  | navResyncDone (die : Nat)
  /-- FAULT_DETECT (R383): A detector reports, the collector writes a record, drives FAULT_N and applies the source's reaction. The
  detection, whether it alters an output of the tick, and what a lost die-to-die transfer carried. -/
  | faultDetect (src cls event detail : Nat) (alters : Bool) (lost : List D2dLoss)
  /-- FAULT_HALT (R386): From the next boundary every slot acts as IDLE, transmitters send idle and HALTED is set. -/
  | faultHalt
  /-- QUENCH_WINDOW_CLOSE (R389): A primary's quench window closes at tick N + TICKS + 1. -/
  | quenchWindowClose
  /-- FAULT_CLEAR_ONE (R385): FLT_CLEAR GO with ALL 0 sets CLEARED in the record named by FLT_CLEAR_SEQ. DIE as written;
  FLT_CLEAR_SEQ names the record. -/
  | faultClearOne (die : Nat)
  /-- FAULT_CLEAR_ALL (R385): FLT_CLEAR GO with ALL 1 clears every record of the named classes and may empty the FATAL store. DIE
  and CLASSES as written. -/
  | faultClearAll (die classes : Nat)
  /-- SOFTWARE_REVOKE (R391): A write of FLT_REVOKE with KEY 0xC3E1 revokes a grantable holder. HOLDER and KEY as written. -/
  | softwareRevoke (holder key : Nat)
  /-- HOLDER_REGRANT (R391): A software-revoked holder is granted again at the first boundary with no audit running. -/
  | holderRegrant
  /-- REACTION_WRITE (R387): A write of FLT_REACTn is applied only if each code is allowed for its source and class. The source and
  FLT_REACTn as written. -/
  | reactionWrite (src value : Nat)
  /-- FAULT_INJECT_RECORD (R394): FLT_INJ TYPE 0 writes an injected record and applies its reaction. The fields of FLT_INJ as
  written. -/
  | faultInjectRecord (src cls event : Nat)
  /-- FAULT_INJECT_SINGLE_BIT (R394): FLT_INJ TYPE 1 flips one check bit of the next word the source's store writes. The fields of
  FLT_INJ as written. -/
  | faultInjectSingleBit (src cls event : Nat)
  /-- FAULT_INJECT_DOUBLE_BIT (R394): FLT_INJ TYPE 2 flips two data bits of the next word the source's store writes. The fields of
  FLT_INJ as written. -/
  | faultInjectDoubleBit (src cls event : Nat)
  /-- TEST_TOKEN_CHECK (R392): A write of FLT_TEST_CMD.GO starts checking a factory test token. -/
  | testTokenCheck
  /-- TEST_TOKEN_CHECK_DONE (R393): The token check completes, entering factory test mode or refusing with a code. -/
  | testTokenCheckDone
  /-- SWEEP_START (R403): A write of SND_SWEEP.START requests a sweep at the next FULL boundary. -/
  | sweepStart
  /-- SWEEP_PERIODIC (R403): A periodic sweep comes due every 2^PLOG2 ticks and runs or is skipped. -/
  | sweepPeriodic
  /-- SWEEP_DONE (R406): A sweep finishes its readings and its COUNTERS record joins the ring or is dropped. -/
  | sweepDone
  /-- USER_PAGE_READ (R407): A read of a BAR2 user page returns consistent values, or zeros counted when closed. The offset in BAR2
  and the length. -/
  | userPageRead (off len : Nat)
  /-- USER_PAGE_WRITE (R407): A write to a user page is discarded, counted and reported as Unsupported Request. -/
  | userPageWrite
  /-- PHASE_ADJUST (R409): A write of SXT_PHASE adds to the pending phase correction slewed out at the root. ADJ as written. -/
  | phaseAdjust (adj : Nat)
  /-- OFFSET_COMMIT (R410): A write of SXT_OFS_COMMIT.GO applies the staged time-of-day offset at the next boundary. -/
  | offsetCommit
  /-- PPS_IN_EDGE (R411): A PPS_IN edge is captured in tick time. The edge and its tick time in 0.25 ns. -/
  | ppsInEdge (falling : Bool) (time : Nat)
  /-- CLK10M_EDGE (R411): A CLK10M_IN rising edge updates its measured phase. The edge's tick time in 0.25 ns. -/
  | clk10mEdge (time : Nat)
  /-- PPS_OUT_RISE (R411): PPS_OUT rises as time of day reaches a whole second. -/
  | ppsOutRise
  /-- PPS_OUT_FALL (R411): PPS_OUT falls WIDTH ticks after it rose. -/
  | ppsOutFall
  /-- FW_GO_HDR (R419): A write of FWU_CTRL.GO_HDR starts staging an image from the window or CXL. SRC as written. -/
  | fwGoHdr (src : Nat)
  /-- FW_HEADER_CHECK_DONE (R416): The image header checks complete, starting staging or refusing with a code. -/
  | fwHeaderCheckDone
  /-- FW_DATA_BLOCK (R419): A write of FWU_DATA_CMD.GO hands a 4 KiB payload block to the engine. BLOCK as written. -/
  | fwDataBlock (block : Nat)
  /-- FW_STAGING_DONE (R419): The payload is programmed, verified and the header written last, entering STAGED. Whether the flash
  reads back what was programmed. -/
  | fwStagingDone (flashOk : Bool)
  /-- FW_LOAD (R425): A write of FWU_CTRL.LOAD splits each navigator pair and loads the non-driving core. -/
  | fwLoad
  /-- FW_LOAD_DONE (R425): The loading cores hold the checked new image and the engine enters LOADED. Whether a loading core reports
  an error. -/
  | fwLoadDone (err : Bool)
  /-- FW_ACTIVATE (R426): A write of FWU_CTRL.ACTIVATE names tick X for the switch. -/
  | fwActivate
  /-- FW_ABORT (R425): A write of FWU_CTRL.ABORT ends staging or a load with code 0x12. -/
  | fwAbort
  /-- FW_REVERT (R431): A write of FWU_CTRL.REVERT in TRIAL reloads and activates the old image, or is refused. -/
  | fwRevert
  /-- FW_SEND (R422): A write of FWU_CTRL.SEND offers a bank's image to a convoy neighbour. FWU_RELAY.DST and SBANK as written. -/
  | fwSend (dst sbank : Nat)
  /-- FW_HANDOVER_START (R426): At X − HOLEAD the engine enters HANDOVER and sets HO_REQ. -/
  | fwHandoverStart
  /-- FW_HANDOVER_READY (R426): Firmware sets FWU_HO.READY and its die's writes and messages are refused. The die and its handover
  record. -/
  | fwHandoverReady (die : Nat) (record : List Byte)
  /-- FW_SWITCH (R427): At tick X the loaded cores start if both dies are ready, or the activation fails with 0x11. -/
  | fwSwitch
  /-- FW_RESYNC_DONE (R427): The old cores are reloaded from the new, lockstep rejoins and the engine enters TRIAL. -/
  | fwResyncDone
  /-- FW_CONFIRM (R430): A write of FWU_CONFIRM with KEY in TRIAL starts confirmation. KEY as written, and whether the fuses blow.
  -/
  | fwConfirm (key : Nat) (blowOk : Bool)
  /-- FW_CONFIRM_DONE (R430): The secondary bank is copied to the primary, the held slot released and the engine idle. -/
  | fwConfirmDone
  /-- FLASH_READ (R418): FWU_FL_CMD OP 0x1 reads 256 bytes of flash into FWU_DATA. FWU_FL_ADDR as written. -/
  | flashRead (addr : Nat)
  /-- FLASH_PROGRAM (R418): FWU_FL_CMD OP 0x2 programs 256 bytes, refused in banks, held slots or while busy. FWU_FL_ADDR as
  written. -/
  | flashProgram (addr : Nat)
  /-- FLASH_ERASE (R418): FWU_FL_CMD OP 0x3 erases 64 KiB, refused in banks, held slots or while busy. FWU_FL_ADDR as written. -/
  | flashErase (addr : Nat)
  /-- FLASH_CMD_DONE (R418): A flash command completes and reports its code. Whether the flash reports success. -/
  | flashCmdDone (ok : Bool)
  /-- FWR_VERSION (R423): A VERSION relay message from a neighbour is recorded and checked for compatibility. The message. -/
  | fwrVersion (m : FwrMsg)
  /-- FWR_OFFER (R421): An OFFER relay message carries header bytes from a neighbour, or is refused from a non-neighbour. The
  message. -/
  | fwrOffer (m : FwrMsg)
  /-- FWR_ACCEPT (R421): An ACCEPT relay message lets the sender start sending DATA. The message. -/
  | fwrAccept (m : FwrMsg)
  /-- FWR_REFUSE (R421): A REFUSE relay message ends the sender's transfer with its code. The message. -/
  | fwrRefuse (m : FwrMsg)
  /-- FWR_DATA (R421): A DATA relay message carries a payload chunk taken in offset order. The message. -/
  | fwrData (m : FwrMsg)
  /-- FWR_ACK (R421): An ACK relay message advances the sender's window. The message. -/
  | fwrAck (m : FwrMsg)
  /-- FWR_DONE (R421): A DONE relay message reports the receiver staged or failed. The message. -/
  | fwrDone (m : FwrMsg)
  /-- FWR_ABORT (R421): An ABORT relay message ends the transfer. The message. -/
  | fwrAbort (m : FwrMsg)
  /-- FWR_REQUEST (R422): A REQUEST relay message is served by offering the primary bank's image. The message. -/
  | fwrRequest (m : FwrMsg)
  /-- FW_RELAY_RESEND (R421): No ACK progress for RTO ticks resends from the last ACK, or aborts with 0x15. -/
  | fwRelayResend
  /-- FW_RELAY_RX_TIMEOUT (R421): A receiver idle for (RETRY + 1) × RTO ticks aborts the transfer. -/
  | fwRelayRxTimeout
  deriving DecidableEq, Repr

end Sys2Proof
end

