-- ==== Sys2Proof/Config.lean ====
section
/-! DEFINITION. The free values: what the spec leaves open, as constants without a body, so that no proof can see a value.
A constant that takes a draw number gives a fresh value each time: the step reads `Dev.free` and advances it. -/

namespace Sys2Proof.Config

/-- Steps an LPM_ADD or LPM_DEL compiles into (R151: 1 to 24), by draw; read modulo 24, plus 1. -/
opaque lpmSteps : Nat → Nat

/-- Whether an LPM search of a table and key visits a trie node (R151, R171): the trie's node numbering is not given. -/
opaque lpmVisits : (node tbl klen key : Nat) → Bool

/-- The nonce a cold reset draws (R392), by draw. -/
opaque nonce : Nat → BitVec 64

/-- The setpoint, in mV, of the unit's voltage table in fuses (R442), by die (0 Atkor, 1 Trelier) and junction reading. -/
opaque voltTable : (die tj : Nat) → Nat

/-- The unit identity in fuses (R392, R415), 128 bits. -/
opaque unitId : BitVec 128

/-- Whether a signature of a message verifies under a public key (R392, R414), by kind: 0 Ed25519, 1 ML-DSA-65. -/
opaque verifies : (kind : Nat) → (key msg sig : List Byte) → Bool

/-- Fuse key slot `k`: SHA-512 of the two public keys it admits (R415). -/
opaque keySlot : Nat → BitVec 512

/-- The factory test keys in fuses (R392), by kind. -/
opaque testKey : (kind : Nat) → List Byte

/-- SHA-512 of a byte string, 64 bytes (R392, R413). -/
opaque sha512 : List Byte → BitVec 512

/-- The map of a pseudo-channel's wagons onto its banks (R224), the banks of a pseudo-channel of a stack, and the per-bank refresh time that
a stack reports, in ns (R241). -/
opaque hbmBank : (stack wagon : Nat) → Nat
opaque hbmBanks : (stack : Nat) → Nat
opaque hbmTrfc : (stack : Nat) → Nat

/-- The share that navigator settings assign to an L0 node (R253), by the GEN of the settings slot: firmware owns the slot's layout. -/
opaque nodeShare : (gen node : Nat) → Nat

/-- A value the spec leaves undefined, by what it is and by draw. -/
opaque undef : (what draw : Nat) → Nat

end Sys2Proof.Config
end

