-- ==== Sys2Proof/Machine/Regs.lean ====
section
/-! DEFINITION. The register map of chapter 21 (R454 to R456, Table 21.2) and the fields that the chapters
give each register: one name per field, spelt as the spec spells it, with the address of its register, its lowest bit
and its width. A register that the spec numbers (`WAN_PORTn_CFG`) is a function of its index; `_` + the letter is dropped.
`regRows` is Table 21.2: for every register, where its instances lie, which bits take which access type (Table 0.5), and its
value after a cold reset. -/

namespace Sys2Proof.Machine

/-- A field of a register: the byte address of the register in BAR0, the lowest bit, the width in bits. -/
structure Field where
  addr : Nat
  low : Nat
  width : Nat
  deriving DecidableEq, Repr

/-- One row of Table 21.2: `count` instances `stride` bytes apart from `base`, each of `inner` consecutive registers;
the bits of each access type (bits in no mask are read only or reserved); the value after a cold reset (R456). -/
structure RegRow where
  base : Nat
  stride : Nat
  count : Nat
  inner : Nat
  rw : Nat
  w1c : Nat
  wo : Nat
  rwt : Nat
  rws : Nat
  ro : Nat
  reset : Nat
  deriving DecidableEq, Repr

/-! ### GLB -/
@[reducible] def GLB_ID.addr : Nat := 0x00000000
@[reducible] def GLB_ID.STEPPING : Field := ⟨0x00000000, 0, 8⟩
@[reducible] def GLB_ID.PART : Field := ⟨0x00000000, 16, 16⟩
@[reducible] def GLB_BOOT_STATUS.addr : Nat := 0x00000010
@[reducible] def GLB_BOOT_STATUS.STEP : Field := ⟨0x00000010, 0, 4⟩
@[reducible] def GLB_BOOT_STATUS.SRC : Field := ⟨0x00000010, 4, 2⟩
@[reducible] def GLB_BOOT_STATUS.READY : Field := ⟨0x00000010, 6, 1⟩
@[reducible] def GLB_BOOT_STATUS.BOOT_ERR : Field := ⟨0x00000010, 7, 1⟩
@[reducible] def GLB_BOOT_STATUS.STRAP_ERR : Field := ⟨0x00000010, 8, 1⟩
@[reducible] def GLB_BOOT_STATUS.MODE : Field := ⟨0x00000010, 9, 2⟩
@[reducible] def GLB_BOOT_STATUS.ROOT : Field := ⟨0x00000010, 11, 1⟩
@[reducible] def GLB_BOOT_STATUS.PREF : Field := ⟨0x00000010, 12, 1⟩
@[reducible] def GLB_RST_CAUSE.addr : Nat := 0x00000014
@[reducible] def GLB_RST_CAUSE.LAST : Field := ⟨0x00000014, 0, 3⟩
@[reducible] def GLB_RST_CAUSE.WARM_CNT : Field := ⟨0x00000014, 8, 8⟩
@[reducible] def GLB_RST_CTRL.addr : Nat := 0x00000018
@[reducible] def GLB_RST_CTRL.WARM : Field := ⟨0x00000018, 0, 1⟩
@[reducible] def GLB_RST_CTRL.KEY : Field := ⟨0x00000018, 16, 16⟩
@[reducible] def GLB_AVS_A.addr : Nat := 0x00000020
@[reducible] def GLB_AVS_A.SETPT : Field := ⟨0x00000020, 0, 10⟩
@[reducible] def GLB_AVS_A.TRIM : Field := ⟨0x00000020, 16, 4⟩
@[reducible] def GLB_AVS_A.ERR : Field := ⟨0x00000020, 20, 1⟩
@[reducible] def GLB_AVS_T.addr : Nat := 0x00000024
@[reducible] def GLB_AVS_T.SETPT : Field := ⟨0x00000024, 0, 10⟩
@[reducible] def GLB_AVS_T.TRIM : Field := ⟨0x00000024, 16, 4⟩
@[reducible] def GLB_AVS_T.ERR : Field := ⟨0x00000024, 20, 1⟩
@[reducible] def GLB_TEMP.addr : Nat := 0x00000028
@[reducible] def GLB_TEMP.TJ_A : Field := ⟨0x00000028, 0, 8⟩
@[reducible] def GLB_TEMP.TJ_T : Field := ⟨0x00000028, 8, 8⟩
@[reducible] def GLB_THERM.addr : Nat := 0x0000002C
@[reducible] def GLB_THERM.WARN : Field := ⟨0x0000002C, 0, 8⟩
@[reducible] def GLB_THERM.WARN_A : Field := ⟨0x0000002C, 8, 1⟩
@[reducible] def GLB_THERM.WARN_T : Field := ⟨0x0000002C, 9, 1⟩
@[reducible] def GLB_THERM.OVER : Field := ⟨0x0000002C, 10, 1⟩
@[reducible] def GLB_THERM.TRIP : Field := ⟨0x0000002C, 11, 1⟩
@[reducible] def GLB_PWR_STATUS.addr : Nat := 0x00000030
@[reducible] def GLB_PWR_STATUS.REFCLK_LOST : Field := ⟨0x00000030, 0, 1⟩
@[reducible] def GLB_PWR_STATUS.RAIL_LOST : Field := ⟨0x00000030, 1, 1⟩
@[reducible] def GLB_PWR_STATUS.RAIL : Field := ⟨0x00000030, 2, 3⟩
/-! ### TCK -/
@[reducible] def TCK_CTRL.addr : Nat := 0x00100000
@[reducible] def TCK_CTRL.DIGEST_EN : Field := ⟨0x00100000, 0, 1⟩
@[reducible] def TCK_CTRL.PAIR_CMP_EN : Field := ⟨0x00100000, 1, 1⟩
@[reducible] def TCK_CTRL.REPLAY : Field := ⟨0x00100000, 2, 1⟩
@[reducible] def TCK_CTRL.CYC_MIN_RST : Field := ⟨0x00100000, 3, 1⟩
@[reducible] def TCK_STATUS.addr : Nat := 0x00100004
@[reducible] def TCK_STATUS.LOCKED : Field := ⟨0x00100004, 0, 1⟩
@[reducible] def TCK_STATUS.CLK_STATE : Field := ⟨0x00100004, 1, 2⟩
@[reducible] def TCK_STATUS.OVERRUN : Field := ⟨0x00100004, 3, 1⟩
@[reducible] def TCK_STATUS.CYC_SHORT : Field := ⟨0x00100004, 4, 1⟩
@[reducible] def TCK_STATUS.PAIR_DIVERGED : Field := ⟨0x00100004, 5, 1⟩
@[reducible] def TCK_NOW_LO.addr : Nat := 0x00100008
@[reducible] def TCK_NOW_LO.NOW : Field := ⟨0x00100008, 0, 32⟩
@[reducible] def TCK_NOW_HI.addr : Nat := 0x0010000C
@[reducible] def TCK_NOW_HI.NOW : Field := ⟨0x0010000C, 0, 16⟩
@[reducible] def TCK_CYC.addr : Nat := 0x00100010
@[reducible] def TCK_CYC.LAST : Field := ⟨0x00100010, 0, 10⟩
@[reducible] def TCK_CYC.MIN : Field := ⟨0x00100010, 16, 10⟩
@[reducible] def TCK_COMMIT_LO.addr : Nat := 0x00100014
@[reducible] def TCK_COMMIT_LO.TICK : Field := ⟨0x00100014, 0, 32⟩
@[reducible] def TCK_COMMIT_HI.addr : Nat := 0x00100018
@[reducible] def TCK_COMMIT_HI.TICK : Field := ⟨0x00100018, 0, 16⟩
@[reducible] def TCK_EXP_TICK_LO.addr : Nat := 0x0010001C
@[reducible] def TCK_EXP_TICK_LO.TICK : Field := ⟨0x0010001C, 0, 32⟩
@[reducible] def TCK_EXP_TICK_HI.addr : Nat := 0x00100020
@[reducible] def TCK_EXP_TICK_HI.TICK : Field := ⟨0x00100020, 0, 16⟩
@[reducible] def TCK_EXP_TICK_HI.MASK : Field := ⟨0x00100020, 16, 8⟩
@[reducible] def TCK_EXP_CNT_T2.addr : Nat := 0x00100024
@[reducible] def TCK_EXP_CNT_T2.COUNT : Field := ⟨0x00100024, 0, 32⟩
@[reducible] def TCK_EXP_CNT_REFILL.addr : Nat := 0x00100028
@[reducible] def TCK_EXP_CNT_REFILL.COUNT : Field := ⟨0x00100028, 0, 32⟩
@[reducible] def TCK_EXP_CNT_OVR.addr : Nat := 0x0010002C
@[reducible] def TCK_EXP_CNT_OVR.COUNT : Field := ⟨0x0010002C, 0, 32⟩
@[reducible] def TCK_EXP_CNT_D2D.addr : Nat := 0x00100030
@[reducible] def TCK_EXP_CNT_D2D.COUNT : Field := ⟨0x00100030, 0, 32⟩
@[reducible] def TCK_OVR_DROP.addr : Nat := 0x00100034
@[reducible] def TCK_OVR_DROP.COUNT : Field := ⟨0x00100034, 0, 32⟩
@[reducible] def TCK_DIG_TICK_LO.addr : Nat := 0x00100038
@[reducible] def TCK_DIG_TICK_LO.TICK : Field := ⟨0x00100038, 0, 32⟩
@[reducible] def TCK_DIG_TICK_HI.addr : Nat := 0x0010003C
@[reducible] def TCK_DIG_TICK_HI.TICK : Field := ⟨0x0010003C, 0, 16⟩
@[reducible] def TCK_DIG_TICK_HI.MASK : Field := ⟨0x0010003C, 16, 8⟩
@[reducible] def TCK_DIG_ADM_LO.addr : Nat := 0x00100040
@[reducible] def TCK_DIG_ADM_LO.DIGEST : Field := ⟨0x00100040, 0, 32⟩
@[reducible] def TCK_DIG_ADM_HI.addr : Nat := 0x00100044
@[reducible] def TCK_DIG_ADM_HI.DIGEST : Field := ⟨0x00100044, 0, 32⟩
@[reducible] def TCK_DIG_OUT_LO.addr : Nat := 0x00100048
@[reducible] def TCK_DIG_OUT_LO.DIGEST : Field := ⟨0x00100048, 0, 32⟩
@[reducible] def TCK_DIG_OUT_HI.addr : Nat := 0x0010004C
@[reducible] def TCK_DIG_OUT_HI.DIGEST : Field := ⟨0x0010004C, 0, 32⟩
@[reducible] def TCK_PAIR_HOLDOFF.addr : Nat := 0x00100050
@[reducible] def TCK_PAIR_HOLDOFF.TICKS : Field := ⟨0x00100050, 0, 24⟩
@[reducible] def TCK_PAIR_MISMATCH.addr : Nat := 0x00100054
@[reducible] def TCK_PAIR_MISMATCH.COUNT : Field := ⟨0x00100054, 0, 32⟩
@[reducible] def TCK_PAIR_SKIP.addr : Nat := 0x00100058
@[reducible] def TCK_PAIR_SKIP.COUNT : Field := ⟨0x00100058, 0, 32⟩
/-! ### CHT -/
@[reducible] def CHT_STATUS.addr : Nat := 0x00200000
@[reducible] def CHT_STATUS.ACTIVE : Field := ⟨0x00200000, 0, 1⟩
@[reducible] def CHT_STATUS.OLD_BUSY : Field := ⟨0x00200000, 1, 1⟩
@[reducible] def CHT_STATUS.ARMED : Field := ⟨0x00200000, 2, 1⟩
@[reducible] def CHT_STATUS.CHECKING : Field := ⟨0x00200000, 3, 1⟩
@[reducible] def CHT_STATUS.REFUSED : Field := ⟨0x00200000, 4, 1⟩
@[reducible] def CHT_STATUS.ARM_ERR : Field := ⟨0x00200000, 5, 1⟩
@[reducible] def CHT_STATUS.MISSED : Field := ⟨0x00200000, 6, 1⟩
@[reducible] def CHT_STATUS.SWAPPED : Field := ⟨0x00200000, 7, 1⟩
@[reducible] def CHT_STATUS.VARIANT : Field := ⟨0x00200000, 8, 2⟩
@[reducible] def CHT_STATUS.ACT_EPOCH : Field := ⟨0x00200000, 16, 8⟩
@[reducible] def CHT_STATUS.ARM_CODE : Field := ⟨0x00200000, 24, 8⟩
@[reducible] def CHT_SWAP_CTRL.addr : Nat := 0x00200004
@[reducible] def CHT_SWAP_CTRL.ARM : Field := ⟨0x00200004, 0, 1⟩
@[reducible] def CHT_SWAP_CTRL.DISARM : Field := ⟨0x00200004, 1, 1⟩
@[reducible] def CHT_SWAP_CTRL.SCOPE : Field := ⟨0x00200004, 2, 2⟩
@[reducible] def CHT_SWAP_TICK_LO.addr : Nat := 0x00200008
@[reducible] def CHT_SWAP_TICK_LO.TICK : Field := ⟨0x00200008, 0, 32⟩
@[reducible] def CHT_SWAP_TICK_HI.addr : Nat := 0x0020000C
@[reducible] def CHT_SWAP_TICK_HI.TICK : Field := ⟨0x0020000C, 0, 16⟩
@[reducible] def CHT_LAST_SWAP_LO.addr : Nat := 0x00200010
@[reducible] def CHT_LAST_SWAP_LO.TICK : Field := ⟨0x00200010, 0, 32⟩
@[reducible] def CHT_LAST_SWAP_HI.addr : Nat := 0x00200014
@[reducible] def CHT_LAST_SWAP_HI.TICK : Field := ⟨0x00200014, 0, 16⟩
@[reducible] def CHT_SEQ_STATUS.addr : Nat := 0x00200018
@[reducible] def CHT_SEQ_STATUS.DRIVER : Field := ⟨0x00200018, 0, 1⟩
@[reducible] def CHT_SEQ_STATUS.RESYNC : Field := ⟨0x00200018, 1, 1⟩
@[reducible] def CHT_SEQ_STATUS.LAST_PAIR : Field := ⟨0x00200018, 2, 5⟩
@[reducible] def CHT_ARM_WHERE.addr : Nat := 0x0020001C
@[reducible] def CHT_ARM_WHERE.PIPE : Field := ⟨0x0020001C, 0, 6⟩
@[reducible] def CHT_ARM_WHERE.DIR : Field := ⟨0x0020001C, 6, 1⟩
@[reducible] def CHT_ARM_WHERE.VARIANT : Field := ⟨0x0020001C, 7, 2⟩
@[reducible] def CHT_ARM_WHERE.SLOT : Field := ⟨0x0020001C, 9, 9⟩
@[reducible] def CHT_REFUSED.addr : Nat := 0x00200020
@[reducible] def CHT_REFUSED.COUNT : Field := ⟨0x00200020, 0, 32⟩
@[reducible] def CHT_PASS_LIMIT.addr : Nat := 0x00200024
@[reducible] def CHT_PASS_LIMIT.COUNT : Field := ⟨0x00200024, 0, 32⟩
@[reducible] def CHT_RECIRC_OVF.addr : Nat := 0x00200028
@[reducible] def CHT_RECIRC_OVF.COUNT : Field := ⟨0x00200028, 0, 32⟩
@[reducible] def CHT_RECIRC_SHED.addr : Nat := 0x0020002C
@[reducible] def CHT_RECIRC_SHED.COUNT : Field := ⟨0x0020002C, 0, 32⟩
@[reducible] def CHT_LAYBY_NOREQ.addr : Nat := 0x00200030
@[reducible] def CHT_LAYBY_NOREQ.COUNT : Field := ⟨0x00200030, 0, 32⟩
@[reducible] def CHT_LAYBY_OVF.addr : Nat := 0x00200034
@[reducible] def CHT_LAYBY_OVF.COUNT : Field := ⟨0x00200034, 0, 32⟩
@[reducible] def CHT_MIRROR_INVALID.addr : Nat := 0x00200038
@[reducible] def CHT_MIRROR_INVALID.COUNT : Field := ⟨0x00200038, 0, 32⟩
@[reducible] def CHT_SEQ_FAULT.addr : Nat := 0x0020003C
@[reducible] def CHT_SEQ_FAULT.COUNT : Field := ⟨0x0020003C, 0, 32⟩
@[reducible] def CHT_LD_ADDR.addr : Nat := 0x00200100
@[reducible] def CHT_LD_ADDR.STAGE : Field := ⟨0x00200100, 0, 6⟩
@[reducible] def CHT_LD_ADDR.INDEX : Field := ⟨0x00200100, 8, 11⟩
@[reducible] def CHT_LD_ADDR.TGT : Field := ⟨0x00200100, 24, 4⟩
@[reducible] def CHT_LD_CMD.addr : Nat := 0x00200104
@[reducible] def CHT_LD_CMD.GO : Field := ⟨0x00200104, 0, 1⟩
@[reducible] def CHT_LD_CMD.RD : Field := ⟨0x00200104, 1, 1⟩
@[reducible] def CHT_LD_STATUS.addr : Nat := 0x00200108
@[reducible] def CHT_LD_STATUS.BUSY : Field := ⟨0x00200108, 0, 1⟩
@[reducible] def CHT_LD_STATUS.DONE : Field := ⟨0x00200108, 1, 1⟩
@[reducible] def CHT_LD_STATUS.ERR : Field := ⟨0x00200108, 2, 1⟩
@[reducible] def CHT_LD_STATUS.OVERLAP : Field := ⟨0x00200108, 3, 1⟩
@[reducible] def CHT_LD_STATUS.CODE : Field := ⟨0x00200108, 8, 8⟩
@[reducible] def CHT_LD_STATUS.ESLOT : Field := ⟨0x00200108, 16, 3⟩
@[reducible] def CHT_LD_DATA.addr (n : Nat) : Nat := 0x00200120 + 4 * n
@[reducible] def CHT_LD_DATA.DATA (n : Nat) : Field := ⟨0x00200120 + 4 * n, 0, 32⟩
@[reducible] def CHT_EARLY_READ.addr : Nat := 0x00200140
@[reducible] def CHT_EARLY_READ.COUNT : Field := ⟨0x00200140, 0, 32⟩
@[reducible] def CHT_ROW_INVALID.addr : Nat := 0x00200144
@[reducible] def CHT_ROW_INVALID.COUNT : Field := ⟨0x00200144, 0, 32⟩
@[reducible] def CHT_ROW_UE.addr : Nat := 0x00200148
@[reducible] def CHT_ROW_UE.COUNT : Field := ⟨0x00200148, 0, 32⟩
/-! ### PRS -/
@[reducible] def PRS_EXC_CTRL.addr : Nat := 0x00400000
@[reducible] def PRS_EXC_CTRL.RING : Field := ⟨0x00400000, 0, 6⟩
@[reducible] def PRS_EXC_RATE.addr : Nat := 0x00400004
@[reducible] def PRS_EXC_RATE.RATE : Field := ⟨0x00400004, 0, 20⟩
@[reducible] def PRS_EXC_DEPTH.addr : Nat := 0x00400008
@[reducible] def PRS_EXC_DEPTH.DEPTH : Field := ⟨0x00400008, 0, 16⟩
@[reducible] def PRS_EXC_PUNT.addr : Nat := 0x0040000C
@[reducible] def PRS_EXC_PUNT.COUNT : Field := ⟨0x0040000C, 0, 32⟩
@[reducible] def PRS_EXC_DROP.addr : Nat := 0x00400010
@[reducible] def PRS_EXC_DROP.COUNT : Field := ⟨0x00400010, 0, 32⟩
@[reducible] def PRS_EXC_QUEUE.addr : Nat := 0x00400014
@[reducible] def PRS_EXC_QUEUE.COUNT : Field := ⟨0x00400014, 0, 32⟩
@[reducible] def PRS_STOP_LAST.addr : Nat := 0x00400018
@[reducible] def PRS_STOP_LAST.CODE : Field := ⟨0x00400018, 0, 8⟩
@[reducible] def PRS_STOP_LAST.OFFSET : Field := ⟨0x00400018, 8, 9⟩
@[reducible] def PRS_STOP_LAST.PIPE : Field := ⟨0x00400018, 17, 6⟩
@[reducible] def PRS_EXC_CNT.addr (n : Nat) : Nat := 0x0040001C + 4 * n
@[reducible] def PRS_EXC_CNT.COUNT (n : Nat) : Field := ⟨0x0040001C + 4 * n, 0, 32⟩
@[reducible] def PRS_EXC_CNT_REJ.addr : Nat := 0x0040003C
@[reducible] def PRS_EXC_CNT_REJ.COUNT : Field := ⟨0x0040003C, 0, 32⟩
@[reducible] def PRS_LD_ADDR.addr : Nat := 0x00400100
@[reducible] def PRS_LD_ADDR.INDEX : Field := ⟨0x00400100, 0, 9⟩
@[reducible] def PRS_LD_ADDR.INDEX_HI : Field := ⟨0x00400100, 9, 2⟩
@[reducible] def PRS_LD_ADDR.TGT : Field := ⟨0x00400100, 24, 4⟩
@[reducible] def PRS_LD_CMD.addr : Nat := 0x00400104
@[reducible] def PRS_LD_CMD.GO : Field := ⟨0x00400104, 0, 1⟩
@[reducible] def PRS_LD_CMD.RD : Field := ⟨0x00400104, 1, 1⟩
@[reducible] def PRS_LD_STATUS.addr : Nat := 0x00400108
@[reducible] def PRS_LD_STATUS.BUSY : Field := ⟨0x00400108, 0, 1⟩
@[reducible] def PRS_LD_STATUS.DONE : Field := ⟨0x00400108, 1, 1⟩
@[reducible] def PRS_LD_STATUS.ERR : Field := ⟨0x00400108, 2, 1⟩
@[reducible] def PRS_LD_STATUS.OVERLAP : Field := ⟨0x00400108, 3, 1⟩
@[reducible] def PRS_LD_STATUS.CODE : Field := ⟨0x00400108, 8, 8⟩
@[reducible] def PRS_LD_DATA.addr (n : Nat) : Nat := 0x00400120 + 4 * n
@[reducible] def PRS_LD_DATA.DATA (n : Nat) : Field := ⟨0x00400120 + 4 * n, 0, 32⟩
/-! ### ASX -/
@[reducible] def ASX_STATUS.addr : Nat := 0x00600000
@[reducible] def ASX_STATUS.CFG_ERR : Field := ⟨0x00600000, 0, 1⟩
@[reducible] def ASX_STATUS.QUAR : Field := ⟨0x00600000, 1, 1⟩
@[reducible] def ASX_STATUS.SPARE_ACTIVE : Field := ⟨0x00600000, 2, 1⟩
@[reducible] def ASX_OP_CTRL.addr : Nat := 0x00600004
@[reducible] def ASX_OP_CTRL.CHAN : Field := ⟨0x00600004, 0, 3⟩
@[reducible] def ASX_OP_CTRL.RATE : Field := ⟨0x00600004, 8, 8⟩
@[reducible] def ASX_OP_ADDR.addr : Nat := 0x00600008
@[reducible] def ASX_OP_ADDR.ENTRY : Field := ⟨0x00600008, 0, 18⟩
@[reducible] def ASX_OP_ADDR.TBL : Field := ⟨0x00600008, 18, 6⟩
@[reducible] def ASX_OP_ADDR.OP : Field := ⟨0x00600008, 24, 4⟩
@[reducible] def ASX_OP_CMD.addr : Nat := 0x0060000C
@[reducible] def ASX_OP_CMD.GO : Field := ⟨0x0060000C, 0, 1⟩
@[reducible] def ASX_OP_STATUS.addr : Nat := 0x00600010
@[reducible] def ASX_OP_STATUS.BUSY : Field := ⟨0x00600010, 0, 1⟩
@[reducible] def ASX_OP_STATUS.DONE : Field := ⟨0x00600010, 1, 1⟩
@[reducible] def ASX_OP_STATUS.ERR : Field := ⟨0x00600010, 2, 1⟩
@[reducible] def ASX_OP_STATUS.CODE : Field := ⟨0x00600010, 8, 8⟩
@[reducible] def ASX_OP_STATUS.PENDING : Field := ⟨0x00600010, 16, 7⟩
@[reducible] def ASX_MOVE_STATUS.addr : Nat := 0x00600014
@[reducible] def ASX_MOVE_STATUS.DUP : Field := ⟨0x00600014, 0, 18⟩
@[reducible] def ASX_MOVE_STATUS.TBL : Field := ⟨0x00600014, 18, 6⟩
@[reducible] def ASX_MOVE_STATUS.VALID : Field := ⟨0x00600014, 24, 1⟩
@[reducible] def ASX_MOVE_STATUS.DIR : Field := ⟨0x00600014, 25, 1⟩
@[reducible] def ASX_CFG_ERR.addr : Nat := 0x00600018
@[reducible] def ASX_CFG_ERR.TBL : Field := ⟨0x00600018, 0, 6⟩
@[reducible] def ASX_CFG_ERR.IS_BANK : Field := ⟨0x00600018, 6, 1⟩
@[reducible] def ASX_CFG_ERR.BANK : Field := ⟨0x00600018, 7, 7⟩
@[reducible] def ASX_CFG_ERR.CODE : Field := ⟨0x00600018, 16, 8⟩
@[reducible] def ASX_UNSERVED.addr : Nat := 0x0060001C
@[reducible] def ASX_UNSERVED.COUNT : Field := ⟨0x0060001C, 0, 32⟩
@[reducible] def ASX_ERR_RESULT.addr : Nat := 0x00600020
@[reducible] def ASX_ERR_RESULT.COUNT : Field := ⟨0x00600020, 0, 32⟩
@[reducible] def ASX_SCRUB_FIX.addr : Nat := 0x00600024
@[reducible] def ASX_SCRUB_FIX.COUNT : Field := ⟨0x00600024, 0, 32⟩
@[reducible] def ASX_SCRUB_CE.addr : Nat := 0x00600028
@[reducible] def ASX_SCRUB_CE.COUNT : Field := ⟨0x00600028, 0, 32⟩
@[reducible] def ASX_UE_WHERE.addr : Nat := 0x0060002C
@[reducible] def ASX_UE_WHERE.BANK : Field := ⟨0x0060002C, 0, 7⟩
@[reducible] def ASX_UE_WHERE.ROW : Field := ⟨0x0060002C, 8, 11⟩
@[reducible] def ASX_REVOKED.addr : Nat := 0x00600030
@[reducible] def ASX_REVOKED.COUNT : Field := ⟨0x00600030, 0, 32⟩
@[reducible] def ASX_OP_DATA.addr (n : Nat) : Nat := 0x00600100 + 4 * n
@[reducible] def ASX_OP_DATA.DATA (n : Nat) : Field := ⟨0x00600100 + 4 * n, 0, 32⟩
@[reducible] def ASX_BANK.addr (n : Nat) : Nat := 0x00600400 + 4 * n
@[reducible] def ASX_BANK.WIDTH (n : Nat) : Field := ⟨0x00600400 + 4 * n, 0, 2⟩
@[reducible] def ASX_BANK.MODE (n : Nat) : Field := ⟨0x00600400 + 4 * n, 2, 2⟩
@[reducible] def ASX_BANK.QUAR (n : Nat) : Field := ⟨0x00600400 + 4 * n, 8, 1⟩
@[reducible] def ASX_BANK.SHADOW_UE (n : Nat) : Field := ⟨0x00600400 + 4 * n, 9, 1⟩
@[reducible] def ASX_BANK.RETURN (n : Nat) : Field := ⟨0x00600400 + 4 * n, 10, 1⟩
@[reducible] def ASX_TBL_A.addr (n : Nat) : Nat := 0x00600800 + 8 * n
@[reducible] def ASX_TBL_A.VALID (n : Nat) : Field := ⟨0x00600800 + 8 * n, 0, 1⟩
@[reducible] def ASX_TBL_A.DIR (n : Nat) : Field := ⟨0x00600800 + 8 * n, 1, 1⟩
@[reducible] def ASX_TBL_A.STAGE (n : Nat) : Field := ⟨0x00600800 + 8 * n, 2, 6⟩
@[reducible] def ASX_TBL_A.FIRST_BANK (n : Nat) : Field := ⟨0x00600800 + 8 * n, 8, 7⟩
@[reducible] def ASX_TBL_A.SPAN (n : Nat) : Field := ⟨0x00600800 + 8 * n, 16, 8⟩
@[reducible] def ASX_TBL_A.COPIES_LOG2 (n : Nat) : Field := ⟨0x00600800 + 8 * n, 24, 3⟩
@[reducible] def ASX_TBL_A.LIVE (n : Nat) : Field := ⟨0x00600800 + 8 * n, 27, 1⟩
@[reducible] def ASX_TBL_B.addr (n : Nat) : Nat := 0x00600804 + 8 * n
@[reducible] def ASX_TBL_B.PIPE_BASE (n : Nat) : Field := ⟨0x00600804 + 8 * n, 0, 6⟩
@[reducible] def ASX_TBL_B.SPARE_EN (n : Nat) : Field := ⟨0x00600804 + 8 * n, 6, 1⟩
@[reducible] def ASX_TBL_B.SPARE_BANK (n : Nat) : Field := ⟨0x00600804 + 8 * n, 8, 7⟩
@[reducible] def ASX_TBL_B.SPARE_COPY (n : Nat) : Field := ⟨0x00600804 + 8 * n, 16, 5⟩
@[reducible] def ASX_TBL_B.SPARE_USED (n : Nat) : Field := ⟨0x00600804 + 8 * n, 21, 1⟩
/-! ### LKU -/
@[reducible] def LKU_STATUS.addr : Nat := 0x00800000
@[reducible] def LKU_STATUS.CFG_ERR : Field := ⟨0x00800000, 0, 1⟩
@[reducible] def LKU_STATUS.T2_BUF_FULL : Field := ⟨0x00800000, 1, 1⟩
@[reducible] def LKU_WR_CTRL.addr : Nat := 0x00800004
@[reducible] def LKU_WR_CTRL.CHAN : Field := ⟨0x00800004, 0, 3⟩
@[reducible] def LKU_WR_CTRL.RATE : Field := ⟨0x00800004, 8, 8⟩
@[reducible] def LKU_WR_ADDR.addr : Nat := 0x00800008
@[reducible] def LKU_WR_ADDR.OP : Field := ⟨0x00800008, 0, 4⟩
@[reducible] def LKU_WR_ADDR.TBL : Field := ⟨0x00800008, 8, 4⟩
@[reducible] def LKU_WR_INDEX.addr : Nat := 0x0080000C
@[reducible] def LKU_WR_INDEX.INDEX : Field := ⟨0x0080000C, 0, 23⟩
@[reducible] def LKU_WR_CMD.addr : Nat := 0x00800010
@[reducible] def LKU_WR_CMD.GO : Field := ⟨0x00800010, 0, 1⟩
@[reducible] def LKU_WR_STATUS.addr : Nat := 0x00800014
@[reducible] def LKU_WR_STATUS.BUSY : Field := ⟨0x00800014, 0, 1⟩
@[reducible] def LKU_WR_STATUS.DONE : Field := ⟨0x00800014, 1, 1⟩
@[reducible] def LKU_WR_STATUS.ERR : Field := ⟨0x00800014, 2, 1⟩
@[reducible] def LKU_WR_STATUS.CODE : Field := ⟨0x00800014, 8, 8⟩
@[reducible] def LKU_WR_STATUS.PENDING : Field := ⟨0x00800014, 16, 9⟩
@[reducible] def LKU_CFG_ERR.addr : Nat := 0x00800018
@[reducible] def LKU_CFG_ERR.TBL : Field := ⟨0x00800018, 0, 4⟩
@[reducible] def LKU_CFG_ERR.KIND : Field := ⟨0x00800018, 4, 2⟩
@[reducible] def LKU_CFG_ERR.CODE : Field := ⟨0x00800018, 8, 8⟩
@[reducible] def LKU_LPM_USED.addr : Nat := 0x0080001C
@[reducible] def LKU_LPM_USED.UNITS : Field := ⟨0x0080001C, 0, 23⟩
@[reducible] def LKU_EX_USED.addr : Nat := 0x00800020
@[reducible] def LKU_EX_USED.SLOTS : Field := ⟨0x00800020, 0, 22⟩
@[reducible] def LKU_LAYBY_USED.addr : Nat := 0x00800024
@[reducible] def LKU_LAYBY_USED.ENTRIES : Field := ⟨0x00800024, 0, 13⟩
@[reducible] def LKU_T2_BUF.addr : Nat := 0x00800028
@[reducible] def LKU_T2_BUF.ENTRIES : Field := ⟨0x00800028, 0, 9⟩
@[reducible] def LKU_LAYBY_FULL.addr : Nat := 0x0080002C
@[reducible] def LKU_LAYBY_FULL.COUNT : Field := ⟨0x0080002C, 0, 32⟩
@[reducible] def LKU_LAYBY_REVOKED.addr : Nat := 0x00800030
@[reducible] def LKU_LAYBY_REVOKED.COUNT : Field := ⟨0x00800030, 0, 32⟩
@[reducible] def LKU_T2_LATE.addr : Nat := 0x00800034
@[reducible] def LKU_T2_LATE.COUNT : Field := ⟨0x00800034, 0, 32⟩
@[reducible] def LKU_T2_ERR.addr : Nat := 0x00800038
@[reducible] def LKU_T2_ERR.COUNT : Field := ⟨0x00800038, 0, 32⟩
@[reducible] def LKU_UNSERVED.addr : Nat := 0x0080003C
@[reducible] def LKU_UNSERVED.COUNT : Field := ⟨0x0080003C, 0, 32⟩
@[reducible] def LKU_ERR_RESULT.addr : Nat := 0x00800040
@[reducible] def LKU_ERR_RESULT.COUNT : Field := ⟨0x00800040, 0, 32⟩
@[reducible] def LKU_SCRUB_CE.addr : Nat := 0x00800044
@[reducible] def LKU_SCRUB_CE.COUNT : Field := ⟨0x00800044, 0, 32⟩
@[reducible] def LKU_UE_WHERE.addr : Nat := 0x00800048
@[reducible] def LKU_UE_WHERE.STORE : Field := ⟨0x00800048, 0, 3⟩
@[reducible] def LKU_UE_WHERE.INDEX : Field := ⟨0x00800048, 3, 23⟩
@[reducible] def LKU_WR_DATA.addr (n : Nat) : Nat := 0x00800100 + 4 * n
@[reducible] def LKU_WR_DATA.DATA (n : Nat) : Field := ⟨0x00800100 + 4 * n, 0, 32⟩
@[reducible] def LKU_EX_TBL.addr (n : Nat) : Nat := 0x00800200 + 4 * n
@[reducible] def LKU_EX_TBL.VALID (n : Nat) : Field := ⟨0x00800200 + 4 * n, 0, 1⟩
@[reducible] def LKU_EX_TBL.KLEN (n : Nat) : Field := ⟨0x00800200 + 4 * n, 1, 5⟩
@[reducible] def LKU_DIR_TBL_A.addr (n : Nat) : Nat := 0x00800300 + 8 * n
@[reducible] def LKU_DIR_TBL_A.VALID (n : Nat) : Field := ⟨0x00800300 + 8 * n, 0, 1⟩
@[reducible] def LKU_DIR_TBL_A.KIND (n : Nat) : Field := ⟨0x00800300 + 8 * n, 1, 1⟩
@[reducible] def LKU_DIR_TBL_A.EW (n : Nat) : Field := ⟨0x00800300 + 8 * n, 2, 2⟩
@[reducible] def LKU_DIR_TBL_A.BASE (n : Nat) : Field := ⟨0x00800300 + 8 * n, 5, 21⟩
@[reducible] def LKU_DIR_TBL_B.addr (n : Nat) : Nat := 0x00800304 + 8 * n
@[reducible] def LKU_DIR_TBL_B.SIZE (n : Nat) : Field := ⟨0x00800304 + 8 * n, 0, 23⟩
@[reducible] def LKU_T2_TBL_A.addr (n : Nat) : Nat := 0x00800400 + 8 * n
@[reducible] def LKU_T2_TBL_A.VALID (n : Nat) : Field := ⟨0x00800400 + 8 * n, 0, 1⟩
@[reducible] def LKU_T2_TBL_A.FAM (n : Nat) : Field := ⟨0x00800400 + 8 * n, 1, 1⟩
@[reducible] def LKU_T2_TBL_A.DIR_BITS (n : Nat) : Field := ⟨0x00800400 + 8 * n, 2, 5⟩
@[reducible] def LKU_T2_TBL_A.VRF (n : Nat) : Field := ⟨0x00800400 + 8 * n, 16, 16⟩
@[reducible] def LKU_T2_TBL_B.addr (n : Nat) : Nat := 0x00800404 + 8 * n
@[reducible] def LKU_T2_TBL_B.DIR_BASE (n : Nat) : Field := ⟨0x00800404 + 8 * n, 0, 18⟩
/-! ### CTX -/
@[reducible] def CTX_INVALID.addr : Nat := 0x00A00000
@[reducible] def CTX_INVALID.COUNT : Field := ⟨0x00A00000, 0, 32⟩
@[reducible] def CTX_ERR_RESULT.addr : Nat := 0x00A00004
@[reducible] def CTX_ERR_RESULT.COUNT : Field := ⟨0x00A00004, 0, 32⟩
@[reducible] def CTX_SCRUB_CE.addr : Nat := 0x00A00008
@[reducible] def CTX_SCRUB_CE.COUNT : Field := ⟨0x00A00008, 0, 32⟩
@[reducible] def CTX_UE_WHERE.addr : Nat := 0x00A0000C
@[reducible] def CTX_UE_WHERE.ID : Field := ⟨0x00A0000C, 0, 18⟩
/-! ### YRD -/
@[reducible] def YRD_CTRL.addr : Nat := 0x00C00000
@[reducible] def YRD_CTRL.LEAD : Field := ⟨0x00C00000, 0, 8⟩
@[reducible] def YRD_CTRL.SR_EN : Field := ⟨0x00C00000, 8, 1⟩
@[reducible] def YRD_STATUS.addr : Nat := 0x00C00004
@[reducible] def YRD_STATUS.LATE : Field := ⟨0x00C00004, 0, 1⟩
@[reducible] def YRD_STATUS.THERM : Field := ⟨0x00C00004, 1, 1⟩
@[reducible] def YRD_STATUS.STK_FAIL : Field := ⟨0x00C00004, 2, 1⟩
@[reducible] def YRD_STATUS.REC_FULL : Field := ⟨0x00C00004, 3, 1⟩
@[reducible] def YRD_BUDGET.addr : Nat := 0x00C00008
@[reducible] def YRD_BUDGET.WCOL : Field := ⟨0x00C00008, 0, 8⟩
@[reducible] def YRD_BUDGET.RCOL : Field := ⟨0x00C00008, 8, 8⟩
@[reducible] def YRD_GRP_CAP.addr : Nat := 0x00C0000C
@[reducible] def YRD_GRP_CAP.SPILL : Field := ⟨0x00C0000C, 0, 8⟩
@[reducible] def YRD_GRP_CAP.REFILL : Field := ⟨0x00C0000C, 8, 8⟩
@[reducible] def YRD_GRP_CAP.LEAN : Field := ⟨0x00C0000C, 16, 8⟩
@[reducible] def YRD_GUARD.addr : Nat := 0x00C00010
@[reducible] def YRD_GUARD.WAGONS : Field := ⟨0x00C00010, 0, 21⟩
@[reducible] def YRD_THERM.addr : Nat := 0x00C00014
@[reducible] def YRD_THERM.WARN : Field := ⟨0x00C00014, 0, 8⟩
@[reducible] def YRD_CAL.addr : Nat := 0x00C00018
@[reducible] def YRD_CAL.PERIOD : Field := ⟨0x00C00018, 0, 20⟩
@[reducible] def YRD_REC_USED.addr : Nat := 0x00C0001C
@[reducible] def YRD_REC_USED.COUNT : Field := ⟨0x00C0001C, 0, 18⟩
@[reducible] def YRD_SPILL_PKT.addr : Nat := 0x00C00020
@[reducible] def YRD_SPILL_PKT.COUNT : Field := ⟨0x00C00020, 0, 32⟩
@[reducible] def YRD_REFILL_PKT.addr : Nat := 0x00C00024
@[reducible] def YRD_REFILL_PKT.COUNT : Field := ⟨0x00C00024, 0, 32⟩
@[reducible] def YRD_FETCH.addr : Nat := 0x00C00028
@[reducible] def YRD_FETCH.COUNT : Field := ⟨0x00C00028, 0, 32⟩
@[reducible] def YRD_LATE.addr : Nat := 0x00C0002C
@[reducible] def YRD_LATE.COUNT : Field := ⟨0x00C0002C, 0, 32⟩
@[reducible] def YRD_DROP_REC.addr : Nat := 0x00C00030
@[reducible] def YRD_DROP_REC.COUNT : Field := ⟨0x00C00030, 0, 32⟩
@[reducible] def YRD_DROP_STK.addr : Nat := 0x00C00034
@[reducible] def YRD_DROP_STK.COUNT : Field := ⟨0x00C00034, 0, 32⟩
@[reducible] def YRD_SPLIT.addr : Nat := 0x00C00038
@[reducible] def YRD_SPLIT.COUNT : Field := ⟨0x00C00038, 0, 32⟩
@[reducible] def YRD_RAW_WAIT.addr : Nat := 0x00C0003C
@[reducible] def YRD_RAW_WAIT.COUNT : Field := ⟨0x00C0003C, 0, 32⟩
@[reducible] def YRD_SR_WAIT.addr : Nat := 0x00C00040
@[reducible] def YRD_SR_WAIT.COUNT : Field := ⟨0x00C00040, 0, 32⟩
@[reducible] def YRD_SCRUB_CE.addr : Nat := 0x00C00044
@[reducible] def YRD_SCRUB_CE.COUNT : Field := ⟨0x00C00044, 0, 32⟩
@[reducible] def YRD_UE_WHERE.addr : Nat := 0x00C00048
@[reducible] def YRD_UE_WHERE.PTR : Field := ⟨0x00C00048, 0, 28⟩
@[reducible] def YRD_UE_WHERE.REC : Field := ⟨0x00C00048, 28, 1⟩
@[reducible] def YRD_UE_WHERE.SCRUB : Field := ⟨0x00C00048, 29, 1⟩
@[reducible] def YRD_STK_STATUS.addr (n : Nat) : Nat := 0x00C00100 + 16 * n
@[reducible] def YRD_STK_STATUS.STATE (n : Nat) : Field := ⟨0x00C00100 + 16 * n, 0, 3⟩
@[reducible] def YRD_STK_STATUS.OPEN (n : Nat) : Field := ⟨0x00C00100 + 16 * n, 3, 1⟩
@[reducible] def YRD_STK_STATUS.REFX2 (n : Nat) : Field := ⟨0x00C00100 + 16 * n, 4, 1⟩
@[reducible] def YRD_STK_STATUS.TCLOSE (n : Nat) : Field := ⟨0x00C00100 + 16 * n, 5, 1⟩
@[reducible] def YRD_STK_STATUS.TEMP (n : Nat) : Field := ⟨0x00C00100 + 16 * n, 8, 8⟩
@[reducible] def YRD_STK_FREE.addr (n : Nat) : Nat := 0x00C00104 + 16 * n
@[reducible] def YRD_STK_FREE.COUNT (n : Nat) : Field := ⟨0x00C00104 + 16 * n, 0, 25⟩
@[reducible] def YRD_STK_CTRL.addr (n : Nat) : Nat := 0x00C00108 + 16 * n
@[reducible] def YRD_STK_CTRL.EN (n : Nat) : Field := ⟨0x00C00108 + 16 * n, 0, 1⟩
@[reducible] def YRD_STK_IDLE.addr (n : Nat) : Nat := 0x00C0010C + 16 * n
@[reducible] def YRD_STK_IDLE.TICKS (n : Nat) : Field := ⟨0x00C0010C + 16 * n, 0, 11⟩
@[reducible] def YRD_SPROF_A.addr (n : Nat) : Nat := 0x00C00200 + 16 * n
@[reducible] def YRD_SPROF_A.ON (n : Nat) : Field := ⟨0x00C00200 + 16 * n, 0, 16⟩
@[reducible] def YRD_SPROF_A.FRONT (n : Nat) : Field := ⟨0x00C00200 + 16 * n, 16, 16⟩
@[reducible] def YRD_SPROF_B.addr (n : Nat) : Nat := 0x00C00204 + 16 * n
@[reducible] def YRD_SPROF_B.LOW (n : Nat) : Field := ⟨0x00C00204 + 16 * n, 0, 16⟩
@[reducible] def YRD_SPROF_B.AHEAD (n : Nat) : Field := ⟨0x00C00204 + 16 * n, 16, 12⟩
@[reducible] def YRD_SPROF_B.EN (n : Nat) : Field := ⟨0x00C00204 + 16 * n, 31, 1⟩
/-! ### QUE -/
@[reducible] def QUE_STATUS.addr : Nat := 0x01000000
@[reducible] def QUE_STATUS.CFG_ERR : Field := ⟨0x01000000, 0, 1⟩
@[reducible] def QUE_STATUS.HOLDING : Field := ⟨0x01000000, 1, 1⟩
@[reducible] def QUE_STATUS.FLUSHING : Field := ⟨0x01000000, 2, 1⟩
@[reducible] def QUE_STATUS.BATCH_OVF : Field := ⟨0x01000000, 3, 1⟩
@[reducible] def QUE_CTRL.addr : Nat := 0x01000004
@[reducible] def QUE_CTRL.SAMP_EN : Field := ⟨0x01000004, 0, 1⟩
@[reducible] def QUE_CTRL.SAMP_LOG2 : Field := ⟨0x01000004, 4, 4⟩
@[reducible] def QUE_HOLD.addr : Nat := 0x01000008
@[reducible] def QUE_HOLD.TICKS : Field := ⟨0x01000008, 0, 19⟩
@[reducible] def QUE_CFG_ADDR.addr : Nat := 0x0100000C
@[reducible] def QUE_CFG_ADDR.INDEX : Field := ⟨0x0100000C, 0, 18⟩
@[reducible] def QUE_CFG_ADDR.TYPE : Field := ⟨0x0100000C, 20, 4⟩
@[reducible] def QUE_CFG_ADDR.OP : Field := ⟨0x0100000C, 24, 4⟩
@[reducible] def QUE_CFG_ADDR.AT : Field := ⟨0x0100000C, 28, 1⟩
@[reducible] def QUE_CFG_CMD.addr : Nat := 0x01000010
@[reducible] def QUE_CFG_CMD.GO : Field := ⟨0x01000010, 0, 1⟩
@[reducible] def QUE_CFG_STATUS.addr : Nat := 0x01000014
@[reducible] def QUE_CFG_STATUS.BUSY : Field := ⟨0x01000014, 0, 1⟩
@[reducible] def QUE_CFG_STATUS.DONE : Field := ⟨0x01000014, 1, 1⟩
@[reducible] def QUE_CFG_STATUS.ERR : Field := ⟨0x01000014, 2, 1⟩
@[reducible] def QUE_CFG_STATUS.CODE : Field := ⟨0x01000014, 8, 8⟩
@[reducible] def QUE_CFG_STATUS.PENDING : Field := ⟨0x01000014, 16, 9⟩
@[reducible] def QUE_CFG_ERR.addr : Nat := 0x01000018
@[reducible] def QUE_CFG_ERR.INDEX : Field := ⟨0x01000018, 0, 18⟩
@[reducible] def QUE_CFG_ERR.TYPE : Field := ⟨0x01000018, 20, 4⟩
@[reducible] def QUE_CFG_ERR.CODE : Field := ⟨0x01000018, 24, 8⟩
@[reducible] def QUE_CFG_TICK_LO.addr : Nat := 0x0100001C
@[reducible] def QUE_CFG_TICK_LO.TICK : Field := ⟨0x0100001C, 0, 32⟩
@[reducible] def QUE_CFG_TICK_HI.addr : Nat := 0x01000020
@[reducible] def QUE_CFG_TICK_HI.TICK : Field := ⟨0x01000020, 0, 16⟩
@[reducible] def QUE_DROP_DISABLED.addr : Nat := 0x01000024
@[reducible] def QUE_DROP_DISABLED.COUNT : Field := ⟨0x01000024, 0, 32⟩
@[reducible] def QUE_DROP_HARD.addr : Nat := 0x01000028
@[reducible] def QUE_DROP_HARD.COUNT : Field := ⟨0x01000028, 0, 32⟩
@[reducible] def QUE_DROP_RAMP.addr : Nat := 0x0100002C
@[reducible] def QUE_DROP_RAMP.COUNT : Field := ⟨0x0100002C, 0, 32⟩
@[reducible] def QUE_MARK.addr : Nat := 0x01000030
@[reducible] def QUE_MARK.COUNT : Field := ⟨0x01000030, 0, 32⟩
@[reducible] def QUE_DROP_AGED.addr : Nat := 0x01000034
@[reducible] def QUE_DROP_AGED.COUNT : Field := ⟨0x01000034, 0, 32⟩
@[reducible] def QUE_DROP_FLUSH.addr : Nat := 0x01000038
@[reducible] def QUE_DROP_FLUSH.COUNT : Field := ⟨0x01000038, 0, 32⟩
@[reducible] def QUE_DROP_PORTDOWN.addr : Nat := 0x0100003C
@[reducible] def QUE_DROP_PORTDOWN.COUNT : Field := ⟨0x0100003C, 0, 32⟩
@[reducible] def QUE_DROP_BATCH.addr : Nat := 0x01000040
@[reducible] def QUE_DROP_BATCH.COUNT : Field := ⟨0x01000040, 0, 32⟩
@[reducible] def QUE_REPL_SKIP.addr : Nat := 0x01000044
@[reducible] def QUE_REPL_SKIP.COUNT : Field := ⟨0x01000044, 0, 32⟩
@[reducible] def QUE_PINNED.addr : Nat := 0x01000048
@[reducible] def QUE_PINNED.COUNT : Field := ⟨0x01000048, 0, 32⟩
@[reducible] def QUE_CLAMP.addr : Nat := 0x0100004C
@[reducible] def QUE_CLAMP.COUNT : Field := ⟨0x0100004C, 0, 32⟩
@[reducible] def QUE_CFG_DATA.addr (n : Nat) : Nat := 0x01000100 + 4 * n
@[reducible] def QUE_CFG_DATA.DATA (n : Nat) : Field := ⟨0x01000100 + 4 * n, 0, 32⟩
@[reducible] def QUE_OVH.addr (n : Nat) : Nat := 0x01000200 + 4 * n
@[reducible] def QUE_OVH.OVH (n : Nat) : Field := ⟨0x01000200 + 4 * n, 0, 8⟩
@[reducible] def QUE_L0_ST.addr (n : Nat) : Nat := 0x01001000 + 4 * n
@[reducible] def QUE_L0_ST.STATE (n : Nat) : Field := ⟨0x01001000 + 4 * n, 0, 2⟩
@[reducible] def QUE_L0_ST.POS (n : Nat) : Field := ⟨0x01001000 + 4 * n, 4, 17⟩
/-! ### DPT -/
@[reducible] def DPT_STATUS.addr : Nat := 0x01800000
@[reducible] def DPT_STATUS.CFG_ERR : Field := ⟨0x01800000, 0, 1⟩
@[reducible] def DPT_STATUS.RSV_SHORT : Field := ⟨0x01800000, 1, 1⟩
@[reducible] def DPT_STATUS.AUD_BUSY : Field := ⟨0x01800000, 2, 1⟩
@[reducible] def DPT_STATUS.BAD_REL : Field := ⟨0x01800000, 3, 1⟩
@[reducible] def DPT_STATUS.TAIL_ERR : Field := ⟨0x01800000, 4, 1⟩
@[reducible] def DPT_TRANSIT_RSV.addr : Nat := 0x01800004
@[reducible] def DPT_TRANSIT_RSV.SIZE : Field := ⟨0x01800004, 0, 21⟩
@[reducible] def DPT_REFILL_RSV.addr : Nat := 0x01800008
@[reducible] def DPT_REFILL_RSV.SIZE : Field := ⟨0x01800008, 0, 21⟩
@[reducible] def DPT_FREE.addr : Nat := 0x0180000C
@[reducible] def DPT_FREE.COUNT : Field := ⟨0x0180000C, 0, 21⟩
@[reducible] def DPT_SHR_SIZE.addr : Nat := 0x01800010
@[reducible] def DPT_SHR_SIZE.SIZE : Field := ⟨0x01800010, 0, 21⟩
@[reducible] def DPT_SHR_USED.addr : Nat := 0x01800014
@[reducible] def DPT_SHR_USED.COUNT : Field := ⟨0x01800014, 0, 21⟩
@[reducible] def DPT_TRANSIT_USED.addr : Nat := 0x01800018
@[reducible] def DPT_TRANSIT_USED.COUNT : Field := ⟨0x01800018, 0, 21⟩
@[reducible] def DPT_REFILL_USED.addr : Nat := 0x0180001C
@[reducible] def DPT_REFILL_USED.COUNT : Field := ⟨0x0180001C, 0, 21⟩
@[reducible] def DPT_DROP_NOBUF.addr : Nat := 0x01800020
@[reducible] def DPT_DROP_NOBUF.COUNT : Field := ⟨0x01800020, 0, 32⟩
@[reducible] def DPT_DROP_GROW.addr : Nat := 0x01800024
@[reducible] def DPT_DROP_GROW.COUNT : Field := ⟨0x01800024, 0, 32⟩
@[reducible] def DPT_COUPLE_OVF.addr : Nat := 0x01800028
@[reducible] def DPT_COUPLE_OVF.COUNT : Field := ⟨0x01800028, 0, 32⟩
@[reducible] def DPT_FALLBACK.addr : Nat := 0x0180002C
@[reducible] def DPT_FALLBACK.COUNT : Field := ⟨0x0180002C, 0, 32⟩
@[reducible] def DPT_DBL_REL.addr : Nat := 0x01800030
@[reducible] def DPT_DBL_REL.COUNT : Field := ⟨0x01800030, 0, 32⟩
@[reducible] def DPT_NONOWN_REL.addr : Nat := 0x01800034
@[reducible] def DPT_NONOWN_REL.COUNT : Field := ⟨0x01800034, 0, 32⟩
@[reducible] def DPT_BADREL_PTR.addr : Nat := 0x01800038
@[reducible] def DPT_BADREL_PTR.PTR : Field := ⟨0x01800038, 0, 24⟩
@[reducible] def DPT_BADREL_PTR.KIND : Field := ⟨0x01800038, 24, 1⟩
@[reducible] def DPT_BADREL_WHO.addr : Nat := 0x0180003C
@[reducible] def DPT_BADREL_WHO.RELEASER : Field := ⟨0x0180003C, 0, 16⟩
@[reducible] def DPT_BADREL_WHO.OWNER : Field := ⟨0x0180003C, 16, 16⟩
@[reducible] def DPT_TAIL_ERR.addr : Nat := 0x01800040
@[reducible] def DPT_TAIL_ERR.COUNT : Field := ⟨0x01800040, 0, 32⟩
@[reducible] def DPT_UE_WHERE.addr : Nat := 0x01800044
@[reducible] def DPT_UE_WHERE.PTR : Field := ⟨0x01800044, 0, 24⟩
@[reducible] def DPT_UE_WHERE.HDR : Field := ⟨0x01800044, 24, 1⟩
@[reducible] def DPT_SCRUB_CE.addr : Nat := 0x01800048
@[reducible] def DPT_SCRUB_CE.COUNT : Field := ⟨0x01800048, 0, 32⟩
@[reducible] def DPT_AUD_CTRL.addr : Nat := 0x0180004C
@[reducible] def DPT_AUD_CTRL.START : Field := ⟨0x0180004C, 0, 1⟩
@[reducible] def DPT_AUD_CTRL.AUTO : Field := ⟨0x0180004C, 1, 1⟩
@[reducible] def DPT_AUD_PERIOD.addr : Nat := 0x01800050
@[reducible] def DPT_AUD_PERIOD.TICKS : Field := ⟨0x01800050, 0, 24⟩
@[reducible] def DPT_AUD_STATUS.addr : Nat := 0x01800054
@[reducible] def DPT_AUD_STATUS.PHASE : Field := ⟨0x01800054, 0, 2⟩
@[reducible] def DPT_AUD_STATUS.COLOUR : Field := ⟨0x01800054, 2, 1⟩
@[reducible] def DPT_AUD_RECLAIM.addr : Nat := 0x01800058
@[reducible] def DPT_AUD_RECLAIM.COUNT : Field := ⟨0x01800058, 0, 32⟩
@[reducible] def DPT_AUD_LAST_LO.addr : Nat := 0x0180005C
@[reducible] def DPT_AUD_LAST_LO.TICK : Field := ⟨0x0180005C, 0, 32⟩
@[reducible] def DPT_AUD_LAST_HI.addr : Nat := 0x01800060
@[reducible] def DPT_AUD_LAST_HI.TICK : Field := ⟨0x01800060, 0, 16⟩
@[reducible] def DPT_SRC_RSV.addr (n : Nat) : Nat := 0x01801000 + 4 * n
@[reducible] def DPT_SRC_RSV.RSV (n : Nat) : Field := ⟨0x01801000 + 4 * n, 0, 20⟩
@[reducible] def DPT_SRC_MAX.addr (n : Nat) : Nat := 0x01801800 + 4 * n
@[reducible] def DPT_SRC_MAX.MAX (n : Nat) : Field := ⟨0x01801800 + 4 * n, 0, 21⟩
@[reducible] def DPT_SRC_USED.addr (n : Nat) : Nat := 0x01802000 + 4 * n
@[reducible] def DPT_SRC_USED.COUNT (n : Nat) : Field := ⟨0x01802000 + 4 * n, 0, 21⟩
/-! ### WAN -/
@[reducible] def WAN_STATUS.addr : Nat := 0x01C00000
@[reducible] def WAN_STATUS.LINK_CHG : Field := ⟨0x01C00000, 0, 1⟩
@[reducible] def WAN_STATUS.MS_EVT : Field := ⟨0x01C00000, 1, 1⟩
@[reducible] def WAN_STATUS.TS_OVF : Field := ⟨0x01C00000, 2, 1⟩
@[reducible] def WAN_STATUS.CFG_ERR : Field := ⟨0x01C00000, 3, 1⟩
@[reducible] def WAN_CFG_ERR.addr : Nat := 0x01C00004
@[reducible] def WAN_CFG_ERR.INDEX : Field := ⟨0x01C00004, 0, 8⟩
@[reducible] def WAN_CFG_ERR.CODE : Field := ⟨0x01C00004, 8, 8⟩
@[reducible] def WAN_BRG_CTRL.addr : Nat := 0x01C00008
@[reducible] def WAN_BRG_CTRL.INJ_RING : Field := ⟨0x01C00008, 0, 4⟩
@[reducible] def WAN_BRG_CTRL.PUNT_RING : Field := ⟨0x01C00008, 4, 6⟩
@[reducible] def WAN_BRG_SYSID_LO.addr : Nat := 0x01C0000C
@[reducible] def WAN_BRG_SYSID_LO.SYSID : Field := ⟨0x01C0000C, 0, 32⟩
@[reducible] def WAN_BRG_SYSID_HI.addr : Nat := 0x01C00010
@[reducible] def WAN_BRG_SYSID_HI.SYSID : Field := ⟨0x01C00010, 0, 16⟩
@[reducible] def WAN_BRG_DA_LO.addr : Nat := 0x01C00014
@[reducible] def WAN_BRG_DA_LO.DA : Field := ⟨0x01C00014, 0, 32⟩
@[reducible] def WAN_BRG_DA_HI.addr : Nat := 0x01C00018
@[reducible] def WAN_BRG_DA_HI.DA : Field := ⟨0x01C00018, 0, 16⟩
@[reducible] def WAN_MS_TIMER.addr : Nat := 0x01C0001C
@[reducible] def WAN_MS_TIMER.RTO : Field := ⟨0x01C0001C, 0, 24⟩
@[reducible] def WAN_MS_TIMER.RETRY : Field := ⟨0x01C0001C, 24, 4⟩
@[reducible] def WAN_MS_TIMER2.addr : Nat := 0x01C00020
@[reducible] def WAN_MS_TIMER2.GAP : Field := ⟨0x01C00020, 0, 8⟩
@[reducible] def WAN_MS_TIMER2.CONFIRM : Field := ⟨0x01C00020, 8, 16⟩
@[reducible] def WAN_MS_RETUNE.addr : Nat := 0x01C00024
@[reducible] def WAN_MS_RETUNE.MAX : Field := ⟨0x01C00024, 0, 24⟩
@[reducible] def WAN_MS_RETUNE.SWDLY : Field := ⟨0x01C00024, 24, 8⟩
@[reducible] def WAN_MS_POLL.addr : Nat := 0x01C00028
@[reducible] def WAN_MS_POLL.POLL_LOG2 : Field := ⟨0x01C00028, 0, 5⟩
@[reducible] def WAN_MS_POLL.AVG_LOG2 : Field := ⟨0x01C00028, 5, 3⟩
@[reducible] def WAN_MS_POLL.HYST : Field := ⟨0x01C00028, 16, 8⟩
@[reducible] def WAN_BRG_BAD.addr : Nat := 0x01C0002C
@[reducible] def WAN_BRG_BAD.COUNT : Field := ⟨0x01C0002C, 0, 32⟩
@[reducible] def WAN_TS_STATUS.addr : Nat := 0x01C00030
@[reducible] def WAN_TS_STATUS.COUNT : Field := ⟨0x01C00030, 0, 7⟩
@[reducible] def WAN_TS_STATUS.OVF : Field := ⟨0x01C00030, 16, 16⟩
@[reducible] def WAN_TS_ENT0.addr : Nat := 0x01C00034
@[reducible] def WAN_TS_ENT0.VALID : Field := ⟨0x01C00034, 31, 1⟩
@[reducible] def WAN_TS_ENT0.PORT : Field := ⟨0x01C00034, 23, 8⟩
@[reducible] def WAN_TS_ENT0.TAG : Field := ⟨0x01C00034, 0, 15⟩
@[reducible] def WAN_TS_ENT1.addr : Nat := 0x01C00038
@[reducible] def WAN_TS_ENT1.NS : Field := ⟨0x01C00038, 0, 32⟩
@[reducible] def WAN_TS_ENT2.addr : Nat := 0x01C0003C
@[reducible] def WAN_TS_ENT2.SEC : Field := ⟨0x01C0003C, 0, 32⟩
@[reducible] def WAN_TS_ENT3.addr : Nat := 0x01C00040
@[reducible] def WAN_TS_ENT3.SEC : Field := ⟨0x01C00040, 0, 16⟩
@[reducible] def WAN_CM_ADDR.addr : Nat := 0x01C00044
@[reducible] def WAN_CM_ADDR.CAGE : Field := ⟨0x01C00044, 0, 5⟩
@[reducible] def WAN_CM_ADDR.PAGE : Field := ⟨0x01C00044, 8, 8⟩
@[reducible] def WAN_CM_ADDR.OFFSET : Field := ⟨0x01C00044, 16, 8⟩
@[reducible] def WAN_CM_ADDR.LEN : Field := ⟨0x01C00044, 24, 7⟩
@[reducible] def WAN_CM_CMD.addr : Nat := 0x01C00048
@[reducible] def WAN_CM_CMD.RD : Field := ⟨0x01C00048, 0, 1⟩
@[reducible] def WAN_CM_CMD.WR : Field := ⟨0x01C00048, 1, 1⟩
@[reducible] def WAN_CM_CMD.BANK : Field := ⟨0x01C00048, 8, 8⟩
@[reducible] def WAN_CM_STATUS.addr : Nat := 0x01C0004C
@[reducible] def WAN_CM_STATUS.BUSY : Field := ⟨0x01C0004C, 0, 1⟩
@[reducible] def WAN_CM_STATUS.DONE : Field := ⟨0x01C0004C, 1, 1⟩
@[reducible] def WAN_CM_STATUS.ERR : Field := ⟨0x01C0004C, 2, 1⟩
@[reducible] def WAN_CM_STATUS.CODE : Field := ⟨0x01C0004C, 8, 8⟩
@[reducible] def WAN_CM_DATA.addr (n : Nat) : Nat := 0x01C00100 + 4 * n
@[reducible] def WAN_CM_DATA.DATA (n : Nat) : Field := ⟨0x01C00100 + 4 * n, 0, 32⟩
@[reducible] def WAN_CAGE.addr (n : Nat) : Nat := 0x01C00200 + 4 * n
@[reducible] def WAN_CAGE.MODE (n : Nat) : Field := ⟨0x01C00200 + 4 * n, 0, 3⟩
@[reducible] def WAN_CAGE.LOOP (n : Nat) : Field := ⟨0x01C00200 + 4 * n, 3, 1⟩
@[reducible] def WAN_PORT_CFG.addr (n : Nat) : Nat := 0x01C00400 + 4 * n
@[reducible] def WAN_PORT_CFG.MAXF (n : Nat) : Field := ⟨0x01C00400 + 4 * n, 0, 14⟩
@[reducible] def WAN_PORT_CFG.MSPROF (n : Nat) : Field := ⟨0x01C00400 + 4 * n, 14, 3⟩
@[reducible] def WAN_PORT_CFG.MS_EN (n : Nat) : Field := ⟨0x01C00400 + 4 * n, 17, 1⟩
@[reducible] def WAN_PORT_CFG.DNDEB (n : Nat) : Field := ⟨0x01C00400 + 4 * n, 18, 6⟩
@[reducible] def WAN_PORT_CFG.UPDEB (n : Nat) : Field := ⟨0x01C00400 + 4 * n, 24, 8⟩
@[reducible] def WAN_PORT_ST.addr (n : Nat) : Nat := 0x01C00800 + 4 * n
@[reducible] def WAN_PORT_ST.LINK (n : Nat) : Field := ⟨0x01C00800 + 4 * n, 0, 1⟩
@[reducible] def WAN_PORT_ST.MASKED (n : Nat) : Field := ⟨0x01C00800 + 4 * n, 1, 1⟩
@[reducible] def WAN_PORT_ST.CEIL (n : Nat) : Field := ⟨0x01C00800 + 4 * n, 2, 6⟩
@[reducible] def WAN_PORT_ST.ENTRY (n : Nat) : Field := ⟨0x01C00800 + 4 * n, 8, 4⟩
@[reducible] def WAN_PORT_ST.ESNR (n : Nat) : Field := ⟨0x01C00800 + 4 * n, 16, 16⟩
@[reducible] def WAN_MS_ST.addr (n : Nat) : Nat := 0x01C00C00 + 4 * n
@[reducible] def WAN_MS_ST.STATE (n : Nat) : Field := ⟨0x01C00C00 + 4 * n, 0, 3⟩
@[reducible] def WAN_MS_ST.LEADER (n : Nat) : Field := ⟨0x01C00C00 + 4 * n, 3, 1⟩
@[reducible] def WAN_MS_ST.RETUNE (n : Nat) : Field := ⟨0x01C00C00 + 4 * n, 4, 1⟩
@[reducible] def WAN_MS_ST.TARGET (n : Nat) : Field := ⟨0x01C00C00 + 4 * n, 8, 4⟩
@[reducible] def WAN_MS_ST.REASON (n : Nat) : Field := ⟨0x01C00C00 + 4 * n, 16, 8⟩
@[reducible] def WAN_LANE.addr (n : Nat) : Nat := 0x01C01000 + 4 * n
@[reducible] def WAN_LANE.TX_POL (n : Nat) : Field := ⟨0x01C01000 + 4 * n, 0, 1⟩
@[reducible] def WAN_LANE.RX_POL (n : Nat) : Field := ⟨0x01C01000 + 4 * n, 1, 1⟩
@[reducible] def WAN_LANE.TXFIR (n : Nat) : Field := ⟨0x01C01000 + 4 * n, 2, 4⟩
@[reducible] def WAN_LANE.LOCK (n : Nat) : Field := ⟨0x01C01000 + 4 * n, 6, 1⟩
@[reducible] def WAN_MT.addr (n k : Nat) : Nat := 0x01C02000 + 64 * n + 4 * k
@[reducible] def WAN_MT.ENTRY (n k : Nat) : Field := ⟨0x01C02000 + 64 * n + 4 * k, 0, 32⟩
@[reducible] def WAN_CNT.addr (n k : Nat) : Nat := 0x01C10000 + 64 * n + 4 * k
@[reducible] def WAN_CNT.COUNT (n k : Nat) : Field := ⟨0x01C10000 + 64 * n + 4 * k, 0, 32⟩
/-! ### CGE -/
@[reducible] def CGE_CFG.addr : Nat := 0x02000000
@[reducible] def CGE_CFG.PDEB : Field := ⟨0x02000000, 0, 4⟩
@[reducible] def CGE_CFG.AUTO_OFF : Field := ⟨0x02000000, 4, 1⟩
@[reducible] def CGE_CFG.AUTO_ON : Field := ⟨0x02000000, 5, 1⟩
@[reducible] def CGE_CFG.RSTHOLD : Field := ⟨0x02000000, 8, 4⟩
@[reducible] def CGE_STATUS.addr : Nat := 0x02000004
@[reducible] def CGE_STATUS.CHAIN0_ERR : Field := ⟨0x02000004, 0, 1⟩
@[reducible] def CGE_STATUS.CHAIN1_ERR : Field := ⟨0x02000004, 1, 1⟩
@[reducible] def CGE_STATUS.EVT : Field := ⟨0x02000004, 2, 1⟩
@[reducible] def CGE_CHAIN_ERR0.addr : Nat := 0x02000008
@[reducible] def CGE_CHAIN_ERR0.COUNT : Field := ⟨0x02000008, 0, 32⟩
@[reducible] def CGE_CHAIN_ERR1.addr : Nat := 0x0200000C
@[reducible] def CGE_CHAIN_ERR1.COUNT : Field := ⟨0x0200000C, 0, 32⟩
@[reducible] def CGE_SLOT_CTL.addr (n : Nat) : Nat := 0x02000100 + 8 * n
@[reducible] def CGE_SLOT_CTL.ABP_EN (n : Nat) : Field := ⟨0x02000100 + 8 * n, 0, 1⟩
@[reducible] def CGE_SLOT_CTL.PFD_EN (n : Nat) : Field := ⟨0x02000100 + 8 * n, 1, 1⟩
@[reducible] def CGE_SLOT_CTL.PDC_EN (n : Nat) : Field := ⟨0x02000100 + 8 * n, 2, 1⟩
@[reducible] def CGE_SLOT_CTL.MIC_EN (n : Nat) : Field := ⟨0x02000100 + 8 * n, 3, 1⟩
@[reducible] def CGE_SLOT_CTL.CC_EN (n : Nat) : Field := ⟨0x02000100 + 8 * n, 4, 1⟩
@[reducible] def CGE_SLOT_CTL.AIC (n : Nat) : Field := ⟨0x02000100 + 8 * n, 6, 2⟩
@[reducible] def CGE_SLOT_CTL.PIC (n : Nat) : Field := ⟨0x02000100 + 8 * n, 8, 2⟩
@[reducible] def CGE_SLOT_CTL.PCC (n : Nat) : Field := ⟨0x02000100 + 8 * n, 10, 1⟩
@[reducible] def CGE_SLOT_CTL.RESET (n : Nat) : Field := ⟨0x02000100 + 8 * n, 11, 1⟩
@[reducible] def CGE_SLOT_CTL.LPMODE (n : Nat) : Field := ⟨0x02000100 + 8 * n, 12, 1⟩
@[reducible] def CGE_SLOT_STS.addr (n : Nat) : Nat := 0x02000104 + 8 * n
@[reducible] def CGE_SLOT_STS.ABP (n : Nat) : Field := ⟨0x02000104 + 8 * n, 0, 1⟩
@[reducible] def CGE_SLOT_STS.PFD (n : Nat) : Field := ⟨0x02000104 + 8 * n, 1, 1⟩
@[reducible] def CGE_SLOT_STS.PDC (n : Nat) : Field := ⟨0x02000104 + 8 * n, 2, 1⟩
@[reducible] def CGE_SLOT_STS.MIC (n : Nat) : Field := ⟨0x02000104 + 8 * n, 3, 1⟩
@[reducible] def CGE_SLOT_STS.CC (n : Nat) : Field := ⟨0x02000104 + 8 * n, 4, 1⟩
@[reducible] def CGE_SLOT_STS.PDS (n : Nat) : Field := ⟨0x02000104 + 8 * n, 5, 1⟩
@[reducible] def CGE_SLOT_STS.MINT (n : Nat) : Field := ⟨0x02000104 + 8 * n, 6, 1⟩
@[reducible] def CGE_SLOT_STS.PWR (n : Nat) : Field := ⟨0x02000104 + 8 * n, 7, 1⟩
@[reducible] def CGE_SLOT_STS.PFLT (n : Nat) : Field := ⟨0x02000104 + 8 * n, 8, 1⟩
/-! ### FAB -/
@[reducible] def FAB_STATUS.addr : Nat := 0x02100000
@[reducible] def FAB_STATUS.UP : Field := ⟨0x02100000, 0, 1⟩
@[reducible] def FAB_STATUS.HOP_ERR : Field := ⟨0x02100000, 1, 1⟩
@[reducible] def FAB_STATUS.LANE_CHG : Field := ⟨0x02100000, 2, 1⟩
@[reducible] def FAB_STATUS.XOFF_SENT : Field := ⟨0x02100000, 3, 1⟩
@[reducible] def FAB_CTRL.addr : Nat := 0x02100004
@[reducible] def FAB_CTRL.EN : Field := ⟨0x02100004, 0, 1⟩
@[reducible] def FAB_CTRL.MINLANES : Field := ⟨0x02100004, 1, 3⟩
@[reducible] def FAB_CTRL.UPDEB : Field := ⟨0x02100004, 4, 8⟩
@[reducible] def FAB_DEVID.addr : Nat := 0x02100008
@[reducible] def FAB_DEVID.ID : Field := ⟨0x02100008, 0, 10⟩
@[reducible] def FAB_HOP.addr : Nat := 0x0210000C
@[reducible] def FAB_HOP.TICKS : Field := ⟨0x0210000C, 0, 8⟩
@[reducible] def FAB_HOP.L : Field := ⟨0x0210000C, 8, 8⟩
@[reducible] def FAB_STAGE.addr : Nat := 0x02100010
@[reducible] def FAB_STAGE.SIZE : Field := ⟨0x02100010, 0, 20⟩
@[reducible] def FAB_XOFF_TH.addr : Nat := 0x02100014
@[reducible] def FAB_XOFF_TH.HI : Field := ⟨0x02100014, 0, 12⟩
@[reducible] def FAB_XOFF_TH.LO : Field := ⟨0x02100014, 16, 12⟩
@[reducible] def FAB_CW_UNCORR.addr : Nat := 0x02100018
@[reducible] def FAB_CW_UNCORR.COUNT : Field := ⟨0x02100018, 0, 32⟩
@[reducible] def FAB_CELL_BAD.addr : Nat := 0x0210001C
@[reducible] def FAB_CELL_BAD.COUNT : Field := ⟨0x0210001C, 0, 32⟩
@[reducible] def FAB_LOST.addr : Nat := 0x02100020
@[reducible] def FAB_LOST.COUNT : Field := ⟨0x02100020, 0, 32⟩
@[reducible] def FAB_ERR_CHAIN.addr : Nat := 0x02100024
@[reducible] def FAB_ERR_CHAIN.COUNT : Field := ⟨0x02100024, 0, 32⟩
@[reducible] def FAB_NOSLOT.addr : Nat := 0x02100028
@[reducible] def FAB_NOSLOT.COUNT : Field := ⟨0x02100028, 0, 32⟩
@[reducible] def FAB_NOSTAGE.addr : Nat := 0x0210002C
@[reducible] def FAB_NOSTAGE.COUNT : Field := ⟨0x0210002C, 0, 32⟩
@[reducible] def FAB_DROP_UNREACH.addr : Nat := 0x02100030
@[reducible] def FAB_DROP_UNREACH.COUNT : Field := ⟨0x02100030, 0, 32⟩
@[reducible] def FAB_DROP_FIFO.addr : Nat := 0x02100034
@[reducible] def FAB_DROP_FIFO.COUNT : Field := ⟨0x02100034, 0, 32⟩
@[reducible] def FAB_CTRL_BAD.addr : Nat := 0x02100038
@[reducible] def FAB_CTRL_BAD.COUNT : Field := ⟨0x02100038, 0, 32⟩
@[reducible] def FAB_LANE.addr (n : Nat) : Nat := 0x02100100 + 4 * n
@[reducible] def FAB_LANE.RXLOCK (n : Nat) : Field := ⟨0x02100100 + 4 * n, 0, 1⟩
@[reducible] def FAB_LANE.FAR_GOOD (n : Nat) : Field := ⟨0x02100100 + 4 * n, 1, 1⟩
@[reducible] def FAB_LANE.IN_SET (n : Nat) : Field := ⟨0x02100100 + 4 * n, 2, 1⟩
@[reducible] def FAB_LANE.TX_POL (n : Nat) : Field := ⟨0x02100100 + 4 * n, 3, 1⟩
@[reducible] def FAB_LANE.RX_POL (n : Nat) : Field := ⟨0x02100100 + 4 * n, 4, 1⟩
@[reducible] def FAB_LANE.TXFIR (n : Nat) : Field := ⟨0x02100100 + 4 * n, 5, 4⟩
@[reducible] def FAB_LANE.PROP (n : Nat) : Field := ⟨0x02100100 + 4 * n, 9, 11⟩
@[reducible] def FAB_VP.addr (n : Nat) : Nat := 0x02100800 + 4 * n
@[reducible] def FAB_VP.EN (n : Nat) : Field := ⟨0x02100800 + 4 * n, 0, 1⟩
@[reducible] def FAB_VP.DDEV (n : Nat) : Field := ⟨0x02100800 + 4 * n, 1, 10⟩
@[reducible] def FAB_VP.DPIPE (n : Nat) : Field := ⟨0x02100800 + 4 * n, 11, 6⟩
@[reducible] def FAB_VP.CLASS (n : Nat) : Field := ⟨0x02100800 + 4 * n, 17, 3⟩
@[reducible] def FAB_GRANT.addr (n : Nat) : Nat := 0x02100C00 + 4 * n
@[reducible] def FAB_GRANT.BITS (n : Nat) : Field := ⟨0x02100C00 + 4 * n, 0, 32⟩
@[reducible] def FAB_REACH.addr (n : Nat) : Nat := 0x02100C80 + 4 * n
@[reducible] def FAB_REACH.BITS (n : Nat) : Field := ⟨0x02100C80 + 4 * n, 0, 32⟩
/-! ### NRG -/
@[reducible] def NRG_CTRL.addr : Nat := 0x02200000
@[reducible] def NRG_CTRL.EN : Field := ⟨0x02200000, 0, 1⟩
@[reducible] def NRG_CTRL.WIN_LOG2 : Field := ⟨0x02200000, 1, 5⟩
@[reducible] def NRG_STATUS.addr : Nat := 0x02200004
@[reducible] def NRG_STATUS.NEXT_VAR : Field := ⟨0x02200004, 0, 2⟩
@[reducible] def NRG_STATUS.PEND : Field := ⟨0x02200004, 2, 1⟩
@[reducible] def NRG_STATUS.NEG : Field := ⟨0x02200004, 3, 1⟩
@[reducible] def NRG_STATUS.CFG_ERR : Field := ⟨0x02200004, 4, 1⟩
@[reducible] def NRG_STATUS.SAG_A : Field := ⟨0x02200004, 5, 2⟩
@[reducible] def NRG_STATUS.SAG_T : Field := ⟨0x02200004, 7, 2⟩
@[reducible] def NRG_STATUS.SAG_EVT : Field := ⟨0x02200004, 9, 1⟩
@[reducible] def NRG_BUDGET.addr : Nat := 0x02200008
@[reducible] def NRG_BUDGET.EU : Field := ⟨0x02200008, 0, 24⟩
@[reducible] def NRG_CAP.addr : Nat := 0x0220000C
@[reducible] def NRG_CAP.EU : Field := ⟨0x0220000C, 0, 32⟩
@[reducible] def NRG_FLOOR.addr : Nat := 0x02200010
@[reducible] def NRG_FLOOR.EU : Field := ⟨0x02200010, 0, 32⟩
@[reducible] def NRG_BAL_LO.addr : Nat := 0x02200014
@[reducible] def NRG_BAL_LO.BAL : Field := ⟨0x02200014, 0, 32⟩
@[reducible] def NRG_BAL_HI.addr : Nat := 0x02200018
@[reducible] def NRG_BAL_HI.BAL : Field := ⟨0x02200018, 0, 16⟩
@[reducible] def NRG_LAST_COST.addr : Nat := 0x0220001C
@[reducible] def NRG_LAST_COST.EU : Field := ⟨0x0220001C, 0, 32⟩
@[reducible] def NRG_LAST_PLAN.addr : Nat := 0x02200020
@[reducible] def NRG_LAST_PLAN.EU : Field := ⟨0x02200020, 0, 32⟩
@[reducible] def NRG_CAL_PEND.addr : Nat := 0x02200024
@[reducible] def NRG_CAL_PEND.K : Field := ⟨0x02200024, 0, 13⟩
@[reducible] def NRG_CAL_ACT.addr : Nat := 0x02200028
@[reducible] def NRG_CAL_ACT.K : Field := ⟨0x02200028, 0, 13⟩
@[reducible] def NRG_COST_IDX.addr : Nat := 0x0220002C
@[reducible] def NRG_COST_IDX.INDEX : Field := ⟨0x0220002C, 0, 6⟩
@[reducible] def NRG_COST_IDX.ACT : Field := ⟨0x0220002C, 8, 1⟩
@[reducible] def NRG_COST_DATA.addr : Nat := 0x02200030
@[reducible] def NRG_COST_DATA.VALUE : Field := ⟨0x02200030, 0, 24⟩
@[reducible] def NRG_SR_CTRL.addr : Nat := 0x02200034
@[reducible] def NRG_SR_CTRL.MIN_AWAKE : Field := ⟨0x02200034, 0, 3⟩
@[reducible] def NRG_SR_CTRL.WAKE : Field := ⟨0x02200034, 8, 16⟩
@[reducible] def NRG_MEAS_LO.addr : Nat := 0x02200038
@[reducible] def NRG_MEAS_LO.EU : Field := ⟨0x02200038, 0, 32⟩
@[reducible] def NRG_MEAS_HI.addr : Nat := 0x0220003C
@[reducible] def NRG_MEAS_HI.EU : Field := ⟨0x0220003C, 0, 16⟩
@[reducible] def NRG_MODEL_LO.addr : Nat := 0x02200040
@[reducible] def NRG_MODEL_LO.EU : Field := ⟨0x02200040, 0, 32⟩
@[reducible] def NRG_MODEL_HI.addr : Nat := 0x02200044
@[reducible] def NRG_MODEL_HI.EU : Field := ⟨0x02200044, 0, 16⟩
@[reducible] def NRG_SAG_CTRL.addr : Nat := 0x02200048
@[reducible] def NRG_SAG_CTRL.WARN : Field := ⟨0x02200048, 0, 4⟩
@[reducible] def NRG_SAG_CTRL.HYST : Field := ⟨0x02200048, 4, 4⟩
@[reducible] def NRG_SAG_LAST.addr : Nat := 0x0220004C
@[reducible] def NRG_SAG_LAST.DIE : Field := ⟨0x0220004C, 0, 1⟩
@[reducible] def NRG_SAG_LAST.LEVEL : Field := ⟨0x0220004C, 1, 2⟩
@[reducible] def NRG_SAG_LAST.CYCLES : Field := ⟨0x0220004C, 8, 24⟩
@[reducible] def NRG_SAG_TICK_LO.addr : Nat := 0x02200050
@[reducible] def NRG_SAG_TICK_LO.TICK : Field := ⟨0x02200050, 0, 32⟩
@[reducible] def NRG_SAG_TICK_HI.addr : Nat := 0x02200054
@[reducible] def NRG_SAG_TICK_HI.TICK : Field := ⟨0x02200054, 0, 16⟩
@[reducible] def NRG_VAR_L1.addr : Nat := 0x02200058
@[reducible] def NRG_VAR_L1.COUNT : Field := ⟨0x02200058, 0, 32⟩
@[reducible] def NRG_VAR_L2.addr : Nat := 0x0220005C
@[reducible] def NRG_VAR_L2.COUNT : Field := ⟨0x0220005C, 0, 32⟩
@[reducible] def NRG_VAR_L3.addr : Nat := 0x02200060
@[reducible] def NRG_VAR_L3.COUNT : Field := ⟨0x02200060, 0, 32⟩
@[reducible] def NRG_SHED_DROP.addr : Nat := 0x02200064
@[reducible] def NRG_SHED_DROP.COUNT : Field := ⟨0x02200064, 0, 32⟩
@[reducible] def NRG_SAG_WARN_A.addr : Nat := 0x02200068
@[reducible] def NRG_SAG_WARN_A.COUNT : Field := ⟨0x02200068, 0, 32⟩
@[reducible] def NRG_SAG_WARN_T.addr : Nat := 0x0220006C
@[reducible] def NRG_SAG_WARN_T.COUNT : Field := ⟨0x0220006C, 0, 32⟩
@[reducible] def NRG_SAG_DEEP_A.addr : Nat := 0x02200070
@[reducible] def NRG_SAG_DEEP_A.COUNT : Field := ⟨0x02200070, 0, 32⟩
@[reducible] def NRG_SAG_DEEP_T.addr : Nat := 0x02200074
@[reducible] def NRG_SAG_DEEP_T.COUNT : Field := ⟨0x02200074, 0, 32⟩
@[reducible] def NRG_SHED.addr (n : Nat) : Nat := 0x02200100 + 4 * n
@[reducible] def NRG_SHED.CLASS (n : Nat) : Field := ⟨0x02200100 + 4 * n, 0, 32⟩
/-! ### HST -/
@[reducible] def HST_STATUS.addr : Nat := 0x02300000
@[reducible] def HST_STATUS.LINK_UP : Field := ⟨0x02300000, 0, 1⟩
@[reducible] def HST_STATUS.BME_HALT : Field := ⟨0x02300000, 1, 1⟩
@[reducible] def HST_STATUS.FLR : Field := ⟨0x02300000, 2, 1⟩
@[reducible] def HST_STATUS.LINK_LOSS : Field := ⟨0x02300000, 3, 1⟩
@[reducible] def HST_STATUS.RING_ERR : Field := ⟨0x02300000, 4, 1⟩
@[reducible] def HST_STATUS.SPEED : Field := ⟨0x02300000, 8, 4⟩
@[reducible] def HST_STATUS.WIDTH : Field := ⟨0x02300000, 12, 4⟩
@[reducible] def HST_STATUS.FLIT : Field := ⟨0x02300000, 16, 1⟩
@[reducible] def HST_CTRL.addr : Nat := 0x02300004
@[reducible] def HST_CTRL.PUNT_WAIT : Field := ⟨0x02300004, 0, 16⟩
@[reducible] def HST_WIN_COMMIT.addr : Nat := 0x02300008
@[reducible] def HST_WIN_COMMIT.COMMIT : Field := ⟨0x02300008, 0, 1⟩
@[reducible] def HST_WIN_COMMIT.PENDING : Field := ⟨0x02300008, 1, 1⟩
@[reducible] def HST_BAD_ACCESS.addr : Nat := 0x0230000C
@[reducible] def HST_BAD_ACCESS.COUNT : Field := ⟨0x0230000C, 0, 32⟩
@[reducible] def HST_UNEXP_CPL.addr : Nat := 0x02300010
@[reducible] def HST_UNEXP_CPL.COUNT : Field := ⟨0x02300010, 0, 32⟩
@[reducible] def HST_CPL_TO.addr : Nat := 0x02300014
@[reducible] def HST_CPL_TO.COUNT : Field := ⟨0x02300014, 0, 32⟩
@[reducible] def HST_WIN_DROP.addr : Nat := 0x02300018
@[reducible] def HST_WIN_DROP.COUNT : Field := ⟨0x02300018, 0, 32⟩
@[reducible] def HST_IRQ_MAP.addr (n : Nat) : Nat := 0x02300100 + 4 * n
@[reducible] def HST_IRQ_MAP.VEC (n : Nat) : Field := ⟨0x02300100 + 4 * n, 0, 10⟩
@[reducible] def HST_IRQ_MAP.EN (n : Nat) : Field := ⟨0x02300100 + 4 * n, 16, 1⟩
@[reducible] def HST_PUNT_BASE_LO.addr (n : Nat) : Nat := 0x02301000 + 32 * n
@[reducible] def HST_PUNT_BASE_LO.BASE (n : Nat) : Field := ⟨0x02301000 + 32 * n, 6, 26⟩
@[reducible] def HST_PUNT_BASE_HI.addr (n : Nat) : Nat := 0x02301004 + 32 * n
@[reducible] def HST_PUNT_BASE_HI.BASE (n : Nat) : Field := ⟨0x02301004 + 32 * n, 0, 32⟩
@[reducible] def HST_PUNT_CFG.addr (n : Nat) : Nat := 0x02301008 + 32 * n
@[reducible] def HST_PUNT_CFG.EN (n : Nat) : Field := ⟨0x02301008 + 32 * n, 0, 1⟩
@[reducible] def HST_PUNT_CFG.ARM (n : Nat) : Field := ⟨0x02301008 + 32 * n, 1, 1⟩
@[reducible] def HST_PUNT_CFG.SIZE_LOG2 (n : Nat) : Field := ⟨0x02301008 + 32 * n, 2, 4⟩
@[reducible] def HST_PUNT_CFG.VEC (n : Nat) : Field := ⟨0x02301008 + 32 * n, 16, 10⟩
@[reducible] def HST_PUNT_CFG.IRQ_EN (n : Nat) : Field := ⟨0x02301008 + 32 * n, 26, 1⟩
@[reducible] def HST_PUNT_STATE.addr (n : Nat) : Nat := 0x0230100C + 32 * n
@[reducible] def HST_PUNT_STATE.STATE (n : Nat) : Field := ⟨0x0230100C + 32 * n, 0, 3⟩
@[reducible] def HST_PUNT_STATE.ERR (n : Nat) : Field := ⟨0x0230100C + 32 * n, 8, 8⟩
@[reducible] def HST_PUNT_STATE.PHASE (n : Nat) : Field := ⟨0x0230100C + 32 * n, 16, 1⟩
@[reducible] def HST_PUNT_HEAD.addr (n : Nat) : Nat := 0x02301010 + 32 * n
@[reducible] def HST_PUNT_HEAD.COUNT (n : Nat) : Field := ⟨0x02301010 + 32 * n, 0, 16⟩
@[reducible] def HST_PUNT_TAIL.addr (n : Nat) : Nat := 0x02301014 + 32 * n
@[reducible] def HST_PUNT_TAIL.COUNT (n : Nat) : Field := ⟨0x02301014 + 32 * n, 0, 16⟩
@[reducible] def HST_PUNT_PUNT.addr (n : Nat) : Nat := 0x02301018 + 32 * n
@[reducible] def HST_PUNT_PUNT.COUNT (n : Nat) : Field := ⟨0x02301018 + 32 * n, 0, 32⟩
@[reducible] def HST_PUNT_DROP.addr (n : Nat) : Nat := 0x0230101C + 32 * n
@[reducible] def HST_PUNT_DROP.COUNT (n : Nat) : Field := ⟨0x0230101C + 32 * n, 0, 32⟩
@[reducible] def HST_INJ_BASE_LO.addr (n : Nat) : Nat := 0x02301800 + 32 * n
@[reducible] def HST_INJ_BASE_LO.BASE (n : Nat) : Field := ⟨0x02301800 + 32 * n, 6, 26⟩
@[reducible] def HST_INJ_BASE_HI.addr (n : Nat) : Nat := 0x02301804 + 32 * n
@[reducible] def HST_INJ_BASE_HI.BASE (n : Nat) : Field := ⟨0x02301804 + 32 * n, 0, 32⟩
@[reducible] def HST_INJ_CFG.addr (n : Nat) : Nat := 0x02301808 + 32 * n
@[reducible] def HST_INJ_CFG.EN (n : Nat) : Field := ⟨0x02301808 + 32 * n, 0, 1⟩
@[reducible] def HST_INJ_CFG.ARM (n : Nat) : Field := ⟨0x02301808 + 32 * n, 1, 1⟩
@[reducible] def HST_INJ_CFG.SIZE_LOG2 (n : Nat) : Field := ⟨0x02301808 + 32 * n, 2, 4⟩
@[reducible] def HST_INJ_CFG.REPLAY (n : Nat) : Field := ⟨0x02301808 + 32 * n, 6, 1⟩
@[reducible] def HST_INJ_CFG.VEC (n : Nat) : Field := ⟨0x02301808 + 32 * n, 16, 10⟩
@[reducible] def HST_INJ_CFG.IRQ_EN (n : Nat) : Field := ⟨0x02301808 + 32 * n, 26, 1⟩
@[reducible] def HST_INJ_STATE.addr (n : Nat) : Nat := 0x0230180C + 32 * n
@[reducible] def HST_INJ_STATE.STATE (n : Nat) : Field := ⟨0x0230180C + 32 * n, 0, 3⟩
@[reducible] def HST_INJ_STATE.ERR (n : Nat) : Field := ⟨0x0230180C + 32 * n, 8, 8⟩
@[reducible] def HST_INJ_HEAD.addr (n : Nat) : Nat := 0x02301810 + 32 * n
@[reducible] def HST_INJ_HEAD.COUNT (n : Nat) : Field := ⟨0x02301810 + 32 * n, 0, 16⟩
@[reducible] def HST_INJ_TAIL.addr (n : Nat) : Nat := 0x02301814 + 32 * n
@[reducible] def HST_INJ_TAIL.COUNT (n : Nat) : Field := ⟨0x02301814 + 32 * n, 0, 16⟩
@[reducible] def HST_INJ_WB_LO.addr (n : Nat) : Nat := 0x02301818 + 32 * n
@[reducible] def HST_INJ_WB_LO.ADDR (n : Nat) : Field := ⟨0x02301818 + 32 * n, 2, 30⟩
@[reducible] def HST_INJ_WB_HI.addr (n : Nat) : Nat := 0x0230181C + 32 * n
@[reducible] def HST_INJ_WB_HI.ADDR (n : Nat) : Field := ⟨0x0230181C + 32 * n, 0, 32⟩
@[reducible] def HST_WIN_NEXT_LO.addr (n : Nat) : Nat := 0x02302000 + 32 * n
@[reducible] def HST_WIN_NEXT_LO.ADDR (n : Nat) : Field := ⟨0x02302000 + 32 * n, 20, 12⟩
@[reducible] def HST_WIN_NEXT_HI.addr (n : Nat) : Nat := 0x02302004 + 32 * n
@[reducible] def HST_WIN_NEXT_HI.ADDR (n : Nat) : Field := ⟨0x02302004 + 32 * n, 0, 10⟩
@[reducible] def HST_WIN_NEXT_CTL.addr (n : Nat) : Nat := 0x02302008 + 32 * n
@[reducible] def HST_WIN_NEXT_CTL.EN (n : Nat) : Field := ⟨0x02302008 + 32 * n, 0, 1⟩
@[reducible] def HST_WIN_NEXT_CTL.WR (n : Nat) : Field := ⟨0x02302008 + 32 * n, 1, 1⟩
@[reducible] def HST_WIN_CUR_LO.addr (n : Nat) : Nat := 0x02302010 + 32 * n
@[reducible] def HST_WIN_CUR_LO.ADDR (n : Nat) : Field := ⟨0x02302010 + 32 * n, 20, 12⟩
@[reducible] def HST_WIN_CUR_HI.addr (n : Nat) : Nat := 0x02302014 + 32 * n
@[reducible] def HST_WIN_CUR_HI.ADDR (n : Nat) : Field := ⟨0x02302014 + 32 * n, 0, 10⟩
@[reducible] def HST_WIN_CUR_CTL.addr (n : Nat) : Nat := 0x02302018 + 32 * n
@[reducible] def HST_WIN_CUR_CTL.EN (n : Nat) : Field := ⟨0x02302018 + 32 * n, 0, 1⟩
@[reducible] def HST_WIN_CUR_CTL.WR (n : Nat) : Field := ⟨0x02302018 + 32 * n, 1, 1⟩
/-! ### CXL -/
@[reducible] def CXL_STATUS.addr : Nat := 0x02400000
@[reducible] def CXL_STATUS.CFG_ERR : Field := ⟨0x02400000, 0, 1⟩
@[reducible] def CXL_STATUS.PORT_CHG : Field := ⟨0x02400000, 1, 1⟩
@[reducible] def CXL_CFG_ERR.addr : Nat := 0x02400004
@[reducible] def CXL_CFG_ERR.DEC : Field := ⟨0x02400004, 0, 3⟩
@[reducible] def CXL_CFG_ERR.CODE : Field := ⟨0x02400004, 8, 8⟩
@[reducible] def CXL_TIMEOUT.addr : Nat := 0x02400008
@[reducible] def CXL_TIMEOUT.TICKS : Field := ⟨0x02400008, 0, 16⟩
@[reducible] def CXL_RGN_VIOL.addr : Nat := 0x0240000C
@[reducible] def CXL_RGN_VIOL.COUNT : Field := ⟨0x0240000C, 0, 32⟩
@[reducible] def CXL_RGN_A.addr (n : Nat) : Nat := 0x02400040 + 8 * n
@[reducible] def CXL_RGN_A.BASE (n : Nat) : Field := ⟨0x02400040 + 8 * n, 0, 22⟩
@[reducible] def CXL_RGN_B.addr (n : Nat) : Nat := 0x02400044 + 8 * n
@[reducible] def CXL_RGN_B.LIMIT (n : Nat) : Field := ⟨0x02400044 + 8 * n, 0, 22⟩
@[reducible] def CXL_DEC_A.addr (n : Nat) : Nat := 0x02400080 + 12 * n
@[reducible] def CXL_DEC_A.VALID (n : Nat) : Field := ⟨0x02400080 + 12 * n, 0, 1⟩
@[reducible] def CXL_DEC_A.WAYS (n : Nat) : Field := ⟨0x02400080 + 12 * n, 1, 2⟩
@[reducible] def CXL_DEC_A.TGT (n : Nat) : Field := ⟨0x02400080 + 12 * n, 4, 8⟩
@[reducible] def CXL_DEC_B.addr (n : Nat) : Nat := 0x02400084 + 12 * n
@[reducible] def CXL_DEC_B.BASE (n : Nat) : Field := ⟨0x02400084 + 12 * n, 0, 12⟩
@[reducible] def CXL_DEC_C.addr (n : Nat) : Nat := 0x02400088 + 12 * n
@[reducible] def CXL_DEC_C.SIZE (n : Nat) : Field := ⟨0x02400088 + 12 * n, 0, 13⟩
@[reducible] def CXL_PORT_CTL.addr (n : Nat) : Nat := 0x02400100 + 32 * n
@[reducible] def CXL_PORT_CTL.EN (n : Nat) : Field := ⟨0x02400100 + 32 * n, 0, 1⟩
@[reducible] def CXL_PORT_CTL.RETRAIN (n : Nat) : Field := ⟨0x02400100 + 32 * n, 1, 1⟩
@[reducible] def CXL_PORT_CTL.READY (n : Nat) : Field := ⟨0x02400100 + 32 * n, 2, 1⟩
@[reducible] def CXL_PORT_ST.addr (n : Nat) : Nat := 0x02400104 + 32 * n
@[reducible] def CXL_PORT_ST.STATE (n : Nat) : Field := ⟨0x02400104 + 32 * n, 0, 3⟩
@[reducible] def CXL_PORT_ST.FLIT (n : Nat) : Field := ⟨0x02400104 + 32 * n, 3, 1⟩
@[reducible] def CXL_PORT_ST.SPEED (n : Nat) : Field := ⟨0x02400104 + 32 * n, 4, 4⟩
@[reducible] def CXL_PORT_ST.WIDTH (n : Nat) : Field := ⟨0x02400104 + 32 * n, 8, 5⟩
@[reducible] def CXL_PORT_RD.addr (n : Nat) : Nat := 0x02400108 + 32 * n
@[reducible] def CXL_PORT_RD.COUNT (n : Nat) : Field := ⟨0x02400108 + 32 * n, 0, 32⟩
@[reducible] def CXL_PORT_ERR.addr (n : Nat) : Nat := 0x0240010C + 32 * n
@[reducible] def CXL_PORT_ERR.COUNT (n : Nat) : Field := ⟨0x0240010C + 32 * n, 0, 32⟩
@[reducible] def CXL_PORT_TO.addr (n : Nat) : Nat := 0x02400110 + 32 * n
@[reducible] def CXL_PORT_TO.COUNT (n : Nat) : Field := ⟨0x02400110 + 32 * n, 0, 32⟩
@[reducible] def CXL_PORT_LAT.addr (n : Nat) : Nat := 0x02400114 + 32 * n
@[reducible] def CXL_PORT_LAT.NS (n : Nat) : Field := ⟨0x02400114 + 32 * n, 0, 16⟩
@[reducible] def CXL_PORT_WDROP.addr (n : Nat) : Nat := 0x02400118 + 32 * n
@[reducible] def CXL_PORT_WDROP.COUNT (n : Nat) : Field := ⟨0x02400118 + 32 * n, 0, 32⟩
/-! ### CVY -/
@[reducible] def CVY_STATUS.addr : Nat := 0x02600000
@[reducible] def CVY_STATUS.STATE : Field := ⟨0x02600000, 0, 2⟩
@[reducible] def CVY_STATUS.ENUM_DONE : Field := ⟨0x02600000, 2, 1⟩
@[reducible] def CVY_STATUS.LATE_JOIN : Field := ⟨0x02600000, 3, 1⟩
@[reducible] def CVY_STATUS.ENUM_ERR : Field := ⟨0x02600000, 4, 1⟩
@[reducible] def CVY_STATUS.ALIGN_ERR : Field := ⟨0x02600000, 5, 1⟩
@[reducible] def CVY_STATUS.ROOT_ERR : Field := ⟨0x02600000, 6, 1⟩
@[reducible] def CVY_STATUS.K_RAISED : Field := ⟨0x02600000, 7, 1⟩
@[reducible] def CVY_STATUS.ROOT : Field := ⟨0x02600000, 8, 1⟩
@[reducible] def CVY_CTRL.addr : Nat := 0x02600004
@[reducible] def CVY_CTRL.K : Field := ⟨0x02600004, 0, 12⟩
@[reducible] def CVY_CTRL.ENUM : Field := ⟨0x02600004, 12, 1⟩
@[reducible] def CVY_CTRL.WAIT : Field := ⟨0x02600004, 16, 16⟩
@[reducible] def CVY_ADDR.addr : Nat := 0x02600008
@[reducible] def CVY_ADDR.ADDR : Field := ⟨0x02600008, 0, 16⟩
@[reducible] def CVY_ADDR.GEN : Field := ⟨0x02600008, 16, 8⟩
@[reducible] def CVY_K.addr : Nat := 0x0260000C
@[reducible] def CVY_K.K : Field := ⟨0x0260000C, 0, 12⟩
@[reducible] def CVY_K.KMIN : Field := ⟨0x0260000C, 16, 12⟩
@[reducible] def CVY_TREE0.addr : Nat := 0x02600010
@[reducible] def CVY_TREE0.SIZE0 : Field := ⟨0x02600010, 0, 16⟩
@[reducible] def CVY_TREE0.SIZE1 : Field := ⟨0x02600010, 16, 16⟩
@[reducible] def CVY_TREE1.addr : Nat := 0x02600014
@[reducible] def CVY_TREE1.HEIGHT : Field := ⟨0x02600014, 0, 16⟩
@[reducible] def CVY_TREE1.HOPMAX : Field := ⟨0x02600014, 16, 16⟩
@[reducible] def CVY_OFFSET.addr : Nat := 0x02600018
@[reducible] def CVY_OFFSET.O : Field := ⟨0x02600018, 0, 32⟩
@[reducible] def CVY_MSG_BAD.addr : Nat := 0x0260001C
@[reducible] def CVY_MSG_BAD.COUNT : Field := ⟨0x0260001C, 0, 32⟩
@[reducible] def CVY_UNROUTE.addr : Nat := 0x02600020
@[reducible] def CVY_UNROUTE.COUNT : Field := ⟨0x02600020, 0, 32⟩
@[reducible] def CVY_ACT_RX.addr : Nat := 0x02600024
@[reducible] def CVY_ACT_RX.COUNT : Field := ⟨0x02600024, 0, 32⟩
@[reducible] def CVY_ACT_DUP.addr : Nat := 0x02600028
@[reducible] def CVY_ACT_DUP.COUNT : Field := ⟨0x02600028, 0, 32⟩
@[reducible] def CVY_PORT_CTL.addr (n : Nat) : Nat := 0x02600100 + 32 * n
@[reducible] def CVY_PORT_CTL.EN (n : Nat) : Field := ⟨0x02600100 + 32 * n, 0, 1⟩
@[reducible] def CVY_PORT_CTL.TX_POL (n : Nat) : Field := ⟨0x02600100 + 32 * n, 1, 1⟩
@[reducible] def CVY_PORT_CTL.RX_POL (n : Nat) : Field := ⟨0x02600100 + 32 * n, 2, 1⟩
@[reducible] def CVY_PORT_CTL.RETRAIN (n : Nat) : Field := ⟨0x02600100 + 32 * n, 3, 1⟩
@[reducible] def CVY_PORT_ST.addr (n : Nat) : Nat := 0x02600104 + 32 * n
@[reducible] def CVY_PORT_ST.LOCK (n : Nat) : Field := ⟨0x02600104 + 32 * n, 0, 1⟩
@[reducible] def CVY_PORT_ST.MEASURED (n : Nat) : Field := ⟨0x02600104 + 32 * n, 1, 1⟩
@[reducible] def CVY_PORT_ST.PRESENT (n : Nat) : Field := ⟨0x02600104 + 32 * n, 2, 1⟩
@[reducible] def CVY_PORT_HOP.addr (n : Nat) : Nat := 0x02600108 + 32 * n
@[reducible] def CVY_PORT_HOP.HOP (n : Nat) : Field := ⟨0x02600108 + 32 * n, 0, 16⟩
@[reducible] def CVY_PORT_CRC.addr (n : Nat) : Nat := 0x0260010C + 32 * n
@[reducible] def CVY_PORT_CRC.COUNT (n : Nat) : Field := ⟨0x0260010C + 32 * n, 0, 32⟩
@[reducible] def CVY_PORT_DROP.addr (n : Nat) : Nat := 0x02600110 + 32 * n
@[reducible] def CVY_PORT_DROP.COUNT (n : Nat) : Field := ⟨0x02600110 + 32 * n, 0, 32⟩
@[reducible] def CVY_PORT_TX.addr (n : Nat) : Nat := 0x02600114 + 32 * n
@[reducible] def CVY_PORT_TX.COUNT (n : Nat) : Field := ⟨0x02600114 + 32 * n, 0, 32⟩
@[reducible] def CVY_PORT_RX.addr (n : Nat) : Nat := 0x02600118 + 32 * n
@[reducible] def CVY_PORT_RX.COUNT (n : Nat) : Field := ⟨0x02600118 + 32 * n, 0, 32⟩
/-! ### HLM -/
@[reducible] def HLM_STATUS.addr : Nat := 0x02700000
@[reducible] def HLM_STATUS.STATE : Field := ⟨0x02700000, 0, 3⟩
@[reducible] def HLM_STATUS.PREF : Field := ⟨0x02700000, 3, 1⟩
@[reducible] def HLM_STATUS.LINE : Field := ⟨0x02700000, 4, 2⟩
@[reducible] def HLM_STATUS.LINE_ERR : Field := ⟨0x02700000, 6, 1⟩
@[reducible] def HLM_STATUS.CLEAN : Field := ⟨0x02700000, 7, 1⟩
@[reducible] def HLM_STATUS.PSTATE : Field := ⟨0x02700000, 8, 3⟩
@[reducible] def HLM_STATUS.PLOST : Field := ⟨0x02700000, 11, 1⟩
@[reducible] def HLM_STATUS.RECLAIM : Field := ⟨0x02700000, 12, 1⟩
@[reducible] def HLM_STATUS.CONTEST : Field := ⟨0x02700000, 13, 1⟩
@[reducible] def HLM_STATUS.ST_FAIL : Field := ⟨0x02700000, 14, 1⟩
@[reducible] def HLM_STATUS.SWITCHED : Field := ⟨0x02700000, 15, 1⟩
@[reducible] def HLM_STATUS.WD_EXP : Field := ⟨0x02700000, 16, 1⟩
@[reducible] def HLM_STATUS.PREF_ERR : Field := ⟨0x02700000, 17, 1⟩
@[reducible] def HLM_CTRL.addr : Nat := 0x02700004
@[reducible] def HLM_CTRL.HOLD : Field := ⟨0x02700004, 0, 1⟩
@[reducible] def HLM_CTRL.RELEASE : Field := ⟨0x02700004, 1, 1⟩
@[reducible] def HLM_CTRL.REVERT : Field := ⟨0x02700004, 2, 1⟩
@[reducible] def HLM_CTRL.MISS : Field := ⟨0x02700004, 8, 8⟩
@[reducible] def HLM_PARTNER.addr : Nat := 0x02700008
@[reducible] def HLM_PARTNER.ADDR : Field := ⟨0x02700008, 0, 16⟩
@[reducible] def HLM_WTR.addr : Nat := 0x0270000C
@[reducible] def HLM_WTR.SEC : Field := ⟨0x0270000C, 0, 11⟩
@[reducible] def HLM_WD.addr : Nat := 0x02700010
@[reducible] def HLM_WD.TICKS : Field := ⟨0x02700010, 0, 24⟩
@[reducible] def HLM_KICK.addr : Nat := 0x02700014
@[reducible] def HLM_KICK.KEY : Field := ⟨0x02700014, 0, 16⟩
@[reducible] def HLM_CLAIM_TICK_LO.addr : Nat := 0x02700018
@[reducible] def HLM_CLAIM_TICK_LO.TICK : Field := ⟨0x02700018, 0, 32⟩
@[reducible] def HLM_CLAIM_TICK_HI.addr : Nat := 0x0270001C
@[reducible] def HLM_CLAIM_TICK_HI.TICK : Field := ⟨0x0270001C, 0, 16⟩
@[reducible] def HLM_REL_TICK_LO.addr : Nat := 0x02700020
@[reducible] def HLM_REL_TICK_LO.TICK : Field := ⟨0x02700020, 0, 32⟩
@[reducible] def HLM_REL_TICK_HI.addr : Nat := 0x02700024
@[reducible] def HLM_REL_TICK_HI.TICK : Field := ⟨0x02700024, 0, 16⟩
@[reducible] def HLM_REL_TICK_HI.CAUSE : Field := ⟨0x02700024, 16, 3⟩
@[reducible] def HLM_HANDOVER_LO.addr : Nat := 0x02700028
@[reducible] def HLM_HANDOVER_LO.TICK : Field := ⟨0x02700028, 0, 32⟩
@[reducible] def HLM_HANDOVER_HI.addr : Nat := 0x0270002C
@[reducible] def HLM_HANDOVER_HI.TICK : Field := ⟨0x0270002C, 0, 16⟩
@[reducible] def HLM_NAV_STATUS.addr : Nat := 0x02700030
@[reducible] def HLM_NAV_STATUS.DRIVER_A : Field := ⟨0x02700030, 0, 1⟩
@[reducible] def HLM_NAV_STATUS.DRIVER_T : Field := ⟨0x02700030, 1, 1⟩
@[reducible] def HLM_NAV_STATUS.RESYNC : Field := ⟨0x02700030, 2, 1⟩
@[reducible] def HLM_CLAIMS.addr : Nat := 0x02700034
@[reducible] def HLM_CLAIMS.COUNT : Field := ⟨0x02700034, 0, 32⟩
@[reducible] def HLM_RELEASES.addr : Nat := 0x02700038
@[reducible] def HLM_RELEASES.COUNT : Field := ⟨0x02700038, 0, 32⟩
@[reducible] def HLM_CONTESTS.addr : Nat := 0x0270003C
@[reducible] def HLM_CONTESTS.COUNT : Field := ⟨0x0270003C, 0, 32⟩
@[reducible] def HLM_RPT_TX.addr : Nat := 0x02700040
@[reducible] def HLM_RPT_TX.COUNT : Field := ⟨0x02700040, 0, 32⟩
@[reducible] def HLM_RPT_RX.addr : Nat := 0x02700044
@[reducible] def HLM_RPT_RX.COUNT : Field := ⟨0x02700044, 0, 32⟩
@[reducible] def HLM_RPT_MISS.addr : Nat := 0x02700048
@[reducible] def HLM_RPT_MISS.COUNT : Field := ⟨0x02700048, 0, 32⟩
@[reducible] def HLM_RPT_BAD.addr : Nat := 0x0270004C
@[reducible] def HLM_RPT_BAD.COUNT : Field := ⟨0x0270004C, 0, 32⟩
@[reducible] def HLM_ST_FAIL.addr : Nat := 0x02700050
@[reducible] def HLM_ST_FAIL.COUNT : Field := ⟨0x02700050, 0, 32⟩
@[reducible] def HLM_NAV_FAULT.addr : Nat := 0x02700054
@[reducible] def HLM_NAV_FAULT.COUNT : Field := ⟨0x02700054, 0, 32⟩
/-! ### FLT -/
@[reducible] def FLT_STATUS.addr : Nat := 0x02800000
@[reducible] def FLT_STATUS.FAULTN : Field := ⟨0x02800000, 0, 1⟩
@[reducible] def FLT_STATUS.NEW : Field := ⟨0x02800000, 1, 1⟩
@[reducible] def FLT_STATUS.OVF_A : Field := ⟨0x02800000, 2, 1⟩
@[reducible] def FLT_STATUS.OVF_T : Field := ⟨0x02800000, 3, 1⟩
@[reducible] def FLT_STATUS.CFG_ERR : Field := ⟨0x02800000, 4, 1⟩
@[reducible] def FLT_STATUS.QUENCH : Field := ⟨0x02800000, 5, 1⟩
@[reducible] def FLT_STATUS.HALTED : Field := ⟨0x02800000, 6, 1⟩
@[reducible] def FLT_STATUS.TESTMODE : Field := ⟨0x02800000, 7, 1⟩
@[reducible] def FLT_CTRL.addr : Nat := 0x02800004
@[reducible] def FLT_CTRL.NMASK : Field := ⟨0x02800004, 0, 2⟩
@[reducible] def FLT_QUENCH.addr : Nat := 0x02800008
@[reducible] def FLT_QUENCH.TICKS : Field := ⟨0x02800008, 0, 8⟩
@[reducible] def FLT_CE_LIMIT.addr : Nat := 0x0280000C
@[reducible] def FLT_CE_LIMIT.COUNT : Field := ⟨0x0280000C, 0, 16⟩
@[reducible] def FLT_CLEAR_SEQ.addr : Nat := 0x02800010
@[reducible] def FLT_CLEAR_SEQ.SEQ : Field := ⟨0x02800010, 0, 32⟩
@[reducible] def FLT_CLEAR.addr : Nat := 0x02800014
@[reducible] def FLT_CLEAR.GO : Field := ⟨0x02800014, 0, 1⟩
@[reducible] def FLT_CLEAR.DIE : Field := ⟨0x02800014, 1, 1⟩
@[reducible] def FLT_CLEAR.ALL : Field := ⟨0x02800014, 2, 1⟩
@[reducible] def FLT_CLEAR.CLASSES : Field := ⟨0x02800014, 3, 3⟩
@[reducible] def FLT_REVOKE.addr : Nat := 0x02800018
@[reducible] def FLT_REVOKE.HOLDER : Field := ⟨0x02800018, 0, 16⟩
@[reducible] def FLT_REVOKE.KEY : Field := ⟨0x02800018, 16, 16⟩
@[reducible] def FLT_REVOKE_LAST.addr : Nat := 0x0280001C
@[reducible] def FLT_REVOKE_LAST.HOLDER : Field := ⟨0x0280001C, 0, 16⟩
@[reducible] def FLT_REVOKE_LAST.SW : Field := ⟨0x0280001C, 16, 1⟩
@[reducible] def FLT_HEAD_A.addr : Nat := 0x02800020
@[reducible] def FLT_HEAD_A.SEQ : Field := ⟨0x02800020, 0, 32⟩
@[reducible] def FLT_HEAD_T.addr : Nat := 0x02800024
@[reducible] def FLT_HEAD_T.SEQ : Field := ⟨0x02800024, 0, 32⟩
@[reducible] def FLT_CE_A.addr : Nat := 0x02800028
@[reducible] def FLT_CE_A.COUNT : Field := ⟨0x02800028, 0, 32⟩
@[reducible] def FLT_CONT_A.addr : Nat := 0x0280002C
@[reducible] def FLT_CONT_A.COUNT : Field := ⟨0x0280002C, 0, 32⟩
@[reducible] def FLT_FATAL_A.addr : Nat := 0x02800030
@[reducible] def FLT_FATAL_A.COUNT : Field := ⟨0x02800030, 0, 32⟩
@[reducible] def FLT_CE_T.addr : Nat := 0x02800034
@[reducible] def FLT_CE_T.COUNT : Field := ⟨0x02800034, 0, 32⟩
@[reducible] def FLT_CONT_T.addr : Nat := 0x02800038
@[reducible] def FLT_CONT_T.COUNT : Field := ⟨0x02800038, 0, 32⟩
@[reducible] def FLT_FATAL_T.addr : Nat := 0x0280003C
@[reducible] def FLT_FATAL_T.COUNT : Field := ⟨0x0280003C, 0, 32⟩
@[reducible] def FLT_LOST_A.addr : Nat := 0x02800040
@[reducible] def FLT_LOST_A.COUNT : Field := ⟨0x02800040, 0, 32⟩
@[reducible] def FLT_LOST_T.addr : Nat := 0x02800044
@[reducible] def FLT_LOST_T.COUNT : Field := ⟨0x02800044, 0, 32⟩
@[reducible] def FLT_SECONDARY.addr : Nat := 0x02800048
@[reducible] def FLT_SECONDARY.COUNT : Field := ⟨0x02800048, 0, 32⟩
@[reducible] def FLT_REVOKES.addr : Nat := 0x0280004C
@[reducible] def FLT_REVOKES.COUNT : Field := ⟨0x0280004C, 0, 32⟩
@[reducible] def FLT_INJECTED.addr : Nat := 0x02800050
@[reducible] def FLT_INJECTED.COUNT : Field := ⟨0x02800050, 0, 32⟩
@[reducible] def FLT_INJ.addr : Nat := 0x02800060
@[reducible] def FLT_INJ.SRC : Field := ⟨0x02800060, 0, 12⟩
@[reducible] def FLT_INJ.CLASS : Field := ⟨0x02800060, 12, 2⟩
@[reducible] def FLT_INJ.TYPE : Field := ⟨0x02800060, 14, 2⟩
@[reducible] def FLT_INJ.EVENT : Field := ⟨0x02800060, 16, 8⟩
@[reducible] def FLT_INJ.GO : Field := ⟨0x02800060, 31, 1⟩
@[reducible] def FLT_TEST_CMD.addr : Nat := 0x02800064
@[reducible] def FLT_TEST_CMD.GO : Field := ⟨0x02800064, 0, 1⟩
@[reducible] def FLT_TEST_STATUS.addr : Nat := 0x02800068
@[reducible] def FLT_TEST_STATUS.BUSY : Field := ⟨0x02800068, 0, 1⟩
@[reducible] def FLT_TEST_STATUS.DONE : Field := ⟨0x02800068, 1, 1⟩
@[reducible] def FLT_TEST_STATUS.ERR : Field := ⟨0x02800068, 2, 1⟩
@[reducible] def FLT_TEST_STATUS.CODE : Field := ⟨0x02800068, 8, 8⟩
@[reducible] def FLT_TEST_NONCE_LO.addr : Nat := 0x0280006C
@[reducible] def FLT_TEST_NONCE_LO.NONCE : Field := ⟨0x0280006C, 0, 32⟩
@[reducible] def FLT_TEST_NONCE_HI.addr : Nat := 0x02800070
@[reducible] def FLT_TEST_NONCE_HI.NONCE : Field := ⟨0x02800070, 0, 32⟩
@[reducible] def FLT_TEST_DATA.addr (n : Nat) : Nat := 0x02802000 + 4 * n
@[reducible] def FLT_TEST_DATA.DATA (n : Nat) : Field := ⟨0x02802000 + 4 * n, 0, 32⟩
@[reducible] def FLT_REACT.addr (n : Nat) : Nat := 0x02804000 + 4 * n
@[reducible] def FLT_REACT.CORR (n : Nat) : Field := ⟨0x02804000 + 4 * n, 0, 3⟩
@[reducible] def FLT_REACT.CONT (n : Nat) : Field := ⟨0x02804000 + 4 * n, 4, 3⟩
@[reducible] def FLT_REACT.FATAL (n : Nat) : Field := ⟨0x02804000 + 4 * n, 8, 3⟩
@[reducible] def FLT_REACT.MASK (n : Nat) : Field := ⟨0x02804000 + 4 * n, 12, 1⟩
@[reducible] def FLT_LOGA.addr (n k : Nat) : Nat := 0x02810000 + 32 * n + 4 * k
@[reducible] def FLT_LOGA.WORD (n k : Nat) : Field := ⟨0x02810000 + 32 * n + 4 * k, 0, 32⟩
@[reducible] def FLT_LOGT.addr (n k : Nat) : Nat := 0x02820000 + 32 * n + 4 * k
@[reducible] def FLT_LOGT.WORD (n k : Nat) : Field := ⟨0x02820000 + 32 * n + 4 * k, 0, 32⟩
@[reducible] def FLT_FATA.addr (n k : Nat) : Nat := 0x02830000 + 32 * n + 4 * k
@[reducible] def FLT_FATA.WORD (n k : Nat) : Field := ⟨0x02830000 + 32 * n + 4 * k, 0, 32⟩
@[reducible] def FLT_FATT.addr (n k : Nat) : Nat := 0x02830200 + 32 * n + 4 * k
@[reducible] def FLT_FATT.WORD (n k : Nat) : Field := ⟨0x02830200 + 32 * n + 4 * k, 0, 32⟩
/-! ### SND -/
@[reducible] def SND_STATUS.addr : Nat := 0x02C00000
@[reducible] def SND_STATUS.OVF : Field := ⟨0x02C00000, 0, 1⟩
@[reducible] def SND_STATUS.DROP : Field := ⟨0x02C00000, 1, 1⟩
@[reducible] def SND_STATUS.HRING_HALF : Field := ⟨0x02C00000, 2, 1⟩
@[reducible] def SND_STATUS.CRING_HALF : Field := ⟨0x02C00000, 3, 1⟩
@[reducible] def SND_STATUS.SKIP : Field := ⟨0x02C00000, 4, 1⟩
@[reducible] def SND_STATUS.BUSY : Field := ⟨0x02C00000, 5, 1⟩
@[reducible] def SND_STATUS.BUSY_ERR : Field := ⟨0x02C00000, 6, 1⟩
@[reducible] def SND_STATUS.SEL_ERR : Field := ⟨0x02C00000, 7, 1⟩
@[reducible] def SND_STATUS.DENY : Field := ⟨0x02C00000, 8, 1⟩
@[reducible] def SND_CTRL.addr : Nat := 0x02C00004
@[reducible] def SND_CTRL.IRQ_MASK : Field := ⟨0x02C00004, 0, 9⟩
@[reducible] def SND_SWEEP.addr : Nat := 0x02C00008
@[reducible] def SND_SWEEP.START : Field := ⟨0x02C00008, 0, 1⟩
@[reducible] def SND_SWEEP.PERIODIC : Field := ⟨0x02C00008, 1, 1⟩
@[reducible] def SND_SWEEP.SNAP : Field := ⟨0x02C00008, 2, 1⟩
@[reducible] def SND_SWEEP.PLOG2 : Field := ⟨0x02C00008, 3, 5⟩
@[reducible] def SND_SWEEP.LEN : Field := ⟨0x02C00008, 8, 10⟩
@[reducible] def SND_ROUTE.addr : Nat := 0x02C0000C
@[reducible] def SND_ROUTE.CTR : Field := ⟨0x02C0000C, 0, 2⟩
@[reducible] def SND_ROUTE.SAMP : Field := ⟨0x02C0000C, 2, 2⟩
@[reducible] def SND_ROUTE.DIG : Field := ⟨0x02C0000C, 4, 2⟩
@[reducible] def SND_USER_OPEN0.addr : Nat := 0x02C00010
@[reducible] def SND_USER_OPEN0.BITS : Field := ⟨0x02C00010, 0, 32⟩
@[reducible] def SND_USER_OPEN1.addr : Nat := 0x02C00014
@[reducible] def SND_USER_OPEN1.BITS : Field := ⟨0x02C00014, 0, 32⟩
@[reducible] def SND_USER_OPEN2.addr : Nat := 0x02C00018
@[reducible] def SND_USER_OPEN2.BITS : Field := ⟨0x02C00018, 0, 2⟩
@[reducible] def SND_HRING_BASE_LO.addr : Nat := 0x02C00020
@[reducible] def SND_HRING_BASE_LO.BASE : Field := ⟨0x02C00020, 0, 32⟩
@[reducible] def SND_HRING_BASE_HI.addr : Nat := 0x02C00024
@[reducible] def SND_HRING_BASE_HI.BASE : Field := ⟨0x02C00024, 0, 32⟩
@[reducible] def SND_HRING_SIZE.addr : Nat := 0x02C00028
@[reducible] def SND_HRING_SIZE.SIZE_LOG2 : Field := ⟨0x02C00028, 0, 5⟩
@[reducible] def SND_HRING_WR.addr : Nat := 0x02C0002C
@[reducible] def SND_HRING_WR.WR : Field := ⟨0x02C0002C, 0, 32⟩
@[reducible] def SND_HRING_RD.addr : Nat := 0x02C00030
@[reducible] def SND_HRING_RD.RD : Field := ⟨0x02C00030, 0, 32⟩
@[reducible] def SND_HRING_WB_LO.addr : Nat := 0x02C00034
@[reducible] def SND_HRING_WB_LO.ADDR : Field := ⟨0x02C00034, 0, 32⟩
@[reducible] def SND_HRING_WB_HI.addr : Nat := 0x02C00038
@[reducible] def SND_HRING_WB_HI.ADDR : Field := ⟨0x02C00038, 0, 32⟩
@[reducible] def SND_CRING_BASE_LO.addr : Nat := 0x02C00040
@[reducible] def SND_CRING_BASE_LO.BASE : Field := ⟨0x02C00040, 0, 32⟩
@[reducible] def SND_CRING_BASE_HI.addr : Nat := 0x02C00044
@[reducible] def SND_CRING_BASE_HI.BASE : Field := ⟨0x02C00044, 0, 32⟩
@[reducible] def SND_CRING_SIZE.addr : Nat := 0x02C00048
@[reducible] def SND_CRING_SIZE.SIZE_LOG2 : Field := ⟨0x02C00048, 0, 5⟩
@[reducible] def SND_CRING_WR.addr : Nat := 0x02C0004C
@[reducible] def SND_CRING_WR.WR : Field := ⟨0x02C0004C, 0, 32⟩
@[reducible] def SND_CRING_RD.addr : Nat := 0x02C00050
@[reducible] def SND_CRING_RD.RD : Field := ⟨0x02C00050, 0, 32⟩
@[reducible] def SND_SWEEP_SKIP.addr : Nat := 0x02C00060
@[reducible] def SND_SWEEP_SKIP.COUNT : Field := ⟨0x02C00060, 0, 32⟩
@[reducible] def SND_DROP_CTR.addr : Nat := 0x02C00064
@[reducible] def SND_DROP_CTR.COUNT : Field := ⟨0x02C00064, 0, 32⟩
@[reducible] def SND_DROP_SAMP.addr : Nat := 0x02C00068
@[reducible] def SND_DROP_SAMP.COUNT : Field := ⟨0x02C00068, 0, 32⟩
@[reducible] def SND_DROP_DIG.addr : Nat := 0x02C0006C
@[reducible] def SND_DROP_DIG.COUNT : Field := ⟨0x02C0006C, 0, 32⟩
@[reducible] def SND_USER_DENY.addr : Nat := 0x02C00070
@[reducible] def SND_USER_DENY.COUNT : Field := ⟨0x02C00070, 0, 32⟩
@[reducible] def SND_SWEEPS.addr : Nat := 0x02C00074
@[reducible] def SND_SWEEPS.COUNT : Field := ⟨0x02C00074, 0, 32⟩
@[reducible] def SND_LIST.addr (n : Nat) : Nat := 0x02C01000 + 4 * n
@[reducible] def SND_LIST.GROUP (n : Nat) : Field := ⟨0x02C01000 + 4 * n, 0, 6⟩
@[reducible] def SND_LIST.CTR (n : Nat) : Field := ⟨0x02C01000 + 4 * n, 6, 3⟩
@[reducible] def SND_LIST.PAIR (n : Nat) : Field := ⟨0x02C01000 + 4 * n, 9, 1⟩
@[reducible] def SND_G_CNT.addr (n k : Nat) : Nat := 0x02C04000 + 256 * n + 4 * k
@[reducible] def SND_G_CNT.COUNT (n k : Nat) : Field := ⟨0x02C04000 + 256 * n + 4 * k, 0, 32⟩
@[reducible] def SND_G_SEL.addr (n k : Nat) : Nat := 0x02C04020 + 256 * n + 4 * k
@[reducible] def SND_G_SEL.EVENT (n k : Nat) : Field := ⟨0x02C04020 + 256 * n + 4 * k, 0, 8⟩
@[reducible] def SND_G_SEL.MODE (n k : Nat) : Field := ⟨0x02C04020 + 256 * n + 4 * k, 8, 2⟩
@[reducible] def SND_G_SEL.CHAIN (n k : Nat) : Field := ⟨0x02C04020 + 256 * n + 4 * k, 10, 1⟩
@[reducible] def SND_G_SEL.ZERO (n k : Nat) : Field := ⟨0x02C04020 + 256 * n + 4 * k, 11, 1⟩
@[reducible] def SND_G_SEL.SUB (n k : Nat) : Field := ⟨0x02C04020 + 256 * n + 4 * k, 12, 8⟩
@[reducible] def SND_G_THR.addr (n k : Nat) : Nat := 0x02C04040 + 256 * n + 4 * k
@[reducible] def SND_G_THR.N (n k : Nat) : Field := ⟨0x02C04040 + 256 * n + 4 * k, 0, 24⟩
@[reducible] def SND_G_SNAP.addr (n k : Nat) : Nat := 0x02C04060 + 256 * n + 4 * k
@[reducible] def SND_G_SNAP.COUNT (n k : Nat) : Field := ⟨0x02C04060 + 256 * n + 4 * k, 0, 32⟩
@[reducible] def SND_G_STATUS.addr (n : Nat) : Nat := 0x02C04080 + 256 * n
@[reducible] def SND_G_STATUS.OVF (n : Nat) : Field := ⟨0x02C04080 + 256 * n, 0, 8⟩
@[reducible] def SND_PRB_DATA.addr (n k : Nat) : Nat := 0x02C08000 + 256 * n + 4 * k
@[reducible] def SND_PRB_DATA.DATA (n k : Nat) : Field := ⟨0x02C08000 + 256 * n + 4 * k, 0, 32⟩
@[reducible] def SND_PRB_CTL.addr (n : Nat) : Nat := 0x02C0C000 + 4 * n
@[reducible] def SND_PRB_CTL.EN (n : Nat) : Field := ⟨0x02C0C000 + 4 * n, 0, 1⟩
@[reducible] def SND_PRB_CTL.PLOG2 (n : Nat) : Field := ⟨0x02C0C000 + 4 * n, 1, 5⟩
@[reducible] def SND_PRB_CTL.LEN (n : Nat) : Field := ⟨0x02C0C000 + 4 * n, 6, 9⟩
@[reducible] def SND_PRB_PH.addr (n : Nat) : Nat := 0x02C0C100 + 4 * n
@[reducible] def SND_PRB_PH.PHASE (n : Nat) : Field := ⟨0x02C0C100 + 4 * n, 0, 24⟩
@[reducible] def SND_PRB_QUE.addr (n : Nat) : Nat := 0x02C0C200 + 4 * n
@[reducible] def SND_PRB_QUE.QUEUE (n : Nat) : Field := ⟨0x02C0C200 + 4 * n, 0, 18⟩
/-! ### FWU -/
@[reducible] def FWU_STATUS.addr : Nat := 0x03000000
@[reducible] def FWU_STATUS.STATE : Field := ⟨0x03000000, 0, 4⟩
@[reducible] def FWU_STATUS.HO_REQ : Field := ⟨0x03000000, 4, 1⟩
@[reducible] def FWU_STATUS.DONE : Field := ⟨0x03000000, 5, 1⟩
@[reducible] def FWU_STATUS.ERR : Field := ⟨0x03000000, 6, 1⟩
@[reducible] def FWU_STATUS.MISSED : Field := ⟨0x03000000, 7, 1⟩
@[reducible] def FWU_STATUS.PRIMARY_BAD : Field := ⟨0x03000000, 8, 1⟩
@[reducible] def FWU_STATUS.FELLBACK : Field := ⟨0x03000000, 9, 1⟩
@[reducible] def FWU_STATUS.NBR_ERR : Field := ⟨0x03000000, 10, 1⟩
@[reducible] def FWU_STATUS.RUN_BANK : Field := ⟨0x03000000, 11, 1⟩
@[reducible] def FWU_STATUS.CODE : Field := ⟨0x03000000, 16, 8⟩
@[reducible] def FWU_CTRL.addr : Nat := 0x03000004
@[reducible] def FWU_CTRL.SRC : Field := ⟨0x03000004, 0, 2⟩
@[reducible] def FWU_CTRL.GO_HDR : Field := ⟨0x03000004, 2, 1⟩
@[reducible] def FWU_CTRL.LOAD : Field := ⟨0x03000004, 3, 1⟩
@[reducible] def FWU_CTRL.ACTIVATE : Field := ⟨0x03000004, 4, 1⟩
@[reducible] def FWU_CTRL.ABORT : Field := ⟨0x03000004, 5, 1⟩
@[reducible] def FWU_CTRL.REVERT : Field := ⟨0x03000004, 6, 1⟩
@[reducible] def FWU_CTRL.SEND : Field := ⟨0x03000004, 7, 1⟩
@[reducible] def FWU_CTRL.FOLLOW : Field := ⟨0x03000004, 8, 1⟩
@[reducible] def FWU_CTRL.SBANK : Field := ⟨0x03000004, 9, 1⟩
@[reducible] def FWU_ACT_TICK_LO.addr : Nat := 0x03000008
@[reducible] def FWU_ACT_TICK_LO.TICK : Field := ⟨0x03000008, 0, 32⟩
@[reducible] def FWU_ACT_TICK_HI.addr : Nat := 0x0300000C
@[reducible] def FWU_ACT_TICK_HI.TICK : Field := ⟨0x0300000C, 0, 16⟩
@[reducible] def FWU_HOLEAD.addr : Nat := 0x03000010
@[reducible] def FWU_HOLEAD.TICKS : Field := ⟨0x03000010, 0, 12⟩
@[reducible] def FWU_HO.addr : Nat := 0x03000014
@[reducible] def FWU_HO.READY_A : Field := ⟨0x03000014, 0, 1⟩
@[reducible] def FWU_HO.READY_T : Field := ⟨0x03000014, 1, 1⟩
@[reducible] def FWU_CONFIRM.addr : Nat := 0x03000018
@[reducible] def FWU_CONFIRM.GO : Field := ⟨0x03000018, 0, 1⟩
@[reducible] def FWU_CONFIRM.KEY : Field := ⟨0x03000018, 16, 16⟩
@[reducible] def FWU_CXL_LO.addr : Nat := 0x0300001C
@[reducible] def FWU_CXL_LO.ADDR : Field := ⟨0x0300001C, 12, 20⟩
@[reducible] def FWU_CXL_HI.addr : Nat := 0x03000020
@[reducible] def FWU_CXL_HI.ADDR : Field := ⟨0x03000020, 0, 10⟩
@[reducible] def FWU_RUN_VER.addr : Nat := 0x03000024
@[reducible] def FWU_RUN_VER.VERSION : Field := ⟨0x03000024, 0, 32⟩
@[reducible] def FWU_STG_VER.addr : Nat := 0x03000028
@[reducible] def FWU_STG_VER.VERSION : Field := ⟨0x03000028, 0, 32⟩
@[reducible] def FWU_FUSE.addr : Nat := 0x0300002C
@[reducible] def FWU_FUSE.SVN : Field := ⟨0x0300002C, 0, 6⟩
@[reducible] def FWU_FUSE.REVOKED : Field := ⟨0x0300002C, 8, 4⟩
@[reducible] def FWU_RELAY.addr : Nat := 0x03000030
@[reducible] def FWU_RELAY.DST : Field := ⟨0x03000030, 0, 16⟩
@[reducible] def FWU_RELAY.RTO : Field := ⟨0x03000030, 16, 12⟩
@[reducible] def FWU_RELAY.RETRY : Field := ⟨0x03000030, 28, 4⟩
@[reducible] def FWU_PROGRESS.addr : Nat := 0x03000034
@[reducible] def FWU_PROGRESS.BLOCKS : Field := ⟨0x03000034, 0, 16⟩
@[reducible] def FWU_DATA_CMD.addr : Nat := 0x03000038
@[reducible] def FWU_DATA_CMD.BLOCK : Field := ⟨0x03000038, 0, 13⟩
@[reducible] def FWU_DATA_CMD.GO : Field := ⟨0x03000038, 13, 1⟩
@[reducible] def FWU_FL_ADDR.addr : Nat := 0x0300003C
@[reducible] def FWU_FL_ADDR.ADDR : Field := ⟨0x0300003C, 0, 28⟩
@[reducible] def FWU_FL_CMD.addr : Nat := 0x03000040
@[reducible] def FWU_FL_CMD.OP : Field := ⟨0x03000040, 0, 2⟩
@[reducible] def FWU_FL_STATUS.addr : Nat := 0x03000044
@[reducible] def FWU_FL_STATUS.BUSY : Field := ⟨0x03000044, 0, 1⟩
@[reducible] def FWU_FL_STATUS.DONE : Field := ⟨0x03000044, 1, 1⟩
@[reducible] def FWU_FL_STATUS.ERR : Field := ⟨0x03000044, 2, 1⟩
@[reducible] def FWU_FL_STATUS.CODE : Field := ⟨0x03000044, 8, 8⟩
@[reducible] def FWU_RX_BAD.addr : Nat := 0x03000048
@[reducible] def FWU_RX_BAD.COUNT : Field := ⟨0x03000048, 0, 32⟩
@[reducible] def FWU_REFUSED.addr : Nat := 0x0300004C
@[reducible] def FWU_REFUSED.COUNT : Field := ⟨0x0300004C, 0, 32⟩
@[reducible] def FWU_HO_BLOCKED.addr : Nat := 0x03000050
@[reducible] def FWU_HO_BLOCKED.COUNT : Field := ⟨0x03000050, 0, 32⟩
@[reducible] def FWU_NBR_VER.addr (n : Nat) : Nat := 0x03000060 + 8 * n
@[reducible] def FWU_NBR_VER.VERSION (n : Nat) : Field := ⟨0x03000060 + 8 * n, 0, 32⟩
@[reducible] def FWU_NBR_INFO.addr (n : Nat) : Nat := 0x03000064 + 8 * n
@[reducible] def FWU_NBR_INFO.PROTO (n : Nat) : Field := ⟨0x03000064 + 8 * n, 0, 16⟩
@[reducible] def FWU_NBR_INFO.VALID (n : Nat) : Field := ⟨0x03000064 + 8 * n, 16, 1⟩
@[reducible] def FWU_HDR.addr (n : Nat) : Nat := 0x03001000 + 4 * n
@[reducible] def FWU_HDR.DATA (n : Nat) : Field := ⟨0x03001000 + 4 * n, 0, 32⟩
@[reducible] def FWU_DATA.addr (n : Nat) : Nat := 0x03004000 + 4 * n
@[reducible] def FWU_DATA.DATA (n : Nat) : Field := ⟨0x03004000 + 4 * n, 0, 32⟩
/-! ### SXT -/
@[reducible] def SXT_CTRL.addr : Nat := 0x03100000
@[reducible] def SXT_CTRL.PPS_OUT_EN : Field := ⟨0x03100000, 0, 1⟩
@[reducible] def SXT_CTRL.PPS_IN_EN : Field := ⟨0x03100000, 1, 1⟩
@[reducible] def SXT_CTRL.PPS_IN_POL : Field := ⟨0x03100000, 2, 1⟩
@[reducible] def SXT_CTRL.CLK10M_EN : Field := ⟨0x03100000, 3, 1⟩
@[reducible] def SXT_STATUS.addr : Nat := 0x03100004
@[reducible] def SXT_STATUS.PPS_IN_SEEN : Field := ⟨0x03100004, 0, 1⟩
@[reducible] def SXT_STATUS.PHASE_BUSY : Field := ⟨0x03100004, 1, 1⟩
@[reducible] def SXT_STATUS.OFS_PEND : Field := ⟨0x03100004, 2, 1⟩
@[reducible] def SXT_STATUS.CFG_ERR : Field := ⟨0x03100004, 3, 1⟩
@[reducible] def SXT_TIME_LO.addr : Nat := 0x03100008
@[reducible] def SXT_TIME_LO.TIME : Field := ⟨0x03100008, 0, 32⟩
@[reducible] def SXT_TIME_HI.addr : Nat := 0x0310000C
@[reducible] def SXT_TIME_HI.TIME : Field := ⟨0x0310000C, 0, 32⟩
@[reducible] def SXT_FREQ.addr : Nat := 0x03100010
@[reducible] def SXT_FREQ.PPB : Field := ⟨0x03100010, 0, 32⟩
@[reducible] def SXT_PHASE.addr : Nat := 0x03100014
@[reducible] def SXT_PHASE.ADJ : Field := ⟨0x03100014, 0, 32⟩
@[reducible] def SXT_OFS_SEC_LO.addr : Nat := 0x03100018
@[reducible] def SXT_OFS_SEC_LO.SEC : Field := ⟨0x03100018, 0, 32⟩
@[reducible] def SXT_OFS_SEC_HI.addr : Nat := 0x0310001C
@[reducible] def SXT_OFS_SEC_HI.SEC : Field := ⟨0x0310001C, 0, 16⟩
@[reducible] def SXT_OFS_NS.addr : Nat := 0x03100020
@[reducible] def SXT_OFS_NS.NS : Field := ⟨0x03100020, 0, 30⟩
@[reducible] def SXT_OFS_NS.QNS : Field := ⟨0x03100020, 30, 2⟩
@[reducible] def SXT_OFS_COMMIT.addr : Nat := 0x03100024
@[reducible] def SXT_OFS_COMMIT.GO : Field := ⟨0x03100024, 0, 1⟩
@[reducible] def SXT_PPS_CAP_LO.addr : Nat := 0x03100028
@[reducible] def SXT_PPS_CAP_LO.TIME : Field := ⟨0x03100028, 0, 32⟩
@[reducible] def SXT_PPS_CAP_HI.addr : Nat := 0x0310002C
@[reducible] def SXT_PPS_CAP_HI.TIME : Field := ⟨0x0310002C, 0, 32⟩
@[reducible] def SXT_10M_PHASE.addr : Nat := 0x03100030
@[reducible] def SXT_10M_PHASE.PHASE : Field := ⟨0x03100030, 0, 9⟩
@[reducible] def SXT_PPS_WIDTH.addr : Nat := 0x03100034
@[reducible] def SXT_PPS_WIDTH.TICKS : Field := ⟨0x03100034, 0, 20⟩
@[reducible] def SXT_OFS_ACT_SEC_LO.addr : Nat := 0x03100038
@[reducible] def SXT_OFS_ACT_SEC_LO.SEC : Field := ⟨0x03100038, 0, 32⟩
@[reducible] def SXT_OFS_ACT_SEC_HI.addr : Nat := 0x0310003C
@[reducible] def SXT_OFS_ACT_SEC_HI.SEC : Field := ⟨0x0310003C, 0, 16⟩
@[reducible] def SXT_OFS_ACT_NS.addr : Nat := 0x03100040
@[reducible] def SXT_OFS_ACT_NS.NS : Field := ⟨0x03100040, 0, 30⟩
@[reducible] def SXT_OFS_ACT_NS.QNS : Field := ⟨0x03100040, 30, 2⟩

/-- The registers of the GLB block. -/
def regRowsGlb : List RegRow :=
  [/- GLB_ID -/ ⟨0x00000000, 4, 1, 1, 0x0, 0x0, 0x0, 0x0, 0x0, 0xFFFF00FF, 0x512000B1⟩,
   /- GLB_BOOT_STATUS -/ ⟨0x00000010, 4, 1, 1, 0x0, 0x0, 0x0, 0x0, 0x0, 0x1FFF, 0x0⟩,
   /- GLB_RST_CAUSE -/ ⟨0x00000014, 4, 1, 1, 0x0, 0x0, 0x0, 0x0, 0xFF00, 0x7, 0x0⟩,
   /- GLB_RST_CTRL -/ ⟨0x00000018, 4, 1, 1, 0x0, 0x0, 0xFFFF0001, 0x0, 0x0, 0x0, 0x0⟩,
   /- GLB_AVS_A -/ ⟨0x00000020, 4, 1, 1, 0x0, 0x100000, 0x0, 0x0, 0xF0000, 0x3FF, 0x320⟩,
   /- GLB_AVS_T -/ ⟨0x00000024, 4, 1, 1, 0x0, 0x100000, 0x0, 0x0, 0xF0000, 0x3FF, 0x320⟩,
   /- GLB_TEMP -/ ⟨0x00000028, 4, 1, 1, 0x0, 0x0, 0x0, 0x0, 0x0, 0xFFFF, 0x0⟩,
   /- GLB_THERM -/ ⟨0x0000002C, 4, 1, 1, 0x0, 0x700, 0x0, 0x0, 0xFF, 0x800, 0x7D⟩,
   /- GLB_PWR_STATUS -/ ⟨0x00000030, 4, 1, 1, 0x0, 0x3, 0x0, 0x0, 0x0, 0x1C, 0x0⟩]

/-- The registers of the GLB block whose cold-reset value is not 0: base, stride, count, inner, value. -/
def regResetsGlb : List (Nat × Nat × Nat × Nat × Nat) :=
  [(0x00000000, 4, 1, 1, 0x512000B1),
   (0x00000020, 4, 1, 1, 0x320),
   (0x00000024, 4, 1, 1, 0x320),
   (0x0000002C, 4, 1, 1, 0x7D)]

/-- The registers of the TCK block. -/
def regRowsTck : List RegRow :=
  [/- TCK_CTRL -/ ⟨0x00100000, 4, 1, 1, 0x3, 0x0, 0x8, 0x4, 0x0, 0x0, 0x1⟩,
   /- TCK_STATUS -/ ⟨0x00100004, 4, 1, 1, 0x0, 0x38, 0x0, 0x0, 0x0, 0x7, 0x0⟩,
   /- TCK_NOW_LO -/ ⟨0x00100008, 4, 1, 1, 0x0, 0x0, 0x0, 0x0, 0x0, 0xFFFFFFFF, 0x0⟩,
   /- TCK_NOW_HI -/ ⟨0x0010000C, 4, 1, 1, 0x0, 0x0, 0x0, 0x0, 0x0, 0xFFFF, 0x0⟩,
   /- TCK_CYC -/ ⟨0x00100010, 4, 1, 1, 0x0, 0x0, 0x0, 0x0, 0x0, 0x3FF03FF, 0x3FF0000⟩,
   /- TCK_COMMIT_LO -/ ⟨0x00100014, 4, 1, 1, 0x0, 0x0, 0x0, 0x0, 0x0, 0xFFFFFFFF, 0x0⟩,
   /- TCK_COMMIT_HI -/ ⟨0x00100018, 4, 1, 1, 0x0, 0x0, 0x0, 0x0, 0x0, 0xFFFF, 0x0⟩,
   /- TCK_EXP_TICK_LO -/ ⟨0x0010001C, 4, 1, 1, 0x0, 0x0, 0x0, 0x0, 0x0, 0xFFFFFFFF, 0x0⟩,
   /- TCK_EXP_TICK_HI -/ ⟨0x00100020, 4, 1, 1, 0x0, 0x0, 0x0, 0x0, 0x0, 0xFFFFFF, 0x0⟩,
   /- TCK_EXP_CNT_T2 -/ ⟨0x00100024, 4, 1, 1, 0xFFFFFFFF, 0x0, 0x0, 0x0, 0x0, 0x0, 0x0⟩,
   /- TCK_EXP_CNT_REFILL -/ ⟨0x00100028, 4, 1, 1, 0xFFFFFFFF, 0x0, 0x0, 0x0, 0x0, 0x0, 0x0⟩,
   /- TCK_EXP_CNT_OVR -/ ⟨0x0010002C, 4, 1, 1, 0xFFFFFFFF, 0x0, 0x0, 0x0, 0x0, 0x0, 0x0⟩,
   /- TCK_EXP_CNT_D2D -/ ⟨0x00100030, 4, 1, 1, 0xFFFFFFFF, 0x0, 0x0, 0x0, 0x0, 0x0, 0x0⟩,
   /- TCK_OVR_DROP -/ ⟨0x00100034, 4, 1, 1, 0xFFFFFFFF, 0x0, 0x0, 0x0, 0x0, 0x0, 0x0⟩,
   /- TCK_DIG_TICK_LO -/ ⟨0x00100038, 4, 1, 1, 0x0, 0x0, 0x0, 0x0, 0x0, 0xFFFFFFFF, 0x0⟩,
   /- TCK_DIG_TICK_HI -/ ⟨0x0010003C, 4, 1, 1, 0x0, 0x0, 0x0, 0x0, 0x0, 0xFFFFFF, 0x0⟩,
   /- TCK_DIG_ADM_LO -/ ⟨0x00100040, 4, 1, 1, 0x0, 0x0, 0x0, 0x0, 0x0, 0xFFFFFFFF, 0x0⟩,
   /- TCK_DIG_ADM_HI -/ ⟨0x00100044, 4, 1, 1, 0x0, 0x0, 0x0, 0x0, 0x0, 0xFFFFFFFF, 0x0⟩,
   /- TCK_DIG_OUT_LO -/ ⟨0x00100048, 4, 1, 1, 0x0, 0x0, 0x0, 0x0, 0x0, 0xFFFFFFFF, 0x0⟩,
   /- TCK_DIG_OUT_HI -/ ⟨0x0010004C, 4, 1, 1, 0x0, 0x0, 0x0, 0x0, 0x0, 0xFFFFFFFF, 0x0⟩,
   /- TCK_PAIR_HOLDOFF -/ ⟨0x00100050, 4, 1, 1, 0xFFFFFF, 0x0, 0x0, 0x0, 0x0, 0x0, 0x40000⟩,
   /- TCK_PAIR_MISMATCH -/ ⟨0x00100054, 4, 1, 1, 0xFFFFFFFF, 0x0, 0x0, 0x0, 0x0, 0x0, 0x0⟩,
   /- TCK_PAIR_SKIP -/ ⟨0x00100058, 4, 1, 1, 0xFFFFFFFF, 0x0, 0x0, 0x0, 0x0, 0x0, 0x0⟩]

/-- The registers of the TCK block whose cold-reset value is not 0: base, stride, count, inner, value. -/
def regResetsTck : List (Nat × Nat × Nat × Nat × Nat) :=
  [(0x00100000, 4, 1, 1, 0x1),
   (0x00100010, 4, 1, 1, 0x3FF0000),
   (0x00100050, 4, 1, 1, 0x40000)]

/-- The registers of the CHT block. -/
def regRowsCht : List RegRow :=
  [/- CHT_STATUS -/ ⟨0x00200000, 4, 1, 1, 0x0, 0xF0, 0x0, 0x0, 0x0, 0xFFFF030F, 0x0⟩,
   /- CHT_SWAP_CTRL -/ ⟨0x00200004, 4, 1, 1, 0xC, 0x0, 0x3, 0x0, 0x0, 0x0, 0x0⟩,
   /- CHT_SWAP_TICK_LO -/ ⟨0x00200008, 4, 1, 1, 0xFFFFFFFF, 0x0, 0x0, 0x0, 0x0, 0x0, 0x0⟩,
   /- CHT_SWAP_TICK_HI -/ ⟨0x0020000C, 4, 1, 1, 0xFFFF, 0x0, 0x0, 0x0, 0x0, 0x0, 0x0⟩,
   /- CHT_LAST_SWAP_LO -/ ⟨0x00200010, 4, 1, 1, 0x0, 0x0, 0x0, 0x0, 0x0, 0xFFFFFFFF, 0x0⟩,
   /- CHT_LAST_SWAP_HI -/ ⟨0x00200014, 4, 1, 1, 0x0, 0x0, 0x0, 0x0, 0x0, 0xFFFF, 0x0⟩,
   /- CHT_SEQ_STATUS -/ ⟨0x00200018, 4, 1, 1, 0x0, 0x0, 0x0, 0x0, 0x0, 0x7F, 0x0⟩,
   /- CHT_ARM_WHERE -/ ⟨0x0020001C, 4, 1, 1, 0x0, 0x0, 0x0, 0x0, 0x0, 0x3FFFF, 0x0⟩,
   /- CHT_REFUSED -/ ⟨0x00200020, 4, 1, 1, 0xFFFFFFFF, 0x0, 0x0, 0x0, 0x0, 0x0, 0x0⟩,
   /- CHT_PASS_LIMIT -/ ⟨0x00200024, 4, 1, 1, 0xFFFFFFFF, 0x0, 0x0, 0x0, 0x0, 0x0, 0x0⟩,
   /- CHT_RECIRC_OVF -/ ⟨0x00200028, 4, 1, 1, 0xFFFFFFFF, 0x0, 0x0, 0x0, 0x0, 0x0, 0x0⟩,
   /- CHT_RECIRC_SHED -/ ⟨0x0020002C, 4, 1, 1, 0xFFFFFFFF, 0x0, 0x0, 0x0, 0x0, 0x0, 0x0⟩,
   /- CHT_LAYBY_NOREQ -/ ⟨0x00200030, 4, 1, 1, 0xFFFFFFFF, 0x0, 0x0, 0x0, 0x0, 0x0, 0x0⟩,
   /- CHT_LAYBY_OVF -/ ⟨0x00200034, 4, 1, 1, 0xFFFFFFFF, 0x0, 0x0, 0x0, 0x0, 0x0, 0x0⟩,
   /- CHT_MIRROR_INVALID -/ ⟨0x00200038, 4, 1, 1, 0xFFFFFFFF, 0x0, 0x0, 0x0, 0x0, 0x0, 0x0⟩,
   /- CHT_SEQ_FAULT -/ ⟨0x0020003C, 4, 1, 1, 0xFFFFFFFF, 0x0, 0x0, 0x0, 0x0, 0x0, 0x0⟩,
   /- CHT_LD_ADDR -/ ⟨0x00200100, 4, 1, 1, 0xF07FF3F, 0x0, 0x0, 0x0, 0x0, 0x0, 0x0⟩,
   /- CHT_LD_CMD -/ ⟨0x00200104, 4, 1, 1, 0x0, 0x0, 0x3, 0x0, 0x0, 0x0, 0x0⟩,
   /- CHT_LD_STATUS -/ ⟨0x00200108, 4, 1, 1, 0x0, 0xE, 0x0, 0x0, 0x0, 0x7FF01, 0x0⟩,
   /- CHT_LD_DATA -/ ⟨0x00200120, 4, 8, 1, 0xFFFFFFFF, 0x0, 0x0, 0x0, 0x0, 0x0, 0x0⟩,
   /- CHT_EARLY_READ -/ ⟨0x00200140, 4, 1, 1, 0xFFFFFFFF, 0x0, 0x0, 0x0, 0x0, 0x0, 0x0⟩,
   /- CHT_ROW_INVALID -/ ⟨0x00200144, 4, 1, 1, 0xFFFFFFFF, 0x0, 0x0, 0x0, 0x0, 0x0, 0x0⟩,
   /- CHT_ROW_UE -/ ⟨0x00200148, 4, 1, 1, 0xFFFFFFFF, 0x0, 0x0, 0x0, 0x0, 0x0, 0x0⟩]

/-- The registers of the CHT block whose cold-reset value is not 0: base, stride, count, inner, value. -/
def regResetsCht : List (Nat × Nat × Nat × Nat × Nat) :=
  []

/-- The registers of the PRS block. -/
def regRowsPrs : List RegRow :=
  [/- PRS_EXC_CTRL -/ ⟨0x00400000, 4, 1, 1, 0x0, 0x0, 0x0, 0x3F, 0x0, 0x0, 0x0⟩,
   /- PRS_EXC_RATE -/ ⟨0x00400004, 4, 1, 1, 0x0, 0x0, 0x0, 0xFFFFF, 0x0, 0x0, 0x4⟩,
   /- PRS_EXC_DEPTH -/ ⟨0x00400008, 4, 1, 1, 0x0, 0x0, 0x0, 0xFFFF, 0x0, 0x0, 0x40⟩,
   /- PRS_EXC_PUNT -/ ⟨0x0040000C, 4, 1, 1, 0xFFFFFFFF, 0x0, 0x0, 0x0, 0x0, 0x0, 0x0⟩,
   /- PRS_EXC_DROP -/ ⟨0x00400010, 4, 1, 1, 0xFFFFFFFF, 0x0, 0x0, 0x0, 0x0, 0x0, 0x0⟩,
   /- PRS_EXC_QUEUE -/ ⟨0x00400014, 4, 1, 1, 0xFFFFFFFF, 0x0, 0x0, 0x0, 0x0, 0x0, 0x0⟩,
   /- PRS_STOP_LAST -/ ⟨0x00400018, 4, 1, 1, 0x0, 0x0, 0x0, 0x0, 0x0, 0x7FFFFF, 0x0⟩,
   /- PRS_EXC_CNT -/ ⟨0x00400020, 4, 7, 1, 0xFFFFFFFF, 0x0, 0x0, 0x0, 0x0, 0x0, 0x0⟩,
   /- PRS_EXC_CNT_REJ -/ ⟨0x0040003C, 4, 1, 1, 0xFFFFFFFF, 0x0, 0x0, 0x0, 0x0, 0x0, 0x0⟩,
   /- PRS_LD_ADDR -/ ⟨0x00400100, 4, 1, 1, 0xF0007FF, 0x0, 0x0, 0x0, 0x0, 0x0, 0x0⟩,
   /- PRS_LD_CMD -/ ⟨0x00400104, 4, 1, 1, 0x0, 0x0, 0x3, 0x0, 0x0, 0x0, 0x0⟩,
   /- PRS_LD_STATUS -/ ⟨0x00400108, 4, 1, 1, 0x0, 0xE, 0x0, 0x0, 0x0, 0xFF01, 0x0⟩,
   /- PRS_LD_DATA -/ ⟨0x00400120, 4, 4, 1, 0xFFFFFFFF, 0x0, 0x0, 0x0, 0x0, 0x0, 0x0⟩]

/-- The registers of the PRS block whose cold-reset value is not 0: base, stride, count, inner, value. -/
def regResetsPrs : List (Nat × Nat × Nat × Nat × Nat) :=
  [(0x00400004, 4, 1, 1, 0x4),
   (0x00400008, 4, 1, 1, 0x40)]

/-- The registers of the ASX block. -/
def regRowsAsx : List RegRow :=
  [/- ASX_STATUS -/ ⟨0x00600000, 4, 1, 1, 0x0, 0x1, 0x0, 0x0, 0x0, 0x6, 0x0⟩,
   /- ASX_OP_CTRL -/ ⟨0x00600004, 4, 1, 1, 0x0, 0x0, 0x0, 0xFF07, 0x0, 0x0, 0x4000⟩,
   /- ASX_OP_ADDR -/ ⟨0x00600008, 4, 1, 1, 0xFFFFFFF, 0x0, 0x0, 0x0, 0x0, 0x0, 0x0⟩,
   /- ASX_OP_CMD -/ ⟨0x0060000C, 4, 1, 1, 0x0, 0x0, 0x1, 0x0, 0x0, 0x0, 0x0⟩,
   /- ASX_OP_STATUS -/ ⟨0x00600010, 4, 1, 1, 0x0, 0x6, 0x0, 0x0, 0x0, 0x7FFF01, 0x0⟩,
   /- ASX_MOVE_STATUS -/ ⟨0x00600014, 4, 1, 1, 0x0, 0x1000000, 0x0, 0x0, 0x0, 0x2FFFFFF, 0x0⟩,
   /- ASX_CFG_ERR -/ ⟨0x00600018, 4, 1, 1, 0x0, 0x0, 0x0, 0x0, 0x0, 0xFF3FFF, 0x0⟩,
   /- ASX_UNSERVED -/ ⟨0x0060001C, 4, 1, 1, 0xFFFFFFFF, 0x0, 0x0, 0x0, 0x0, 0x0, 0x0⟩,
   /- ASX_ERR_RESULT -/ ⟨0x00600020, 4, 1, 1, 0xFFFFFFFF, 0x0, 0x0, 0x0, 0x0, 0x0, 0x0⟩,
   /- ASX_SCRUB_FIX -/ ⟨0x00600024, 4, 1, 1, 0xFFFFFFFF, 0x0, 0x0, 0x0, 0x0, 0x0, 0x0⟩,
   /- ASX_SCRUB_CE -/ ⟨0x00600028, 4, 1, 1, 0xFFFFFFFF, 0x0, 0x0, 0x0, 0x0, 0x0, 0x0⟩,
   /- ASX_UE_WHERE -/ ⟨0x0060002C, 4, 1, 1, 0x0, 0x0, 0x0, 0x0, 0x0, 0x7FF7F, 0x0⟩,
   /- ASX_REVOKED -/ ⟨0x00600030, 4, 1, 1, 0xFFFFFFFF, 0x0, 0x0, 0x0, 0x0, 0x0, 0x0⟩,
   /- ASX_OP_DATA -/ ⟨0x00600100, 4, 25, 1, 0xFFFFFFFF, 0x0, 0x0, 0x0, 0x0, 0x0, 0x0⟩,
   /- ASX_BANK -/ ⟨0x00600400, 4, 128, 1, 0x0, 0x0, 0x400, 0xF, 0x0, 0x300, 0x0⟩,
   /- ASX_TBL_A -/ ⟨0x00600800, 8, 64, 1, 0x0, 0x0, 0x0, 0xFFF7FFF, 0x0, 0x0, 0x0⟩,
   /- ASX_TBL_B -/ ⟨0x00600804, 8, 64, 1, 0x0, 0x0, 0x0, 0x7F7F, 0x0, 0x3F0000, 0x0⟩]

/-- The registers of the ASX block whose cold-reset value is not 0: base, stride, count, inner, value. -/
def regResetsAsx : List (Nat × Nat × Nat × Nat × Nat) :=
  [(0x00600004, 4, 1, 1, 0x4000)]

/-- The registers of the LKU block. -/
def regRowsLku : List RegRow :=
  [/- LKU_STATUS -/ ⟨0x00800000, 4, 1, 1, 0x0, 0x1, 0x0, 0x0, 0x0, 0x2, 0x0⟩,
   /- LKU_WR_CTRL -/ ⟨0x00800004, 4, 1, 1, 0x0, 0x0, 0x0, 0xFF07, 0x0, 0x0, 0x4000⟩,
   /- LKU_WR_ADDR -/ ⟨0x00800008, 4, 1, 1, 0xF0F, 0x0, 0x0, 0x0, 0x0, 0x0, 0x0⟩,
   /- LKU_WR_INDEX -/ ⟨0x0080000C, 4, 1, 1, 0x7FFFFF, 0x0, 0x0, 0x0, 0x0, 0x0, 0x0⟩,
   /- LKU_WR_CMD -/ ⟨0x00800010, 4, 1, 1, 0x0, 0x0, 0x1, 0x0, 0x0, 0x0, 0x0⟩,
   /- LKU_WR_STATUS -/ ⟨0x00800014, 4, 1, 1, 0x0, 0x6, 0x0, 0x0, 0x0, 0x1FFFF01, 0x0⟩,
   /- LKU_CFG_ERR -/ ⟨0x00800018, 4, 1, 1, 0x0, 0x0, 0x0, 0x0, 0x0, 0xFF3F, 0x0⟩,
   /- LKU_LPM_USED -/ ⟨0x0080001C, 4, 1, 1, 0x0, 0x0, 0x0, 0x0, 0x0, 0x7FFFFF, 0x0⟩,
   /- LKU_EX_USED -/ ⟨0x00800020, 4, 1, 1, 0x0, 0x0, 0x0, 0x0, 0x0, 0x3FFFFF, 0x0⟩,
   /- LKU_LAYBY_USED -/ ⟨0x00800024, 4, 1, 1, 0x0, 0x0, 0x0, 0x0, 0x0, 0x1FFF, 0x0⟩,
   /- LKU_T2_BUF -/ ⟨0x00800028, 4, 1, 1, 0x0, 0x0, 0x0, 0x0, 0x0, 0x1FF, 0x0⟩,
   /- LKU_LAYBY_FULL -/ ⟨0x0080002C, 4, 1, 1, 0xFFFFFFFF, 0x0, 0x0, 0x0, 0x0, 0x0, 0x0⟩,
   /- LKU_LAYBY_REVOKED -/ ⟨0x00800030, 4, 1, 1, 0xFFFFFFFF, 0x0, 0x0, 0x0, 0x0, 0x0, 0x0⟩,
   /- LKU_T2_LATE -/ ⟨0x00800034, 4, 1, 1, 0xFFFFFFFF, 0x0, 0x0, 0x0, 0x0, 0x0, 0x0⟩,
   /- LKU_T2_ERR -/ ⟨0x00800038, 4, 1, 1, 0xFFFFFFFF, 0x0, 0x0, 0x0, 0x0, 0x0, 0x0⟩,
   /- LKU_UNSERVED -/ ⟨0x0080003C, 4, 1, 1, 0xFFFFFFFF, 0x0, 0x0, 0x0, 0x0, 0x0, 0x0⟩,
   /- LKU_ERR_RESULT -/ ⟨0x00800040, 4, 1, 1, 0xFFFFFFFF, 0x0, 0x0, 0x0, 0x0, 0x0, 0x0⟩,
   /- LKU_SCRUB_CE -/ ⟨0x00800044, 4, 1, 1, 0xFFFFFFFF, 0x0, 0x0, 0x0, 0x0, 0x0, 0x0⟩,
   /- LKU_UE_WHERE -/ ⟨0x00800048, 4, 1, 1, 0x0, 0x0, 0x0, 0x0, 0x0, 0x3FFFFFF, 0x0⟩,
   /- LKU_WR_DATA -/ ⟨0x00800100, 4, 16, 1, 0xFFFFFFFF, 0x0, 0x0, 0x0, 0x0, 0x0, 0x0⟩,
   /- LKU_EX_TBL -/ ⟨0x00800200, 4, 16, 1, 0x0, 0x0, 0x0, 0x3F, 0x0, 0x0, 0x0⟩,
   /- LKU_DIR_TBL_A -/ ⟨0x00800300, 8, 16, 1, 0x0, 0x0, 0x0, 0x3FFFFEF, 0x0, 0x0, 0x0⟩,
   /- LKU_DIR_TBL_B -/ ⟨0x00800304, 8, 16, 1, 0x0, 0x0, 0x0, 0x7FFFFF, 0x0, 0x0, 0x0⟩,
   /- LKU_T2_TBL_A -/ ⟨0x00800400, 8, 4, 1, 0x0, 0x0, 0x0, 0xFFFF007F, 0x0, 0x0, 0x0⟩] ++
  [/- LKU_T2_TBL_B -/ ⟨0x00800404, 8, 4, 1, 0x0, 0x0, 0x0, 0x3FFFF, 0x0, 0x0, 0x0⟩]

/-- The registers of the LKU block whose cold-reset value is not 0: base, stride, count, inner, value. -/
def regResetsLku : List (Nat × Nat × Nat × Nat × Nat) :=
  [(0x00800004, 4, 1, 1, 0x4000)]

/-- The registers of the CTX block. -/
def regRowsCtx : List RegRow :=
  [/- CTX_INVALID -/ ⟨0x00A00000, 4, 1, 1, 0xFFFFFFFF, 0x0, 0x0, 0x0, 0x0, 0x0, 0x0⟩,
   /- CTX_ERR_RESULT -/ ⟨0x00A00004, 4, 1, 1, 0xFFFFFFFF, 0x0, 0x0, 0x0, 0x0, 0x0, 0x0⟩,
   /- CTX_SCRUB_CE -/ ⟨0x00A00008, 4, 1, 1, 0xFFFFFFFF, 0x0, 0x0, 0x0, 0x0, 0x0, 0x0⟩,
   /- CTX_UE_WHERE -/ ⟨0x00A0000C, 4, 1, 1, 0x0, 0x0, 0x0, 0x0, 0x0, 0x3FFFF, 0x0⟩]

/-- The registers of the CTX block whose cold-reset value is not 0: base, stride, count, inner, value. -/
def regResetsCtx : List (Nat × Nat × Nat × Nat × Nat) :=
  []

/-- The registers of the YRD block. -/
def regRowsYrd : List RegRow :=
  [/- YRD_CTRL -/ ⟨0x00C00000, 4, 1, 1, 0x0, 0x0, 0x0, 0x1FF, 0x0, 0x0, 0x110⟩,
   /- YRD_STATUS -/ ⟨0x00C00004, 4, 1, 1, 0x0, 0x1, 0x0, 0x0, 0x0, 0xE, 0x0⟩,
   /- YRD_BUDGET -/ ⟨0x00C00008, 4, 1, 1, 0x0, 0x0, 0x0, 0xFFFF, 0x0, 0x0, 0x3C3C⟩,
   /- YRD_GRP_CAP -/ ⟨0x00C0000C, 4, 1, 1, 0x0, 0x0, 0x0, 0xFFFFFF, 0x0, 0x0, 0x209696⟩,
   /- YRD_GUARD -/ ⟨0x00C00010, 4, 1, 1, 0x0, 0x0, 0x0, 0x1FFFFF, 0x0, 0x0, 0x10000⟩,
   /- YRD_THERM -/ ⟨0x00C00014, 4, 1, 1, 0xFF, 0x0, 0x0, 0x0, 0x0, 0x0, 0x5F⟩,
   /- YRD_CAL -/ ⟨0x00C00018, 4, 1, 1, 0xFFFFF, 0x0, 0x0, 0x0, 0x0, 0x0, 0xA2C⟩,
   /- YRD_REC_USED -/ ⟨0x00C0001C, 4, 1, 1, 0x0, 0x0, 0x0, 0x0, 0x0, 0x3FFFF, 0x0⟩,
   /- YRD_SPILL_PKT -/ ⟨0x00C00020, 4, 1, 1, 0xFFFFFFFF, 0x0, 0x0, 0x0, 0x0, 0x0, 0x0⟩,
   /- YRD_REFILL_PKT -/ ⟨0x00C00024, 4, 1, 1, 0xFFFFFFFF, 0x0, 0x0, 0x0, 0x0, 0x0, 0x0⟩,
   /- YRD_FETCH -/ ⟨0x00C00028, 4, 1, 1, 0xFFFFFFFF, 0x0, 0x0, 0x0, 0x0, 0x0, 0x0⟩,
   /- YRD_LATE -/ ⟨0x00C0002C, 4, 1, 1, 0xFFFFFFFF, 0x0, 0x0, 0x0, 0x0, 0x0, 0x0⟩,
   /- YRD_DROP_REC -/ ⟨0x00C00030, 4, 1, 1, 0xFFFFFFFF, 0x0, 0x0, 0x0, 0x0, 0x0, 0x0⟩,
   /- YRD_DROP_STK -/ ⟨0x00C00034, 4, 1, 1, 0xFFFFFFFF, 0x0, 0x0, 0x0, 0x0, 0x0, 0x0⟩,
   /- YRD_SPLIT -/ ⟨0x00C00038, 4, 1, 1, 0xFFFFFFFF, 0x0, 0x0, 0x0, 0x0, 0x0, 0x0⟩,
   /- YRD_RAW_WAIT -/ ⟨0x00C0003C, 4, 1, 1, 0xFFFFFFFF, 0x0, 0x0, 0x0, 0x0, 0x0, 0x0⟩,
   /- YRD_SR_WAIT -/ ⟨0x00C00040, 4, 1, 1, 0xFFFFFFFF, 0x0, 0x0, 0x0, 0x0, 0x0, 0x0⟩,
   /- YRD_SCRUB_CE -/ ⟨0x00C00044, 4, 1, 1, 0xFFFFFFFF, 0x0, 0x0, 0x0, 0x0, 0x0, 0x0⟩,
   /- YRD_UE_WHERE -/ ⟨0x00C00048, 4, 1, 1, 0x0, 0x0, 0x0, 0x0, 0x0, 0x3FFFFFFF, 0x0⟩,
   /- YRD_STK_STATUS -/ ⟨0x00C00100, 16, 8, 1, 0x0, 0x0, 0x0, 0x0, 0x0, 0xFF3F, 0x4⟩,
   /- YRD_STK_FREE -/ ⟨0x00C00104, 16, 8, 1, 0x0, 0x0, 0x0, 0x0, 0x0, 0x1FFFFFF, 0x0⟩,
   /- YRD_STK_CTRL -/ ⟨0x00C00108, 16, 8, 1, 0x0, 0x0, 0x0, 0x1, 0x0, 0x0, 0x1⟩,
   /- YRD_STK_IDLE -/ ⟨0x00C0010C, 16, 8, 1, 0x0, 0x0, 0x0, 0x0, 0x0, 0x7FF, 0x0⟩,
   /- YRD_SPROF_A -/ ⟨0x00C00200, 16, 16, 1, 0x0, 0x0, 0x0, 0xFFFFFFFF, 0x0, 0x0, 0x400000⟩] ++
  [/- YRD_SPROF_B -/ ⟨0x00C00204, 16, 16, 1, 0x0, 0x0, 0x0, 0x8FFFFFFF, 0x0, 0x0, 0x1000020⟩]

/-- The registers of the YRD block whose cold-reset value is not 0: base, stride, count, inner, value. -/
def regResetsYrd : List (Nat × Nat × Nat × Nat × Nat) :=
  [(0x00C00000, 4, 1, 1, 0x110),
   (0x00C00008, 4, 1, 1, 0x3C3C),
   (0x00C0000C, 4, 1, 1, 0x209696),
   (0x00C00010, 4, 1, 1, 0x10000),
   (0x00C00014, 4, 1, 1, 0x5F),
   (0x00C00018, 4, 1, 1, 0xA2C),
   (0x00C00100, 16, 8, 1, 0x4),
   (0x00C00108, 16, 8, 1, 0x1),
   (0x00C00200, 16, 16, 1, 0x400000),
   (0x00C00204, 16, 16, 1, 0x1000020)]

/-- The registers of the QUE block. -/
def regRowsQue : List RegRow :=
  [/- QUE_STATUS -/ ⟨0x01000000, 4, 1, 1, 0x0, 0x9, 0x0, 0x0, 0x0, 0x6, 0x0⟩,
   /- QUE_CTRL -/ ⟨0x01000004, 4, 1, 1, 0x0, 0x0, 0x0, 0xF1, 0x0, 0x0, 0x80⟩,
   /- QUE_HOLD -/ ⟨0x01000008, 4, 1, 1, 0x0, 0x0, 0x0, 0x7FFFF, 0x0, 0x0, 0x65BA⟩,
   /- QUE_CFG_ADDR -/ ⟨0x0100000C, 4, 1, 1, 0x1FF3FFFF, 0x0, 0x0, 0x0, 0x0, 0x0, 0x0⟩,
   /- QUE_CFG_CMD -/ ⟨0x01000010, 4, 1, 1, 0x0, 0x0, 0x1, 0x0, 0x0, 0x0, 0x0⟩,
   /- QUE_CFG_STATUS -/ ⟨0x01000014, 4, 1, 1, 0x0, 0x6, 0x0, 0x0, 0x0, 0x1FFFF01, 0x0⟩,
   /- QUE_CFG_ERR -/ ⟨0x01000018, 4, 1, 1, 0x0, 0x0, 0x0, 0x0, 0x0, 0xFFF3FFFF, 0x0⟩,
   /- QUE_CFG_TICK_LO -/ ⟨0x0100001C, 4, 1, 1, 0xFFFFFFFF, 0x0, 0x0, 0x0, 0x0, 0x0, 0x0⟩,
   /- QUE_CFG_TICK_HI -/ ⟨0x01000020, 4, 1, 1, 0xFFFF, 0x0, 0x0, 0x0, 0x0, 0x0, 0x0⟩,
   /- QUE_DROP_DISABLED -/ ⟨0x01000024, 4, 1, 1, 0xFFFFFFFF, 0x0, 0x0, 0x0, 0x0, 0x0, 0x0⟩,
   /- QUE_DROP_HARD -/ ⟨0x01000028, 4, 1, 1, 0xFFFFFFFF, 0x0, 0x0, 0x0, 0x0, 0x0, 0x0⟩,
   /- QUE_DROP_RAMP -/ ⟨0x0100002C, 4, 1, 1, 0xFFFFFFFF, 0x0, 0x0, 0x0, 0x0, 0x0, 0x0⟩,
   /- QUE_MARK -/ ⟨0x01000030, 4, 1, 1, 0xFFFFFFFF, 0x0, 0x0, 0x0, 0x0, 0x0, 0x0⟩,
   /- QUE_DROP_AGED -/ ⟨0x01000034, 4, 1, 1, 0xFFFFFFFF, 0x0, 0x0, 0x0, 0x0, 0x0, 0x0⟩,
   /- QUE_DROP_FLUSH -/ ⟨0x01000038, 4, 1, 1, 0xFFFFFFFF, 0x0, 0x0, 0x0, 0x0, 0x0, 0x0⟩,
   /- QUE_DROP_PORTDOWN -/ ⟨0x0100003C, 4, 1, 1, 0xFFFFFFFF, 0x0, 0x0, 0x0, 0x0, 0x0, 0x0⟩,
   /- QUE_DROP_BATCH -/ ⟨0x01000040, 4, 1, 1, 0xFFFFFFFF, 0x0, 0x0, 0x0, 0x0, 0x0, 0x0⟩,
   /- QUE_REPL_SKIP -/ ⟨0x01000044, 4, 1, 1, 0xFFFFFFFF, 0x0, 0x0, 0x0, 0x0, 0x0, 0x0⟩,
   /- QUE_PINNED -/ ⟨0x01000048, 4, 1, 1, 0xFFFFFFFF, 0x0, 0x0, 0x0, 0x0, 0x0, 0x0⟩,
   /- QUE_CLAMP -/ ⟨0x0100004C, 4, 1, 1, 0xFFFFFFFF, 0x0, 0x0, 0x0, 0x0, 0x0, 0x0⟩,
   /- QUE_CFG_DATA -/ ⟨0x01000100, 4, 8, 1, 0xFFFFFFFF, 0x0, 0x0, 0x0, 0x0, 0x0, 0x0⟩,
   /- QUE_OVH -/ ⟨0x01000200, 4, 16, 1, 0x0, 0x0, 0x0, 0xFF, 0x0, 0x0, 0x18⟩,
   /- QUE_L0_ST -/ ⟨0x01001000, 4, 512, 1, 0x0, 0x0, 0x0, 0x0, 0x0, 0x1FFFF3, 0x0⟩]

/-- The registers of the QUE block whose cold-reset value is not 0: base, stride, count, inner, value. -/
def regResetsQue : List (Nat × Nat × Nat × Nat × Nat) :=
  [(0x01000004, 4, 1, 1, 0x80),
   (0x01000008, 4, 1, 1, 0x65BA),
   (0x01000200, 4, 16, 1, 0x18)]

/-- The registers of the DPT block. -/
def regRowsDpt : List RegRow :=
  [/- DPT_STATUS -/ ⟨0x01800000, 4, 1, 1, 0x0, 0x1B, 0x0, 0x0, 0x0, 0x4, 0x0⟩,
   /- DPT_TRANSIT_RSV -/ ⟨0x01800004, 4, 1, 1, 0x0, 0x0, 0x0, 0x1FFFFF, 0x0, 0x0, 0x4000⟩,
   /- DPT_REFILL_RSV -/ ⟨0x01800008, 4, 1, 1, 0x0, 0x0, 0x0, 0x1FFFFF, 0x0, 0x0, 0x10000⟩,
   /- DPT_FREE -/ ⟨0x0180000C, 4, 1, 1, 0x0, 0x0, 0x0, 0x0, 0x0, 0x1FFFFF, 0x100000⟩,
   /- DPT_SHR_SIZE -/ ⟨0x01800010, 4, 1, 1, 0x0, 0x0, 0x0, 0x0, 0x0, 0x1FFFFF, 0xE4000⟩,
   /- DPT_SHR_USED -/ ⟨0x01800014, 4, 1, 1, 0x0, 0x0, 0x0, 0x0, 0x0, 0x1FFFFF, 0x0⟩,
   /- DPT_TRANSIT_USED -/ ⟨0x01800018, 4, 1, 1, 0x0, 0x0, 0x0, 0x0, 0x0, 0x1FFFFF, 0x0⟩,
   /- DPT_REFILL_USED -/ ⟨0x0180001C, 4, 1, 1, 0x0, 0x0, 0x0, 0x0, 0x0, 0x1FFFFF, 0x0⟩,
   /- DPT_DROP_NOBUF -/ ⟨0x01800020, 4, 1, 1, 0xFFFFFFFF, 0x0, 0x0, 0x0, 0x0, 0x0, 0x0⟩,
   /- DPT_DROP_GROW -/ ⟨0x01800024, 4, 1, 1, 0xFFFFFFFF, 0x0, 0x0, 0x0, 0x0, 0x0, 0x0⟩,
   /- DPT_COUPLE_OVF -/ ⟨0x01800028, 4, 1, 1, 0xFFFFFFFF, 0x0, 0x0, 0x0, 0x0, 0x0, 0x0⟩,
   /- DPT_FALLBACK -/ ⟨0x0180002C, 4, 1, 1, 0xFFFFFFFF, 0x0, 0x0, 0x0, 0x0, 0x0, 0x0⟩,
   /- DPT_DBL_REL -/ ⟨0x01800030, 4, 1, 1, 0xFFFFFFFF, 0x0, 0x0, 0x0, 0x0, 0x0, 0x0⟩,
   /- DPT_NONOWN_REL -/ ⟨0x01800034, 4, 1, 1, 0xFFFFFFFF, 0x0, 0x0, 0x0, 0x0, 0x0, 0x0⟩,
   /- DPT_BADREL_PTR -/ ⟨0x01800038, 4, 1, 1, 0x0, 0x0, 0x0, 0x0, 0x0, 0x1FFFFFF, 0x0⟩,
   /- DPT_BADREL_WHO -/ ⟨0x0180003C, 4, 1, 1, 0x0, 0x0, 0x0, 0x0, 0x0, 0xFFFFFFFF, 0x0⟩,
   /- DPT_TAIL_ERR -/ ⟨0x01800040, 4, 1, 1, 0xFFFFFFFF, 0x0, 0x0, 0x0, 0x0, 0x0, 0x0⟩,
   /- DPT_UE_WHERE -/ ⟨0x01800044, 4, 1, 1, 0x0, 0x0, 0x0, 0x0, 0x0, 0x1FFFFFF, 0x0⟩,
   /- DPT_SCRUB_CE -/ ⟨0x01800048, 4, 1, 1, 0xFFFFFFFF, 0x0, 0x0, 0x0, 0x0, 0x0, 0x0⟩,
   /- DPT_AUD_CTRL -/ ⟨0x0180004C, 4, 1, 1, 0x2, 0x0, 0x1, 0x0, 0x0, 0x0, 0x2⟩,
   /- DPT_AUD_PERIOD -/ ⟨0x01800050, 4, 1, 1, 0xFFFFFF, 0x0, 0x0, 0x0, 0x0, 0x0, 0x100000⟩,
   /- DPT_AUD_STATUS -/ ⟨0x01800054, 4, 1, 1, 0x0, 0x0, 0x0, 0x0, 0x0, 0x7, 0x0⟩,
   /- DPT_AUD_RECLAIM -/ ⟨0x01800058, 4, 1, 1, 0xFFFFFFFF, 0x0, 0x0, 0x0, 0x0, 0x0, 0x0⟩,
   /- DPT_AUD_LAST_LO -/ ⟨0x0180005C, 4, 1, 1, 0x0, 0x0, 0x0, 0x0, 0x0, 0xFFFFFFFF, 0x0⟩] ++
  [/- DPT_AUD_LAST_HI -/ ⟨0x01800060, 4, 1, 1, 0x0, 0x0, 0x0, 0x0, 0x0, 0xFFFF, 0x0⟩,
   /- DPT_SRC_RSV -/ ⟨0x01801000, 4, 259, 1, 0x0, 0x0, 0x0, 0xFFFFF, 0x0, 0x0, 0x0⟩,
   /- DPT_SRC_MAX -/ ⟨0x01801800, 4, 259, 1, 0x0, 0x0, 0x0, 0x1FFFFF, 0x0, 0x0, 0x1FFFFF⟩,
   /- DPT_SRC_USED -/ ⟨0x01802000, 4, 259, 1, 0x0, 0x0, 0x0, 0x0, 0x0, 0x1FFFFF, 0x0⟩]

/-- The registers of the DPT block whose cold-reset value is not 0: base, stride, count, inner, value. -/
def regResetsDpt : List (Nat × Nat × Nat × Nat × Nat) :=
  [(0x01800004, 4, 1, 1, 0x4000),
   (0x01800008, 4, 1, 1, 0x10000),
   (0x0180000C, 4, 1, 1, 0x100000),
   (0x01800010, 4, 1, 1, 0xE4000),
   (0x0180004C, 4, 1, 1, 0x2),
   (0x01800050, 4, 1, 1, 0x100000),
   (0x01801800, 4, 259, 1, 0x1FFFFF)]

/-- The registers of the WAN block. -/
def regRowsWan : List RegRow :=
  [/- WAN_STATUS -/ ⟨0x01C00000, 4, 1, 1, 0x0, 0xF, 0x0, 0x0, 0x0, 0x0, 0x0⟩,
   /- WAN_CFG_ERR -/ ⟨0x01C00004, 4, 1, 1, 0x0, 0x0, 0x0, 0x0, 0x0, 0xFFFF, 0x0⟩,
   /- WAN_BRG_CTRL -/ ⟨0x01C00008, 4, 1, 1, 0x3FF, 0x0, 0x0, 0x0, 0x0, 0x0, 0x3FF⟩,
   /- WAN_BRG_SYSID_LO -/ ⟨0x01C0000C, 4, 1, 1, 0xFFFFFFFF, 0x0, 0x0, 0x0, 0x0, 0x0, 0x0⟩,
   /- WAN_BRG_SYSID_HI -/ ⟨0x01C00010, 4, 1, 1, 0xFFFF, 0x0, 0x0, 0x0, 0x0, 0x0, 0x0⟩,
   /- WAN_BRG_DA_LO -/ ⟨0x01C00014, 4, 1, 1, 0xFFFFFFFF, 0x0, 0x0, 0x0, 0x0, 0x0, 0xFFFFFFFF⟩,
   /- WAN_BRG_DA_HI -/ ⟨0x01C00018, 4, 1, 1, 0xFFFF, 0x0, 0x0, 0x0, 0x0, 0x0, 0xFFFF⟩,
   /- WAN_MS_TIMER -/ ⟨0x01C0001C, 4, 1, 1, 0xFFFFFFF, 0x0, 0x0, 0x0, 0x0, 0x0, 0x3020000⟩,
   /- WAN_MS_TIMER2 -/ ⟨0x01C00020, 4, 1, 1, 0xFFFFFF, 0x0, 0x0, 0x0, 0x0, 0x0, 0x100040⟩,
   /- WAN_MS_RETUNE -/ ⟨0x01C00024, 4, 1, 1, 0xFFFFFFFF, 0x0, 0x0, 0x0, 0x0, 0x0, 0x1007F281⟩,
   /- WAN_MS_POLL -/ ⟨0x01C00028, 4, 1, 1, 0xFF00FF, 0x0, 0x0, 0x0, 0x0, 0x0, 0x50051⟩,
   /- WAN_BRG_BAD -/ ⟨0x01C0002C, 4, 1, 1, 0xFFFFFFFF, 0x0, 0x0, 0x0, 0x0, 0x0, 0x0⟩,
   /- WAN_TS_STATUS -/ ⟨0x01C00030, 4, 1, 1, 0xFFFF0000, 0x0, 0x0, 0x0, 0x0, 0x7F, 0x0⟩,
   /- WAN_TS_ENT0 -/ ⟨0x01C00034, 4, 1, 1, 0x0, 0x0, 0x0, 0x0, 0x0, 0xFF807FFF, 0x0⟩,
   /- WAN_TS_ENT1 -/ ⟨0x01C00038, 4, 1, 1, 0x0, 0x0, 0x0, 0x0, 0x0, 0xFFFFFFFF, 0x0⟩,
   /- WAN_TS_ENT2 -/ ⟨0x01C0003C, 4, 1, 1, 0x0, 0x0, 0x0, 0x0, 0x0, 0xFFFFFFFF, 0x0⟩,
   /- WAN_TS_ENT3 -/ ⟨0x01C00040, 4, 1, 1, 0x0, 0x0, 0x0, 0x0, 0x0, 0xFFFF, 0x0⟩,
   /- WAN_CM_ADDR -/ ⟨0x01C00044, 4, 1, 1, 0x7FFFFF1F, 0x0, 0x0, 0x0, 0x0, 0x0, 0x0⟩,
   /- WAN_CM_CMD -/ ⟨0x01C00048, 4, 1, 1, 0xFF00, 0x0, 0x3, 0x0, 0x0, 0x0, 0x0⟩,
   /- WAN_CM_STATUS -/ ⟨0x01C0004C, 4, 1, 1, 0x0, 0x6, 0x0, 0x0, 0x0, 0xFF01, 0x0⟩,
   /- WAN_CM_DATA -/ ⟨0x01C00100, 4, 32, 1, 0xFFFFFFFF, 0x0, 0x0, 0x0, 0x0, 0x0, 0x0⟩,
   /- WAN_CAGE -/ ⟨0x01C00200, 4, 32, 1, 0x0, 0x0, 0x0, 0xF, 0x0, 0x0, 0x0⟩,
   /- WAN_PORT_CFG -/ ⟨0x01C00400, 4, 256, 1, 0xFFFFC000, 0x0, 0x0, 0x3FFF, 0x0, 0x0, 0xFF002580⟩,
   /- WAN_PORT_ST -/ ⟨0x01C00800, 4, 256, 1, 0x0, 0x0, 0x0, 0x0, 0x0, 0xFFFF0FFF, 0x0⟩] ++
  [/- WAN_MS_ST -/ ⟨0x01C00C00, 4, 256, 1, 0x0, 0x0, 0x0, 0x0, 0x0, 0xFF0F1F, 0x0⟩,
   /- WAN_LANE -/ ⟨0x01C01000, 4, 256, 1, 0x3F, 0x0, 0x0, 0x0, 0x0, 0x40, 0x0⟩,
   /- WAN_MT -/ ⟨0x01C02000, 64, 8, 16, 0xFFFFFFFF, 0x0, 0x0, 0x0, 0x0, 0x0, 0x0⟩,
   /- WAN_CNT -/ ⟨0x01C10000, 64, 256, 16, 0xFFFFFFFF, 0x0, 0x0, 0x0, 0x0, 0x0, 0x0⟩]

/-- The registers of the WAN block whose cold-reset value is not 0: base, stride, count, inner, value. -/
def regResetsWan : List (Nat × Nat × Nat × Nat × Nat) :=
  [(0x01C00008, 4, 1, 1, 0x3FF),
   (0x01C00014, 4, 1, 1, 0xFFFFFFFF),
   (0x01C00018, 4, 1, 1, 0xFFFF),
   (0x01C0001C, 4, 1, 1, 0x3020000),
   (0x01C00020, 4, 1, 1, 0x100040),
   (0x01C00024, 4, 1, 1, 0x1007F281),
   (0x01C00028, 4, 1, 1, 0x50051),
   (0x01C00400, 4, 256, 1, 0xFF002580)]

/-- The registers of the CGE block. -/
def regRowsCge : List RegRow :=
  [/- CGE_CFG -/ ⟨0x02000000, 4, 1, 1, 0xF3F, 0x0, 0x0, 0x0, 0x0, 0x0, 0x214⟩,
   /- CGE_STATUS -/ ⟨0x02000004, 4, 1, 1, 0x0, 0x0, 0x0, 0x0, 0x0, 0x7, 0x0⟩,
   /- CGE_CHAIN_ERR0 -/ ⟨0x02000008, 4, 1, 1, 0xFFFFFFFF, 0x0, 0x0, 0x0, 0x0, 0x0, 0x0⟩,
   /- CGE_CHAIN_ERR1 -/ ⟨0x0200000C, 4, 1, 1, 0xFFFFFFFF, 0x0, 0x0, 0x0, 0x0, 0x0, 0x0⟩,
   /- CGE_SLOT_CTL -/ ⟨0x02000100, 8, 32, 1, 0x1FDF, 0x0, 0x0, 0x0, 0x0, 0x0, 0x1FC0⟩,
   /- CGE_SLOT_STS -/ ⟨0x02000104, 8, 32, 1, 0x0, 0x1F, 0x0, 0x0, 0x0, 0x1E0, 0x0⟩]

/-- The registers of the CGE block whose cold-reset value is not 0: base, stride, count, inner, value. -/
def regResetsCge : List (Nat × Nat × Nat × Nat × Nat) :=
  [(0x02000000, 4, 1, 1, 0x214),
   (0x02000100, 8, 32, 1, 0x1FC0)]

/-- The registers of the FAB block. -/
def regRowsFab : List RegRow :=
  [/- FAB_STATUS -/ ⟨0x02100000, 4, 1, 1, 0x0, 0x6, 0x0, 0x0, 0x0, 0x9, 0x0⟩,
   /- FAB_CTRL -/ ⟨0x02100004, 4, 1, 1, 0xFF0, 0x0, 0x0, 0xF, 0x0, 0x0, 0x406⟩,
   /- FAB_DEVID -/ ⟨0x02100008, 4, 1, 1, 0x3FF, 0x0, 0x0, 0x0, 0x0, 0x0, 0x0⟩,
   /- FAB_HOP -/ ⟨0x0210000C, 4, 1, 1, 0xFF, 0x0, 0x0, 0x0, 0x0, 0xFF00, 0x0⟩,
   /- FAB_STAGE -/ ⟨0x02100010, 4, 1, 1, 0x0, 0x0, 0x0, 0xFFFFF, 0x0, 0x0, 0x10000⟩,
   /- FAB_XOFF_TH -/ ⟨0x02100014, 4, 1, 1, 0xFFF0FFF, 0x0, 0x0, 0x0, 0x0, 0x0, 0x8000400⟩,
   /- FAB_CW_UNCORR -/ ⟨0x02100018, 4, 1, 1, 0xFFFFFFFF, 0x0, 0x0, 0x0, 0x0, 0x0, 0x0⟩,
   /- FAB_CELL_BAD -/ ⟨0x0210001C, 4, 1, 1, 0xFFFFFFFF, 0x0, 0x0, 0x0, 0x0, 0x0, 0x0⟩,
   /- FAB_LOST -/ ⟨0x02100020, 4, 1, 1, 0xFFFFFFFF, 0x0, 0x0, 0x0, 0x0, 0x0, 0x0⟩,
   /- FAB_ERR_CHAIN -/ ⟨0x02100024, 4, 1, 1, 0xFFFFFFFF, 0x0, 0x0, 0x0, 0x0, 0x0, 0x0⟩,
   /- FAB_NOSLOT -/ ⟨0x02100028, 4, 1, 1, 0xFFFFFFFF, 0x0, 0x0, 0x0, 0x0, 0x0, 0x0⟩,
   /- FAB_NOSTAGE -/ ⟨0x0210002C, 4, 1, 1, 0xFFFFFFFF, 0x0, 0x0, 0x0, 0x0, 0x0, 0x0⟩,
   /- FAB_DROP_UNREACH -/ ⟨0x02100030, 4, 1, 1, 0xFFFFFFFF, 0x0, 0x0, 0x0, 0x0, 0x0, 0x0⟩,
   /- FAB_DROP_FIFO -/ ⟨0x02100034, 4, 1, 1, 0xFFFFFFFF, 0x0, 0x0, 0x0, 0x0, 0x0, 0x0⟩,
   /- FAB_CTRL_BAD -/ ⟨0x02100038, 4, 1, 1, 0xFFFFFFFF, 0x0, 0x0, 0x0, 0x0, 0x0, 0x0⟩,
   /- FAB_LANE -/ ⟨0x02100100, 4, 320, 1, 0x1F8, 0x0, 0x0, 0x0, 0x0, 0xFFE07, 0x0⟩,
   /- FAB_VP -/ ⟨0x02100800, 4, 256, 1, 0x0, 0x0, 0x0, 0xFFFFF, 0x0, 0x0, 0x0⟩,
   /- FAB_GRANT -/ ⟨0x02100C00, 4, 32, 1, 0x0, 0x0, 0x0, 0x0, 0x0, 0xFFFFFFFF, 0xFFFFFFFF⟩,
   /- FAB_REACH -/ ⟨0x02100C80, 4, 32, 1, 0x0, 0x0, 0x0, 0x0, 0x0, 0xFFFFFFFF, 0xFFFFFFFF⟩]

/-- The registers of the FAB block whose cold-reset value is not 0: base, stride, count, inner, value. -/
def regResetsFab : List (Nat × Nat × Nat × Nat × Nat) :=
  [(0x02100004, 4, 1, 1, 0x406),
   (0x02100010, 4, 1, 1, 0x10000),
   (0x02100014, 4, 1, 1, 0x8000400),
   (0x02100C00, 4, 32, 1, 0xFFFFFFFF),
   (0x02100C80, 4, 32, 1, 0xFFFFFFFF)]

/-- The registers of the NRG block. -/
def regRowsNrg : List RegRow :=
  [/- NRG_CTRL -/ ⟨0x02200000, 4, 1, 1, 0x3E, 0x0, 0x0, 0x1, 0x0, 0x0, 0x21⟩,
   /- NRG_STATUS -/ ⟨0x02200004, 4, 1, 1, 0x0, 0x218, 0x0, 0x0, 0x0, 0x1E7, 0x0⟩,
   /- NRG_BUDGET -/ ⟨0x02200008, 4, 1, 1, 0x0, 0x0, 0x0, 0xFFFFFF, 0x0, 0x0, 0x8CA000⟩,
   /- NRG_CAP -/ ⟨0x0220000C, 4, 1, 1, 0x0, 0x0, 0x0, 0xFFFFFFFF, 0x0, 0x0, 0x4000000⟩,
   /- NRG_FLOOR -/ ⟨0x02200010, 4, 1, 1, 0x0, 0x0, 0x0, 0xFFFFFFFF, 0x0, 0x0, 0x0⟩,
   /- NRG_BAL_LO -/ ⟨0x02200014, 4, 1, 1, 0x0, 0x0, 0x0, 0x0, 0x0, 0xFFFFFFFF, 0x0⟩,
   /- NRG_BAL_HI -/ ⟨0x02200018, 4, 1, 1, 0x0, 0x0, 0x0, 0x0, 0x0, 0xFFFF, 0x1⟩,
   /- NRG_LAST_COST -/ ⟨0x0220001C, 4, 1, 1, 0x0, 0x0, 0x0, 0x0, 0x0, 0xFFFFFFFF, 0x0⟩,
   /- NRG_LAST_PLAN -/ ⟨0x02200020, 4, 1, 1, 0x0, 0x0, 0x0, 0x0, 0x0, 0xFFFFFFFF, 0x0⟩,
   /- NRG_CAL_PEND -/ ⟨0x02200024, 4, 1, 1, 0x1FFF, 0x0, 0x0, 0x0, 0x0, 0x0, 0x1000⟩,
   /- NRG_CAL_ACT -/ ⟨0x02200028, 4, 1, 1, 0x0, 0x0, 0x0, 0x0, 0x0, 0x1FFF, 0x1000⟩,
   /- NRG_COST_IDX -/ ⟨0x0220002C, 4, 1, 1, 0x13F, 0x0, 0x0, 0x0, 0x0, 0x0, 0x0⟩,
   /- NRG_COST_DATA -/ ⟨0x02200030, 4, 1, 1, 0xFFFFFF, 0x0, 0x0, 0x0, 0x0, 0x0, 0x20D000⟩,
   /- NRG_SR_CTRL -/ ⟨0x02200034, 4, 1, 1, 0x0, 0x0, 0x0, 0xFFFF07, 0x0, 0x0, 0x18001⟩,
   /- NRG_MEAS_LO -/ ⟨0x02200038, 4, 1, 1, 0x0, 0x0, 0x0, 0x0, 0x0, 0xFFFFFFFF, 0x0⟩,
   /- NRG_MEAS_HI -/ ⟨0x0220003C, 4, 1, 1, 0x0, 0x0, 0x0, 0x0, 0x0, 0xFFFF, 0x0⟩,
   /- NRG_MODEL_LO -/ ⟨0x02200040, 4, 1, 1, 0x0, 0x0, 0x0, 0x0, 0x0, 0xFFFFFFFF, 0x0⟩,
   /- NRG_MODEL_HI -/ ⟨0x02200044, 4, 1, 1, 0x0, 0x0, 0x0, 0x0, 0x0, 0xFFFF, 0x0⟩,
   /- NRG_SAG_CTRL -/ ⟨0x02200048, 4, 1, 1, 0xFF, 0x0, 0x0, 0x0, 0x0, 0x0, 0x44⟩,
   /- NRG_SAG_LAST -/ ⟨0x0220004C, 4, 1, 1, 0x0, 0x0, 0x0, 0x0, 0x0, 0xFFFFFF07, 0x0⟩,
   /- NRG_SAG_TICK_LO -/ ⟨0x02200050, 4, 1, 1, 0x0, 0x0, 0x0, 0x0, 0x0, 0xFFFFFFFF, 0x0⟩,
   /- NRG_SAG_TICK_HI -/ ⟨0x02200054, 4, 1, 1, 0x0, 0x0, 0x0, 0x0, 0x0, 0xFFFF, 0x0⟩,
   /- NRG_VAR_L1 -/ ⟨0x02200058, 4, 1, 1, 0xFFFFFFFF, 0x0, 0x0, 0x0, 0x0, 0x0, 0x0⟩,
   /- NRG_VAR_L2 -/ ⟨0x0220005C, 4, 1, 1, 0xFFFFFFFF, 0x0, 0x0, 0x0, 0x0, 0x0, 0x0⟩] ++
  [/- NRG_VAR_L3 -/ ⟨0x02200060, 4, 1, 1, 0xFFFFFFFF, 0x0, 0x0, 0x0, 0x0, 0x0, 0x0⟩,
   /- NRG_SHED_DROP -/ ⟨0x02200064, 4, 1, 1, 0xFFFFFFFF, 0x0, 0x0, 0x0, 0x0, 0x0, 0x0⟩,
   /- NRG_SAG_WARN_A -/ ⟨0x02200068, 4, 1, 1, 0xFFFFFFFF, 0x0, 0x0, 0x0, 0x0, 0x0, 0x0⟩,
   /- NRG_SAG_WARN_T -/ ⟨0x0220006C, 4, 1, 1, 0xFFFFFFFF, 0x0, 0x0, 0x0, 0x0, 0x0, 0x0⟩,
   /- NRG_SAG_DEEP_A -/ ⟨0x02200070, 4, 1, 1, 0xFFFFFFFF, 0x0, 0x0, 0x0, 0x0, 0x0, 0x0⟩,
   /- NRG_SAG_DEEP_T -/ ⟨0x02200074, 4, 1, 1, 0xFFFFFFFF, 0x0, 0x0, 0x0, 0x0, 0x0, 0x0⟩,
   /- NRG_SHED -/ ⟨0x02200100, 4, 16, 1, 0x0, 0x0, 0x0, 0xFFFFFFFF, 0x0, 0x0, 0x0⟩,
   /- NRG_SHED16 -/ ⟨0x02200140, 4, 1, 1, 0x0, 0x0, 0x0, 0x3F, 0x0, 0x0, 0x0⟩]

/-- The registers of the NRG block whose cold-reset value is not 0: base, stride, count, inner, value. -/
def regResetsNrg : List (Nat × Nat × Nat × Nat × Nat) :=
  [(0x02200000, 4, 1, 1, 0x21),
   (0x02200008, 4, 1, 1, 0x8CA000),
   (0x0220000C, 4, 1, 1, 0x4000000),
   (0x02200018, 4, 1, 1, 0x1),
   (0x02200024, 4, 1, 1, 0x1000),
   (0x02200028, 4, 1, 1, 0x1000),
   (0x02200030, 4, 1, 1, 0x20D000),
   (0x02200034, 4, 1, 1, 0x18001),
   (0x02200048, 4, 1, 1, 0x44)]

/-- The registers of the HST block. -/
def regRowsHst : List RegRow :=
  [/- HST_STATUS -/ ⟨0x02300000, 4, 1, 1, 0x0, 0x1E, 0x0, 0x0, 0x0, 0x1FF01, 0x0⟩,
   /- HST_CTRL -/ ⟨0x02300004, 4, 1, 1, 0xFFFF, 0x0, 0x0, 0x0, 0x0, 0x0, 0xA2C⟩,
   /- HST_WIN_COMMIT -/ ⟨0x02300008, 4, 1, 1, 0x0, 0x0, 0x1, 0x0, 0x0, 0x2, 0x0⟩,
   /- HST_BAD_ACCESS -/ ⟨0x0230000C, 4, 1, 1, 0xFFFFFFFF, 0x0, 0x0, 0x0, 0x0, 0x0, 0x0⟩,
   /- HST_UNEXP_CPL -/ ⟨0x02300010, 4, 1, 1, 0xFFFFFFFF, 0x0, 0x0, 0x0, 0x0, 0x0, 0x0⟩,
   /- HST_CPL_TO -/ ⟨0x02300014, 4, 1, 1, 0xFFFFFFFF, 0x0, 0x0, 0x0, 0x0, 0x0, 0x0⟩,
   /- HST_WIN_DROP -/ ⟨0x02300018, 4, 1, 1, 0xFFFFFFFF, 0x0, 0x0, 0x0, 0x0, 0x0, 0x0⟩,
   /- HST_IRQ_MAP -/ ⟨0x02300100, 4, 16, 1, 0x103FF, 0x0, 0x0, 0x0, 0x0, 0x0, 0x0⟩,
   /- HST_PUNT_BASE_LO -/ ⟨0x02301000, 32, 64, 1, 0xFFFFFFC0, 0x0, 0x0, 0x0, 0x0, 0x0, 0x0⟩,
   /- HST_PUNT_BASE_HI -/ ⟨0x02301004, 32, 64, 1, 0xFFFFFFFF, 0x0, 0x0, 0x0, 0x0, 0x0, 0x0⟩,
   /- HST_PUNT_CFG -/ ⟨0x02301008, 32, 64, 1, 0x7FF003D, 0x0, 0x2, 0x0, 0x0, 0x0, 0x10⟩,
   /- HST_PUNT_STATE -/ ⟨0x0230100C, 32, 64, 1, 0x0, 0x0, 0x0, 0x0, 0x0, 0x1FF07, 0x10000⟩,
   /- HST_PUNT_HEAD -/ ⟨0x02301010, 32, 64, 1, 0x0, 0x0, 0x0, 0x0, 0x0, 0xFFFF, 0x0⟩,
   /- HST_PUNT_TAIL -/ ⟨0x02301014, 32, 64, 1, 0x0, 0x0, 0x0, 0x0, 0x0, 0xFFFF, 0x0⟩,
   /- HST_PUNT_PUNT -/ ⟨0x02301018, 32, 64, 1, 0xFFFFFFFF, 0x0, 0x0, 0x0, 0x0, 0x0, 0x0⟩,
   /- HST_PUNT_DROP -/ ⟨0x0230101C, 32, 64, 1, 0xFFFFFFFF, 0x0, 0x0, 0x0, 0x0, 0x0, 0x0⟩,
   /- HST_INJ_BASE_LO -/ ⟨0x02301800, 32, 16, 1, 0xFFFFFFC0, 0x0, 0x0, 0x0, 0x0, 0x0, 0x0⟩,
   /- HST_INJ_BASE_HI -/ ⟨0x02301804, 32, 16, 1, 0xFFFFFFFF, 0x0, 0x0, 0x0, 0x0, 0x0, 0x0⟩,
   /- HST_INJ_CFG -/ ⟨0x02301808, 32, 16, 1, 0x7FF007D, 0x0, 0x2, 0x0, 0x0, 0x0, 0x10⟩,
   /- HST_INJ_STATE -/ ⟨0x0230180C, 32, 16, 1, 0x0, 0x0, 0x0, 0x0, 0x0, 0xFF07, 0x0⟩,
   /- HST_INJ_HEAD -/ ⟨0x02301810, 32, 16, 1, 0x0, 0x0, 0x0, 0x0, 0x0, 0xFFFF, 0x0⟩,
   /- HST_INJ_TAIL -/ ⟨0x02301814, 32, 16, 1, 0x0, 0x0, 0x0, 0x0, 0x0, 0xFFFF, 0x0⟩,
   /- HST_INJ_WB_LO -/ ⟨0x02301818, 32, 16, 1, 0xFFFFFFFC, 0x0, 0x0, 0x0, 0x0, 0x0, 0x0⟩,
   /- HST_INJ_WB_HI -/ ⟨0x0230181C, 32, 16, 1, 0xFFFFFFFF, 0x0, 0x0, 0x0, 0x0, 0x0, 0x0⟩] ++
  [/- HST_WIN_NEXT_LO -/ ⟨0x02302000, 32, 14, 1, 0xFFF00000, 0x0, 0x0, 0x0, 0x0, 0x0, 0x0⟩,
   /- HST_WIN_NEXT_HI -/ ⟨0x02302004, 32, 14, 1, 0x3FF, 0x0, 0x0, 0x0, 0x0, 0x0, 0x0⟩,
   /- HST_WIN_NEXT_CTL -/ ⟨0x02302008, 32, 14, 1, 0x3, 0x0, 0x0, 0x0, 0x0, 0x0, 0x0⟩,
   /- HST_WIN_CUR_LO -/ ⟨0x02302010, 32, 14, 1, 0x0, 0x0, 0x0, 0x0, 0x0, 0xFFF00000, 0x0⟩,
   /- HST_WIN_CUR_HI -/ ⟨0x02302014, 32, 14, 1, 0x0, 0x0, 0x0, 0x0, 0x0, 0x3FF, 0x0⟩,
   /- HST_WIN_CUR_CTL -/ ⟨0x02302018, 32, 14, 1, 0x0, 0x0, 0x0, 0x0, 0x0, 0x3, 0x0⟩]

/-- The registers of the HST block whose cold-reset value is not 0: base, stride, count, inner, value. -/
def regResetsHst : List (Nat × Nat × Nat × Nat × Nat) :=
  [(0x02300004, 4, 1, 1, 0xA2C),
   (0x02301008, 32, 64, 1, 0x10),
   (0x0230100C, 32, 64, 1, 0x10000),
   (0x02301808, 32, 16, 1, 0x10)]

/-- The registers of the CXL block. -/
def regRowsCxl : List RegRow :=
  [/- CXL_STATUS -/ ⟨0x02400000, 4, 1, 1, 0x0, 0x3, 0x0, 0x0, 0x0, 0x0, 0x0⟩,
   /- CXL_CFG_ERR -/ ⟨0x02400004, 4, 1, 1, 0x0, 0x0, 0x0, 0x0, 0x0, 0xFF07, 0x0⟩,
   /- CXL_TIMEOUT -/ ⟨0x02400008, 4, 1, 1, 0xFFFF, 0x0, 0x0, 0x0, 0x0, 0x0, 0xA2C⟩,
   /- CXL_RGN_VIOL -/ ⟨0x0240000C, 4, 1, 1, 0xFFFFFFFF, 0x0, 0x0, 0x0, 0x0, 0x0, 0x0⟩,
   /- CXL_RGN_A -/ ⟨0x02400040, 8, 3, 1, 0x0, 0x0, 0x0, 0x3FFFFF, 0x0, 0x0, 0x0⟩,
   /- CXL_RGN_B -/ ⟨0x02400044, 8, 3, 1, 0x0, 0x0, 0x0, 0x3FFFFF, 0x0, 0x0, 0x0⟩,
   /- CXL_DEC_A -/ ⟨0x02400080, 12, 8, 1, 0x0, 0x0, 0x0, 0xFF7, 0x0, 0x0, 0x0⟩,
   /- CXL_DEC_B -/ ⟨0x02400084, 12, 8, 1, 0x0, 0x0, 0x0, 0xFFF, 0x0, 0x0, 0x0⟩,
   /- CXL_DEC_C -/ ⟨0x02400088, 12, 8, 1, 0x0, 0x0, 0x0, 0x1FFF, 0x0, 0x0, 0x0⟩,
   /- CXL_PORT_CTL -/ ⟨0x02400100, 32, 4, 1, 0x1, 0x0, 0x6, 0x0, 0x0, 0x0, 0x0⟩,
   /- CXL_PORT_ST -/ ⟨0x02400104, 32, 4, 1, 0x0, 0x0, 0x0, 0x0, 0x0, 0x1FFF, 0x0⟩,
   /- CXL_PORT_RD -/ ⟨0x02400108, 32, 4, 1, 0xFFFFFFFF, 0x0, 0x0, 0x0, 0x0, 0x0, 0x0⟩,
   /- CXL_PORT_ERR -/ ⟨0x0240010C, 32, 4, 1, 0xFFFFFFFF, 0x0, 0x0, 0x0, 0x0, 0x0, 0x0⟩,
   /- CXL_PORT_TO -/ ⟨0x02400110, 32, 4, 1, 0xFFFFFFFF, 0x0, 0x0, 0x0, 0x0, 0x0, 0x0⟩,
   /- CXL_PORT_LAT -/ ⟨0x02400114, 32, 4, 1, 0xFFFF, 0x0, 0x0, 0x0, 0x0, 0x0, 0x0⟩,
   /- CXL_PORT_WDROP -/ ⟨0x02400118, 32, 4, 1, 0xFFFFFFFF, 0x0, 0x0, 0x0, 0x0, 0x0, 0x0⟩]

/-- The registers of the CXL block whose cold-reset value is not 0: base, stride, count, inner, value. -/
def regResetsCxl : List (Nat × Nat × Nat × Nat × Nat) :=
  [(0x02400008, 4, 1, 1, 0xA2C)]

/-- The registers of the CVY block. -/
def regRowsCvy : List RegRow :=
  [/- CVY_STATUS -/ ⟨0x02600000, 4, 1, 1, 0x0, 0xF8, 0x0, 0x0, 0x0, 0x107, 0x0⟩,
   /- CVY_CTRL -/ ⟨0x02600004, 4, 1, 1, 0xFFFF0000, 0x0, 0x1000, 0xFFF, 0x0, 0x0, 0xFFFF0004⟩,
   /- CVY_ADDR -/ ⟨0x02600008, 4, 1, 1, 0x0, 0x0, 0x0, 0x0, 0x0, 0xFFFFFF, 0x0⟩,
   /- CVY_K -/ ⟨0x0260000C, 4, 1, 1, 0x0, 0x0, 0x0, 0x0, 0x0, 0xFFF0FFF, 0x0⟩,
   /- CVY_TREE0 -/ ⟨0x02600010, 4, 1, 1, 0x0, 0x0, 0x0, 0x0, 0x0, 0xFFFFFFFF, 0x0⟩,
   /- CVY_TREE1 -/ ⟨0x02600014, 4, 1, 1, 0x0, 0x0, 0x0, 0x0, 0x0, 0xFFFFFFFF, 0x0⟩,
   /- CVY_OFFSET -/ ⟨0x02600018, 4, 1, 1, 0x0, 0x0, 0x0, 0x0, 0x0, 0xFFFFFFFF, 0x0⟩,
   /- CVY_MSG_BAD -/ ⟨0x0260001C, 4, 1, 1, 0xFFFFFFFF, 0x0, 0x0, 0x0, 0x0, 0x0, 0x0⟩,
   /- CVY_UNROUTE -/ ⟨0x02600020, 4, 1, 1, 0xFFFFFFFF, 0x0, 0x0, 0x0, 0x0, 0x0, 0x0⟩,
   /- CVY_ACT_RX -/ ⟨0x02600024, 4, 1, 1, 0xFFFFFFFF, 0x0, 0x0, 0x0, 0x0, 0x0, 0x0⟩,
   /- CVY_ACT_DUP -/ ⟨0x02600028, 4, 1, 1, 0xFFFFFFFF, 0x0, 0x0, 0x0, 0x0, 0x0, 0x0⟩,
   /- CVY_PORT_CTL -/ ⟨0x02600100, 32, 3, 1, 0x7, 0x0, 0x8, 0x0, 0x0, 0x0, 0x1⟩,
   /- CVY_PORT_ST -/ ⟨0x02600104, 32, 3, 1, 0x0, 0x0, 0x0, 0x0, 0x0, 0x7, 0x0⟩,
   /- CVY_PORT_HOP -/ ⟨0x02600108, 32, 3, 1, 0x0, 0x0, 0x0, 0x0, 0x0, 0xFFFF, 0x0⟩,
   /- CVY_PORT_CRC -/ ⟨0x0260010C, 32, 3, 1, 0xFFFFFFFF, 0x0, 0x0, 0x0, 0x0, 0x0, 0x0⟩,
   /- CVY_PORT_DROP -/ ⟨0x02600110, 32, 3, 1, 0xFFFFFFFF, 0x0, 0x0, 0x0, 0x0, 0x0, 0x0⟩,
   /- CVY_PORT_TX -/ ⟨0x02600114, 32, 3, 1, 0xFFFFFFFF, 0x0, 0x0, 0x0, 0x0, 0x0, 0x0⟩,
   /- CVY_PORT_RX -/ ⟨0x02600118, 32, 3, 1, 0xFFFFFFFF, 0x0, 0x0, 0x0, 0x0, 0x0, 0x0⟩]

/-- The registers of the CVY block whose cold-reset value is not 0: base, stride, count, inner, value. -/
def regResetsCvy : List (Nat × Nat × Nat × Nat × Nat) :=
  [(0x02600004, 4, 1, 1, 0xFFFF0004),
   (0x02600100, 32, 3, 1, 0x1)]

/-- The registers of the HLM block. -/
def regRowsHlm : List RegRow :=
  [/- HLM_STATUS -/ ⟨0x02700000, 4, 1, 1, 0x0, 0x3E040, 0x0, 0x0, 0x0, 0x1FBF, 0x0⟩,
   /- HLM_CTRL -/ ⟨0x02700004, 4, 1, 1, 0x1, 0x0, 0x2, 0x0, 0xFF04, 0x0, 0x404⟩,
   /- HLM_PARTNER -/ ⟨0x02700008, 4, 1, 1, 0x0, 0x0, 0x0, 0x0, 0xFFFF, 0x0, 0x0⟩,
   /- HLM_WTR -/ ⟨0x0270000C, 4, 1, 1, 0x0, 0x0, 0x0, 0x0, 0x7FF, 0x0, 0x12C⟩,
   /- HLM_WD -/ ⟨0x02700010, 4, 1, 1, 0x0, 0x0, 0x0, 0x0, 0xFFFFFF, 0x0, 0x40000⟩,
   /- HLM_KICK -/ ⟨0x02700014, 4, 1, 1, 0x0, 0x0, 0xFFFF, 0x0, 0x0, 0x0, 0x0⟩,
   /- HLM_CLAIM_TICK_LO -/ ⟨0x02700018, 4, 1, 1, 0x0, 0x0, 0x0, 0x0, 0x0, 0xFFFFFFFF, 0x0⟩,
   /- HLM_CLAIM_TICK_HI -/ ⟨0x0270001C, 4, 1, 1, 0x0, 0x0, 0x0, 0x0, 0x0, 0xFFFF, 0x0⟩,
   /- HLM_REL_TICK_LO -/ ⟨0x02700020, 4, 1, 1, 0x0, 0x0, 0x0, 0x0, 0x0, 0xFFFFFFFF, 0x0⟩,
   /- HLM_REL_TICK_HI -/ ⟨0x02700024, 4, 1, 1, 0x0, 0x0, 0x0, 0x0, 0x0, 0x7FFFF, 0x0⟩,
   /- HLM_HANDOVER_LO -/ ⟨0x02700028, 4, 1, 1, 0x0, 0x0, 0x0, 0x0, 0x0, 0xFFFFFFFF, 0x0⟩,
   /- HLM_HANDOVER_HI -/ ⟨0x0270002C, 4, 1, 1, 0x0, 0x0, 0x0, 0x0, 0x0, 0xFFFF, 0x0⟩,
   /- HLM_NAV_STATUS -/ ⟨0x02700030, 4, 1, 1, 0x0, 0x0, 0x0, 0x0, 0x0, 0x7, 0x0⟩,
   /- HLM_CLAIMS -/ ⟨0x02700034, 4, 1, 1, 0xFFFFFFFF, 0x0, 0x0, 0x0, 0x0, 0x0, 0x0⟩,
   /- HLM_RELEASES -/ ⟨0x02700038, 4, 1, 1, 0xFFFFFFFF, 0x0, 0x0, 0x0, 0x0, 0x0, 0x0⟩,
   /- HLM_CONTESTS -/ ⟨0x0270003C, 4, 1, 1, 0xFFFFFFFF, 0x0, 0x0, 0x0, 0x0, 0x0, 0x0⟩,
   /- HLM_RPT_TX -/ ⟨0x02700040, 4, 1, 1, 0xFFFFFFFF, 0x0, 0x0, 0x0, 0x0, 0x0, 0x0⟩,
   /- HLM_RPT_RX -/ ⟨0x02700044, 4, 1, 1, 0xFFFFFFFF, 0x0, 0x0, 0x0, 0x0, 0x0, 0x0⟩,
   /- HLM_RPT_MISS -/ ⟨0x02700048, 4, 1, 1, 0xFFFFFFFF, 0x0, 0x0, 0x0, 0x0, 0x0, 0x0⟩,
   /- HLM_RPT_BAD -/ ⟨0x0270004C, 4, 1, 1, 0xFFFFFFFF, 0x0, 0x0, 0x0, 0x0, 0x0, 0x0⟩,
   /- HLM_ST_FAIL -/ ⟨0x02700050, 4, 1, 1, 0xFFFFFFFF, 0x0, 0x0, 0x0, 0x0, 0x0, 0x0⟩,
   /- HLM_NAV_FAULT -/ ⟨0x02700054, 4, 1, 1, 0xFFFFFFFF, 0x0, 0x0, 0x0, 0x0, 0x0, 0x0⟩]

/-- The registers of the HLM block whose cold-reset value is not 0: base, stride, count, inner, value. -/
def regResetsHlm : List (Nat × Nat × Nat × Nat × Nat) :=
  [(0x02700004, 4, 1, 1, 0x404),
   (0x0270000C, 4, 1, 1, 0x12C),
   (0x02700010, 4, 1, 1, 0x40000)]

/-- The registers of the FLT block. -/
def regRowsFlt : List RegRow :=
  [/- FLT_STATUS -/ ⟨0x02800000, 4, 1, 1, 0x0, 0x1E, 0x0, 0x0, 0x0, 0xE1, 0x0⟩,
   /- FLT_CTRL -/ ⟨0x02800004, 4, 1, 1, 0x0, 0x0, 0x0, 0x0, 0x3, 0x0, 0x1⟩,
   /- FLT_QUENCH -/ ⟨0x02800008, 4, 1, 1, 0x0, 0x0, 0x0, 0x0, 0xFF, 0x0, 0x8⟩,
   /- FLT_CE_LIMIT -/ ⟨0x0280000C, 4, 1, 1, 0x0, 0x0, 0x0, 0x0, 0xFFFF, 0x0, 0x100⟩,
   /- FLT_CLEAR_SEQ -/ ⟨0x02800010, 4, 1, 1, 0xFFFFFFFF, 0x0, 0x0, 0x0, 0x0, 0x0, 0x0⟩,
   /- FLT_CLEAR -/ ⟨0x02800014, 4, 1, 1, 0x0, 0x0, 0x3F, 0x0, 0x0, 0x0, 0x0⟩,
   /- FLT_REVOKE -/ ⟨0x02800018, 4, 1, 1, 0x0, 0x0, 0xFFFFFFFF, 0x0, 0x0, 0x0, 0x0⟩,
   /- FLT_REVOKE_LAST -/ ⟨0x0280001C, 4, 1, 1, 0x0, 0x0, 0x0, 0x0, 0x0, 0x1FFFF, 0x0⟩,
   /- FLT_HEAD_A -/ ⟨0x02800020, 4, 1, 1, 0x0, 0x0, 0x0, 0x0, 0x0, 0xFFFFFFFF, 0x0⟩,
   /- FLT_HEAD_T -/ ⟨0x02800024, 4, 1, 1, 0x0, 0x0, 0x0, 0x0, 0x0, 0xFFFFFFFF, 0x0⟩,
   /- FLT_CE_A -/ ⟨0x02800028, 4, 1, 1, 0xFFFFFFFF, 0x0, 0x0, 0x0, 0x0, 0x0, 0x0⟩,
   /- FLT_CONT_A -/ ⟨0x0280002C, 4, 1, 1, 0xFFFFFFFF, 0x0, 0x0, 0x0, 0x0, 0x0, 0x0⟩,
   /- FLT_FATAL_A -/ ⟨0x02800030, 4, 1, 1, 0xFFFFFFFF, 0x0, 0x0, 0x0, 0x0, 0x0, 0x0⟩,
   /- FLT_CE_T -/ ⟨0x02800034, 4, 1, 1, 0xFFFFFFFF, 0x0, 0x0, 0x0, 0x0, 0x0, 0x0⟩,
   /- FLT_CONT_T -/ ⟨0x02800038, 4, 1, 1, 0xFFFFFFFF, 0x0, 0x0, 0x0, 0x0, 0x0, 0x0⟩,
   /- FLT_FATAL_T -/ ⟨0x0280003C, 4, 1, 1, 0xFFFFFFFF, 0x0, 0x0, 0x0, 0x0, 0x0, 0x0⟩,
   /- FLT_LOST_A -/ ⟨0x02800040, 4, 1, 1, 0xFFFFFFFF, 0x0, 0x0, 0x0, 0x0, 0x0, 0x0⟩,
   /- FLT_LOST_T -/ ⟨0x02800044, 4, 1, 1, 0xFFFFFFFF, 0x0, 0x0, 0x0, 0x0, 0x0, 0x0⟩,
   /- FLT_SECONDARY -/ ⟨0x02800048, 4, 1, 1, 0xFFFFFFFF, 0x0, 0x0, 0x0, 0x0, 0x0, 0x0⟩,
   /- FLT_REVOKES -/ ⟨0x0280004C, 4, 1, 1, 0xFFFFFFFF, 0x0, 0x0, 0x0, 0x0, 0x0, 0x0⟩,
   /- FLT_INJECTED -/ ⟨0x02800050, 4, 1, 1, 0xFFFFFFFF, 0x0, 0x0, 0x0, 0x0, 0x0, 0x0⟩,
   /- FLT_INJ -/ ⟨0x02800060, 4, 1, 1, 0xFFFFFF, 0x0, 0x80000000, 0x0, 0x0, 0x0, 0x0⟩,
   /- FLT_TEST_CMD -/ ⟨0x02800064, 4, 1, 1, 0x0, 0x0, 0x1, 0x0, 0x0, 0x0, 0x0⟩,
   /- FLT_TEST_STATUS -/ ⟨0x02800068, 4, 1, 1, 0x0, 0x6, 0x0, 0x0, 0x0, 0xFF01, 0x0⟩] ++
  [/- FLT_TEST_NONCE_LO -/ ⟨0x0280006C, 4, 1, 1, 0x0, 0x0, 0x0, 0x0, 0x0, 0xFFFFFFFF, 0x0⟩,
   /- FLT_TEST_NONCE_HI -/ ⟨0x02800070, 4, 1, 1, 0x0, 0x0, 0x0, 0x0, 0x0, 0xFFFFFFFF, 0x0⟩,
   /- FLT_TEST_DATA -/ ⟨0x02802000, 4, 1024, 1, 0xFFFFFFFF, 0x0, 0x0, 0x0, 0x0, 0x0, 0x0⟩,
   /- FLT_REACT -/ ⟨0x02804000, 4, 4096, 1, 0x0, 0x0, 0x0, 0x0, 0x1777, 0x0, 0x411⟩,
   /- FLT_LOGA -/ ⟨0x02810000, 32, 2048, 8, 0x0, 0x0, 0x0, 0x0, 0x0, 0xFFFFFFFF, 0x0⟩,
   /- FLT_LOGT -/ ⟨0x02820000, 32, 2048, 8, 0x0, 0x0, 0x0, 0x0, 0x0, 0xFFFFFFFF, 0x0⟩,
   /- FLT_FATA -/ ⟨0x02830000, 32, 16, 8, 0x0, 0x0, 0x0, 0x0, 0x0, 0xFFFFFFFF, 0x0⟩,
   /- FLT_FATT -/ ⟨0x02830200, 32, 16, 8, 0x0, 0x0, 0x0, 0x0, 0x0, 0xFFFFFFFF, 0x0⟩]

/-- The registers of the FLT block whose cold-reset value is not 0: base, stride, count, inner, value. -/
def regResetsFlt : List (Nat × Nat × Nat × Nat × Nat) :=
  [(0x02800004, 4, 1, 1, 0x1),
   (0x02800008, 4, 1, 1, 0x8),
   (0x0280000C, 4, 1, 1, 0x100)]

/-- The registers of the SND block. -/
def regRowsSnd : List RegRow :=
  [/- SND_STATUS -/ ⟨0x02C00000, 4, 1, 1, 0x0, 0x1D3, 0x0, 0x0, 0x0, 0x2C, 0x0⟩,
   /- SND_CTRL -/ ⟨0x02C00004, 4, 1, 1, 0x1FF, 0x0, 0x0, 0x0, 0x0, 0x0, 0x0⟩,
   /- SND_SWEEP -/ ⟨0x02C00008, 4, 1, 1, 0x3FFFE, 0x0, 0x1, 0x0, 0x0, 0x0, 0x80⟩,
   /- SND_ROUTE -/ ⟨0x02C0000C, 4, 1, 1, 0x3F, 0x0, 0x0, 0x0, 0x0, 0x0, 0x0⟩,
   /- SND_USER_OPEN0 -/ ⟨0x02C00010, 4, 1, 1, 0xFFFFFFFF, 0x0, 0x0, 0x0, 0x0, 0x0, 0x0⟩,
   /- SND_USER_OPEN1 -/ ⟨0x02C00014, 4, 1, 1, 0xFFFFFFFF, 0x0, 0x0, 0x0, 0x0, 0x0, 0x0⟩,
   /- SND_USER_OPEN2 -/ ⟨0x02C00018, 4, 1, 1, 0x3, 0x0, 0x0, 0x0, 0x0, 0x0, 0x0⟩,
   /- SND_HRING_BASE_LO -/ ⟨0x02C00020, 4, 1, 1, 0xFFFFFFFF, 0x0, 0x0, 0x0, 0x0, 0x0, 0x0⟩,
   /- SND_HRING_BASE_HI -/ ⟨0x02C00024, 4, 1, 1, 0xFFFFFFFF, 0x0, 0x0, 0x0, 0x0, 0x0, 0x0⟩,
   /- SND_HRING_SIZE -/ ⟨0x02C00028, 4, 1, 1, 0x1F, 0x0, 0x0, 0x0, 0x0, 0x0, 0xC⟩,
   /- SND_HRING_WR -/ ⟨0x02C0002C, 4, 1, 1, 0x0, 0x0, 0x0, 0x0, 0x0, 0xFFFFFFFF, 0x0⟩,
   /- SND_HRING_RD -/ ⟨0x02C00030, 4, 1, 1, 0xFFFFFFFF, 0x0, 0x0, 0x0, 0x0, 0x0, 0x0⟩,
   /- SND_HRING_WB_LO -/ ⟨0x02C00034, 4, 1, 1, 0xFFFFFFFF, 0x0, 0x0, 0x0, 0x0, 0x0, 0x0⟩,
   /- SND_HRING_WB_HI -/ ⟨0x02C00038, 4, 1, 1, 0xFFFFFFFF, 0x0, 0x0, 0x0, 0x0, 0x0, 0x0⟩,
   /- SND_CRING_BASE_LO -/ ⟨0x02C00040, 4, 1, 1, 0xFFFFFFFF, 0x0, 0x0, 0x0, 0x0, 0x0, 0x0⟩,
   /- SND_CRING_BASE_HI -/ ⟨0x02C00044, 4, 1, 1, 0xFFFFFFFF, 0x0, 0x0, 0x0, 0x0, 0x0, 0x0⟩,
   /- SND_CRING_SIZE -/ ⟨0x02C00048, 4, 1, 1, 0x1F, 0x0, 0x0, 0x0, 0x0, 0x0, 0xC⟩,
   /- SND_CRING_WR -/ ⟨0x02C0004C, 4, 1, 1, 0x0, 0x0, 0x0, 0x0, 0x0, 0xFFFFFFFF, 0x0⟩,
   /- SND_CRING_RD -/ ⟨0x02C00050, 4, 1, 1, 0xFFFFFFFF, 0x0, 0x0, 0x0, 0x0, 0x0, 0x0⟩,
   /- SND_SWEEP_SKIP -/ ⟨0x02C00060, 4, 1, 1, 0xFFFFFFFF, 0x0, 0x0, 0x0, 0x0, 0x0, 0x0⟩,
   /- SND_DROP_CTR -/ ⟨0x02C00064, 4, 1, 1, 0xFFFFFFFF, 0x0, 0x0, 0x0, 0x0, 0x0, 0x0⟩,
   /- SND_DROP_SAMP -/ ⟨0x02C00068, 4, 1, 1, 0xFFFFFFFF, 0x0, 0x0, 0x0, 0x0, 0x0, 0x0⟩,
   /- SND_DROP_DIG -/ ⟨0x02C0006C, 4, 1, 1, 0xFFFFFFFF, 0x0, 0x0, 0x0, 0x0, 0x0, 0x0⟩,
   /- SND_USER_DENY -/ ⟨0x02C00070, 4, 1, 1, 0xFFFFFFFF, 0x0, 0x0, 0x0, 0x0, 0x0, 0x0⟩] ++
  [/- SND_SWEEPS -/ ⟨0x02C00074, 4, 1, 1, 0xFFFFFFFF, 0x0, 0x0, 0x0, 0x0, 0x0, 0x0⟩,
   /- SND_LIST -/ ⟨0x02C01000, 4, 512, 1, 0x3FF, 0x0, 0x0, 0x0, 0x0, 0x0, 0x0⟩,
   /- SND_G_CNT -/ ⟨0x02C04000, 256, 41, 8, 0x0, 0x0, 0x0, 0xFFFFFFFF, 0x0, 0x0, 0x0⟩,
   /- SND_G_CNT -/ ⟨0x02C07000, 256, 5, 8, 0x0, 0x0, 0x0, 0xFFFFFFFF, 0x0, 0x0, 0x0⟩,
   /- SND_G_SEL -/ ⟨0x02C04020, 256, 41, 8, 0x0, 0x0, 0x0, 0xFFFFF, 0x0, 0x0, 0x0⟩,
   /- SND_G_SEL -/ ⟨0x02C07020, 256, 5, 8, 0x0, 0x0, 0x0, 0xFFFFF, 0x0, 0x0, 0x0⟩,
   /- SND_G_THR -/ ⟨0x02C04040, 256, 41, 8, 0x0, 0x0, 0x0, 0xFFFFFF, 0x0, 0x0, 0x0⟩,
   /- SND_G_THR -/ ⟨0x02C07040, 256, 5, 8, 0x0, 0x0, 0x0, 0xFFFFFF, 0x0, 0x0, 0x0⟩,
   /- SND_G_SNAP -/ ⟨0x02C04060, 256, 41, 8, 0x0, 0x0, 0x0, 0x0, 0x0, 0xFFFFFFFF, 0x0⟩,
   /- SND_G_SNAP -/ ⟨0x02C07060, 256, 5, 8, 0x0, 0x0, 0x0, 0x0, 0x0, 0xFFFFFFFF, 0x0⟩,
   /- SND_G_STATUS -/ ⟨0x02C04080, 256, 41, 1, 0x0, 0xFF, 0x0, 0x0, 0x0, 0x0, 0x0⟩,
   /- SND_G_STATUS -/ ⟨0x02C07080, 256, 5, 1, 0x0, 0xFF, 0x0, 0x0, 0x0, 0x0, 0x0⟩,
   /- SND_PRB_DATA -/ ⟨0x02C08000, 256, 64, 64, 0x0, 0x0, 0x0, 0xFFFFFFFF, 0x0, 0x0, 0x0⟩,
   /- SND_PRB_CTL -/ ⟨0x02C0C000, 4, 64, 1, 0x0, 0x0, 0x0, 0x7FFF, 0x0, 0x0, 0x0⟩,
   /- SND_PRB_PH -/ ⟨0x02C0C100, 4, 64, 1, 0x0, 0x0, 0x0, 0xFFFFFF, 0x0, 0x0, 0x0⟩,
   /- SND_PRB_QUE -/ ⟨0x02C0C200, 4, 64, 1, 0x0, 0x0, 0x0, 0x3FFFF, 0x0, 0x0, 0x0⟩]

/-- The registers of the SND block whose cold-reset value is not 0: base, stride, count, inner, value. -/
def regResetsSnd : List (Nat × Nat × Nat × Nat × Nat) :=
  [(0x02C00008, 4, 1, 1, 0x80),
   (0x02C00028, 4, 1, 1, 0xC),
   (0x02C00048, 4, 1, 1, 0xC)]

/-- The registers of the FWU block. -/
def regRowsFwu : List RegRow :=
  [/- FWU_STATUS -/ ⟨0x03000000, 4, 1, 1, 0x0, 0x4E0, 0x0, 0x0, 0x200, 0xFF091F, 0x0⟩,
   /- FWU_CTRL -/ ⟨0x03000004, 4, 1, 1, 0x303, 0x0, 0xFC, 0x0, 0x0, 0x0, 0x0⟩,
   /- FWU_ACT_TICK_LO -/ ⟨0x03000008, 4, 1, 1, 0xFFFFFFFF, 0x0, 0x0, 0x0, 0x0, 0x0, 0x0⟩,
   /- FWU_ACT_TICK_HI -/ ⟨0x0300000C, 4, 1, 1, 0xFFFF, 0x0, 0x0, 0x0, 0x0, 0x0, 0x0⟩,
   /- FWU_HOLEAD -/ ⟨0x03000010, 4, 1, 1, 0xFFF, 0x0, 0x0, 0x0, 0x0, 0x0, 0x400⟩,
   /- FWU_HO -/ ⟨0x03000014, 4, 1, 1, 0x3, 0x0, 0x0, 0x0, 0x0, 0x0, 0x0⟩,
   /- FWU_CONFIRM -/ ⟨0x03000018, 4, 1, 1, 0x0, 0x0, 0xFFFF0001, 0x0, 0x0, 0x0, 0x0⟩,
   /- FWU_CXL_LO -/ ⟨0x0300001C, 4, 1, 1, 0xFFFFF000, 0x0, 0x0, 0x0, 0x0, 0x0, 0x0⟩,
   /- FWU_CXL_HI -/ ⟨0x03000020, 4, 1, 1, 0x3FF, 0x0, 0x0, 0x0, 0x0, 0x0, 0x0⟩,
   /- FWU_RUN_VER -/ ⟨0x03000024, 4, 1, 1, 0x0, 0x0, 0x0, 0x0, 0x0, 0xFFFFFFFF, 0x0⟩,
   /- FWU_STG_VER -/ ⟨0x03000028, 4, 1, 1, 0x0, 0x0, 0x0, 0x0, 0x0, 0xFFFFFFFF, 0x0⟩,
   /- FWU_FUSE -/ ⟨0x0300002C, 4, 1, 1, 0x0, 0x0, 0x0, 0x0, 0x0, 0xF3F, 0x0⟩,
   /- FWU_RELAY -/ ⟨0x03000030, 4, 1, 1, 0xFFFFFFFF, 0x0, 0x0, 0x0, 0x0, 0x0, 0x34000000⟩,
   /- FWU_PROGRESS -/ ⟨0x03000034, 4, 1, 1, 0x0, 0x0, 0x0, 0x0, 0x0, 0xFFFF, 0x0⟩,
   /- FWU_DATA_CMD -/ ⟨0x03000038, 4, 1, 1, 0x1FFF, 0x0, 0x2000, 0x0, 0x0, 0x0, 0x0⟩,
   /- FWU_FL_ADDR -/ ⟨0x0300003C, 4, 1, 1, 0xFFFFFFF, 0x0, 0x0, 0x0, 0x0, 0x0, 0x0⟩,
   /- FWU_FL_CMD -/ ⟨0x03000040, 4, 1, 1, 0x0, 0x0, 0x3, 0x0, 0x0, 0x0, 0x0⟩,
   /- FWU_FL_STATUS -/ ⟨0x03000044, 4, 1, 1, 0x0, 0x6, 0x0, 0x0, 0x0, 0xFF01, 0x0⟩,
   /- FWU_RX_BAD -/ ⟨0x03000048, 4, 1, 1, 0xFFFFFFFF, 0x0, 0x0, 0x0, 0x0, 0x0, 0x0⟩,
   /- FWU_REFUSED -/ ⟨0x0300004C, 4, 1, 1, 0xFFFFFFFF, 0x0, 0x0, 0x0, 0x0, 0x0, 0x0⟩,
   /- FWU_HO_BLOCKED -/ ⟨0x03000050, 4, 1, 1, 0xFFFFFFFF, 0x0, 0x0, 0x0, 0x0, 0x0, 0x0⟩,
   /- FWU_NBR_VER -/ ⟨0x03000060, 8, 3, 1, 0x0, 0x0, 0x0, 0x0, 0x0, 0xFFFFFFFF, 0x0⟩,
   /- FWU_NBR_INFO -/ ⟨0x03000064, 8, 3, 1, 0x0, 0x0, 0x0, 0x0, 0x0, 0x1FFFF, 0x0⟩,
   /- FWU_HDR -/ ⟨0x03001000, 4, 2048, 1, 0xFFFFFFFF, 0x0, 0x0, 0x0, 0x0, 0x0, 0x0⟩] ++
  [/- FWU_DATA -/ ⟨0x03004000, 4, 1024, 1, 0xFFFFFFFF, 0x0, 0x0, 0x0, 0x0, 0x0, 0x0⟩]

/-- The registers of the FWU block whose cold-reset value is not 0: base, stride, count, inner, value. -/
def regResetsFwu : List (Nat × Nat × Nat × Nat × Nat) :=
  [(0x03000010, 4, 1, 1, 0x400),
   (0x03000030, 4, 1, 1, 0x34000000)]

/-- The registers of the SXT block. -/
def regRowsSxt : List RegRow :=
  [/- SXT_CTRL -/ ⟨0x03100000, 4, 1, 1, 0xF, 0x0, 0x0, 0x0, 0x0, 0x0, 0x0⟩,
   /- SXT_STATUS -/ ⟨0x03100004, 4, 1, 1, 0x0, 0x9, 0x0, 0x0, 0x0, 0x6, 0x0⟩,
   /- SXT_TIME_LO -/ ⟨0x03100008, 4, 1, 1, 0x0, 0x0, 0x0, 0x0, 0x0, 0xFFFFFFFF, 0x0⟩,
   /- SXT_TIME_HI -/ ⟨0x0310000C, 4, 1, 1, 0x0, 0x0, 0x0, 0x0, 0x0, 0xFFFFFFFF, 0x0⟩,
   /- SXT_FREQ -/ ⟨0x03100010, 4, 1, 1, 0xFFFFFFFF, 0x0, 0x0, 0x0, 0x0, 0x0, 0x0⟩,
   /- SXT_PHASE -/ ⟨0x03100014, 4, 1, 1, 0x0, 0x0, 0xFFFFFFFF, 0x0, 0x0, 0x0, 0x0⟩,
   /- SXT_OFS_SEC_LO -/ ⟨0x03100018, 4, 1, 1, 0xFFFFFFFF, 0x0, 0x0, 0x0, 0x0, 0x0, 0x0⟩,
   /- SXT_OFS_SEC_HI -/ ⟨0x0310001C, 4, 1, 1, 0xFFFF, 0x0, 0x0, 0x0, 0x0, 0x0, 0x0⟩,
   /- SXT_OFS_NS -/ ⟨0x03100020, 4, 1, 1, 0xFFFFFFFF, 0x0, 0x0, 0x0, 0x0, 0x0, 0x0⟩,
   /- SXT_OFS_COMMIT -/ ⟨0x03100024, 4, 1, 1, 0x0, 0x0, 0x1, 0x0, 0x0, 0x0, 0x0⟩,
   /- SXT_PPS_CAP_LO -/ ⟨0x03100028, 4, 1, 1, 0x0, 0x0, 0x0, 0x0, 0x0, 0xFFFFFFFF, 0x0⟩,
   /- SXT_PPS_CAP_HI -/ ⟨0x0310002C, 4, 1, 1, 0x0, 0x0, 0x0, 0x0, 0x0, 0xFFFFFFFF, 0x0⟩,
   /- SXT_10M_PHASE -/ ⟨0x03100030, 4, 1, 1, 0x0, 0x0, 0x0, 0x0, 0x0, 0x1FF, 0x0⟩,
   /- SXT_PPS_WIDTH -/ ⟨0x03100034, 4, 1, 1, 0xFFFFF, 0x0, 0x0, 0x0, 0x0, 0x0, 0x3F941⟩,
   /- SXT_OFS_ACT_SEC_LO -/ ⟨0x03100038, 4, 1, 1, 0x0, 0x0, 0x0, 0x0, 0x0, 0xFFFFFFFF, 0x0⟩,
   /- SXT_OFS_ACT_SEC_HI -/ ⟨0x0310003C, 4, 1, 1, 0x0, 0x0, 0x0, 0x0, 0x0, 0xFFFF, 0x0⟩,
   /- SXT_OFS_ACT_NS -/ ⟨0x03100040, 4, 1, 1, 0x0, 0x0, 0x0, 0x0, 0x0, 0xFFFFFFFF, 0x0⟩]

/-- The registers of the SXT block whose cold-reset value is not 0: base, stride, count, inner, value. -/
def regResetsSxt : List (Nat × Nat × Nat × Nat × Nat) :=
  [(0x03100034, 4, 1, 1, 0x3F941)]

end Sys2Proof.Machine
end

