-- ==== Sys2Proof/Machine/TypesAsx.lean ====
section
/-! DEFINITION. Plain-data state of the associative search banks (chapter 5). -/

namespace Sys2Proof.Machine

/-- One entry as every copy's shadow and array hold it (R120): value and mask bytes 0 to 39 as 320-bit numbers, byte 0 most
significant, bytes at or beyond 10w zero; data bytes 1 to 15. -/
structure AsxEntry where
  valid : Bool
  prio : Nat
  value : BitVec 320
  mask : BitVec 320
  data : BitVec 120
  deriving DecidableEq, Repr

/-- A free entry: VALID 0 with every field zero. -/
def AsxEntry.free : AsxEntry := { valid := false, prio := 0, value := 0, mask := 0, data := 0 }

/-- A table descriptor in force (Table 5.3). -/
structure AsxDesc where
  valid : Bool
  dir : Nat
  stage : Nat
  first : Nat
  span : Nat
  copiesLog2 : Nat
  live : Bool
  pipeBase : Nat
  spareEn : Bool
  spareBank : Nat
  deriving DecidableEq, Repr

/-- A descriptor that is not in force. -/
def AsxDesc.off : AsxDesc :=
  { valid := false, dir := 0, stage := 0, first := 0, span := 0, copiesLog2 := 0, live := false, pipeBase := 0,
    spareEn := false, spareBank := 0 }

/-- An operation in the queue (R129), with its submitter's holder ID (R135). -/
structure AsxOp where
  holder : Nat
  op : Nat
  tbl : Nat
  entry : Nat
  ent : AsxEntry
  /-- MASKP: the profile bytes. -/
  prof : BitVec 320
  deriving DecidableEq, Repr

/-- One table write (R131). -/
inductive AsxStep where
  | write (entry : Nat) (e : AsxEntry)
  | copy (src dst : Nat)
  | maskp (i : Nat) (p : BitVec 320)
  deriving DecidableEq, Repr

/-- The running operation: the steps still to apply, and the latest copy step applied. -/
structure AsxRun where
  op : AsxOp
  steps : List AsxStep
  moved : Option (Nat × Nat)
  deriving DecidableEq, Repr

/-- The banks beside the ASX registers. -/
structure Asx where
  /-- Descriptors in force, by table. -/
  desc : SMap AsxDesc
  /-- WIDTH and MODE in force, by bank: width + 4 × mode (Table 5.1). -/
  bankCfg : SMap Nat
  /-- Entries, by table × 2^18 + entry. Every copy and the spare hold the same (R124). -/
  ents : SMap AsxEntry
  /-- Mask profiles other than all ones (R122). -/
  profs : SMap (BitVec 320)
  /-- Operations not yet started (R129). -/
  queue : List AsxOp
  /-- The operation at the head, started (R130). -/
  run : Option AsxRun
  /-- Steps applied in the tick (R131). -/
  stepped : Nat
  /-- The row the scrubbers check next (R138). -/
  scrubRow : Nat
  /-- The tick in which each row was last checked, and for the rows of a bank whose latest check found something, as bank × 2,048 + row,
  the tick of their previous clean check (R138). -/
  scrubTick : SMap Nat
  unclean : SMap Nat
  /-- Array rows rewritten in the latest sweep: bank × 2,048 + row (R141). -/
  fixed : List Nat
  /-- Rows left unverified: bank × 2,048 + row, and 2^18 more for an entry whose data word is the bad one (R138). -/
  unverified : List Nat
  /-- Banks reloading from their shadow (R142), and banks that read back correctly since the latest boundary. -/
  returning : List Nat
  returned : List Nat
  /-- Banks quarantined since the latest boundary, and those whose first boundary since has come (R141). -/
  quarNew : List Nat
  quarDue : List Nat
  deriving DecidableEq, Repr

/-- Cold reset: every entry zero, every mask profile all ones, no table valid. -/
def Asx.reset : Asx :=
  { desc := [], bankCfg := [], ents := [], profs := [], queue := [], run := none, stepped := 0, scrubRow := 0,
    scrubTick := [], unclean := [], fixed := [], unverified := [], returning := [], returned := [], quarNew := [], quarDue := [] }

end Sys2Proof.Machine
end

