-- ==== Sys2Proof/Machine/TypesCvy.lean ====
section
/-! DEFINITION. Plain-data state of the convoy (chapter 15) and of the helm (chapter 16). -/

namespace Sys2Proof.Machine

/-- What a SIZE told of a downstream subtree (R348): COUNT, HEIGHT, HOPMAX. -/
structure Kid where
  count : Nat
  height : Nat
  hopmax : Nat
  deriving DecidableEq, Repr

/-- The convoy beside the CVY registers. Ports: 0 CVU, 1 CVD0, 2 CVD1. Times in 0.25 ns. -/
structure Cvy where
  /-- Step 2 of the cold start has calibrated the convoy's SerDes: the provisional time base runs (R345). -/
  cal : Bool
  /-- A member holds a tick count (R346). -/
  loaded : Bool
  /-- Hop measurements, latest first, at most 16: (T4 - T1) - (T3 - T2), twice the hop (R345). -/
  hops : List Nat
  /-- Tick of the latest good SYNC, and the SYNCs in a row within 2 ns. -/
  lastSync : Nat
  good : Nat
  /-- HOLDOVER until a cold reset (R346). -/
  stuck : Bool
  /-- The size phase: the tick it was entered, whether this device has ever entered it, whether its own SIZE is sent (R348). -/
  sizing : Option Nat
  entered : Bool
  sent : Bool
  /-- SIZE values by downstream port, and downstream ports that count as absent. -/
  kids : SMap Kid
  absent : List Nat
  /-- The address that sent this device's ASSIGN (R422), and an ASSIGN acted on whose VERSION messages are not yet sent (R423). -/
  parent : Nat
  assigned : Bool
  /-- The next message number (Table 15.2). -/
  seq : Nat
  /-- SEQ of the latest ACTION taken from each SRC (R350). -/
  taken : SMap Nat
  /-- Normal messages in each port's transmit queue or on its wire: start and end in 1/4,200 ns (R343). -/
  tx : SMap (List (Nat × Nat))
  /-- When the latest priority message of each port ends. -/
  pri : SMap Nat
  deriving DecidableEq, Repr

def Cvy.reset : Cvy :=
  { cal := false, loaded := false, hops := [], lastSync := 0, good := 0, stuck := false, sizing := none, entered := false,
    sent := false, kids := [], absent := [], parent := 0, assigned := false, seq := 0, taken := [], tx := [], pri := [] }

/-- The device's own account of a block of 256 ticks (R369, R370): the CRC-64 folds, whether a mark falls in its hold-off, whether
the device was eligible in STANDBY or ACTIVE throughout, and SELFTEST_OK. -/
structure Blk where
  j : Nat
  adm : Nat
  out : Nat
  exposed : Bool
  steady : Bool
  selfOk : Bool
  deriving DecidableEq, Repr

/-- The partner's latest report (Table 16.5). -/
structure Rpt where
  block : Nat
  clean : Bool
  reclaim : Bool
  pref : Bool
  state : Nat
  chart : Nat
  epoch : Nat
  deriving DecidableEq, Repr

/-- The helm beside the HLM registers. A line pattern is HELM_IN × 2 + HELM_IN_N; instants are in 0.25 ns of tick time. -/
structure Hlm where
  /-- The pattern now on the lines and the instant it began; the pattern that read before it (R361). -/
  pat : Nat
  since : Nat
  old : Nat
  oldSince : Nat
  /-- Boundaries in a row that saw an invalid pattern. -/
  invalid : Nat
  /-- The end of BACKOFF. -/
  backoff : Nat
  /-- Software asked for a release (R365). -/
  relReq : Bool
  /-- Tick of the latest good kick, and expiry since (R366). -/
  kicked : Nat
  expired : Bool
  /-- The block in progress: eligible and steady so far, was STANDBY at some boundary, a self-test failed. -/
  steady : Bool
  stood : Bool
  failed : Bool
  /-- SELFTEST_OK of the latest block in which the device was STANDBY. -/
  selfOk : Bool
  /-- The folds of the ticks of a block digested so far, as CRC-64 registers, and the latest marked tick digested. -/
  adm : Nat
  out : Nat
  marked : Option Nat
  /-- The block that ended last, its folds still growing: number, steady, SELFTEST_OK. -/
  closing : Option (Nat × Bool × Bool)
  /-- Blocks whose account is complete, latest first. -/
  blocks : List Blk
  /-- The partner's reports, latest first, and reports missed in a row. -/
  reports : List Rpt
  misses : Nat
  /-- The start of the wait to restore (R372). -/
  wtr : Option Nat
  /-- Navigator pairs being reloaded: 0 Atkor, 1 Trelier (R373). -/
  navSync : List Nat
  deriving DecidableEq, Repr

/-- Cold reset: the partner's lines read Released, as the board's pulls make an absent partner's. -/
def Hlm.reset : Hlm :=
  { pat := 1, since := 0, old := 1, oldSince := 0, invalid := 0, backoff := 0, relReq := false, kicked := 0, expired := false,
    steady := false, stood := false, failed := false, selfOk := false, adm := 0xFFFFFFFFFFFFFFFF, out := 0xFFFFFFFFFFFFFFFF,
    marked := none, closing := none, blocks := [], reports := [], misses := 0, wtr := none, navSync := [] }

end Sys2Proof.Machine
end

