-- ==== Sys2Proof/Machine/TypesCxl.lean ====
section
/-! DEFINITION. Plain-data state of the CXL root ports (chapter 14). -/

namespace Sys2Proof.Machine

/-- A read outstanding at a port on behalf of a host window or of firmware staging (R336): its port, address, length, tick
of issue, and the reader: 0 host window, 1 staging. -/
structure CxlRd where
  port : Nat
  addr : Nat
  len : Nat
  tick : Nat
  who : Nat
  deriving DecidableEq, Repr

/-- The ports beside the CXL registers. -/
structure Cxl where
  /-- Decoders in force: registers A, B and C (R332). -/
  dec : SMap (BitVec 32 × BitVec 32 × BitVec 32)
  /-- States that take effect at the next boundary (R331). -/
  next : SMap Nat
  /-- Ports lost since the last boundary, with the fault's event code (R338). -/
  lost : List (Nat × Nat)
  /-- The tick training started. -/
  since : SMap Nat
  reads : List CxlRd
  deriving DecidableEq, Repr

def Cxl.reset : Cxl := { dec := [], next := [], lost := [], since := [], reads := [] }

end Sys2Proof.Machine
end

