-- ==== Sys2Proof/Machine/TypesFab.lean ====
section
/-! DEFINITION. Plain-data state of the fabric interface (chapter 11). -/

namespace Sys2Proof.Machine

/-- A DATA cell's fields (Table 11.2). -/
structure CellHdr where
  first : Bool
  last : Bool
  err : Bool
  units : Nat
  ddev : Nat
  sdev : Nat
  dpipe : Nat
  spipe : Nat
  pseq : Nat
  stick : Nat
  cidx : Nat
  cls : Nat
  fhash : Nat
  plen : Nat
  deriving DecidableEq, Repr

/-- A DATA cell's place in its packet as received (Table 11.2), and the pool carriage that holds it (R280). -/
structure FabCell where
  cidx : Nat
  last : Bool
  err : Bool
  plen : Nat
  dpipe : Nat
  payload : List Byte
  ptr : Nat
  deriving DecidableEq, Repr

/-- The last cell of a departure, its place on a lane taken, until the tail of its chain has been read (R197, R277): the departure, the
lane, the cell's start and end, and what it holds. -/
structure FabTail where
  x : Depart
  lane : Nat
  start : Nat
  end_ : Nat
  h : CellHdr
  payload : List Byte
  deriving DecidableEq, Repr

/-- Cells gathered for one packet (R280): its key (SDEV, SPIPE, departure tick, PSEQ). -/
structure Gather where
  sdev : Nat
  spipe : Nat
  tick : Nat
  pseq : Nat
  cells : List FabCell
  deriving DecidableEq, Repr

/-- A complete packet released in the tick in progress (R281): its ingress pipeline, sender, frame and pool carriages. -/
structure FabPkt where
  dpipe : Nat
  sdev : Nat
  bytes : List Byte
  cells : List Nat
  deriving DecidableEq, Repr

/-- A lane's LSTAT history (R283): the tick of the latest, whether one with GOOD 1 came in the tick in progress, whether one
with GOOD 0 or a loss of lock did, whether an uncorrectable codeword did, and ticks the join condition has held. -/
structure LaneSt where
  last : Nat
  goodNow : Bool
  badNow : Bool
  dirty : Bool
  run : Nat
  deriving DecidableEq, Repr

def LaneSt.new (t : Nat) : LaneSt := { last := t, goodNow := false, badNow := false, dirty := false, run := 0 }

/-- The fabric interface beside the FAB registers. -/
structure Fab where
  /-- EN = 1 has been acted on. -/
  en : Bool
  /-- The tick probing began, and the largest P per lane in 0.25 ns (R284). -/
  probing : Option Nat
  probe : SMap Nat
  /-- Carriages of the reassembly pool, which holder 0x0411 holds, and those of them that hold no cell (R280). -/
  pool : List Nat
  free : List Nat
  gathers : List Gather
  released : List FabPkt
  /-- The next PSEQ of each stream: (SDEV × 64 + SPIPE) × 1024 + DDEV. -/
  pseq : SMap Nat
  /-- When each lane's previous cell ends; cells in each group's FIFO: end and bytes. -/
  busy : SMap Nat
  fifo : SMap (List (Nat × Nat))
  /-- Last cells that wait for their chain's tail, and departures whose last cell is still going out: its end, chain and pipeline. -/
  tails : List FabTail
  sent : List (Nat × Nat × Nat)
  /-- The bytes of a cell still being received, by lane; a lane not listed waits for the PTR of its next good codeword (R273). -/
  part : SMap (List Byte)
  /-- Grant and reach states received and not yet latched, by device. -/
  grant : SMap Bool
  reach : SMap Bool
  lanes : SMap LaneSt
  deriving DecidableEq, Repr

def Fab.reset : Fab :=
  { en := false, probing := none, probe := [], pool := [], free := [], gathers := [], released := [], pseq := [], busy := [],
    fifo := [], tails := [], sent := [], part := [], grant := [], reach := [], lanes := [] }

end Sys2Proof.Machine
end

