-- ==== Sys2Proof/Machine/TypesNrg.lean ====
section
/-! DEFINITION. Plain-data state of the reckoning unit and of supply sag (chapter 12). -/

namespace Sys2Proof.Machine

/-- A die's sag controller and clock gate (R297 to R301): clock level 0 full, 1 7/8, 2 3/4; the deepest level of the episode; its
onset tick, its duration in ungated cycles. -/
structure Sag where
  level : Nat
  deepest : Nat
  onset : Nat
  cycles : Nat
  /-- The setpoint the levels are computed from, in mV (R303). -/
  base : Nat
  /-- Edges counted since the entry to the clock level in force (R11, R298, R299). -/
  edges : Nat
  /-- Core-clock cycles in a row without a dip, which a return to the level above needs 256 of (R299). -/
  clean : Nat
  /-- Enabled edges of the tick in progress: the die's slot cycles (R9, R301). -/
  done : Nat
  deriving DecidableEq, Repr

/-- The reckoning unit beside the NRG registers. -/
structure Nrg where
  /-- Entries of the active, pending and previous active cost sets that differ from Table 12.1's defaults. -/
  active : SMap Nat
  pending : SMap Nat
  old : SMap Nat
  /-- K of the previous active set, and the first tick of the present one. -/
  oldK : Nat
  since : Nat
  /-- Counts of charged items: tick × 64 + index of Table 12.1 (0 once for a tick that runs, 1 and 2 for stacks); index 0x3F
  holds the row cost in 1/64 EU. -/
  counts : SMap Nat
  /-- Reservations by tick, in 1/64 EU (R289). -/
  rsv : SMap Nat
  /-- Variants named, by tick. -/
  named : SMap Nat
  /-- cost(n) summed over the settled ticks of the measurement window, in 1/64 EU, and the window's first tick (R294). -/
  modelSum : Nat
  winStart : Nat
  /-- The sum of a window that has ended and whose last tick is still to be settled. -/
  closing : Option Nat
  /-- The clock has been stretched in the tick in progress. -/
  stretched : Bool
  sagA : Sag
  sagT : Sag
  deriving DecidableEq, Repr

def Sag.reset (mv : Nat) : Sag :=
  { level := 0, deepest := 0, onset := 0, cycles := 0, base := mv, edges := 0, clean := 0, done := 0 }

/-- Cold reset: every reservation 0 (R291); the balance stands in NRG_BAL. -/
def Nrg.reset : Nrg :=
  { active := [], pending := [], old := [], oldK := 0x1000, since := 0, counts := [], rsv := [], named := [],
    modelSum := 0, winStart := 0, closing := none, stretched := false, sagA := Sag.reset 800, sagT := Sag.reset 800 }

end Sys2Proof.Machine
end

