-- ==== Sys2Proof/Machine/TypesOut.lean ====
section
/-! DEFINITION. What the device puts on its interfaces: the model's own trace of outputs. -/

namespace Sys2Proof.Machine

/-- An output. Instants are in 1/4,200 ns. -/
inductive Emit where
  | cxlRead (port addr bytes tick : Nat)
  | cxlWrite (port addr : Nat) (bs : List Byte)
  /-- A frame on the wire: port, start instant, bytes with FCS. -/
  | wanFrame (port start : Nat) (bs : List Byte)
  /-- A bearing message injected for a port, without FCS (R265). -/
  | bearing (port : Nat) (bs : List Byte)
  /-- A steering write started on a module (R267, R268). -/
  | module_ (port kind app : Nat)
  /-- A module is given the application that matches a cage mode (R248). -/
  | select (cage mode : Nat)
  /-- A host transaction started on a cage's management bus (R260): cage, bank, page, offset, length, the data of a write. -/
  | bus (cage bank page offset len : Nat) (wdata : Option (List Byte))
  /-- A navigator's read of a CMIS page of a cage's module started (R259, R261). -/
  | busRead (cage page : Nat)
  /-- A WAN port begins, or ceases, to send remote fault ordered sets (R250). -/
  | remoteFault (port : Nat) (on : Bool)
  /-- A fabric cell: lane, start instant, bytes. -/
  | cell (lane start : Nat) (bs : List Byte)
  /-- A CTRL cell sent on each of some lanes in a tick (R276). -/
  | ctrl (lanes : List Nat) (bs : List Byte)
  /-- DATA cells that would start at an instant or later do not (R286, R365). -/
  | fabStop (at_ : Nat)
  /-- A host write: address and bytes (R308). -/
  | hostWrite (addr : Nat) (bs : List Byte)
  /-- A host read request: tag, address, length. -/
  | hostRead (tag addr len : Nat)
  /-- An MSI-X message: function and vector. -/
  | msix (fn vec : Nat)
  /-- A completion to the host: 0 successful, 1 Unsupported Request, 2 Completer Abort, 3 poisoned, 4 Request Retry Status; and
  its data. -/
  | cpl (status : Nat) (bs : List Byte)
  /-- An error reported through AER: 0 Unsupported Request, 1 Completion Timeout, 2 Unexpected Completion. -/
  | aer (kind : Nat)
  /-- The bytes shifted out on a sideband chain (R324). -/
  | sideband (chain : Nat) (bs : List Byte)
  /-- A convoy message: port, the instant at which it starts if no priority message holds it back (R343), the control block after its type byte and the data blocks (R342). -/
  | convoy (port start : Nat) (bs : List Byte)
  /-- Handed to navigator firmware: 1 a NAV message, 2 a NAV_EVENT action for a tick. -/
  | firmware (kind tick : Nat) (bs : List Byte)
  /-- The helm lines driven asserted or released (R362), in a tick. -/
  | helm (asserted : Bool) (tick : Nat)
  /-- What a WAN port has on the wire at an instant ends with a stomp, and frames that would start later do not (R365). -/
  | cut (port at_ : Nat)
  /-- PPS_OUT driven high or low, in a tick (R411). -/
  | pps (high : Bool) (tick : Nat)
  /-- An AVSBus setpoint command: die and mV (R442). -/
  | avs (die mv : Nat)
  deriving DecidableEq, Repr

end Sys2Proof.Machine
end

