-- ==== Sys2Proof/Machine/TypesQue.lean ====
section
/-! DEFINITION. Plain-data state of the queue store, the scheduler and the deep tier (chapters 8 and 9). -/

namespace Sys2Proof.Machine

/-- A packet in wagons (R225): its frame bytes and TERR, whether an uncorrectable word brought TERR about, whether it was a transit packet,
its data wagons, the record wagon, the record's place in it and the queue's next record wagon (NEXTW), the tick its record was fetched in,
whether the record has been read into the record store, whether that read was uncorrectable, and the data wagons a planned refill has still
to read. -/
structure Wag where
  bytes : List Byte
  terr : Bool
  ue : Bool
  transit : Bool
  nextw : Nat
  wptrs : List Nat
  recPtr : Nat
  recIdx : Nat
  fetched : Option Nat
  inStore : Bool
  recUe : Bool
  toRead : List Nat
  deriving DecidableEq, Repr

/-- Where a queued packet's bytes are (R226, R230, R233, R237). -/
inductive Loc where
  | res (chain : Nat)
  /-- Planned to spill: its carriages are being read out. -/
  | spilling (chain : Nat) (w : Wag)
  | held (w : Wag)
  /-- A refill planned, due at a tick; no chain for a record-only refill. -/
  | refill (chain : Option Nat) (w : Wag) (due : Nat)
  deriving DecidableEq, Repr

/-- A queued packet (R210): an identity of the model's own, its manifest, its enqueue tick, and where it is. -/
structure QPkt where
  id : Nat
  m : Manifest
  etick : Nat
  copy : Bool
  trunc : Nat
  frame : Option (List Byte)
  /-- It came back from wagons. -/
  refilled : Bool
  loc : Loc
  deriving DecidableEq, Repr

/-- One queue's packets and counts (R222, R226). -/
structure QState where
  front : List QPkt
  middle : List QPkt
  back : List QPkt
  /-- High-water mark in units of 256 bytes. -/
  high : Nat
  deq : Nat
  dropped : Nat
  marked : Nat
  /-- It refilled in the previous tick's plan (R227). -/
  refilling : Bool
  /-- The open record wagon, the records in it, and its successor (R225). -/
  openRec : Option (Nat × Nat × Nat)
  deriving DecidableEq, Repr

/-- An empty queue. -/
def QState.empty : QState :=
  { front := [], middle := [], back := [], high := 0, deq := 0, dropped := 0, marked := 0, refilling := false, openRec := none }

/-- What an L0 node keeps beside QUE_L0_STn (its state of R219 and its window position of R218): the tick D of R219, and the
previous round's window W'. -/
structure L0St where
  down : Nat
  prevW : Nat
  deriving DecidableEq, Repr

def L0St.reset : L0St := { down := 0, prevW := 0 }

/-- An enqueue of a batch (R206): the tick E of its batch, its queue, and the packet. -/
structure Enq where
  tick : Nat
  queue : Nat
  pkt : Pkt
  deriving DecidableEq, Repr

/-- A configuration operation (R203): the address register's fields, the data words and the tick of a timed one. -/
structure QueOp where
  holder : Nat
  op : Nat
  type : Nat
  index : Nat
  timed : Bool
  tick : Nat
  data : List (BitVec 32)
  deriving DecidableEq, Repr

/-- A queue sample (R222). -/
structure QSample where
  queue : Nat
  tick : Nat
  bytes : Nat
  pkts : Nat
  resid : Nat
  deriving DecidableEq, Repr

/-- The queue store and scheduler beside the QUE registers. Entities are keyed by type × 2^18 + index (Table 8.1: 0 queue,
1 L2, 2 L1, 3 L0); a group arbiter is type 4. -/
structure Que where
  /-- Descriptors, DATA0 in the low word. -/
  cfg : SMap (BitVec 256)
  q : SMap QState
  tagF : SMap Nat
  vt : SMap Nat
  tc : SMap Int
  tp : SMap Int
  l0 : SMap L0St
  ops : List QueOp
  batch : List Enq
  /-- Dequeues of the tick in progress and of the next, keyed (tick × 64 + pipeline) × 512 + slot. -/
  slots : SMap Pkt
  samples : List QSample
  nextId : Nat
  /-- Packets of the batch applied in the latest round, in batch order: queue, packet's identity, and whether its queue held no packet
  before it (R212, R228). -/
  applied : List (Nat × Nat × Bool)
  /-- Queues left unserved in the latest round by a late refill (R235). -/
  late : List Nat
  deriving DecidableEq, Repr

def Que.reset : Que :=
  { cfg := [], q := [], tagF := [], vt := [], tc := [], tp := [], l0 := [], ops := [], batch := [], slots := [], samples := [],
    nextId := 0, applied := [], late := [] }

/-- A pseudo-channel's free wagons (R231): the cache as a stack of intervals [lo, hi) whose lowest number is on top, the
pointer wagons written back, latest first, each as its intervals with the pointer wagon's own number first, and the first
wagon not yet taken from the lists that training built in ascending order (R244). -/
structure PcFree where
  cache : List (Nat × Nat)
  lists : List (List (Nat × Nat))
  fresh : Nat
  deriving DecidableEq, Repr

/-- What an HBM request is for. -/
inductive HWhat where
  | write
  /-- A pointer wagon taken back (R231). -/
  | ptrRead
  | recRead (queue id : Nat)
  | dataRead (queue id : Nat)
  deriving DecidableEq, Repr

/-- A request at a pseudo-channel: its wagon pointer, first column and columns, columns issued, how many later requests have
bypassed it, its number in order of planning, and whether a write's data is in staging. -/
structure HReq where
  seq : Nat
  ready : Bool
  ptr : Nat
  col : Nat
  cols : Nat
  done : Nat
  bypassed : Nat
  what : HWhat
  deriving DecidableEq, Repr

/-- A burst that a refresh splits (R241): the request, the column at which it stops, and once it has stopped the instant from which it
may resume. -/
structure Split where
  seq : Nat
  stop : Nat
  until_ : Option Nat
  deriving DecidableEq, Repr

/-- A pseudo-channel's controller (R239 to R241): reads, the write queue of 64 entries, staging in the plan's order, whether it drains,
wagons whose rows are open, reads all of whose columns are issued, the refresh credit and the next bank, and a burst being split. -/
structure Hbm where
  reads : List HReq
  writes : List HReq
  staging : List HReq
  drain : Bool
  open_ : List Nat
  returning : List HReq
  credit : Nat
  bank : Nat
  split : Option Split
  deriving DecidableEq, Repr

def Hbm.idle : Hbm :=
  { reads := [], writes := [], staging := [], drain := false, open_ := [], returning := [], credit := 0, bank := 0, split := none }

/-- A record wagon (R225, R236): records written into it, records still live, and the latest due tick of its records. -/
structure RecWag where
  ptr : Nat
  used : Nat
  live : Nat
  due : Nat
  deriving DecidableEq, Repr

/-- A spill's carriage reads: the data wagons it fills, read port, chain, carriages and packet (R230, R238). -/
structure HeldRead where
  wptrs : List Nat
  len : Nat
  port : Nat
  chain : Nat
  car : Nat
  id : Nat
  deriving DecidableEq, Repr

/-- What a yard plan asks for, from the next boundary on (R228): a controller's request, or a spill's carriage reads. -/
inductive YardOp where
  | hbm (ptr col cols : Nat) (ready : Bool) (what : HWhat)
  | read (r : HeldRead)
  deriving DecidableEq, Repr

/-- The deep tier beside the YRD registers. -/
structure Yrd where
  /-- Free wagons by 64 × stack + pseudo-channel, those a built stack still has as built not listed. -/
  free : SMap PcFree
  /-- Stacks whose lists are built. -/
  built : List Nat
  recs : List RecWag
  /-- Wagons credited at a tick (R236). -/
  credits : List (Nat × Nat)
  hbm : SMap Hbm
  /-- What the latest plan asks for, in the plan's order. -/
  plan : List YardOp
  nextReq : Nat
  /-- The tick each stack entered its state. -/
  since : SMap Nat
  /-- Stacks with an exit from self-refresh requested (R242). -/
  exitReq : List Nat
  /-- Stacks named for self-refresh or reopened by the reckoning plan, taking effect at the next boundary (R295). -/
  named : Option Nat
  reopen : Option Nat
  /-- Stacks with a temperature at or above YRD_THERM.WARN at the latest reading (R243). -/
  warm : List Nat
  /-- Columns spent per pseudo-channel in the plan in progress, writes and reads, and carriages per group. -/
  wcol : SMap Nat
  rcol : SMap Nat
  spillCar : SMap Nat
  fillCar : SMap Nat
  /-- Stacks with a spill to them or a read from them in the plan in progress (R242). -/
  busy : List Nat
  /-- Spill reads that a full staging buffer holds (R238). -/
  held : List HeldRead
  /-- The tick of each pseudo-channel's latest calibration step (R245). -/
  cal : SMap Nat
  /-- Slack cycles counted modulo 12, and the column that patrol scrubbing reads next, as 32 × wagon + column (R245). -/
  slack : Nat
  patrol : Nat
  deriving DecidableEq, Repr

def Yrd.reset : Yrd :=
  { free := [], built := [], recs := [], credits := [], hbm := [], plan := [], nextReq := 0, since := [], exitReq := [], named := none,
    reopen := none, warm := [], wcol := [], rcol := [], spillCar := [], fillCar := [], busy := [], held := [], cal := [], slack := 0, patrol := 0 }

end Sys2Proof.Machine
end

