-- ==== Sys2Proof/Machine/TypesSnd.lean ====
section
/-! DEFINITION. Plain-data state of the sounding reader and of the sextant (chapter 18). -/

namespace Sys2Proof.Machine

/-- A sweep in progress (R401 to R403): the tick at whose boundary it started, whether it reads SNAP, the cycle of its first
reading, list entries used and entries done, reads made of a pair, their values, and the readings so far, latest first. -/
structure Sweep where
  tick : Nat
  snap : Bool
  cyc : Option Nat
  len : Nat
  pos : Nat
  step : Nat
  h1 : Nat
  low : Nat
  vals : List Nat
  deriving DecidableEq, Repr

/-- The sounding reader beside the SND registers. -/
structure Snd where
  /-- START: 0 not written, 1 waiting for its boundary, 2 skipped and waiting for a FULL tick (R403). -/
  start : Nat
  sweep : Option Sweep
  /-- Counters that wrapped since the previous sweep, 8 × group + counter. -/
  wrapped : List Nat
  /-- SEQ of each stream's latest record: counters, samples, digests. -/
  seqC : Nat
  seqS : Nat
  seqD : Nat
  /-- The host ring was written in the tick. -/
  hwrote : Bool
  /-- The tick of each group's latest snapshot. -/
  snapTick : SMap Nat
  deriving DecidableEq, Repr

def Snd.reset : Snd :=
  { start := 0, sweep := none, wrapped := [], seqC := 0, seqS := 0, seqD := 0, hwrote := false, snapTick := [] }

/-- The sextant beside the SXT registers: the pending phase correction in 0.125 ns, and the tick PPS_OUT rose while it is high. -/
structure Sxt where
  phase : Int
  rise : Option Nat
  deriving DecidableEq, Repr

def Sxt.reset : Sxt := { phase := 0, rise := none }

end Sys2Proof.Machine
end

