-- ==== Sys2Proof/Machine/State.lean ====
section
/-! DEFINITION. The state of the block: the registers of chapter 21, and each unit's stores, queues, buffers, engines and pins, as the
chapters give them; the commands that wait; and the state right after a cold reset. -/

namespace Sys2Proof.Machine

/-- The device. `regs` holds each register whose value is not its cold-reset value, by byte address in BAR0 (Table 21.2); `rwt` the RWT
writes that wait for the next tick boundary (R4). -/
structure Dev where
  regs : SMap (BitVec 32)
  rwt : SMap (BitVec 32)
  /-- The tick, its admissions and output records (chapter 1). -/
  tck : Tck
  /-- The fault collector, words in error, revoked holders (chapter 17). -/
  flt : Flt
  /-- Charts, parse graphs, loads, swaps, twin sequencers (chapters 2 to 4). -/
  cht : Cht
  /-- The associative search banks (chapter 5). -/
  asx : Asx
  /-- Lookup engines, flow contexts, the lay-by (chapter 6). -/
  lku : Lku
  /-- The pipelines: passes in flight, waiters, arrivals (chapter 3). -/
  pipe : Pipe
  /-- Carriages, depots, the auditor (chapter 7). -/
  dpt : Dpt
  /-- The reckoner and the sag responders (chapter 12). -/
  nrg : Nrg
  /-- CXL ports (chapter 14). -/
  cxl : Cxl
  /-- Queues, shapers, the scheduler (chapter 8). -/
  que : Que
  /-- The wagon yard and its stacks (chapter 9). -/
  yrd : Yrd
  /-- WAN ports, module buses, bearing sessions (chapter 10). -/
  wan : Wan
  /-- The fabric interface (chapter 11). -/
  fab : Fab
  /-- The host endpoint and its rings (chapter 13). -/
  hst : Hst
  /-- Cage slots (chapter 13). -/
  cge : Cge
  /-- Convoy ports, enumeration, actions (chapter 15). -/
  cvy : Cvy
  /-- The helm and the navigator pairs (chapter 16). -/
  hlm : Hlm
  /-- Soundings and sweeps (chapter 18). -/
  snd : Snd
  /-- The sextant (chapter 18). -/
  sxt : Sxt
  /-- Firmware update, flash and fuses (chapter 19). -/
  fwu : Fwu
  /-- Supplies, clocks, temperatures (chapters 15 and 20). -/
  pwr : Pwr
  /-- The model's own counter of free values drawn (`Sys2Proof.Config`). -/
  free : Nat
  /-- The model's own trace of what the device put on its interfaces, oldest first. -/
  out : List Emit
  deriving DecidableEq, Repr

/-- The registers, stores and engines of a machine right after a cold reset. -/
def Dev.cold (free : Nat) (out : List Emit) (fwu : Fwu) (pwr : Pwr) : Dev :=
  { regs := [], rwt := [], tck := Tck.reset, flt := Flt.reset, cht := Cht.reset, asx := Asx.reset, lku := Lku.reset,
    pipe := Pipe.reset, dpt := Dpt.reset, nrg := Nrg.reset, cxl := Cxl.reset, que := Que.reset, yrd := Yrd.reset,
    wan := Wan.reset, fab := Fab.reset, hst := Hst.reset, cge := Cge.reset, cvy := Cvy.reset, hlm := Hlm.reset,
    snd := Snd.reset, sxt := Sxt.reset, fwu, pwr, free, out }

/-- Why the block would stop with a fault: nothing in the spec stops it, so there is no such reason. -/
inductive Fault where
  deriving DecidableEq, Repr

/-- Why a command has no effect to model. -/
inductive Refusal where
  /-- For a command whose meaning is not written: no arm of `exec` raises it. Safe. -/
  | notModelled (mnemonic : String)
  deriving DecidableEq, Repr

/-- The block: the device and the commands that wait, first in, first out. -/
structure State where
  dev : Dev
  pending : List Instr
  deriving DecidableEq, Repr

/-- Right after a cold reset, before the straps are sampled: every register and store at its reset value, no command waiting. -/
def State.reset : State := { dev := Dev.cold 0 [] Fwu.reset Pwr.reset, pending := [] }

end Sys2Proof.Machine
end

