-- ==== Sys2Proof/Machine/Ops.lean ====
section
/-! DEFINITION. The named operations over the machine that every command shares: sparse stores, registers and their
access types (R3 to R6, R32, R455, R457), the tick in progress, exposure marks (R22, R23), and the fault collector's
handling of one detection (R377 to R389). -/

namespace Sys2Proof.Machine

/-! ### Sparse stores -/

/-- The value at a key: the first pair of the key, or the default. -/
def SMap.get {α : Type} (dflt : α) : SMap α → Nat → α
  | [], _ => dflt
  | (k, v) :: r, i => if k = i then v else SMap.get dflt r i

/-- The store without a key. -/
def SMap.erase {α : Type} : SMap α → Nat → SMap α
  | [], _ => []
  | (k, v) :: r, i => if k = i then SMap.erase r i else (k, v) :: SMap.erase r i

/-- The store with a pair put in front of the first larger key. -/
def SMap.put {α : Type} : SMap α → Nat → α → SMap α
  | [], i, w => [(i, w)]
  | (k, v) :: r, i, w => if i < k then (i, w) :: (k, v) :: r else (k, v) :: SMap.put r i w

/-- The store with a key set to a value: a value equal to the default is not listed. -/
def SMap.set {α : Type} [DecidableEq α] (dflt : α) (m : SMap α) (i : Nat) (w : α) : SMap α :=
  if w = dflt then SMap.erase m i else SMap.put (SMap.erase m i) i w

/-- Keys strictly rising and no listed value equal to the default. -/
def SMap.wfFrom {α : Type} [DecidableEq α] (dflt : α) : Nat → SMap α → Bool
  | _, [] => true
  | lo, (k, v) :: r => decide (lo ≤ k) && decide (v ≠ dflt) && SMap.wfFrom dflt (k + 1) r

/-- The canonical form of a sparse store. -/
def SMap.wf {α : Type} [DecidableEq α] (dflt : α) (m : SMap α) : Bool := SMap.wfFrom dflt 0 m

/-- The value at a key, if the key is listed. -/
def SMap.find {α : Type} : SMap α → Nat → Option α
  | [], _ => none
  | (k, v) :: r, i => if k = i then some v else SMap.find r i

/-- The store with a key set, listed whatever the value (for stores whose absence means "none"). -/
def SMap.ins {α : Type} (m : SMap α) (i : Nat) (w : α) : SMap α := SMap.put (SMap.erase m i) i w

/-! ### Bits -/

/-- Bits `low` to `low + width - 1` of a number. -/
def bits (n low width : Nat) : Nat := (n >>> low) % 2 ^ width

/-- A number with those bits replaced by the low bits of `v`. -/
def setBits (n low width v : Nat) : Nat :=
  n - (bits n low width) * 2 ^ low + (v % 2 ^ width) * 2 ^ low

/-- Whether bit `i` is 1. -/
def bit (n i : Nat) : Bool := bits n i 1 = 1

/-- 1 for true, 0 for false. -/
def b2n (b : Bool) : Nat := if b then 1 else 0

/-- A two's-complement number of `w` bits as an integer. -/
def sInt (w n : Nat) : Int := if 2 ^ (w - 1) ≤ n % 2 ^ w then (n % 2 ^ w : Nat) - (2 ^ w : Nat) else (n % 2 ^ w : Nat)

/-- An integer as a two's-complement number of `w` bits. -/
def ofInt (w : Nat) (i : Int) : Nat := (i % (2 ^ w : Nat)).toNat

/-- Division rounding up. -/
def ceilDiv (a b : Nat) : Nat := (a + b - 1) / b

/-- The bytes of a number, most significant first. -/
def beBytes : Nat → Nat → List Byte
  | 0, _ => []
  | k + 1, n => BitVec.ofNat 8 (n >>> (8 * k)) :: beBytes k n

/-- The bytes of a number, least significant first. -/
def leBytes : Nat → Nat → List Byte
  | 0, _ => []
  | k + 1, n => BitVec.ofNat 8 n :: leBytes k (n >>> 8)

/-- The number that bytes spell, most significant first. -/
def ofBe (bs : List Byte) : Nat := bs.foldl (fun a b => a * 256 + b.toNat) 0

/-- The number that bytes spell, least significant first. -/
def ofLe : List Byte → Nat
  | [] => 0
  | b :: r => b.toNat + 256 * ofLe r

/-- `k` elements from index `i`, missing ones taken as `dflt`. -/
def sliceD {α : Type} (dflt : α) (l : List α) (i : Nat) : Nat → List α
  | 0 => []
  | k + 1 => l.getD i dflt :: sliceD dflt l (i + 1) k

/-! ### Tick numbers -/

/-- Tick numbers are 48 bits and wrap (R7). -/
def tickMod : Nat := 2 ^ 48

/-- A tick number `k` ticks later. -/
def tickAdd (n k : Nat) : Nat := (n + k) % tickMod

/-- `(t - n)` modulo 2^48. -/
def tickSub (t n : Nat) : Nat := (t + tickMod - n % tickMod) % tickMod

/-- A number that orders tick numbers near tick `n` as R7 compares them. -/
def tickKey (n t : Nat) : Nat := tickSub t (tickAdd n (2 ^ 47))

/-- At tick `n` the target `t` is future (R7). -/
def tickFuture (t n : Nat) : Bool := 1 ≤ tickSub t n && tickSub t n ≤ 2 ^ 47 - 1

/-- `t` is at or before `n`, as R7 compares. -/
def tickReached (t n : Nat) : Bool := !tickFuture t n

/-! ### The register file -/

/-- The registers whose cold-reset value is not 0, of the block that holds an address (Table 21.1). -/
def regResetsOf (a : Nat) : List (Nat × Nat × Nat × Nat × Nat) :=
  if a < 0x1000000 then
    if a < 0x600000 then
      if a < 0x100000 then regResetsGlb else if a < 0x200000 then regResetsTck
      else if a < 0x400000 then regResetsCht else regResetsPrs
    else if a < 0x800000 then regResetsAsx else if a < 0xA00000 then regResetsLku
    else if a < 0xC00000 then regResetsCtx else regResetsYrd
  else if a < 0x2300000 then
    if a < 0x1800000 then regResetsQue else if a < 0x1C00000 then regResetsDpt
    else if a < 0x2000000 then regResetsWan else if a < 0x2100000 then regResetsCge
    else if a < 0x2200000 then regResetsFab else regResetsNrg
  else if a < 0x2800000 then
    if a < 0x2400000 then regResetsHst else if a < 0x2600000 then regResetsCxl
    else if a < 0x2700000 then regResetsCvy else regResetsHlm
  else if a < 0x2C00000 then regResetsFlt else if a < 0x3000000 then regResetsSnd
  else if a < 0x3100000 then regResetsFwu else regResetsSxt

/-- The rows of Table 21.2 of the block that holds an address. -/
def regRowsOf (a : Nat) : List RegRow :=
  if a < 0x100000 then regRowsGlb else if a < 0x200000 then regRowsTck else if a < 0x400000 then regRowsCht
  else if a < 0x600000 then regRowsPrs else if a < 0x800000 then regRowsAsx else if a < 0xA00000 then regRowsLku
  else if a < 0xC00000 then regRowsCtx else if a < 0x1000000 then regRowsYrd else if a < 0x1800000 then regRowsQue
  else if a < 0x1C00000 then regRowsDpt else if a < 0x2000000 then regRowsWan else if a < 0x2100000 then regRowsCge
  else if a < 0x2200000 then regRowsFab else if a < 0x2300000 then regRowsNrg else if a < 0x2400000 then regRowsHst
  else if a < 0x2600000 then regRowsCxl else if a < 0x2700000 then regRowsCvy else if a < 0x2800000 then regRowsHlm
  else if a < 0x2C00000 then regRowsFlt else if a < 0x3000000 then regRowsSnd else if a < 0x3100000 then regRowsFwu
  else if a < 0x3200000 then regRowsSxt else []

/-- Whether an address is an instance of a row (base, stride, count, inner). -/
def rowHas (base stride count inner a : Nat) : Bool :=
  base ≤ a && (a - base) / stride < count && (a - base) % stride < 4 * inner

/-- A group that Table 18.1 lists. -/
def groupListed (g : Nat) : Bool := g ≤ 0x28 || (0x30 ≤ g && g ≤ 0x34)

/-- The row of Table 21.2 that lists an address, if one does (R455); a reserved counter group has none (R396). -/
def regRow (a : Nat) : Option RegRow :=
  if 0x2C04000 ≤ a ∧ a < 0x2C08000 ∧ ¬ groupListed ((a - 0x2C04000) / 256) then none
  else (regRowsOf a).find? fun r => rowHas r.base r.stride r.count r.inner a

/-- Whether Table 17.1 lists a source ID (R377). -/
def srcListed (n : Nat) : Bool :=
  (0x010 ≤ n && n ≤ 0x02F) || (0x040 ≤ n && n ≤ 0x0BF) || (0x100 ≤ n && n ≤ 0x182) || n == 0x1C0 || n == 0x1C1 ||
  n == 0x200 || n == 0x210 || (0x220 ≤ n && n ≤ 0x228) || (0x240 ≤ n && n ≤ 0x2A0) || n == 0x2C0 || n == 0x2C1 ||
  (0x300 ≤ n && n ≤ 0x303) || (0x310 ≤ n && n ≤ 0x312) || (0x320 ≤ n && n ≤ 0x323) || n == 0x330 || n == 0x340 ||
  n == 0x341 || (0x350 ≤ n && n ≤ 0x353) || n == 0x360 || n == 0x370 || n == 0x3F0 || n == 0x3F1

/-- The value of the register at an address after a cold reset (R456). FLT_REACTn is 0x411, and 0 for a reserved
source (R387). -/
def regReset (a : Nat) : BitVec 32 :=
  if 0x2804000 ≤ a ∧ a < 0x2808000 then (if srcListed ((a - 0x2804000) / 4) then 0x411#32 else 0#32)
  else match (regResetsOf a).find? fun r => rowHas r.1 r.2.1 r.2.2.1 r.2.2.2.1 a with
    | some r => BitVec.ofNat 32 r.2.2.2.2
    | none => 0#32

/-- The current value of the register at an address. -/
def Dev.reg (d : Dev) (a : Nat) : BitVec 32 := SMap.get (regReset a) d.regs a

/-- The machine with that register set. A value equal to the register's cold-reset value is not listed. -/
def Dev.setReg (d : Dev) (a : Nat) (v : BitVec 32) : Dev := { d with regs := SMap.set (regReset a) d.regs a v }

/-- The current value of a field. -/
def Dev.rd (d : Dev) (f : Field) : Nat := bits (d.reg f.addr).toNat f.low f.width

/-- The machine with a field set; the value is taken modulo the field's width. -/
def Dev.wr (d : Dev) (f : Field) (v : Nat) : Dev :=
  d.setReg f.addr (BitVec.ofNat 32 (setBits (d.reg f.addr).toNat f.low f.width v))

/-- Whether a one-bit field is 1. -/
def Dev.on (d : Dev) (f : Field) : Bool := d.rd f = 1

/-- A counter plus `k`, saturating at its width (R32, R395). -/
def Dev.bump (d : Dev) (f : Field) (k : Nat := 1) : Dev := d.wr f (min (d.rd f + k) (2 ^ f.width - 1))

/-- Set a list of fields, in order. -/
def Dev.wrs (d : Dev) (l : List (Field × Nat)) : Dev := l.foldl (fun d p => d.wr p.1 p.2) d

/-- A 48-bit tick number in a LO and HI pair of fields. -/
def Dev.wrTick (d : Dev) (lo hi : Field) (t : Nat) : Dev := (d.wr lo t).wr hi (t / 2 ^ 32)

/-- The number in a LO and HI pair of fields. -/
def Dev.rdPair (d : Dev) (lo hi : Field) : Nat := d.rd lo + 2 ^ 32 * d.rd hi

/-- The registers an RWT write waits in: the value last written, or the current one (R4, R6). -/
def Dev.regPend (d : Dev) (a : Nat) : BitVec 32 := (SMap.find d.rwt a).getD (d.reg a)

/-- A field as it will read after the next boundary: its RWT write if one waits. -/
def Dev.rdPend (d : Dev) (f : Field) : Nat := bits (d.regPend f.addr).toNat f.low f.width

/-! ### Holds -/

/-- The device is held in warm reset (R356, R445, R447). -/
def Dev.held (d : Dev) : Bool := !d.pwr.brown.isEmpty || !d.pwr.rails.isEmpty || d.pwr.refLost

/-- Every itinerary slot acts as IDLE, nothing is admitted and transmitters are idle (R353, R356, R386). -/
def Dev.halted (d : Dev) : Bool :=
  d.on FLT_STATUS.HALTED || d.flt.pendHalt == 2 || d.on GLB_BOOT_STATUS.BOOT_ERR || d.held

/-! ### Output trace -/

/-- Append to what the device has put on its interfaces. -/
def Dev.emit (d : Dev) (e : Emit) : Dev := { d with out := d.out ++ [e] }

/-! ### Exposure marks -/

/-- Set exposure mask bits of a tick (R22, R23). TCK_EXP_TICK holds the most recent marked tick and its mask. -/
def Dev.mark (d : Dev) (tick bitNo : Nat) : Dev :=
  let m := (SMap.get 0 d.tck.exp tick) ||| 2 ^ bitNo
  let d := { d with tck := { d.tck with exp := SMap.set 0 d.tck.exp tick m } }
  (d.wrTick TCK_EXP_TICK_LO.TICK TCK_EXP_TICK_HI.TICK tick).wr TCK_EXP_TICK_HI.MASK m

/-- The FAULT bit of a tick (R23). -/
def Dev.markFault (d : Dev) (tick : Nat) : Dev := d.mark tick 4

/-! ### The fault collector -/

/-- The three classes (Table 17.4). -/
abbrev corrected : Nat := 1
abbrev contained : Nat := 2
abbrev fatal : Nat := 3

/-- The die of a source (Table 17.1): 0 Atkor, 1 Trelier. -/
def srcDie (n : Nat) : Nat :=
  if (0x200 ≤ n && n ≤ 0x228) || (0x260 ≤ n && n ≤ 0x2A0) || n == 0x2C1 || (0x320 ≤ n && n ≤ 0x330) || n == 0x341 ||
    n == 0x351 || n == 0x353 || n == 0x3F1 then 1 else 0

/-- Table 17.1 names a quarantine for the source. -/
def srcQuar (n : Nat) : Bool := (0x100 ≤ n && n ≤ 0x17F) || (0x300 ≤ n && n ≤ 0x303)

/-- Table 17.1 names a block reset for the source. -/
def srcReset (n : Nat) : Bool :=
  (0x010 ≤ n && n ≤ 0x02F) || (0x100 ≤ n && n ≤ 0x17F) || (0x220 ≤ n && n ≤ 0x227) || (0x240 ≤ n && n ≤ 0x29F) ||
  (0x300 ≤ n && n ≤ 0x303) || n == 0x310 || (0x320 ≤ n && n ≤ 0x322) || n == 0x340 || n == 0x341

/-- The holders that Table 17.1 revokes with a quarantine or block reset of the source. -/
def srcHolders (n : Nat) : List Nat :=
  if 0x220 ≤ n && n ≤ 0x227 then [0x0400 + (n - 0x220)]
  else if n == 0x310 then 0x0001 :: (List.range 0x50).map (0x0300 + ·)
  else if n == 0x340 then [0x0010] else if n == 0x341 then [0x0011] else []

/-- `dep` is a dependent of the primary source `p` (Table 17.1). The pipelines of a twin sequencer pair's quad are those
of R86: pair k < 16 drives the ingress pipelines 4k to 4k + 3, pair 16 + k the egress ones. -/
def srcDependent (p dep : Nat) : Bool :=
  if 0x010 ≤ p && p ≤ 0x02F then
    let k := p - 0x010
    if k < 16 then 0x040 + 4 * k ≤ dep && dep ≤ 0x040 + 4 * k + 3
    else 0x080 + 4 * (k - 16) ≤ dep && dep ≤ 0x080 + 4 * (k - 16) + 3
  else if 0x100 ≤ p && p ≤ 0x17F then 0x040 ≤ dep && dep ≤ 0x0BF
  else if 0x220 ≤ p && p ≤ 0x227 then dep == 0x200 || dep == 0x210 || dep == 0x228
  else if 0x240 ≤ p && p ≤ 0x25F then dep == 0x210
  else if 0x260 ≤ p && p ≤ 0x29F then dep == 0x2A0
  else if 0x300 ≤ p && p ≤ 0x303 then dep == 0x182
  else if p == 0x310 then dep == 0x311
  else if 0x320 ≤ p && p ≤ 0x322 then dep == 0x323 || dep == 0x330
  else if p == 0x340 || p == 0x341 then dep == 0x330 || dep == 0x370
  else if p == 0x352 then srcDie dep == 1
  else if p == 0x353 then srcDie dep == 0
  else false

/-- The reaction code of a source's entry for a class (R387). -/
def Dev.reactCode (d : Dev) (src cls : Nat) : Nat :=
  if cls = corrected then d.rd (FLT_REACT.CORR src) else if cls = contained then d.rd (FLT_REACT.CONT src)
  else d.rd (FLT_REACT.FATAL src)

/-- The first open window whose primary a detection depends on and whose class it does not exceed (R389). -/
def Dev.coveringWindow (d : Dev) (src cls : Nat) : Option QWindow :=
  d.flt.windows.find? fun w => srcDependent w.src src && cls ≤ w.cls

/-- The next sequence number of a half: from 1, never 0 (R381). -/
def nextSeq (s : Nat) : Nat := if (s + 1) % 2 ^ 32 = 0 then 1 else (s + 1) % 2 ^ 32

/-- The class counter of a half. -/
def clsCounter (die cls : Nat) : Field :=
  if die = 0 then (if cls = corrected then FLT_CE_A.COUNT else if cls = contained then FLT_CONT_A.COUNT else FLT_FATAL_A.COUNT)
  else (if cls = corrected then FLT_CE_T.COUNT else if cls = contained then FLT_CONT_T.COUNT else FLT_FATAL_T.COUNT)

/-- The log of a half. -/
def Flt.log (f : Flt) (die : Nat) : SMap FltRec := if die = 0 then f.logA else f.logT

/-- The FATAL store of a half. -/
def Flt.fat (f : Flt) (die : Nat) : List FltRec := if die = 0 then f.fatA else f.fatT

/-- The newest sequence number of a half. -/
def headField (die : Nat) : Field := if die = 0 then FLT_HEAD_A.SEQ else FLT_HEAD_T.SEQ

/-- An uncleared record of a half is overwritten (R382). -/
def Dev.logLost (d : Dev) (die : Nat) : Dev :=
  if die = 0 then (d.bump FLT_LOST_A.COUNT).wr FLT_STATUS.OVF_A 1 else (d.bump FLT_LOST_T.COUNT).wr FLT_STATUS.OVF_T 1

/-- Write a record into its half's log (R381, R382): slot SEQ mod 2,048; an overwritten uncleared record is lost; the
first 16 FATAL records are copied into the FATAL store. -/
def Dev.logRecord (d : Dev) (die : Nat) (r : FltRec) : Dev :=
  let slot := r.seq % 2048
  let d := if ((SMap.find (d.flt.log die) slot).map fun o => !o.cleared).getD false then d.logLost die else d
  let fat := if r.cls = fatal ∧ (d.flt.fat die).length < 16 then d.flt.fat die ++ [r] else d.flt.fat die
  let log := SMap.ins (d.flt.log die) slot r
  let flt := if die = 0 then { d.flt with logA := log, fatA := fat } else { d.flt with logT := log, fatT := fat }
  ({ d with flt := flt }.wr (headField die) r.seq).wr FLT_STATUS.NEW 1

/-- What a reaction code starts, once the record is written (R383, R386): revocation and quarantine in slot cycle v, a
block reset and HALT at the next boundary, a helm release with cause 0x1. -/
def Dev.react (d : Dev) (src code : Nat) : Dev :=
  let hs := (srcHolders src).map fun h => Pend.revoke h false
  let f := d.flt
  if code = 2 then { d with flt := { f with todo := f.todo ++ hs ++ [.quarantine src], recov := f.recov ++ [(src, 2)] } }
  else if code = 3 then
    { d with flt := { f with todo := f.todo ++ hs, recov := f.recov ++ [(src, 3)], pendReset := f.pendReset ++ [src] } }
  else if code = 4 then { d with flt := { f with todo := f.todo ++ [.releaseHelm 1] } }
  else if code = 5 then { d with flt := { f with todo := f.todo ++ [.releaseHelm 1], pendHalt := max 1 f.pendHalt } }
  else d

/-- A QUARANTINE or RESET_BLOCK falls on a block that one of its code or a higher one already has in recovery (R388). -/
def Dev.inRecovery (d : Dev) (src code : Nat) : Bool :=
  (code == 2 || code == 3) && d.flt.recov.any fun p => p.1 == src && decide (code ≤ p.2)

/-- A reaction of 2 or more opens a quench window (R389). -/
def Dev.quenchOpen (d : Dev) (src cls code seq : Nat) : Dev :=
  let t := d.rd FLT_QUENCH.TICKS
  if 2 ≤ code ∧ t ≠ 0 then
    let w : QWindow := { die := srcDie src, seq, src, cls, close := tickAdd d.tck.now (t + 1) }
    { d with flt := { d.flt with windows := d.flt.windows ++ [w] } }
  else d

/-- The ungated core cycle of the tick in progress, from 0: the latest that has passed (R381, R405). -/
def Dev.coreCycle (d : Dev) : Nat := (d.tck.cyc - 1) % 1024

/-- One record of one detection: written, counted and reacted to (R383, R386, R388, R389). `sec` is the window of its
primary when it is a secondary. -/
def Dev.faultRecord (d : Dev) (src cls event detail : Nat) (inj : Bool) : Dev :=
  let die := srcDie src
  let d := d.bump (clsCounter die cls)
  let code := d.reactCode src cls
  let mk (react : Nat) (sec : Bool) (pdie primary seq : Nat) : FltRec :=
    { src, cls, react, sec, inj, cleared := false, pdie, event, seq, tick := d.tck.now, cycle := d.coreCycle,
      detail := detail % 2 ^ 96, primary }
  let seq := nextSeq (d.rd (headField die))
  match d.coveringWindow src cls with
  | some w => (d.bump FLT_SECONDARY.COUNT).logRecord die (mk 0 true w.die w.seq seq)
  | none =>
    if code = 0 ∧ cls ≠ fatal then d
    else if d.inRecovery src code then d.logRecord die (mk 0 false die 0 seq)
    else
      ((d.logRecord die (mk code false die 0 seq)).quenchOpen src cls code seq).react src code

/-- One detection (R383): its record, and the storm record of R379 when the source reaches FLT_CE_LIMIT corrected faults
in the window. -/
def Dev.faultInj (d : Dev) (src cls event detail : Nat) (inj : Bool) : Dev :=
  let d := d.faultRecord src cls event detail inj
  if cls = corrected then
    let n := SMap.get 0 d.flt.ceCount src + 1
    let d := { d with flt := { d.flt with ceCount := SMap.set 0 d.flt.ceCount src n } }
    let lim := d.rd FLT_CE_LIMIT.COUNT
    if lim ≠ 0 ∧ lim ≤ n ∧ ¬ d.flt.stormed.contains src then
      { d with flt := { d.flt with stormed := d.flt.stormed ++ [src] } }.faultRecord src contained 0x09 0 inj
    else d
  else d

/-- One detection that is not injected. -/
def Dev.fault (d : Dev) (src cls event : Nat) (detail : Nat := 0) : Dev := d.faultInj src cls event detail false

/-- A detection that also marks the FAULT bit of the tick in progress (R23). -/
def Dev.faultMark (d : Dev) (src cls event : Nat) (detail : Nat := 0) : Dev :=
  (d.fault src cls event detail).markFault d.tck.now

/-- A record drives FAULT_N (R384). -/
def Dev.drives (d : Dev) (r : FltRec) : Bool :=
  !r.cleared && (r.cls == fatal ||
    (!(bit (d.rd FLT_CTRL.NMASK) (r.cls - 1)) && !d.on (FLT_REACT.MASK r.src)))

/-- Step 3 of the start has failed: no bank gave an image (Table 15.5). A fuse error ends the start in step 1. -/
def Dev.bootFailed (d : Dev) : Bool := d.on GLB_BOOT_STATUS.BOOT_ERR && decide (3 ≤ d.rd GLB_BOOT_STATUS.STEP)

/-- FAULT_N is driven low (R2, R384, Table 15.5). -/
def Dev.faultN (d : Dev) : Bool :=
  d.flt.logA.any (fun p => d.drives p.2) || d.flt.logT.any (fun p => d.drives p.2) ||
  d.flt.fatA.any d.drives || d.flt.fatT.any d.drives || d.flt.strapFault || d.on FLT_STATUS.HALTED || d.bootFailed

/-- Some FATAL record of this device is not cleared (R363, R385). -/
def Dev.fatalHeld (d : Dev) : Bool :=
  d.flt.logA.any (fun p => p.2.cls == fatal && !p.2.cleared) || d.flt.logT.any (fun p => p.2.cls == fatal && !p.2.cleared) ||
  d.flt.fatA.any (fun r => r.cls == fatal && !r.cleared) || d.flt.fatT.any (fun r => r.cls == fatal && !r.cleared)

/-! ### Words in error (R376, R394) -/

/-- An error lies in an entry of a source's store. -/
def EccErr.at_ (e : EccErr) (src : Nat) (st : Store) (i : Nat) : Bool := e.src == src && e.store == st && e.idx == i

/-- The errors of a stored entry, one for each word in error. -/
def Dev.eccOf (d : Dev) (src : Nat) (st : Store) (i : Nat) : List EccErr := d.flt.ecc.filter (·.at_ src st i)

/-- Whether one of the words `lo` to `lo + n - 1` of a stored entry is uncorrectable. -/
def Dev.ueIn (d : Dev) (src : Nat) (st : Store) (i lo n : Nat) : Bool :=
  d.flt.ecc.any fun e => e.at_ src st i && e.dbl && decide (lo ≤ e.word ∧ e.word < lo + n)

/-- How many of those words hold a single-bit error. -/
def Dev.ceIn (d : Dev) (src : Nat) (st : Store) (i lo n : Nat) : Nat :=
  d.flt.ecc.countP fun e => e.at_ src st i && !e.dbl && decide (lo ≤ e.word ∧ e.word < lo + n)

/-- Whether a stored entry holds an uncorrectable word. -/
def Dev.ueAt (d : Dev) (src : Nat) (st : Store) (i : Nat) : Bool := d.flt.ecc.any fun e => e.at_ src st i && e.dbl

/-- Whether a stored entry holds words with a single-bit error and no uncorrectable one. -/
def Dev.ceAt (d : Dev) (src : Nat) (st : Store) (i : Nat) : Bool := d.flt.ecc.any (·.at_ src st i) && !d.ueAt src st i

/-- Whether an injected error is among an entry's (R394). -/
def Dev.injAt (d : Dev) (src : Nat) (st : Store) (i : Nat) : Bool := d.flt.ecc.any fun e => e.at_ src st i && e.inj

/-- A stored entry without its errors: written. -/
def Dev.eccClear (d : Dev) (src : Nat) (st : Store) (i : Nat) : Dev :=
  { d with flt := { d.flt with ecc := d.flt.ecc.filter fun e => !e.at_ src st i } }

/-- The corrected words of a stored entry are rewritten; an uncorrectable one stays. -/
def Dev.eccFix (d : Dev) (src : Nat) (st : Store) (i : Nat) : Dev :=
  { d with flt := { d.flt with ecc := d.flt.ecc.filter fun e => !(e.at_ src st i && !e.dbl) } }

/-- The words `lo` to `lo + n - 1` of a stored entry written: their errors are gone. -/
def Dev.eccClearIn (d : Dev) (src : Nat) (st : Store) (i lo n : Nat) : Dev :=
  { d with flt := { d.flt with ecc := d.flt.ecc.filter fun e => !(e.at_ src st i && decide (lo ≤ e.word ∧ e.word < lo + n)) } }

/-- A fault of a stored entry: INJ is 1 in its record when the error was injected (R394). -/
def Dev.wordFault (d : Dev) (src : Nat) (st : Store) (i by_ cls event : Nat) (detail : Nat := 0) : Dev :=
  d.faultInj by_ cls event detail (d.injAt src st i)

/-- An error joins the list: in a word already in error two bits are in error; the flips of an array row, which has no check bits,
add up. -/
def eccAdd (l : List EccErr) (e : EccErr) : List EccErr :=
  match l.find? fun o => o.at_ e.src e.store e.idx && (o.word == e.word || e.store == .asxArray) with
  | none => l ++ [e]
  | some o =>
    if e.store = .asxArray then
      if o.flip ^^^ e.flip = 0 then l.erase o else l.erase o ++ [{ o with flip := o.flip ^^^ e.flip, dbl := o.dbl || e.dbl }]
    else l.erase o ++ [{ o with dbl := true, inj := o.inj || e.inj }]

/-- A word written by a source's store: an injected error armed for the source (R394) falls on the first word of the entry that is
written (DEDUCED, log entry 94). -/
def Dev.injectInto (d : Dev) (by_ src : Nat) (st : Store) (i : Nat) : Dev :=
  match d.flt.injArm.find? (fun p => p.1 == by_) with
  | some p => { d with flt := { d.flt with
      injArm := d.flt.injArm.erase p,
      ecc := eccAdd d.flt.ecc { src, store := st, idx := i, word := 0, dbl := p.2 == 2, flip := 0, inj := true } } }
  | none => d

/-- An entry written by a source's store: its earlier errors are gone, and an armed injection falls on it. -/
def Dev.wrote (d : Dev) (src : Nat) (st : Store) (i : Nat) : Dev := (d.eccClear src st i).injectInto src src st i

/-- The replica of a pipeline's stage rows is its quad's (R77), named by the quad's lowest pipeline. -/
def quadSrc (src : Nat) : Nat := src / 4 * 4

/-- Where the errors of a source's store are kept. -/
def storeSrc (src : Nat) (st : Store) : Nat := if st = .row then quadSrc src else src

/-- Soft errors that strike stored words. -/
def Dev.strike (d : Dev) (es : List EccErr) : Dev :=
  { d with flt := { d.flt with ecc := es.foldl (fun l e => eccAdd l { e with src := storeSrc e.src e.store }) d.flt.ecc } }

/-! ### Event counters (R396 to R399) -/

/-- A counter of a group plus `k` events: a chained pair counts as one of 64 bits, and a wrap sets its bits (R399). -/
def Dev.countAdd (d : Dev) (g j k : Nat) : Dev :=
  let wrap (d : Dev) (j : Nat) : Dev :=
    let d := (d.wr (SND_G_STATUS.OVF g) (d.rd (SND_G_STATUS.OVF g) ||| 2 ^ j)).wr SND_STATUS.OVF 1
    { d with snd := { d.snd with wrapped := (8 * g + j) :: d.snd.wrapped.filter (· != 8 * g + j) } }
  if j % 2 = 0 ∧ d.on (SND_G_SEL.CHAIN g j) then
    let v := d.rd (SND_G_CNT.COUNT g j) + 2 ^ 32 * d.rd (SND_G_CNT.COUNT g (j + 1)) + k
    let e := (d.wr (SND_G_CNT.COUNT g j) v).wr (SND_G_CNT.COUNT g (j + 1)) (v / 2 ^ 32)
    if 2 ^ 64 ≤ v then wrap e (j + 1) else e
  else
    let v := d.rd (SND_G_CNT.COUNT g j) + k
    let e := d.wr (SND_G_CNT.COUNT g j) v
    if 2 ^ 32 ≤ v then wrap e j else e

/-- The selections that are not at reset: group, counter and SEL. -/
def Dev.selections (d : Dev) : List (Nat × Nat × Nat) :=
  d.regs.filterMap fun p =>
    if 0x2C04000 ≤ p.1 ∧ p.1 < 0x2C08000 ∧ p.1 % 256 / 32 = 1 then some ((p.1 - 0x2C04000) / 256, p.1 % 32 / 4, p.2.toNat)
    else none

/-- The odd counter of a chained pair, whose own SEL is ignored (R399). -/
def Dev.chainedHigh (d : Dev) (g j : Nat) : Bool := j % 2 = 1 && d.on (SND_G_SEL.CHAIN g (j - 1))

/-- Whether SUB selects a thing of a group (Table 18.1): `sub` none when the event belongs to no one of them. In a quad `sub` is
the pipeline's place in it. -/
def subSelects (g subField : Nat) (sub : Option Nat) : Bool :=
  match sub with
  | none => true
  | some x =>
    if g < 0x20 then subField % 16 = 0 || bit subField x
    else if g = 0x21 then subField = 0 || subField = x
    else if g = 0x25 ∨ g = 0x28 then subField = x
    else subField = 0xFF || subField = x

/-- `k` events of a group: every counter that selects them in MODE 0 counts (R397). -/
def Dev.evt (d : Dev) (g code : Nat) (sub : Option Nat := none) (k : Nat := 1) : Dev :=
  d.selections.foldl (fun d s =>
    if s.1 = g ∧ bits s.2.2 0 8 = code ∧ bits s.2.2 8 2 = 0 ∧ subSelects g (bits s.2.2 12 8) sub ∧ ¬ d.chainedHigh g s.2.1 then
      d.countAdd g s.2.1 k
    else d) d

/-- `k` events that every group from `lo` to `hi` counts (codes 0x01 to 0x04). -/
def Dev.evtAll (d : Dev) (code k : Nat) (lo : Nat := 0) (hi : Nat := 0x40) : Dev :=
  d.selections.foldl (fun d s =>
    if lo ≤ s.1 ∧ s.1 < hi ∧ bits s.2.2 0 8 = code ∧ bits s.2.2 8 2 = 0 ∧ ¬ d.chainedHigh s.1 s.2.1 then d.countAdd s.1 s.2.1 k else d) d

/-- Events of a pipeline's quad: 0 ingress, 1 egress. -/
def Dev.quadEvt (d : Dev) (dir pipe code : Nat) (k : Nat := 1) : Dev :=
  if k = 0 then d else d.evt (16 * dir + pipe / 4) code (some (pipe % 4)) k

end Sys2Proof.Machine
end

