-- ==== Sys2Proof/Machine/Crc.lean ====
section
/-! DEFINITION. Cyclic codes: CRC-32C (R159), the digests' CRC-64 (R29), and the generic bitwise forms the links use. -/

namespace Sys2Proof.Machine

/-- `k` bits of a reflected CRC. -/
def crcBitsR (poly : Nat) : Nat → Nat → Nat
  | 0, c => c
  | k + 1, c => crcBitsR poly k (if c % 2 = 1 then (c / 2) ^^^ poly else c / 2)

/-- A reflected CRC over bytes, from a register value. -/
def crcR (poly init : Nat) (bs : List Byte) : Nat := bs.foldl (fun c b => crcBitsR poly 8 (c ^^^ b.toNat)) init

/-- CRC-32C: Castagnoli polynomial 0x1EDC6F41 reflected, initial value and final XOR all ones (R159). -/
def crc32c (bs : List Byte) : Nat := crcR 0x82F63B78 0xFFFFFFFF bs ^^^ 0xFFFFFFFF

/-- `k` bits of an unreflected CRC of width `w`. -/
def crcBits (w poly : Nat) : Nat → Nat → Nat
  | 0, c => c
  | k + 1, c => crcBits w poly k (if bit c (w - 1) then (2 * c) % 2 ^ w ^^^ poly else 2 * c)

/-- An unreflected CRC of width `w` (at least 8) over bytes, from a register value. -/
def crcN (w poly init : Nat) (bs : List Byte) : Nat :=
  bs.foldl (fun c b => crcBits w poly 8 (c ^^^ b.toNat * 2 ^ (w - 8))) init

/-- The digests' CRC-64 (R29). -/
def crc64 (bs : List Byte) : Nat :=
  crcN 64 0x42F0E1EBA9EA3693 0xFFFFFFFFFFFFFFFF bs ^^^ 0xFFFFFFFFFFFFFFFF

/-- The Ethernet FCS (IEEE 802.3 CRC-32), whose bytes a MAC appends (R38, R196). -/
def crc32 (bs : List Byte) : Nat := crcR 0xEDB88320 0xFFFFFFFF bs ^^^ 0xFFFFFFFF

end Sys2Proof.Machine
end

