-- ==== Sys2Proof/Machine/Operands.lean ====
section
/-! DEFINITION. The operand forms of the chart instruction set: the manifest and its system fields (R34 to R37), the
fields of a stage row and of an ALU slot (R39 to R47), key profiles and the key they form (R54). -/

namespace Sys2Proof.Machine

/-! ### The manifest -/

/-- `w` bytes of the manifest at offset `o`, big-endian (R35). -/
def mget (m : Manifest) (o w : Nat) : Nat := bits m.toNat (8 * (512 - o - w)) (8 * w)

/-- The manifest with `w` bytes at offset `o` set, big-endian. -/
def mset (m : Manifest) (o w v : Nat) : Manifest := BitVec.ofNat 4096 (setBits m.toNat (8 * (512 - o - w)) (8 * w) v)

/-- The manifest with `w` bytes set, for a value longer than a word: the bytes of `bs` from offset `o`. -/
def msetBytes (m : Manifest) (o : Nat) (bs : List Byte) : Manifest := mset m o bs.length (ofBe bs)

/-- Manifest bytes `o` to `o + n - 1`. -/
def mbytes (m : Manifest) (o n : Nat) : List Byte := beBytes n (mget m o n)

/-- System fields (Table 2.2): offset and size in bytes. -/
abbrev mATICK (m : Manifest) : Nat := mget m 0x1E0 6
abbrev mASRC (m : Manifest) : Nat := mget m 0x1E6 3
abbrev mEPOCH (m : Manifest) : Nat := mget m 0x1E9 1
abbrev mPASS (m : Manifest) : Nat := mget m 0x1EA 1
abbrev mEXC (m : Manifest) : Nat := mget m 0x1EB 1
abbrev mPORT (m : Manifest) : Nat := mget m 0x1EC 2
abbrev mLEN (m : Manifest) : Nat := mget m 0x1EE 2
abbrev mHASH (m : Manifest) : Nat := mget m 0x1F0 4
abbrev mFWD (m : Manifest) : Nat := mget m 0x1F4 4
abbrev mDISP (m : Manifest) : Nat := mget m 0x1F8 1
abbrev mDARG (m : Manifest) : Nat := mget m 0x1F9 2
abbrev mMSESS (m : Manifest) : Nat := mget m 0x1FB 1
abbrev mSPLICE (m : Manifest) : Nat := mget m 0x1FC 4

/-- Set EXC if it is 0x00: no later exception replaces the first (R66). -/
def setExc (m : Manifest) (code : Nat) : Manifest := if mEXC m = 0 then mset m 0x1EB 1 code else m

/-- The pass index PASS[7:6]. -/
def passIdx (m : Manifest) : Nat := bits (mPASS m) 6 2

/-- The smaller of 384 and LEN (R38). -/
def winLen (m : Manifest) : Nat := min 384 (mLEN m)

/-- A header window loaded from the head of a frame, zero beyond (R38). -/
def loadWindow (m : Manifest) (frame : List Byte) : Manifest :=
  msetBytes m 0 (sliceD 0#8 (frame.take 384) 0 384)

/-! ### Stage rows -/

/-- The fields of a stage row (Table 2.4). -/
def rowEclass (r : BitVec 256) : Nat := bits r.toNat 252 4
def rowFlags (r : BitVec 256) : Nat := bits r.toNat 248 4
def rowNxt (r : BitVec 256) : Nat := bits r.toNat 216 32
def rowLkp (r : BitVec 256) : Nat := bits r.toNat 184 32
def rowSlot (r : BitVec 256) (i : Nat) : Nat := bits r.toNat (138 - 46 * i) 46
def rowValid (r : BitVec 256) : Bool := bit (rowFlags r) 3
def rowHitcnt (r : BitVec 256) : Bool := bit (rowFlags r) 1
def rowExcGate (r : BitVec 256) : Bool := bit (rowFlags r) 0

/-- An ALU slot's fields (Table 2.6). -/
structure AluSlot where
  opc : Nat
  w : Nat
  dst : Nat
  a : Nat
  b : Nat
  aux : Nat
  deriving DecidableEq, Repr

/-- The fields of a 46-bit slot. -/
def aluSlot (n : Nat) : AluSlot :=
  { opc := bits n 40 6, w := bits n 38 2, dst := bits n 29 9, a := bits n 20 9, b := bits n 11 9, aux := bits n 0 11 }

/-- The operand width in bytes (Table 2.7). -/
def AluSlot.bytes (s : AluSlot) : Nat := 2 ^ s.w

/-- The 20-bit immediate (R44). -/
def AluSlot.imm20 (s : AluSlot) : Nat := s.b * 2 ^ 11 + s.aux

/-- The sign-extended immediate, truncated to W bytes (R47). -/
def AluSlot.immS (s : AluSlot) : Nat := ofInt (8 * s.bytes) (sInt 20 s.imm20)

/-- The position and length of a bit field (R50). -/
def AluSlot.pos (s : AluSlot) : Nat := bits s.aux 5 6
def AluSlot.len (s : AluSlot) : Nat := bits s.aux 0 5 + 1

/-- Which fields an opcode uses (Table 2.8): DST, SRCA, SRCB, AUX. An immediate form uses SRCB and AUX. -/
structure OpcUse where
  dst : Bool
  a : Bool
  b : Bool
  aux : Bool
  weight : Nat
  deriving DecidableEq, Repr

/-- Table 2.8: the fields an opcode uses and its energy weight; none for a reserved opcode. -/
def opcUse (opc : Nat) : Option OpcUse :=
  if opc = 0x00 then some ⟨false, false, false, false, 0⟩
  else if opc = 0x01 then some ⟨true, true, false, false, 1⟩
  else if opc = 0x02 ∨ opc = 0x03 then some ⟨true, false, true, true, 1⟩
  else if opc = 0x04 then some ⟨true, false, false, true, 1⟩
  else if 0x08 ≤ opc ∧ opc ≤ 0x0B then some ⟨true, true, true, false, 1⟩
  else if opc = 0x0C then some ⟨true, true, false, false, 1⟩
  else if 0x0D ≤ opc ∧ opc ≤ 0x0F then some ⟨true, true, true, true, 1⟩
  else if opc = 0x10 ∨ opc = 0x11 then some ⟨true, true, true, false, 2⟩
  else if opc = 0x12 ∨ opc = 0x13 then some ⟨true, true, true, true, 2⟩
  else if 0x14 ≤ opc ∧ opc ≤ 0x1A then some ⟨true, true, true, false, 2⟩
  else if opc = 0x1B ∨ opc = 0x1C then some ⟨true, true, false, true, 2⟩
  else if 0x20 ≤ opc ∧ opc ≤ 0x23 then some ⟨true, true, true, false, 2⟩
  else if opc = 0x24 ∨ opc = 0x25 then some ⟨true, true, true, true, 2⟩
  else if opc = 0x26 then some ⟨true, true, true, true, 2⟩
  else if opc = 0x28 then some ⟨true, true, false, true, 2⟩
  else if opc = 0x29 ∨ opc = 0x2A then some ⟨true, true, true, true, 2⟩
  else if opc = 0x2B then some ⟨true, true, false, false, 2⟩
  else if opc = 0x38 then some ⟨false, false, false, true, 1⟩
  else none

/-- The opcodes whose SRCB and AUX form imm20 (R47). -/
def opcImm (opc : Nat) : Bool :=
  opc == 0x02 || opc == 0x03 || (0x0D ≤ opc && opc ≤ 0x0F) || opc == 0x12 || opc == 0x13 || opc == 0x24 || opc == 0x25

/-- The manifest operands a slot reads, as offset and size (R42, R57). -/
def AluSlot.reads (s : AluSlot) : List (Nat × Nat) :=
  match opcUse s.opc with
  | none => []
  | some u =>
    (if u.a then [(s.a, s.bytes)] else []) ++
    (if u.b && !opcImm s.opc && s.opc != 0x2A then [(s.b, s.bytes)] else []) ++
    (if s.opc = 0x26 then [(bits s.aux 0 9, 1)] else [])

/-! ### Key profiles -/

/-- Extract `n` of a key profile (Table 2.11): EN, OFF, LEN. -/
def profExtract (p : BitVec 256) (n : Nat) : Bool × Nat × Nat :=
  let x := bits p.toNat (28 * n) 28
  (bit x 27, bits x 18 9, bits x 12 6)

def profValid (p : BitVec 256) : Bool := bit p.toNat 255
def profKlen (p : BitVec 256) : Nat := bits p.toNat 240 8
def profMaskp (p : BitVec 256) : Nat := bits p.toNat 234 6

/-- The enabled extracts of a profile, as offset and size, in order. -/
def profReads (p : BitVec 256) : List (Nat × Nat) :=
  (List.range 8).filterMap fun n => let e := profExtract p n; if e.1 then some (e.2.1, e.2.2) else none

/-- A byte string truncated, or padded at the end with zero bytes, to `n` bytes. -/
def fitBytes (bs : List Byte) (n : Nat) : List Byte := sliceD 0#8 bs 0 n

/-- The key a profile forms from a manifest (R54): the enabled extracts in order, to KLEN bytes. -/
def profKey (p : BitVec 256) (m : Manifest) : List Byte :=
  fitBytes ((profReads p).flatMap fun e => mbytes m e.1 e.2) (profKlen p)

end Sys2Proof.Machine
end

