-- ==== Sys2Proof/Machine/Chart.lean ====
section
/-! DEFINITION. The chart instruction set (chapter 2) and its sequencing rules (chapter 3) as functions of a bank and a
manifest: ALU slots, next-row choice, one stage row (R42 to R51, R60 to R62, R76, R88 to R90), splices (R63 to R65), and
the checks a load makes (R74, R96). -/

namespace Sys2Proof.Machine

/-! ### Bank contents -/

/-- A bank's cost entry of an energy class in 1/64 EU (R69, Table 2.16a). -/
def ChartBank.cost (b : ChartBank) (cls : Nat) : Nat := (SMap.find b.costs cls).getD (32 + 8 * cls)

def ChartBank.const (b : ChartBank) (i : Nat) : BitVec 64 := SMap.get 0 b.consts i
def ChartBank.prof (b : ChartBank) (i : Nat) : BitVec 256 := SMap.get 0 b.profs i
def ChartBank.rowI (b : ChartBank) (stage row : Nat) : BitVec 256 := SMap.get 0 b.rowsI (512 * stage + row)
def ChartBank.rowE (b : ChartBank) (stage row : Nat) : BitVec 256 := SMap.get 0 b.rowsE (512 * stage + row)
def ChartBank.entry (b : ChartBank) (dir pipe variant slot : Nat) : Nat :=
  (SMap.get 0 b.itin (((64 * dir + pipe) * 4 + variant) * 512 + slot)).toNat
def ChartBank.mirror (b : ChartBank) (i : Nat) : Nat := (SMap.get 0 b.mirrors i).toNat

/-- Descriptor fields (Table 3.13). -/
def ChartBank.entryArrive (b : ChartBank) : Nat := bits b.desc.toNat 0 9
def ChartBank.entryInj (b : ChartBank) : Nat := bits b.desc.toNat 16 9
def ChartBank.entryProbe (b : ChartBank) : Nat := bits b.desc.toNat 32 9
def ChartBank.entryEgress (b : ChartBank) : Nat := bits b.desc.toNat 48 9
def ChartBank.chartId (b : ChartBank) : Nat := bits b.desc.toNat 64 32
def ChartBank.epoch (b : ChartBank) : Nat := bits b.desc.toNat 96 8
def ChartBank.valid (b : ChartBank) : Bool := bit b.desc.toNat 127

def Cht.bank (c : Cht) (n : Nat) : ChartBank := if n = 0 then c.bank0 else c.bank1
def Cht.setBank (c : Cht) (n : Nat) (b : ChartBank) : Cht := if n = 0 then { c with bank0 := b } else { c with bank1 := b }

/-- The active bank's number and the bank (R77). -/
def Dev.activeNo (d : Dev) : Nat := d.rd CHT_STATUS.ACTIVE
def Dev.active (d : Dev) : ChartBank := d.cht.bank d.activeNo
def Dev.shadow (d : Dev) : ChartBank := d.cht.bank (1 - d.activeNo)
def Dev.setShadow (d : Dev) (b : ChartBank) : Dev := { d with cht := d.cht.setBank (1 - d.activeNo) b }

/-! ### ALU slots -/

/-- The number of 1 bits among the low `k` bits. -/
def popcount : Nat → Nat → Nat
  | 0, _ => 0
  | k + 1, n => n % 2 + popcount k (n / 2)

/-- The value an ALU slot writes to DST, before reduction to W bytes (Table 2.8, R49 to R51); none for NOP and SETX. -/
def aluValue (const : Nat → BitVec 64) (m : Manifest) (s : AluSlot) : Option Nat :=
  let w := s.bytes
  let top := 2 ^ (8 * w)
  let a := mget m s.a w
  let b := mget m s.b w
  let i := s.imm20
  match s.opc with
  | 0x01 => some a
  | 0x02 => some i
  | 0x03 => some s.immS
  | 0x04 => some ((const s.aux).toNat)
  | 0x08 => some (a &&& b)
  | 0x09 => some (a ||| b)
  | 0x0A => some (a ^^^ b)
  | 0x0B => some (a &&& (top - 1 - b))
  | 0x0C => some (top - 1 - a)
  | 0x0D => some (a &&& i)
  | 0x0E => some (a ||| i)
  | 0x0F => some (a ^^^ i)
  | 0x10 => some (a + b)
  | 0x11 => some (a + top - b)
  | 0x12 => some (a + s.immS)
  | 0x13 => some (a - i)
  | 0x14 => some (min (a + b) (top - 1))
  | 0x15 => some (a - b)
  | 0x16 => some (min a b)
  | 0x17 => some (max a b)
  | 0x18 => some ((a + b) % top + (a + b) / top)
  | 0x19 => some (if 8 * w ≤ bits b 0 6 then 0 else a <<< bits b 0 6)
  | 0x1A => some (if 8 * w ≤ bits b 0 6 then 0 else a >>> bits b 0 6)
  | 0x1B => some (a <<< bits s.aux 0 6)
  | 0x1C => some (a >>> bits s.aux 0 6)
  | 0x20 => some (b2n (a == b))
  | 0x21 => some (b2n (a != b))
  | 0x22 => some (b2n (a < b))
  | 0x23 => some (b2n (a ≤ b))
  | 0x24 => some (b2n (a == i))
  | 0x25 => some (b2n (a < i))
  | 0x26 => some (if mget m (bits s.aux 0 9) 1 ≠ 0 then a else b)
  | 0x28 => some (bits a s.pos s.len)
  | 0x29 => some (setBits a s.pos s.len b)
  | 0x2A => some (setBits a s.pos s.len s.b)
  | 0x2B => some (popcount (8 * w) a)
  | _ => none

/-- The manifest after one slot's write; sources come from the snapshot `m0`, writes land in `m` (R42). SETX writes EXC
when it is 0x00 (R66). -/
def aluWrite (const : Nat → BitVec 64) (m0 m : Manifest) (s : AluSlot) : Manifest :=
  if s.opc = 0x38 then setExc m (bits s.aux 0 8)
  else match aluValue const m0 s with
    | some v => mset m s.dst s.bytes v
    | none => m

/-! ### Lookups as a row issues them -/

/-- A lookup a row issues (R52, R54): the engine, the key of the profile, and where the result goes. -/
structure LkReq where
  eng : Nat
  /-- The profile is VALID (R55). -/
  ok : Bool
  klen : Nat
  maskp : Nat
  key : List Byte
  tbl : Nat
  opt : Nat
  rdst : Nat
  /-- Result words: 1, 2 or 4. -/
  words : Nat
  deriving DecidableEq, Repr

/-- Latency in stages (Table 2.10). -/
def lkLatency (eng : Nat) : Nat := [0, 6, 10, 8, 4, 6, 2, 0].getD eng 0

/-- The request of an LKP field at a manifest snapshot; none when ENG is 0. -/
def lkRequest (b : ChartBank) (m : Manifest) (lkp : Nat) : Option LkReq :=
  let eng := bits lkp 29 3
  if eng = 0 then none
  else
    let p := b.prof (bits lkp 22 7)
    some { eng, ok := profValid p, klen := profKlen p, maskp := profMaskp p, key := profKey p m, tbl := bits lkp 8 8,
           opt := bits lkp 4 4, rdst := bits lkp 18 4, words := 2 ^ bits lkp 16 2 }

/-! ### Next-row choice -/

/-- The first valid entry of a match table, lowest index first, that matches a key (R90). -/
def matchRow (b : ChartBank) (mtab key : Nat) : Nat → Nat → Option Nat
  | _, 0 => none
  | i, k + 1 =>
    let e := (SMap.get 0 b.mtch (16 * mtab + i)).toNat
    if bit e 63 ∧ key &&& bits e 0 16 = bits e 16 16 then some (bits e 32 9) else matchRow b mtab key (i + 1) k

/-- What NXT chooses (Table 2.12, R89): the next row, or an EXIT with its fields. -/
inductive Next where
  | row (r : Nat)
  | exit (disp : Nat) (mirror : Bool) (arg msess : Nat)
  deriving DecidableEq, Repr

/-- The choice of NXT `n` of row `cur`, from the snapshot. -/
def nxtChoice (b : ChartBank) (m : Manifest) (cur n : Nat) : Next :=
  match bits n 29 3 with
  | 0 => .row (bits n 0 9)
  | 1 => .row ((bits n 0 9 + (mget m (bits n 9 9) 1 &&& bits n 18 8)) % 512)
  | 2 => .row ((matchRow b (bits n 9 8) (mget m (bits n 17 9) 2) 0 16).getD (bits n 0 9))
  | 3 => .row cur
  | _ => .exit (bits n 0 3) (bit n 3) (bits n 4 9) (bits n 13 8)

/-- The manifest bytes NXT reads (R57). -/
def nxtReads (n : Nat) : List (Nat × Nat) :=
  match bits n 29 3 with
  | 1 => [(bits n 9 9, 1)]
  | 2 => [(bits n 17 9, 2)]
  | _ => []

/-- An EXIT written into DISP, DARG and MSESS (R61). -/
def writeExit (m : Manifest) (disp : Nat) (mirror : Bool) (arg msess : Nat) : Manifest :=
  mset (mset (mset m 0x1F8 1 (disp * 32 + b2n mirror * 16)) 0x1F9 2 arg) 0x1FB 1 msess

/-! ### One stage row -/

/-- Whether an operand of `w` bytes at `o` touches one of the pending scratch words (R57). -/
def touches (pend : List Nat) (r : Nat × Nat) : Bool :=
  pend.any fun n => r.1 < 0x180 + 8 * n + 8 && 0x180 + 8 * n < r.1 + r.2

/-- What executing a row does to a packet: the manifest after the ALU writes and EXIT, the lookup issued, the choice, the
class charged, whether ROW_HIT counts, and how many reads touched a pending word. -/
structure RowOut where
  m : Manifest
  lk : Option LkReq
  next : Next
  eclass : Nat
  hit : Bool
  early : Nat
  deriving DecidableEq, Repr

/-- An empty or unreadable row (R76): four NOPs, no lookup, EXIT DROP with a reason, and an exception code. DESIGN CHOICE (log entry 64): of an
unreadable row, whose ECLASS cannot be read, class 0 is charged. -/
def badRow (m : Manifest) (reason exc : Nat) : RowOut :=
  { m := writeExit (setExc m exc) 1 false reason 0, lk := none, next := .exit 1 false reason 0, eclass := 0, hit := false,
    early := 0 }

/-- A row executed at a manifest snapshot (R41, R42, R57, R61, R76). `pend` names the scratch words whose results have
not landed. -/
def execRow (b : ChartBank) (row : BitVec 256) (cur : Nat) (m : Manifest) (pend : List Nat) : RowOut :=
  if !rowValid row then badRow m 0x01 0x80
  else
    let gated := rowExcGate row && mEXC m != 0
    let slots := (List.range 4).map fun i => aluSlot (rowSlot row i)
    let lk := if gated then none else lkRequest b m (rowLkp row)
    let nx := nxtChoice b m cur (rowNxt row)
    let rds := (if gated then [] else slots.flatMap AluSlot.reads) ++ nxtReads (rowNxt row) ++
      (if gated ∨ bits (rowLkp row) 29 3 = 0 then [] else profReads (b.prof (bits (rowLkp row) 22 7)))
    let early := (rds.filter (touches pend)).length
    let m1 := if gated then m else slots.foldl (aluWrite b.const m) m
    let m2 := if early = 0 then m1 else mset m1 0x1EA 1 (mPASS m1 ||| 8)
    let m3 := match nx with
      | .row _ => m2
      | .exit dp mi a ms => writeExit m2 dp mi a ms
    { m := m3, lk, next := nx, eclass := rowEclass row, hit := rowHitcnt row, early }

/-! ### Splice -/

/-- The fields of SPLICE (Table 2.14). -/
def spCut (s : Nat) : Nat := bits s 23 9
def spDel (s : Nat) : Nat := bits s 17 6
def spOff (s : Nat) : Nat := bits s 10 7
def spLen (s : Nat) : Nat := bits s 4 6

/-- The checks of R65. -/
def spliceOk (m : Manifest) : Bool :=
  let s := mSPLICE m
  spCut s + spDel s ≤ winLen m && spOff s + spLen s ≤ 96

/-- The frame a manifest emits (R63): window bytes before CUT, the inserted scratch bytes, the window after CUT + DEL up
to H, and the stored frame from H. -/
def spliceFrame (m : Manifest) (frame : List Byte) : List Byte :=
  let s := mSPLICE m
  let h := winLen m
  mbytes m 0 (spCut s) ++ mbytes m (0x180 + spOff s) (spLen s) ++
    mbytes m (spCut s + spDel s) (h - (spCut s + spDel s)) ++ frame.drop h

/-! ### The loader's checks -/

/-- A result of a check: none when it passes, else the code and the ESLOT. -/
abbrev Chk := Option (Nat × Nat)

/-- The first failing check of a list of (fails, code) pairs, with the ESLOT of their part. -/
def firstFail (eslot : Nat) : List (Bool × Nat) → Chk
  | [] => none
  | (bad, code) :: r => if bad then some (code, eslot) else firstFail eslot r

/-- NXT checks (R60, R62, R74). -/
def checkNxt (n : Nat) (egress last : Bool) : Chk :=
  let mode := bits n 29 3
  let disp := bits n 0 3
  let arg := bits n 4 9
  let mbz := if mode = 0 then bits n 9 20 else if mode = 1 then bits n 26 3 else if mode = 2 then bits n 26 3
    else if mode = 3 then bits n 0 29 else bits n 21 8
  let badExit := mode = 4 ∧ (5 ≤ disp ∨ (disp = 0 ∧ arg ≠ 0) ∨ (disp = 1 ∧ (arg < 0x40 ∨ 0xFF < arg)) ∨
    (disp = 2 ∧ 63 < arg) ∨ (disp = 4 ∧ egress) ∨ (¬ bit n 3 ∧ bits n 13 8 ≠ 0))
  firstFail 4 [(5 ≤ mode, 0x0C), (mbz ≠ 0, 0x04), (badExit ∨ (mode = 2 ∧ 0x1FE < bits n 17 9), 0x0C),
    (last && mode != 4, 0x0D)]

/-- Whether an engine allows a result of that many words (Table 2.10). -/
def rlenOk (eng words : Nat) : Bool :=
  if eng = 1 ∨ eng = 3 ∨ eng = 7 then words = 1 || words = 2
  else if eng = 4 then words = 1 || words = 2 || words = 4 else words = 1

/-- Whether an engine allows an option (Table 2.10). -/
def optOk (eng opt : Nat) : Bool :=
  if eng = 5 then opt < 4 else if eng = 6 then opt < 2 else opt = 0

/-- LKP checks (R52, R53, R58, R74). DESIGN CHOICE (log entry 93): a 1 in OPT[3:2] of CTX or HASH, which Table 2.10 wants 0, is an option
the engine does not have, 0x0E. -/
def checkLkp (l : Nat) (egress : Bool) (stage : Nat) : Chk :=
  let eng := bits l 29 3
  let words := 2 ^ bits l 16 2
  let s := if egress then 32 else 48
  firstFail 5 [(bits l 0 4 ≠ 0 ∨ (eng = 0 ∧ bits l 0 29 ≠ 0), 0x04), (eng = 7 ∧ egress, 0x10),
    (eng ≠ 0 ∧ (12 ≤ bits l 18 4 ∨ 12 < bits l 18 4 + words ∨ ¬ rlenOk eng words ∨ ¬ optOk eng (bits l 4 4)), 0x0E),
    (eng ≠ 0 ∧ eng ≠ 7 ∧ s < stage + lkLatency eng, 0x0F)]

/-- Whether every byte of an operand may be written by an ALU slot (R36, R46). -/
def writable (o w : Nat) : Bool :=
  (List.range w).all fun i => let b := o + i; b < 0x1E0 || (0x1F0 ≤ b && b ≤ 0x1F7) || 0x1FC ≤ b

/-- ALU slot checks (R46 to R50, R74). -/
def checkSlot (i n : Nat) : Chk :=
  let s := aluSlot n
  let w := s.bytes
  match opcUse s.opc with
  | none => some (0x05, i)
  | some u =>
    let isF := s.opc = 0x28 ∨ s.opc = 0x29 ∨ s.opc = 0x2A
    let zext := s.opc = 0x02 ∨ (0x0D ≤ s.opc ∧ s.opc ≤ 0x0F) ∨ s.opc = 0x13 ∨ s.opc = 0x24 ∨ s.opc = 0x25
    firstFail i [
      ((s.opc = 0x00 ∧ s.w ≠ 0) ∨ (s.opc = 0x18 ∧ s.w ≠ 1) ∨ (s.opc = 0x38 ∧ s.w ≠ 0), 0x06),
      ((¬ u.dst ∧ s.dst ≠ 0) ∨ (¬ u.a ∧ s.a ≠ 0) ∨ (¬ u.b ∧ s.b ≠ 0) ∨ (¬ u.aux ∧ s.aux ≠ 0), 0x09),
      (((s.opc = 0x1B ∨ s.opc = 0x1C) ∧ bits s.aux 6 5 ≠ 0) ∨ (s.opc = 0x26 ∧ bits s.aux 9 2 ≠ 0) ∨
        (s.opc = 0x38 ∧ bits s.aux 8 3 ≠ 0), 0x04),
      ((u.dst ∧ 512 < s.dst + w) ∨ (u.a ∧ 512 < s.a + w) ∨
        (u.b ∧ ¬ opcImm s.opc ∧ s.opc ≠ 0x2A ∧ 512 < s.b + w), 0x07),
      (u.dst && !writable s.dst w, 0x08),
      ((zext ∧ s.w < 2 ∧ 2 ^ (8 * w) ≤ s.imm20) ∨ ((s.opc = 0x1B ∨ s.opc = 0x1C) ∧ 8 * w ≤ bits s.aux 0 6) ∨
        (s.opc = 0x38 ∧ bits s.aux 0 8 < 0xC0), 0x0A),
      (isF ∧ (8 * w < s.pos + s.len ∨ (s.opc = 0x2A ∧ 9 < s.len)), 0x0B)]

/-- A row's least energy class (R68). -/
def minClass (row : BitVec 256) : Nat :=
  ((List.range 4).map fun i => ((opcUse (aluSlot (rowSlot row i)).opc).map OpcUse.weight).getD 0).sum +
    b2n (bits (rowNxt row) 29 3 == 2)

/-- A row's checks in the order of R74; none when it is accepted. -/
def checkRow (row : BitVec 256) (egress : Bool) (stage : Nat) : Chk :=
  if !rowValid row then (if row = 0#256 then none else some (0x04, 6))
  else
    let last := stage = (if egress then 31 else 47)
    (firstFail 6 [(bit (rowFlags row) 2, 0x04)]).or
    ((checkNxt (rowNxt row) egress last).or
    ((checkLkp (rowLkp row) egress stage).or
    ((checkSlot 0 (rowSlot row 0)).or ((checkSlot 1 (rowSlot row 1)).or ((checkSlot 2 (rowSlot row 2)).or
    ((checkSlot 3 (rowSlot row 3)).or (firstFail 6 [(rowEclass row < minClass row, 0x11)])))))))

/-- A key profile's checks (R54, R74). -/
def checkProf (p : BitVec 256) : Chk :=
  if !profValid p then (if p = 0#256 then none else some (0x04, 7))
  else
    let ex := (List.range 8).map fun n => bits p.toNat (28 * n) 28
    let rsv := bits p.toNat 248 7 ≠ 0 ∨ bits p.toNat 224 10 ≠ 0 ∨
      ex.any (fun x => if bit x 27 then bits x 0 12 ≠ 0 else x ≠ 0)
    firstFail 7 [(rsv, 0x04),
      (profKlen p = 0 ∨ 40 < profKlen p ∨
        ex.any (fun x => bit x 27 && (bits x 12 6 = 0 || 40 < bits x 12 6 || 512 < bits x 18 9 + bits x 12 6)), 0x12)]

/-- Must-be-zero bits of the match table or mirror entries in a 256-bit load (Tables 3.8 and 3.14, R96). -/
def quadsMbz (data : BitVec 256) (lo n : Nat) : Bool :=
  (List.range 4).any fun i => bits (bits data.toNat (64 * i) 64) lo n ≠ 0

/-- Whether a match entry has a key bit where its mask is 0 (Table 3.8). -/
def matchKeyBad (e : Nat) : Bool := bits e 16 16 &&& (0xFFFF - bits e 0 16) ≠ 0

/-- The fields of CHT_LD_ADDR (Table 2.18). -/
def ldStage (a : BitVec 32) : Nat := bits a.toNat 0 6
def ldIndex (a : BitVec 32) : Nat := bits a.toNat 8 11
def ldTgt (a : BitVec 32) : Nat := bits a.toNat 24 4

/-- Target and address checks (R73, R96, Table 2.20). -/
def checkTarget (a : BitVec 32) : Chk :=
  let t := ldTgt a
  let st := ldStage a
  let ix := ldIndex a
  if 8 ≤ t then some (0x02, 7)
  else
    let bad := if t = 0 then 48 ≤ st ∨ 512 ≤ ix else if t = 1 then 32 ≤ st ∨ 512 ≤ ix else if t = 2 then st ≠ 0
      else if t = 3 then st ≠ 0 ∨ 128 ≤ ix else if t = 4 then st ≠ 0 ∨ 16 ≤ ix else if t = 5 then 256 ≤ ix
      else if t = 6 then st ≠ 0 ∨ 1024 ≤ ix else st ≠ 0 ∨ 65 ≤ ix
    if bad then some (0x03, 7) else none

/-- The mask of the descriptor's fields (Table 3.13). -/
def descMask : Nat :=
  0x1FF ||| 0x1FF <<< 16 ||| 0x1FF <<< 32 ||| 0x1FF <<< 48 ||| 0xFFFFFFFF <<< 64 ||| 0xFF <<< 96 ||| 1 <<< 127

/-- The checks on the data of a GO command whose address is good (R74, R96). -/
def checkData (a : BitVec 32) (data : BitVec 256) : Chk :=
  let t := ldTgt a
  let n := data.toNat
  if t = 0 then checkRow data false (ldStage a)
  else if t = 1 then checkRow data true (ldStage a)
  else if t = 2 then (if n < 2 ^ 64 then none else some (0x04, 7))
  else if t = 3 then checkProf data
  else if t = 4 then (if n < 2 ^ 16 then none else some (0x04, 7))
  else if t = 5 then
    -- Table 3.4: the entries for slots 504 to 511 are 0x0000.
    (if bits (ldIndex a) 0 5 = 31 ∧ bits n 128 128 ≠ 0 then some (0x04, 7) else none)
  else if t = 6 then
    (if quadsMbz data 41 22 ∨ (List.range 4).any (fun i => matchKeyBad (bits n (64 * i) 64)) then some (0x04, 7) else none)
  else if ldIndex a = 0 then (if n &&& descMask = n then none else some (0x04, 7))
  else (if quadsMbz data 26 37 then some (0x04, 7) else none)

/-- Write a block of sixteen itinerary entries (Table 3.12). -/
def writeItin (m : SMap (BitVec 16)) (base : Nat) (n : Nat) : SMap (BitVec 16) :=
  (List.range 16).foldl (fun m j => SMap.set 0 m (base + j) (BitVec.ofNat 16 (bits n (16 * j) 16))) m

/-- Write four 64-bit entries (Table 3.12). -/
def write4 (m : SMap (BitVec 64)) (base n : Nat) : SMap (BitVec 64) :=
  (List.range 4).foldl (fun m j => SMap.set 0 m (base + j) (BitVec.ofNat 64 (bits n (64 * j) 64))) m

/-- The key of the first itinerary entry a load of target 0x5 addresses (Table 3.12). -/
def itinBase (a : BitVec 32) : Nat :=
  ((64 * bits (ldIndex a) 7 1 + ldStage a) * 4 + bits (ldIndex a) 5 2) * 512 + 16 * bits (ldIndex a) 0 5

/-- The bank with an accepted load written (R72, Tables 2.19 and 3.12). -/
def loadEntry (b : ChartBank) (a : BitVec 32) (data : BitVec 256) : ChartBank :=
  let n := data.toNat
  let ix := ldIndex a
  match ldTgt a with
  | 0 => { b with rowsI := SMap.set 0 b.rowsI (512 * ldStage a + ix) data }
  | 1 => { b with rowsE := SMap.set 0 b.rowsE (512 * ldStage a + ix) data }
  | 2 => { b with consts := SMap.set 0 b.consts ix (BitVec.ofNat 64 n) }
  | 3 => { b with profs := SMap.set 0 b.profs ix data }
  | 4 => { b with costs := SMap.set (32 + 8 * ix) b.costs ix (bits n 0 16) }
  | 5 => { b with itin := writeItin b.itin (itinBase a) n }
  | 6 => { b with mtch := write4 b.mtch (4 * ix) n }
  | _ => if ix = 0 then { b with desc := data } else { b with mirrors := write4 b.mirrors (4 * (ix - 1)) n }

/-- The entry a load address names, as CHT_LD_DATA shows it (R75). -/
def readEntry (b : ChartBank) (a : BitVec 32) : BitVec 256 :=
  let ix := ldIndex a
  match ldTgt a with
  | 0 => b.rowI (ldStage a) ix
  | 1 => b.rowE (ldStage a) ix
  | 2 => BitVec.ofNat 256 (b.const ix).toNat
  | 3 => b.prof ix
  | 4 => BitVec.ofNat 256 (b.cost ix)
  | 5 => BitVec.ofNat 256 (((List.range 16).map fun j => (SMap.get 0 b.itin (itinBase a + j)).toNat * 2 ^ (16 * j)).sum)
  | 6 => BitVec.ofNat 256 (((List.range 4).map fun j => (SMap.get 0 b.mtch (4 * ix + j)).toNat * 2 ^ (64 * j)).sum)
  | _ => if ix = 0 then b.desc else
      BitVec.ofNat 256 (((List.range 4).map fun j => (SMap.get 0 b.mirrors (4 * (ix - 1) + j)).toNat * 2 ^ (64 * j)).sum)

end Sys2Proof.Machine
end

