-- ==== Sys2Proof/Machine/Parser.lean ====
section
/-! DEFINITION. The parser (chapter 4): parse states and transitions (R106, R107), the walk (R108 to R111), the parse
record (R113), source entries (R115) and the load checks (R118). -/

namespace Sys2Proof.Machine

/-- The fields of a parse state (Table 4.2). -/
structure PState where
  valid : Bool
  kind : Nat
  xcode : Nat
  htype : Nat
  slot : Nat
  baselen : Nat
  hlfEn : Bool
  hlfOff : Nat
  hlfMask : Nat
  hlfShl : Nat
  hlfAdd : Nat
  selHi : Nat
  selLo : Nat
  tbase : Nat
  tcount : Nat
  dflt : Nat
  clsEn : Bool
  clsBit : Nat
  lchkEn : Bool
  lchkOff : Nat
  lchkAdd : Nat
  lchkZero : Bool
  rsv : Nat
  deriving DecidableEq, Repr

/-- A stored state's fields. -/
def pState (v : BitVec 128) : PState :=
  let n := v.toNat
  { valid := bit n 127, kind := bits n 125 2, xcode := bits n 118 7, htype := bits n 111 7, slot := bits n 107 4,
    baselen := bits n 98 9, hlfEn := bit n 97, hlfOff := bits n 89 8, hlfMask := bits n 81 8, hlfShl := bits n 78 3,
    hlfAdd := bits n 69 9, selHi := bits n 61 8, selLo := bits n 53 8, tbase := bits n 42 11, tcount := bits n 37 5,
    dflt := bits n 29 8, clsEn := bit n 28, clsBit := bits n 23 5, lchkEn := bit n 22, lchkOff := bits n 14 8,
    lchkAdd := bits n 5 9, lchkZero := bit n 4, rsv := bits n 0 4 }

/-- A finished walk and its exception code, 0 for none. -/
abbrev WalkEnd := Walk × Nat

/-- What the parser reads of a frame: the window and LEN. -/
structure PFrame where
  m : Manifest
  len : Nat
  deriving DecidableEq, Repr

/-- A window byte; 0 beyond the frame or the window (R110). -/
def PFrame.byte (f : PFrame) (i : Nat) : Nat := if i < min f.len 384 then mget f.m i 1 else 0

/-- The header length, or the code that stops the parse (R109 step 6). -/
def headerLen (f : PFrame) (s : PState) (o : Nat) : Nat ⊕ Nat :=
  if !s.hlfEn then .inr s.baselen
  else
    let i := o + s.hlfOff
    if f.len ≤ i then .inl 0x03
    else if 384 ≤ i then .inl 0x02
    else
      let h := ((f.byte i &&& s.hlfMask) <<< s.hlfShl) + s.hlfAdd
      if h < s.baselen then .inl 0x05 else .inr h

/-- The outcome of the length check (R111): a code that stops the parse with whether the field was compared, or the new
bound, whether it was compared, and PAD. -/
def lenCheck (f : PFrame) (s : PState) (o hlen bound : Nat) : (Nat × Bool) ⊕ (Nat × Bool × Bool) :=
  if !s.lchkEn then .inr (bound, false, false)
  else
    let i := o + s.lchkOff
    if f.len ≤ i + 1 then .inl (0x03, false)
    else if 384 ≤ i + 1 then .inl (0x02, false)
    else
      let v := f.byte i * 256 + f.byte (i + 1)
      if v = 0 ∧ s.lchkZero then .inr (bound, false, false)
      else
        let e := o + v + s.lchkAdd
        if bound < e ∨ e < o + hlen then .inl (0x04, true) else .inr (e, true, e < f.len)

/-- The first valid transition entry that matches (R107); `ue i` marks an entry whose stored word is uncorrectable. -/
def transit (b : ChartBank) (key : Nat) : Nat → Nat → Option Nat
  | _, 0 => none
  | i, k + 1 =>
    let e := (SMap.get 0 b.trans i).toNat
    if bit e 63 ∧ key &&& bits e 0 16 = bits e 16 16 then some (bits e 32 8) else transit b key (i + 1) k

/-- CLASS with a state's class bit. -/
def setCls (s : PState) (cls : Nat) : Nat := if s.clsEn then cls ||| 2 ^ s.clsBit else cls

/-- One state of the walk (R109): the walk's end, or where the walk stands at the next state. `ueS` and `ueT` say which states and
transition entries hold an uncorrectable word. -/
def walkOne (b : ChartBank) (ueS ueT : Nat → Bool) (f : PFrame) (w : Walk) : WalkEnd ⊕ Walk :=
  let s := pState (SMap.get 0 b.states w.st)
  if ueS w.st then .inl (w, 0x07)
  else if !s.valid then .inl (w, 0x06)
  else if s.kind = 1 then .inl ({ w with cls := setCls s w.cls }, 0x00)
  else if s.kind = 2 then .inl ({ w with cls := setCls s w.cls }, s.xcode)
  else if w.steps = 20 then .inl (w, 0x01)
  else
    let w := { w with steps := w.steps + 1 }
    match headerLen f s w.o with
    | .inl c => .inl (w, c)
    | .inr h =>
      if f.len < w.o + h then .inl (w, 0x03)
      else if w.bound < w.o + h then .inl (w, 0x04)
      else if 384 < w.o + h then .inl (w, 0x02)
      else match lenCheck f s w.o h w.bound with
      | .inl (c, cmp) => .inl ({ w with compared := w.compared || cmp }, c)
      | .inr (bound, cmp, pad) =>
        let key := f.byte (w.o + s.selHi) * 256 + f.byte (w.o + s.selLo)
        let slots := if s.htype ≠ 0 ∧ s.slot < 10 ∧ w.slots.getD s.slot 0 = 0 then
            w.slots.set s.slot (s.htype * 512 + w.o % 512) else w.slots
        let w := { w with bound, compared := w.compared || cmp, pad := w.pad || pad, cls := setCls s w.cls, slots }
        if (List.range s.tcount).any (fun i => ueT (s.tbase + i)) then .inl (w, 0x07)
        else .inr { w with st := (transit b key s.tbase s.tcount).getD s.dflt, o := w.o + h }

/-- Step `j` of the walk (R114): the state it stands at, and the state that step reaches when that one ends the walk, as ACCEPT and REJECT
states do and as every state does once 20 steps are taken (DEDUCED: log entry 63). -/
def walkStep (b : ChartBank) (ueS ueT : Nat → Bool) (f : PFrame) (j : Nat) (w : Walk) : WalkEnd ⊕ Walk :=
  match walkOne b ueS ueT f w with
  | .inl e => .inl e
  | .inr v =>
    let s := pState (SMap.get 0 b.states v.st)
    let ends := !ueS v.st && s.valid && (s.kind == 1 || s.kind == 2)
    if j = 20 || ends then walkOne b ueS ueT f v else .inr v

/-- The START state of a source entry, its ACTION and its QUEUE (Table 4.5). -/
def srcStart (e : BitVec 32) : Nat := bits e.toNat 18 8
def srcAction (e : BitVec 32) : Nat := bits e.toNat 30 2
def srcQueue (e : BitVec 32) : Nat := bits e.toNat 0 18

/-- The source entry's number of a packet, by admission kind and PORT (R108). -/
def srcEntryNo (kind port : Nat) : Nat :=
  if kind = 0 then port else if kind = 1 then (if 0x8000 ≤ port then 258 else 256) else 257

/-- What a walk starts with (R108): the START state of the packet's source entry, offset 0, bound LEN. -/
def walkStart (b : ChartBank) (m : Manifest) : Walk :=
  let e := SMap.get 0 b.srcs (srcEntryNo (bits (mASRC m) 22 2) (mPORT m))
  { st := srcStart e, o := 0, bound := mLEN m, steps := 0, cls := 0, slots := List.replicate 10 0, compared := false, pad := false }

/-- The parse record (R113, Table 4.4) written into scratch words 0 to 3, and EXC when it is 0x00. -/
def parseRecord (m : Manifest) (r : WalkEnd) : Manifest :=
  let w := r.1
  let stopped := r.2 ≠ 0
  let bytes := beBytes 1 w.st ++ beBytes 1 w.steps ++ beBytes 2 (b2n stopped * 2 ^ 15 + b2n w.pad * 2 ^ 14 + w.o % 512) ++
    beBytes 4 w.cls ++ beBytes 2 (if w.compared then w.bound else 0) ++ beBytes 2 0 ++ w.slots.flatMap (beBytes 2)
  let m := msetBytes m 0x180 bytes
  if stopped then setExc m r.2 else m

/-! ### The load window -/

/-- The fields of PRS_LD_ADDR (Table 4.10). -/
def prsIndex (a : BitVec 32) : Nat := bits a.toNat 0 11
def prsTgt (a : BitVec 32) : Nat := bits a.toNat 24 4

/-- Must-be-zero bits of a state (R106). -/
def pstateMbz (v : BitVec 128) : Bool :=
  let n := v.toNat
  let s := pState v
  let common := if s.clsEn then 0 else bits n 23 5
  if s.kind = 3 then bits n 0 4 ≠ 0
  else if s.kind = 0 then
    s.rsv ≠ 0 || s.xcode ≠ 0 || common ≠ 0 ||
    (!s.hlfEn && (s.hlfOff ≠ 0 || s.hlfMask ≠ 0 || s.hlfShl ≠ 0 || s.hlfAdd ≠ 0)) ||
    (!s.lchkEn && (s.lchkOff ≠ 0 || s.lchkAdd ≠ 0 || s.lchkZero))
  else
    -- ACCEPT and REJECT use only VALID, KIND, CLS_EN, CLS_BIT, and XCODE in REJECT.
    bits n 29 89 ≠ 0 || bits n 0 23 ≠ 0 || common ≠ 0 || (s.kind = 1 && s.xcode ≠ 0)

/-- The checks of a PRS load after the target's address, in the order of Table 4.8. -/
def checkPrs (a : BitVec 32) (data : BitVec 128) : Nat :=
  let t := prsTgt a
  let ix := prsIndex a
  let n := data.toNat
  let s := pState data
  let chk : Chk :=
    firstFail 0 [
      (3 ≤ t, 0x02),
      ((t = 0 ∧ 256 ≤ ix) ∨ (t = 2 ∧ 259 ≤ ix) ∨ (t = 1 ∧ 2 ^ 64 ≤ n) ∨ (t = 2 ∧ 2 ^ 32 ≤ n), 0x03),
      ((t = 0 ∧ pstateMbz data) ∨ (t = 1 ∧ bits n 40 23 ≠ 0) ∨
        (t = 2 ∧ (bits n 26 4 ≠ 0 ∨ (bits n 30 2 ≠ 2 ∧ bits n 0 18 ≠ 0))), 0x04),
      (t = 0 ∧ s.kind = 3, 0x05),
      (t = 0 ∧ s.kind = 2 ∧ s.xcode < 0x40, 0x06),
      (t = 0 ∧ s.kind = 0 ∧ 0xA ≤ s.slot ∧ s.slot ≤ 0xE, 0x07),
      (t = 0 ∧ s.kind = 0 ∧ (16 < s.tcount ∨ 2048 < s.tbase + s.tcount), 0x08),
      (t = 1 ∧ bits n 16 16 &&& (0xFFFF - bits n 0 16) ≠ 0, 0x09)]
  (chk.map Prod.fst).getD 0

/-- The bank with an accepted graph load written (R118). -/
def loadGraph (b : ChartBank) (a : BitVec 32) (data : BitVec 128) : ChartBank :=
  let ix := prsIndex a
  if prsTgt a = 0 then { b with states := SMap.set 0 b.states ix data }
  else if prsTgt a = 1 then { b with trans := SMap.set 0 b.trans ix (BitVec.ofNat 64 data.toNat) }
  else { b with srcs := SMap.set 0 b.srcs ix (BitVec.ofNat 32 data.toNat) }

/-- The graph entry a load address names (R118). -/
def readGraph (b : ChartBank) (a : BitVec 32) : Nat :=
  let ix := prsIndex a
  if prsTgt a = 0 then (SMap.get 0 b.states ix).toNat else if prsTgt a = 1 then (SMap.get 0 b.trans ix).toNat
  else (SMap.get 0 b.srcs ix).toNat

end Sys2Proof.Machine
end

