-- ==== Sys2Proof/Machine/Asx.lean ====
section
/-! DEFINITION. The associative search banks (chapter 5): configuration (R125), search (R121 to R128), operations (R129 to
R136), scrubbing, quarantine, failover and return (R137 to R142). -/

namespace Sys2Proof.Machine

/-! ### Geometry -/

/-- Units per entry of a WIDTH (Table 5.1). -/
def asxUnits (width : Nat) : Nat := 2 ^ width

/-- WIDTH and MODE of a bank in force. -/
def Asx.width (x : Asx) (bank : Nat) : Nat := SMap.get 0 x.bankCfg bank % 4
def Asx.mode (x : Asx) (bank : Nat) : Nat := SMap.get 0 x.bankCfg bank / 4

/-- A table's descriptor in force. -/
def Asx.tbl (x : Asx) (t : Nat) : AsxDesc := SMap.get AsxDesc.off x.desc t

/-- Entries per bank and per table (R124). -/
def Asx.perBank (x : Asx) (t : Nat) : Nat := 2048 / asxUnits (x.width (x.tbl t).first)
def Asx.capacity (x : Asx) (t : Nat) : Nat := (x.tbl t).span * x.perBank t

def AsxDesc.copies (ds : AsxDesc) : Nat := 2 ^ ds.copiesLog2

/-- First bank of a copy (R124). -/
def AsxDesc.copyBank (ds : AsxDesc) (c : Nat) : Nat := ds.first + c * ds.span

/-- Every bank a descriptor uses, the spare counted. -/
def AsxDesc.banks (ds : AsxDesc) : List Nat :=
  (List.range (ds.span * ds.copies)).map (ds.first + ·) ++
    (if ds.spareEn then (List.range ds.span).map (ds.spareBank + ·) else [])

def asxKey (t e : Nat) : Nat := t * 2 ^ 18 + e

/-- Entry `e` of table `t`. -/
def Asx.ent (x : Asx) (t e : Nat) : AsxEntry := SMap.get AsxEntry.free x.ents (asxKey t e)

def Asx.setEnt (x : Asx) (t e : Nat) (v : AsxEntry) : Asx :=
  { x with ents := SMap.set AsxEntry.free x.ents (asxKey t e) v }

/-- The table's listed entries, lowest first. -/
def Asx.entsOf (x : Asx) (t : Nat) : List (Nat × AsxEntry) :=
  x.ents.filterMap fun p => if p.1 / 2 ^ 18 = t then some (p.1 % 2 ^ 18, p.2) else none

/-- The table that owns a bank, if a valid one does. -/
def Asx.owner (x : Asx) (bank : Nat) : Option Nat :=
  (x.desc.find? fun p => p.2.valid && p.2.banks.contains bank).map Prod.fst

/-! ### Configuration at a tick boundary (R125) -/

/-- A descriptor as its registers read. -/
def asxDescOf (a b : BitVec 32) : AsxDesc :=
  let a := a.toNat
  let b := b.toNat
  { valid := bit a 0, dir := bits a 1 1, stage := bits a 2 6, first := bits a 8 7, span := bits a 16 8,
    copiesLog2 := bits a 24 3, live := bit a 27, pipeBase := bits b 0 6, spareEn := bit b 6, spareBank := bits b 8 7 }

/-- The code of a descriptor's first failing check (R125, Table 5.8); 0 when it passes. -/
def Asx.checkDesc (x : Asx) (n : Nat) (ds : AsxDesc) : Nat :=
  let bs := ds.banks
  if ds.span = 0 ∨ 6 ≤ ds.copiesLog2 then 0x08
  else if bs.any (128 ≤ ·) then 0x01
  else if 64 < ds.pipeBase + 2 * ds.copies then 0x02
  else if (if ds.dir = 0 then 42 else 26) < ds.stage then 0x03
  else if bs.any (fun b => SMap.get 0 x.bankCfg b != SMap.get 0 x.bankCfg ds.first) then 0x04
  else if x.desc.any (fun p => p.1 != n && p.2.valid && bs.any p.2.banks.contains) then 0x05
  else 0

/-- Record the first failure of a tick. -/
def Dev.asxCfgErr (d : Dev) (seen : Bool) (tbl : Nat) (isBank : Bool) (bank code : Nat) : Dev :=
  let d := d.wr ASX_STATUS.CFG_ERR 1
  if seen then d
  else d.wrs [(ASX_CFG_ERR.TBL, tbl), (ASX_CFG_ERR.IS_BANK, b2n isBank), (ASX_CFG_ERR.BANK, bank), (ASX_CFG_ERR.CODE, code)]

/-- An operation's end: DONE and CODE, and ERR when it failed (R130). -/
def Dev.asxDone (d : Dev) (code : Nat) : Dev :=
  let d := (d.wr ASX_OP_STATUS.DONE 1).wr ASX_OP_STATUS.CODE code
  if code = 0 then d else d.wr ASX_OP_STATUS.ERR 1

/-- BUSY and PENDING follow the queue (R130). -/
def Dev.asxCount (d : Dev) : Dev :=
  let n := d.asx.queue.length + (if d.asx.run.isSome then 1 else 0)
  (d.wr ASX_OP_STATUS.PENDING n).wr ASX_OP_STATUS.BUSY (b2n (n ≠ 0))

/-- ASX_STATUS.QUAR and SPARE_ACTIVE follow the banks and tables. -/
def Dev.asxStatus (d : Dev) : Dev :=
  (d.wr ASX_STATUS.QUAR (b2n ((List.range 128).any fun b => d.on (ASX_BANK.QUAR b)))).wr ASX_STATUS.SPARE_ACTIVE
    (b2n ((List.range 64).any fun t => d.on (ASX_TBL_B.SPARE_USED t)))

/-- Every entry of a bank is cleared (R125): what was wrong with its words is gone, but for the array of a quarantined bank, which is not
written. -/
def Dev.asxBankClear (d : Dev) (bank : Nat) : Dev :=
  let src := 0x100 + bank
  let mine (e : EccErr) : Bool := e.src == src && (e.store == .asxShadow || e.store == .asxData ||
    (e.store == .asxArray && !(d.on (ASX_BANK.QUAR bank) && !d.asx.returning.contains bank)))
  let flt := { d.flt with ecc := d.flt.ecc.filter fun e => !mine e }
  let asx := { d.asx with unverified := d.asx.unverified.filter fun k => k % 2 ^ 18 / 2048 != bank,
                          fixed := d.asx.fixed.filter fun k => k / 2048 != bank }
  ({ d with flt, asx }.injectInto src src .asxShadow 0).wr (ASX_BANK.SHADOW_UE bank) 0

/-- Step 1: a descriptor whose VALID goes to 0 is released, and its running operation stops with 0x08 (R125, R136). -/
def Dev.asxRelease (d : Dev) (n : Nat) : Dev :=
  let ds := d.asx.tbl n
  if ds.valid ∧ d.rd (ASX_TBL_A.VALID n) = 0 then
    let d := { d with asx := { d.asx with
      desc := SMap.set AsxDesc.off d.asx.desc n AsxDesc.off,
      ents := d.asx.ents.filter fun p => p.1 / 2 ^ 18 != n } }
    let d := ((d.wr (ASX_TBL_B.SPARE_USED n) 0).wr (ASX_TBL_B.SPARE_COPY n) 0).asxStatus
    match d.asx.run with
    | some r => if r.op.tbl = n ∧ r.op.op ≠ 4 then ({ d with asx := { d.asx with run := none } }.asxDone 0x08).asxCount else d
    | none => d
  else d

/-- Step 2: a bank's WIDTH and MODE. -/
def Dev.asxBankApply (d : Dev) (seen : Bool) (n : Nat) : Dev × Bool :=
  let w := d.rd (ASX_BANK.WIDTH n)
  let m := d.rd (ASX_BANK.MODE n)
  if SMap.get 0 d.asx.bankCfg n = w + 4 * m then (d, seen)
  else if w = 3 ∨ m = 3 then (d.asxCfgErr seen 0 true n 0x08, true)
  else if (d.asx.owner n).isSome then (d.asxCfgErr seen 0 true n 0x07, true)
  else
    let e := { d with asx := { d.asx with bankCfg := SMap.set 0 d.asx.bankCfg n (w + 4 * m) } }
    (if d.asx.width n = w then e else e.asxBankClear n, seen)

/-- Step 3: a descriptor that becomes valid or changes LIVE. -/
def Dev.asxDescApply (d : Dev) (seen : Bool) (n : Nat) : Dev × Bool :=
  let ds := asxDescOf (d.reg (ASX_TBL_A.addr n)) (d.reg (ASX_TBL_B.addr n))
  let cur := d.asx.tbl n
  if !ds.valid then (d, seen)
  else if cur.valid then
    if { ds with live := cur.live } = cur then
      ({ d with asx := { d.asx with desc := SMap.set AsxDesc.off d.asx.desc n ds } }, seen)
    else (d.asxCfgErr seen n false 0 0x06, true)
  else
    let code := d.asx.checkDesc n ds
    if code ≠ 0 then (d.asxCfgErr seen n false 0 code, true)
    else
      let e := { d with asx := { d.asx with desc := SMap.set AsxDesc.off d.asx.desc n ds,
                                            ents := d.asx.ents.filter fun p => p.1 / 2 ^ 18 != n } }
      (ds.banks.foldl Dev.asxBankClear e, seen)

/-- The three steps of R125, for the tables and banks whose registers took an RWT write at this boundary. -/
def Dev.asxApply (d : Dev) (addrs : List Nat) : Dev :=
  let ts := (List.range 64).filter fun n => addrs.contains (ASX_TBL_A.addr n) || addrs.contains (ASX_TBL_B.addr n)
  let bs := (List.range 128).filter fun n => addrs.contains (ASX_BANK.addr n)
  let d := ts.foldl Dev.asxRelease d
  let r := bs.foldl (fun (p : Dev × Bool) n => p.1.asxBankApply p.2 n) (d, false)
  (ts.foldl (fun (p : Dev × Bool) n => p.1.asxDescApply p.2 n) r).1

/-! ### Search -/

/-- The 16 bytes of a result as a number: the status byte and 15 data bytes (R128). -/
def tcamResult (status data : Nat) : Nat := status * 2 ^ 120 + data

/-- A bank of a copy is quarantined. -/
def Dev.asxQuarIn (d : Dev) (first span : Nat) : Bool := (List.range span).any fun i => d.on (ASX_BANK.QUAR (first + i))

/-- The flips of an entry's rows in a bank, as 320-bit value and mask differences. -/
def Dev.asxFlip (d : Dev) (bank j w : Nat) : Nat × Nat :=
  (List.range w).foldl (fun (p : Nat × Nat) u =>
    let f := (d.eccOf (0x100 + bank) .asxArray (w * j + u)).foldl (fun n e => n ^^^ e.flip) 0
    (p.1 + bits f 80 80 * 2 ^ (80 * (3 - u)), p.2 + bits f 0 80 * 2 ^ (80 * (3 - u)))) (0, 0)

/-- Whether an entry matches a key under a global mask, in 320-bit numbers whose bytes at or beyond 10w are zero (R121). -/
def asxMatch (key value mask g : Nat) : Bool := (key ^^^ value) &&& mask &&& g = 0

/-- The better of two matching entries (R123): (entry number, rank). Higher rank wins, then the lower entry. -/
def asxBetter (a b : Nat × Nat × AsxEntry) : Nat × Nat × AsxEntry :=
  if a.2.1 < b.2.1 ∨ (a.2.1 = b.2.1 ∧ b.1 < a.1) then b else a

/-- The winner among the valid entries of a table as one copy's banks hold them (R121 to R123). -/
def Dev.asxWinner (d : Dev) (t copyFirst : Nat) (key g : Nat) : Option (Nat × AsxEntry) :=
  let x := d.asx
  let w := asxUnits (x.width copyFirst)
  let per := 2048 / w
  let mode := x.mode copyFirst
  let hits := (x.entsOf t).filterMap fun p =>
    let f := d.asxFlip (copyFirst + p.1 / per) (p.1 % per) w
    let v := p.2.value.toNat ^^^ f.1
    let k := p.2.mask.toNat ^^^ f.2
    if p.2.valid ∧ asxMatch key v k g then
      let rank := if mode = 1 then p.2.prio else if mode = 2 then popcount 320 (k &&& g) else 0
      some (p.1, rank, p.2)
    else none
  match hits with
  | [] => none
  | h :: r => let b := r.foldl asxBetter h; some (b.1, b.2.2)

/-- A TCAM search (R126 to R128, R140, R141): the 16-byte result, the copy that answers (none when unserved), and the machine
with its counters and faults. -/
def Dev.tcamSearch (d : Dev) (dir pipe stage : Nat) (q : LkReq) : Nat × Option Nat × Dev :=
  let ds := d.asx.tbl q.tbl
  if q.tbl ≥ 64 ∨ !ds.valid ∨ !ds.live ∨ ds.dir ≠ dir ∨ ds.stage ≠ stage ∨ pipe < ds.pipeBase ∨
      ds.pipeBase + 2 * ds.copies ≤ pipe then
    (tcamResult 0x20 0, none, d.bump ASX_UNSERVED.COUNT)
  else
    let c := (pipe - ds.pipeBase) / 2
    let spare := d.on (ASX_TBL_B.SPARE_USED q.tbl) && d.rd (ASX_TBL_B.SPARE_COPY q.tbl) = c
    let first := if spare then ds.spareBank else ds.copyBank c
    let st := if spare then 0x10 else 0
    if d.asxQuarIn first ds.span then (tcamResult 0x40 0, some c, d.bump ASX_ERR_RESULT.COUNT)
    else
      let w := asxUnits (d.asx.width first)
      let per := 2048 / w
      -- R54: where Table 2.10 fixes the length, the KLEN bytes are fitted to 10w bytes.
      let key := ofBe (fitBytes (fitBytes q.key (10 * w)) 40)
      let g := (SMap.get (BitVec.allOnes 320) d.asx.profs q.maskp).toNat / 2 ^ (320 - 80 * w) * 2 ^ (320 - 80 * w)
      if !q.ok then (tcamResult st 0, some c, d)
      else match d.asxWinner q.tbl first key g with
        | none => (tcamResult st 0, some c, d)
        | some (e, ent) =>
          let bank := first + e / per
          let row := w * (e % per)
          if d.ueAt (0x100 + bank) .asxData row then
            (tcamResult 0x40 0, some c, ((d.wordFault (0x100 + bank) .asxData row (0x100 + bank) contained 0x02
              (bank * 2 ^ 89 + row * 2 ^ 78)).markFault d.tck.now).bump ASX_ERR_RESULT.COUNT)
          else if d.ceAt (0x100 + bank) .asxData row then
            (tcamResult (0x80 + st) ent.data.toNat, some c, d.wordFault (0x100 + bank) .asxData row (0x100 + bank) corrected 0x01)
          else (tcamResult (0x80 + st) ent.data.toNat, some c, d)

/-! ### Operations -/

/-- Value or mask bytes 0 to 39 from ten data registers (Table 5.6). -/
def Dev.asxData40 (d : Dev) (i : Nat) : Nat :=
  (List.range 10).foldl (fun a k => a * 2 ^ 32 + d.rd (ASX_OP_DATA.DATA (i + k))) 0

/-- The operation that the data registers spell (Tables 5.5 and 5.6). -/
def Dev.asxOpOf (d : Dev) (holder : Nat) : AsxOp :=
  let d20 := d.rd (ASX_OP_DATA.DATA 20)
  let data := bits (d.rd (ASX_OP_DATA.DATA 21)) 0 24 * 2 ^ 96 + d.rd (ASX_OP_DATA.DATA 22) * 2 ^ 64 +
    d.rd (ASX_OP_DATA.DATA 23) * 2 ^ 32 + d.rd (ASX_OP_DATA.DATA 24)
  { holder, op := d.rd ASX_OP_ADDR.OP, tbl := d.rd ASX_OP_ADDR.TBL, entry := d.rd ASX_OP_ADDR.ENTRY,
    ent := { valid := bit d20 31, prio := bits d20 0 8, value := BitVec.ofNat 320 (d.asxData40 0),
             mask := BitVec.ofNat 320 (d.asxData40 10), data := BitVec.ofNat 120 data },
    prof := BitVec.ofNat 320 (d.asxData40 0) }

/-- Whether a holder is revoked (R391). -/
def Dev.isRevoked (d : Dev) (h : Nat) : Bool := d.flt.revoked.any fun p => p.1 == h

/-- The code of a GO's first failing check (R129, R135); 0 when it is queued. -/
def Dev.asxGoCheck (d : Dev) (o : AsxOp) : Nat :=
  let rsv := bits (d.rd (ASX_OP_DATA.DATA 20)) 8 23 ≠ 0 ∨ bits (d.rd (ASX_OP_DATA.DATA 21)) 24 8 ≠ 0
  if d.isRevoked o.holder then 0x07
  else if 64 ≤ d.rd ASX_OP_STATUS.PENDING then 0x01
  else if o.op = 0 ∨ 6 ≤ o.op then 0x02
  else if o.op = 4 ∧ (64 ≤ o.entry ∨ o.tbl ≠ 0) then 0x04
  else if (o.op = 1 ∨ o.op = 3) ∧ (rsv ∨ (o.op = 3 ∧ !o.ent.valid) ∨ o.ent.value.toNat &&& o.ent.mask.toNat ≠ o.ent.value.toNat)
    then 0x05
  else 0

/-- A refusal at GO time: ERR and CODE, the queue unchanged (R129). -/
def Dev.asxRefuse (d : Dev) (code : Nat) : Dev := (d.wr ASX_OP_STATUS.ERR 1).wr ASX_OP_STATUS.CODE code

/-- A write of ASX_OP_CMD.GO by a holder (R129). -/
def Dev.asxGo (d : Dev) (holder : Nat) : Dev :=
  let o := d.asxOpOf holder
  let code := d.asxGoCheck o
  if code ≠ 0 then d.asxRefuse code
  else { d with asx := { d.asx with queue := d.asx.queue ++ [o] } }.asxCount

/-- The address and data registers as a submission writes them (R129). -/
def Dev.asxLoad (d : Dev) (op tbl entry : Nat) (data : List (BitVec 32)) : Dev :=
  (data.zipIdx).foldl (fun d p => if p.2 < 25 then d.setReg (ASX_OP_DATA.addr p.2) p.1 else d)
    (d.wrs [(ASX_OP_ADDR.OP, op), (ASX_OP_ADDR.TBL, tbl), (ASX_OP_ADDR.ENTRY, entry)])

/-- The address and data registers of a submission, then GO (R129). -/
def Dev.asxSubmit (d : Dev) (holder op tbl entry : Nat) (data : List (BitVec 32)) : Dev := (d.asxLoad op tbl entry data).asxGo holder

/-- The moves of an INSERT at `e` (R133); none when no entry is free. -/
def Asx.insertSteps (x : Asx) (t e : Nat) (new : AsxEntry) : Option (List AsxStep) :=
  let cap := x.capacity t
  if !(x.ent t e).valid then some [.write e new]
  else
    let hi := (List.range (cap - e - 1)).find? fun k => !(x.ent t (e + 1 + k)).valid
    let lo := (List.range e).find? fun k => !(x.ent t (e - 1 - k)).valid
    -- hi: k + 1 moves going down; lo: k moves going up.
    match hi, lo with
    | some h, some l =>
      if h + 1 ≤ l then some ((List.range (h + 1)).map (fun k => .copy (e + h - k) (e + h + 1 - k)) ++ [.write e new])
      else some ((List.range l).map (fun k => .copy (e - l + k) (e - l + k - 1)) ++ [.write (e - 1) new])
    | some h, none => some ((List.range (h + 1)).map (fun k => .copy (e + h - k) (e + h + 1 - k)) ++ [.write e new])
    | none, some l => some ((List.range l).map (fun k => .copy (e - l + k) (e - l + k - 1)) ++ [.write (e - 1) new])
    | none, none => none

/-- An entry read from the shadow of the lowest copy that holds it without an uncorrectable error (R130, R133). -/
def Dev.asxShadow (d : Dev) (t e : Nat) (copies : Nat) : Option AsxEntry :=
  let ds := d.asx.tbl t
  let w := asxUnits (d.asx.width ds.first)
  let per := d.asx.perBank t
  let bad (c : Nat) :=
    let src := 0x100 + ds.copyBank c + e / per
    let row := w * (e % per)
    (List.range w).any (fun u => d.ueAt src .asxShadow (row + u)) || d.ueAt src .asxData row
  if (List.range copies).all bad then none else some (d.asx.ent t e)

/-- The data registers of a READ (Table 5.6). -/
def Dev.asxShow (d : Dev) (v : AsxEntry) : Dev :=
  let put (d : Dev) (i n : Nat) : Dev := (List.range 10).foldl (fun d k => d.wr (ASX_OP_DATA.DATA (i + k)) (bits n (32 * (9 - k)) 32)) d
  let d := put (put d 0 v.value.toNat) 10 v.mask.toNat
  let n := v.data.toNat
  d.wrs [(ASX_OP_DATA.DATA 20, b2n v.valid * 2 ^ 31 + v.prio), (ASX_OP_DATA.DATA 21, bits n 96 24),
    (ASX_OP_DATA.DATA 22, bits n 64 32), (ASX_OP_DATA.DATA 23, bits n 32 32), (ASX_OP_DATA.DATA 24, bits n 0 32)]

/-- The operation at the head is checked and started (R130): a READ completes at once, the others present their steps. A RATE of 0 pauses
the queue (R131). -/
def Dev.asxOpStart (d : Dev) : Dev :=
  match d.asx.run, d.asx.queue with
  | none, o :: rest =>
    if d.rd ASX_OP_CTRL.RATE = 0 then d else
    let d := { d with asx := { d.asx with queue := rest } }
    let fail (c : Nat) : Dev := (d.asxDone c).asxCount
    let start (st : List AsxStep) : Dev := { d with asx := { d.asx with run := some { op := o, steps := st, moved := none } } }.asxCount
    if o.op = 4 then start [.maskp o.entry o.prof]
    else
      let ds := d.asx.tbl o.tbl
      let w := asxUnits (d.asx.width ds.first)
      let low := 2 ^ (320 - 80 * w)
      if !ds.valid then fail 0x03
      else if d.asx.capacity o.tbl ≤ o.entry then fail 0x04
      else if (o.op = 1 ∨ o.op = 3) ∧ (o.ent.value.toNat % low ≠ 0 ∨ o.ent.mask.toNat % low ≠ 0) then fail 0x05
      else if o.op = 1 then start [.write o.entry o.ent]
      else if o.op = 2 then start [.write o.entry AsxEntry.free]
      else if o.op = 5 then
        match d.asxShadow o.tbl o.entry 1 with
        | some v => ((d.asxShow v).asxDone 0x00).asxCount
        | none => fail 0x09
      else match d.asx.insertSteps o.tbl o.entry o.ent with
        | some st => start st
        | none => fail 0x06
  | _, _ => d

/-- Rows of an entry written in every copy and the spare: earlier errors of shadow, array and data are gone (R131, R138). -/
def Dev.asxWrote (d : Dev) (t e : Nat) : Dev :=
  let ds := d.asx.tbl t
  let w := asxUnits (d.asx.width ds.first)
  let per := d.asx.perBank t
  let firsts := (List.range ds.copies).map ds.copyBank ++ (if ds.spareEn then [ds.spareBank] else [])
  firsts.foldl (fun d f =>
    let bank := f + e / per
    let row := w * (e % per)
    let d := (List.range w).foldl (fun d u =>
      (if d.on (ASX_BANK.QUAR bank) && !d.asx.returning.contains bank then d
       else d.eccClear (0x100 + bank) .asxArray (row + u)).wrote (0x100 + bank) .asxShadow (row + u)) d
    let d := d.wrote (0x100 + bank) .asxData row
    let un := d.asx.unverified.filter fun k => !(bank * 2048 + row ≤ k % 2 ^ 18 && k % 2 ^ 18 < bank * 2048 + row + w)
    let d := { d with asx := { d.asx with unverified := un } }
    if un.any (fun k => k % 2 ^ 18 / 2048 == bank) then d else d.wr (ASX_BANK.SHADOW_UE bank) 0) d

/-- One step of the running operation applied by a MAINT slot (R131); the operation completes with its last step. -/
def Dev.asxStep (d : Dev) : Dev :=
  match d.asx.run with
  | none => d
  | some r =>
    match r.steps with
    | [] => d
    | s :: rest =>
      let t := r.op.tbl
      let d := { d with asx := { d.asx with stepped := d.asx.stepped + 1 } }.evt 0x20 0x22 (some t)
      let fin (d : Dev) (moved : Option (Nat × Nat)) : Dev :=
        if rest = [] then ({ d with asx := { d.asx with run := none } }.asxDone 0x00).asxCount
        else { d with asx := { d.asx with run := some { r with steps := rest, moved } } }
      match s with
      | .maskp i p => fin { d with asx := { d.asx with profs := SMap.set (BitVec.allOnes 320) d.asx.profs i p } } r.moved
      | .write e v => fin ({ d with asx := d.asx.setEnt t e v }.asxWrote t e) r.moved
      | .copy a b =>
        match d.asxShadow t a (d.asx.tbl t).copies with
        | none => ({ d with asx := { d.asx with run := none } }.asxDone 0x09).asxCount
        | some v => fin ({ d with asx := d.asx.setEnt t b v }.asxWrote t b) (some (a, b))

/-- Whether the running operation presents a step that a MAINT slot may take this tick (R131). -/
def Dev.asxPresents (d : Dev) : Bool :=
  match d.asx.run with
  | some r => r.steps ≠ [] && d.asx.stepped < d.rd ASX_OP_CTRL.RATE
  | none => false

/-- The effect of a holder's revocation on the operations (R135). -/
def Dev.asxRevoke (d : Dev) (h : Nat) : Dev :=
  let mine := d.asx.queue.filter fun o => o.holder == h
  let d := { d with asx := { d.asx with queue := d.asx.queue.filter fun o => o.holder != h } }
  let d := mine.foldl (fun d _ => (d.asxDone 0x07).bump ASX_REVOKED.COUNT) d
  let d := match d.asx.run with
    | some r =>
      if r.op.holder = h then
        let d := ({ d with asx := { d.asx with run := none } }.asxDone 0x07)
        match r.moved with
        | some (a, b) => d.wrs [(ASX_MOVE_STATUS.DUP, a), (ASX_MOVE_STATUS.TBL, r.op.tbl), (ASX_MOVE_STATUS.DIR, b2n (b < a)),
            (ASX_MOVE_STATUS.VALID, 1)]
        | none => d
      else d
    | none => d
  d.asxCount

/-! ### Scrubbing, quarantine, failover, return -/

/-- A result on its way from a copy that contains a bank becomes the error result, if it is not one (R141). -/
def PendLk.fail (bank : Nat) (x : PendLk) : PendLk × Nat :=
  match x.banks with
  | some (first, span) =>
    let err := fitBytes [0x40#8] x.bytes.length
    if first ≤ bank ∧ bank < first + span ∧ x.bytes ≠ err then ({ x with bytes := err }, 1) else (x, 0)
  | none => (x, 0)

/-- A bank is quarantined (R141): the searches of its copy whose results have not landed, those of slot cycles q - 5 to q, return 0x40. -/
def Dev.asxQuarantine (d : Dev) (bank : Nat) : Dev :=
  if d.on (ASX_BANK.QUAR bank) then d
  else
    let n := (d.pipe.passes.map fun p => (p.pend.map fun x => (x.fail bank).2).sum).sum
    let passes := d.pipe.passes.map fun p => { p with pend := p.pend.map fun x => (x.fail bank).1 }
    let d := { d with pipe := { d.pipe with passes }, asx := { d.asx with quarNew := d.asx.quarNew ++ [bank] } }
    ((d.wr (ASX_BANK.QUAR bank) 1).bump ASX_ERR_RESULT.COUNT n).wr ASX_STATUS.QUAR 1

/-- The tick of a row's previous clean check (R138). -/
def Asx.cleanTick (x : Asx) (bank row : Nat) : Nat :=
  (SMap.find x.unclean (bank * 2048 + row)).getD (SMap.get 0 x.scrubTick row)

/-- An array row that differs from a good shadow: rewritten and read back, logged, marked and counted (R138); quarantined when the
read-back fails or the row was rewritten in the sweep before (R141). -/
def Dev.asxScrubArray (d : Dev) (e : EccErr) : Dev :=
  let bank := e.src - 0x100
  let key := bank * 2048 + e.idx
  let again := d.asx.fixed.contains key
  let detail := bank * 2 ^ 89 + e.idx * 2 ^ 78 + d.asx.cleanTick bank e.idx * 2 ^ 30
  let d := ((d.wordFault e.src .asxArray e.idx e.src contained 0x0E detail).markFault d.tck.now).eccClear e.src .asxArray e.idx
  let d := d.bump ASX_SCRUB_FIX.COUNT
  if again ∨ e.dbl then d.asxQuarantine bank
  else { d with asx := { d.asx with fixed := d.asx.fixed ++ [key] } }

/-- A shadow row, or the data of the entry that a row begins, as a bank's scrubber finds it (R138). DESIGN CHOICE (log entry 66): a word
that stays uncorrectable is logged by the check that finds it first, not by each sweep again. -/
def Dev.asxScrubWord (d : Dev) (st : Store) (bank row : Nat) : Dev :=
  let src := 0x100 + bank
  let key := (if st = .asxData then 2 ^ 18 else 0) + bank * 2048 + row
  let ces := (d.eccOf src st row).countP fun e => !e.dbl
  let d := (List.range ces).foldl (fun (d : Dev) _ => (d.wordFault src st row src corrected 0x01).bump ASX_SCRUB_CE.COUNT) d
  let d := if ces = 0 then d else d.eccFix src st row
  if d.ueAt src st row ∧ ¬ d.asx.unverified.contains key then
    let d := (d.wordFault src st row src contained 0x02 (bank * 2 ^ 89 + row * 2 ^ 78)).wrs
      [(ASX_UE_WHERE.BANK, bank), (ASX_UE_WHERE.ROW, row), (ASX_BANK.SHADOW_UE bank, 1)]
    { d with asx := { d.asx with unverified := d.asx.unverified ++ [key] } }
  else d

/-- One bank's check of a row (R138): the shadow and data words, then the array row when its shadow is good; a quarantined bank's array,
which steps do not write, is not checked. -/
def Dev.asxCheckRow (d : Dev) (row bank : Nat) : Dev :=
  let d := (d.asxScrubWord .asxShadow bank row).asxScrubWord .asxData bank row
  if d.ueAt (0x100 + bank) .asxShadow row || d.on (ASX_BANK.QUAR bank) then d
  else match d.eccOf (0x100 + bank) .asxArray row with
    | [] => d
    | e :: _ => d.asxScrubArray e

/-- A slack cycle of the scrubbers: every bank checks the same row of the sweep (R138). -/
def Dev.asxScrub (d : Dev) : Dev :=
  let row := d.asx.scrubRow
  let here (e : EccErr) : Bool := (e.store == .asxArray || e.store == .asxShadow || e.store == .asxData) && e.idx == row
  let banks := (List.range 128).filter fun b => d.flt.ecc.any fun e => here e && e.src == 0x100 + b
  let fixed0 := d.asx.fixed
  let was := banks.map fun b => (b * 2048 + row, d.asx.cleanTick b row)
  let d := banks.foldl (fun (d : Dev) b => d.asxCheckRow row b) d
  let unclean := was.foldl (fun m p => SMap.ins m p.1 p.2) (d.asx.unclean.filter fun p => p.1 % 2048 != row)
  let fixed := d.asx.fixed.filter fun k => k % 2048 != row || !fixed0.contains k
  { d with asx := { d.asx with scrubTick := SMap.set 0 d.asx.scrubTick row d.tck.now, unclean, fixed, scrubRow := (row + 1) % 2048 } }

/-- The copy of a table that contains a bank. -/
def AsxDesc.copyOf (ds : AsxDesc) (bank : Nat) : Option Nat :=
  if ds.first ≤ bank ∧ bank < ds.first + ds.span * ds.copies then some ((bank - ds.first) / ds.span) else none

/-- At the first tick boundary after its quarantine a bank's copy fails over to the table's spare, if the spare is free and whole (R141);
slot 0 has not issued. -/
def Dev.asxFailover (d : Dev) (bank : Nat) : Dev :=
  if d.tck.slot ≠ 0 ∨ ¬ d.asx.quarDue.contains bank then d
  else
    let d := { d with asx := { d.asx with quarDue := d.asx.quarDue.filter (· != bank) } }
    match d.asx.owner bank with
    | none => d
    | some t =>
      let ds := d.asx.tbl t
      match ds.copyOf bank with
      | none => d
      | some c =>
        if d.on (ASX_BANK.QUAR bank) ∧ ds.spareEn ∧ ¬ d.on (ASX_TBL_B.SPARE_USED t) ∧ ¬ d.asxQuarIn ds.spareBank ds.span then
          ((d.wr (ASX_TBL_B.SPARE_USED t) 1).wr (ASX_TBL_B.SPARE_COPY t) c).wr ASX_STATUS.SPARE_ACTIVE 1
        else d

/-- The failovers of a boundary that no command has carried out are made before slot 0 issues (R141). -/
def Dev.asxFailAll (d : Dev) : Dev := if d.tck.slot = 0 then d.asx.quarDue.foldl Dev.asxFailover d else d

/-- A write of ASX_BANKn.RETURN (R142). -/
def Dev.asxBankReturn (d : Dev) (bank : Nat) : Dev :=
  if d.on (ASX_BANK.SHADOW_UE bank) ∨ ¬ d.on (ASX_BANK.QUAR bank) then d.asxCfgErr false 0 true bank 0x09
  else { d with asx := { d.asx with returning := bank :: d.asx.returning.erase bank } }

/-- The end of a bank's reload (R142): every row reads back, and the bank returns at the next boundary; or a read-back failed. -/
def Dev.asxReturnComplete (d : Dev) (bank : Nat) (readBackOk : Bool) : Dev :=
  if d.asx.returning.contains bank then
    if readBackOk then
      let ecc := d.flt.ecc.filter fun (e : EccErr) => !(e.src == 0x100 + bank && e.store == Store.asxArray)
      let asx := { d.asx with returned := bank :: d.asx.returned.erase bank }
      { d with flt := { d.flt with ecc }, asx }
    else
      { d with asx := { d.asx with returning := d.asx.returning.erase bank } }.fault (0x100 + bank) contained 0x0E
  else d

/-- A bank that read back correctly leaves quarantine, and a copy on the spare returns to its own banks, freeing the spare (R142). -/
def Dev.asxReturned (d : Dev) (bank : Nat) : Dev :=
  let asx := { d.asx with returned := d.asx.returned.erase bank, returning := d.asx.returning.erase bank }
  let d := { d with flt := { d.flt with recov := d.flt.recov.filter (·.1 != 0x100 + bank) }, asx }.wr (ASX_BANK.QUAR bank) 0
  let d := match d.asx.owner bank with
    | some t =>
      let ds := d.asx.tbl t
      if ds.copyOf bank = some (d.rd (ASX_TBL_B.SPARE_COPY t)) ∧ d.on (ASX_TBL_B.SPARE_USED t) ∧
          ¬ d.asxQuarIn (ds.copyBank (d.rd (ASX_TBL_B.SPARE_COPY t))) ds.span then
        (d.wr (ASX_TBL_B.SPARE_USED t) 0).wr (ASX_TBL_B.SPARE_COPY t) 0
      else d
    | none => d
  d.asxStatus

/-- What a boundary does to the banks: returns take effect (R142), and the failovers of banks quarantined since the boundary before come
due (R141). -/
def Dev.asxBoundary (d : Dev) : Dev :=
  let d := d.asx.returned.foldl Dev.asxReturned d
  { d with asx := { d.asx with quarDue := d.asx.quarNew, quarNew := [] } }

end Sys2Proof.Machine
end

