-- ==== Sys2Proof/Machine/Cxl.lean ====
section
/-! DEFINITION. The CXL root ports (chapter 14): states (R331), decoders and interleave (R332, R333), regions (R334), reads,
errors and port loss (R335 to R339). -/

namespace Sys2Proof.Machine

/-- The continuous slot-cycle number (R91) of the slot cycle last issued. -/
def Dev.sc (d : Dev) : Nat := 504 * d.tck.now + (d.tck.slot - 1)

/-- TCK_COMMIT names the tick in progress (R20). -/
def Dev.commit (d : Dev) : Dev := d.wrTick TCK_COMMIT_LO.TICK TCK_COMMIT_HI.TICK d.tck.now

/-! ### Decoders -/

/-- The fields of a decoder's three registers (Table 14.4). -/
def decValid (r : BitVec 32 × BitVec 32 × BitVec 32) : Bool := bit r.1.toNat 0
def decWays (r : BitVec 32 × BitVec 32 × BitVec 32) : Nat := 2 ^ bits r.1.toNat 1 2
def decTgt (r : BitVec 32 × BitVec 32 × BitVec 32) (j : Nat) : Nat := bits r.1.toNat (4 + 2 * j) 2
/-- Base and size in bytes. -/
def decBase (r : BitVec 32 × BitVec 32 × BitVec 32) : Nat := bits r.2.1.toNat 0 12 * 2 ^ 30
def decSize (r : BitVec 32 × BitVec 32 × BitVec 32) : Nat := bits r.2.2.toNat 0 13 * 2 ^ 30

/-- The code of a decoder's first failing check; 0 when it passes (R332). -/
def Dev.decCheck (d : Dev) (k : Nat) (r : BitVec 32 × BitVec 32 × BitVec 32) : Nat :=
  let w := decWays r
  let tg := (List.range w).map (decTgt r)
  if w = 8 ∨ ¬ tg.Nodup then 0x01
  else if decSize r = 0 ∨ (decSize r / 2 ^ 30) % w ≠ 0 ∨ 2 ^ 42 < decBase r + decSize r then 0x02
  else if d.cxl.dec.any (fun p => p.1 != k && decValid p.2 && decBase p.2 < decBase r + decSize r &&
      decBase r < decBase p.2 + decSize p.2) then 0x03
  else 0

/-- One decoder at a boundary: refused, or in force; a valid one changes only its VALID bit. DEDUCED (log entry 95): a write that
leaves an invalid decoder invalid is not checked. The flag says that a failure of this tick is already recorded. -/
def Dev.decApply (d : Dev) (seen : Bool) (k : Nat) : Dev × Bool :=
  let r := (d.reg (CXL_DEC_A.addr k), d.reg (CXL_DEC_B.addr k), d.reg (CXL_DEC_C.addr k))
  let cur := SMap.get (0, 0, 0) d.cxl.dec k
  let ok (d : Dev) : Dev × Bool := ({ d with cxl := { d.cxl with dec := SMap.set (0, 0, 0) d.cxl.dec k r } }, seen)
  let no (c : Nat) : Dev × Bool :=
    let d := d.wr CXL_STATUS.CFG_ERR 1
    (if seen then d else (d.wr CXL_CFG_ERR.DEC k).wr CXL_CFG_ERR.CODE c, true)
  if decValid cur then
    if r = cur then (d, seen)
    else if r = (BitVec.ofNat 32 (setBits cur.1.toNat 0 1 0), cur.2) then ok d
    else no 0x04
  else if !decValid r then ok d
  else let c := d.decCheck k r
    if c = 0 then ok d else no c

/-- The decoder writes of a boundary, in ascending k (R332). -/
def Dev.cxlApply (d : Dev) (addrs : List Nat) : Dev :=
  let ks := (List.range 8).filter fun k =>
    addrs.contains (CXL_DEC_A.addr k) || addrs.contains (CXL_DEC_B.addr k) || addrs.contains (CXL_DEC_C.addr k)
  (ks.foldl (fun (p : Dev × Bool) k => p.1.decApply p.2 k) (d, false)).1

/-- The port an address is sent to (R333); none in no valid decoder. -/
def Dev.cxlPort (d : Dev) (a : Nat) : Option Nat :=
  (d.cxl.dec.find? fun p => decValid p.2 && decBase p.2 ≤ a && a < decBase p.2 + decSize p.2).map fun p =>
    decTgt p.2 (((a - decBase p.2) / 4096) % decWays p.2)

/-- Port `n` is UP. -/
def Dev.cxlUp (d : Dev) (n : Nat) : Bool := d.rd (CXL_PORT_ST.STATE n) = 3

/-- Region `k` is valid and holds `len` bytes at `a` (R334). -/
def Dev.cxlIn (d : Dev) (k a len : Nat) : Bool :=
  let b := d.rd (CXL_RGN_A.BASE k)
  let l := d.rd (CXL_RGN_B.LIMIT k)
  b ≤ l && b * 2 ^ 20 ≤ a && a + len ≤ (l + 1) * 2 ^ 20

/-- A read issued at a port. -/
def Dev.cxlIssue (d : Dev) (port addr len : Nat) : Dev :=
  ((d.bump (CXL_PORT_RD.COUNT port)).evt 0x27 0x20 (some port)).emit (.cxlRead port addr len d.tck.now)

/-- The latency a completion shows (R335): the longest, in ns, saturating. -/
def Dev.cxlLat (d : Dev) (port ns : Nat) : Dev :=
  d.wr (CXL_PORT_LAT.NS port) (max (d.rd (CXL_PORT_LAT.NS port)) (min ns 0xFFFF))

/-- A read or a write that ends in poison or an error is counted (R336). -/
def Dev.cxlError (d : Dev) (port : Nat) : Dev := (d.bump (CXL_PORT_ERR.COUNT port)).evt 0x27 0x21 (some port)

/-! ### Port states -/

/-- The state a port will have after the next boundary. -/
def Dev.cxlNext (d : Dev) (n : Nat) : Nat := (SMap.find d.cxl.next n).getD (d.rd (CXL_PORT_ST.STATE n))

/-- A change of state that takes effect at the next boundary (R331). -/
def Dev.cxlGo (d : Dev) (n st : Nat) : Dev := { d with cxl := { d.cxl with next := SMap.ins d.cxl.next n st } }

/-- A write of CXL_PORTn_CTL with RETRAIN 1 (R331, R339). -/
def Dev.cxlRetrain (d : Dev) (n : Nat) (en : Bool) : Dev :=
  let d := d.wr (CXL_PORT_CTL.EN n) (b2n en)
  if en ∧ d.cxlNext n = 0 then
    { d with cxl := { d.cxl with next := SMap.ins d.cxl.next n 1, since := SMap.ins d.cxl.since n d.tck.now } }
  else d

/-- A port is lost (R338); the fault it logs carries an event code. -/
def Dev.cxlLose (d : Dev) (n event : Nat) : Dev :=
  if d.rd (CXL_PORT_ST.STATE n) = 0 ∨ d.cxl.lost.any (fun p => p.1 == n) then d
  else { d with cxl := { d.cxl with lost := d.cxl.lost ++ [(n, event)] } }

/-- Training ends with a link (R331): CONFIG when CXL.mem is negotiated, and a loss when the device is of a kind that
Table 14.1 excludes. -/
def Dev.cxlTrained (d : Dev) (n : Nat) (mem allowed flit : Bool) (speed width : Nat) : Dev :=
  if d.rd (CXL_PORT_ST.STATE n) ≠ 1 then d
  else if !allowed then d.cxlLose n 0x0A
  else if mem then
    (d.wrs [(CXL_PORT_ST.FLIT n, b2n flit), (CXL_PORT_ST.SPEED n, speed), (CXL_PORT_ST.WIDTH n, width)]).cxlGo n 2
  else d

/-- Whole ticks in a time of that many microseconds, a part of a tick counting as one. -/
def usTicks (us : Nat) : Nat := ceilDiv (1000 * us) 384

/-- One second without CXL.mem (R331). -/
def Dev.cxlTrainTimeout (d : Dev) (n : Nat) : Dev :=
  if d.rd (CXL_PORT_ST.STATE n) = 1 ∧ usTicks 1000000 ≤ tickSub d.tck.now (SMap.get d.tck.now d.cxl.since n) then d.cxlGo n 0 else d

/-- A write of CXL_PORTn_CTL.READY (R331). -/
def Dev.cxlReady (d : Dev) (n : Nat) : Dev := if d.rd (CXL_PORT_ST.STATE n) = 2 then d.cxlGo n 3 else d

/-- The ports' changes of state at a boundary, each an RWT commit (R331). -/
def Dev.cxlStates (d : Dev) : Dev :=
  d.cxl.next.foldl (fun (d : Dev) p =>
    let d := if p.2 = 0 then d.wrs [(CXL_PORT_ST.FLIT p.1, 0), (CXL_PORT_ST.SPEED p.1, 0), (CXL_PORT_ST.WIDTH p.1, 0)] else d
    (d.wr (CXL_PORT_ST.STATE p.1) p.2).commit) { d with cxl := { d.cxl with next := [] } }

/-- A completed write (R336). -/
def Dev.cxlWritten (d : Dev) (n : Nat) (err : Bool) : Dev :=
  if err then (d.cxlError n).fault (0x300 + n) contained 0x06 else d

end Sys2Proof.Machine
end

