-- ==== Sys2Proof/Machine/Lku.lean ====
section
/-! DEFINITION. The lookup engines and flow contexts (chapter 6): lookups (R152 to R165), descriptors (R145), write
operations (R149 to R156), maintenance channels (R146, R147), tier-2 walks and the lay-by (R166 to R169), protection (R171). -/

namespace Sys2Proof.Machine

/-- A fresh draw number for a free value. -/
def Dev.draw (d : Dev) : Nat × Dev := (d.free, { d with free := d.free + 1 })

/-! ### Errors in a store (R171) -/

/-- STORE code of LKU_UE_WHERE (Table 6.11). -/
def lkuStore : Store → Nat
  | .lpm => 1 | .exact => 2 | .dir => 3 | .member => 4 | .t2dir => 5 | _ => 0

/-- The fault source of a store of the chapter (Table 17.1). -/
def lkuSrc : Store → Nat
  | .ctx => 0x181 | .layby => 0x182 | _ => 0x180

/-- A word found uncorrectable: recorded, and a CONTAINED fault of its source. Lay-by words have no STORE code. -/
def Dev.lkuUe (d : Dev) (st : Store) (i : Nat) : Dev :=
  match st with
  | .ctx => (d.wr CTX_UE_WHERE.ID i).wordFault 0x181 st i 0x181 contained 0x02 (i * 2 ^ 78)
  | .layby => d.wordFault 0x182 st i 0x182 contained 0x02
  | _ => ((d.wr LKU_UE_WHERE.STORE (lkuStore st)).wr LKU_UE_WHERE.INDEX i).wordFault 0x180 st i 0x180 contained 0x02
    (lkuStore st * 2 ^ 93 + i * 2 ^ 70)

/-- `n` words of an entry corrected: each logged and counted. -/
def Dev.lkuCe (d : Dev) (st : Store) (i n : Nat) : Dev :=
  (List.range n).foldl (fun (d : Dev) _ =>
    let d := d.wordFault (lkuSrc st) st i (lkuSrc st) corrected 0x01
    match st with
    | .ctx => d.bump CTX_SCRUB_CE.COUNT
    | .layby => d
    | _ => d.bump LKU_SCRUB_CE.COUNT) d

/-- A lookup's read of words `lo` to `lo + n - 1` of an entry: whether one is uncorrectable, with its record, and the correction and
rewriting of single-bit errors. -/
def Dev.lkuRead (d : Dev) (st : Store) (i lo n : Nat) : Bool × Dev :=
  let src := lkuSrc st
  let k := d.ceIn src st i lo n
  let e := d.lkuCe st i k
  let e := if k = 0 then e else { e with flt := { e.flt with ecc := e.flt.ecc.filter fun x =>
    !(x.at_ src st i && !x.dbl && decide (lo ≤ x.word ∧ x.word < lo + n)) } }
  if d.ueIn src st i lo n then (true, e.lkuUe st i) else (false, e)

/-- A result of ERR: counted, and the tick marked. -/
def Dev.lkuErr (d : Dev) : Dev := (d.bump LKU_ERR_RESULT.COUNT).markFault d.tck.now

/-! ### Results -/

/-- A status byte and zeros, `8 × words` bytes. -/
def statusOnly (words st : Nat) : List Byte := fitBytes [BitVec.ofNat 8 st] (8 * words)

/-- Bytes with byte 0 replaced by a status, fitted to the result's length. -/
def withStatus (words st : Nat) (bs : List Byte) : List Byte := fitBytes (BitVec.ofNat 8 st :: bs.drop 1) (8 * words)

/-! ### LPM (R151, R152) -/

/-- The key of a prefix in the store. -/
def lpmKey (tbl vrf fam len addr : Nat) : Nat := (((tbl * 2 ^ 16 + vrf) * 2 + fam) * 256 + len) * 2 ^ 128 + addr

/-- Address bits of a family: IPv4 addresses stand in the top 32 of 128 bits. -/
def famBits (fam : Nat) : Nat := if fam = 0 then 32 else 128

/-- The first `len` bits of a 128-bit address, the rest 0. -/
def topBits (addr len : Nat) : Nat := addr / 2 ^ (128 - len) * 2 ^ (128 - len)

/-- The longest prefix of at most `k` bits that covers an address. -/
def lpmFind (s : SMap (BitVec 32)) (tbl vrf fam addr : Nat) : Nat → Option (Nat × BitVec 32)
  | 0 => (SMap.find s (lpmKey tbl vrf fam 0 0)).map fun v => (0, v)
  | k + 1 => match SMap.find s (lpmKey tbl vrf fam (k + 1) (topBits addr (k + 1))) with
    | some v => some (k + 1, v)
    | none => lpmFind s tbl vrf fam addr k

/-- VRF, family and address of an LPM or TIER2 key (R54): none when the length names no family. -/
def lpmParse (key : List Byte) : Option (Nat × Nat × Nat) :=
  let vrf := ofBe (key.take 2)
  if key.length = 6 then some (vrf, 0, ofBe (key.drop 2) * 2 ^ 96)
  else if key.length = 18 then some (vrf, 1, ofBe (key.drop 2)) else none

/-- Weight units in use (R144). -/
def Lku.lpmUsed (l : Lku) : Nat := (l.lpm.map fun p => if bit (p.1 / 2 ^ 136) 0 then 2 else 1).sum

/-- The trie nodes in error that a search visits are read: whether one is uncorrectable; the update unit is to rewrite those (R171). -/
def Dev.lpmRead (d : Dev) : List Nat → Bool × Dev
  | [] => (false, d)
  | i :: rest =>
    let r := d.lkuRead .lpm i 0 8
    let fix := if r.1 && !r.2.lku.lpmFix.contains i then r.2.lku.lpmFix ++ [i] else r.2.lku.lpmFix
    let s := ({ r.2 with lku := { r.2.lku with lpmFix := fix } }).lpmRead rest
    (r.1 || s.1, s.2)

/-- An LPM lookup (R152). -/
def Dev.lpmLookup (d : Dev) (q : LkReq) : List Byte × Dev :=
  if 16 ≤ q.tbl then (statusOnly q.words 0x20, d.bump LKU_UNSERVED.COUNT)
  else match (if q.ok then lpmParse (fitBytes q.key q.klen) else none) with
    | none => (statusOnly q.words 0, d)
    | some (vrf, fam, addr) =>
      let met := (d.flt.ecc.filter fun e => e.src == 0x180 && e.store == .lpm && Config.lpmVisits e.idx q.tbl q.klen (ofBe q.key)).map
        EccErr.idx
      let r := d.lpmRead met.dedup
      let d := r.2
      if r.1 then (statusOnly q.words 0x40, d.lkuErr)
      else match lpmFind d.lku.lpm q.tbl vrf fam addr (famBits fam) with
        | none => (statusOnly q.words 0, d)
        | some (len, v) =>
          (fitBytes ([0x80#8, BitVec.ofNat 8 len, 0#8, 0#8] ++ beBytes 4 (bits v.toNat 0 20 + bits v.toNat 24 8 * 2 ^ 24))
            (8 * q.words), d)

/-! ### EXACT (R153 to R156) -/

def exIndex (w tbl key : Nat) : Nat :=
  crc32c (BitVec.ofNat 8 w :: BitVec.ofNat 8 tbl :: beBytes 16 key) % 2 ^ 19

/-- The slot of a key in way `w` (R153, R154). -/
def exSlot (w tbl key : Nat) : Nat := w * 524288 + exIndex w tbl key

/-- The four slots a key may lie in. -/
def exSlots (tbl key : Nat) : List Nat := (List.range 4).map fun w => exSlot w tbl key

/-- The slots whose stored word names a table's key, uncorrectable slots left out. -/
def Dev.exFind (d : Dev) (tbl : Nat) (key : BitVec 128) : List Nat :=
  (exSlots tbl key.toNat).filter fun s => !d.ueAt 0x180 .exact s &&
    (match SMap.find d.lku.exact s with
     | some e => e.tbl == tbl && e.key == key
     | none => false)

/-- The padded 16-byte key of a profile key under a table's KLEN. -/
def exKey (key : List Byte) (klen : Nat) : BitVec 128 := BitVec.ofNat 128 (ofBe (fitBytes (fitBytes key klen) 16))

/-- Slots read by a probe: whether one is uncorrectable (R153, R171). -/
def Dev.exRead (d : Dev) : List Nat → Bool × Dev
  | [] => (false, d)
  | s :: rest =>
    let r := d.lkuRead .exact s 0 4
    let t := r.2.exRead rest
    (r.1 || t.1, t.2)

/-- An EXACT lookup (R153): all four slots are probed. -/
def Dev.exLookup (d : Dev) (q : LkReq) : List Byte × Dev :=
  match (if 16 ≤ q.tbl then none else SMap.find d.lku.exTbl q.tbl) with
  | none => (statusOnly q.words 0x20, d.bump LKU_UNSERVED.COUNT)
  | some klen =>
    if !q.ok then (statusOnly q.words 0, d)
    else
      let key := exKey q.key klen
      let r := d.exRead (exSlots q.tbl key.toNat)
      match (d.exFind q.tbl key).head?.bind (SMap.find d.lku.exact) with
      | some e => (fitBytes (0x80#8 :: beBytes 15 e.data.toNat) (8 * q.words), r.2)
      | none => if r.1 then (statusOnly q.words 0x40, r.2.lkuErr) else (statusOnly q.words 0, r.2)

/-- The first complete displacement path (R156), breadth first: each path lists its slots from the new key's slot on, the
slot an entry moves into last. -/
def Dev.exPath (d : Dev) : Nat → List (List Nat) → Option (List Nat)
  | 0, _ => none
  | k + 1, paths =>
    let next := paths.flatMap fun p =>
      match p.getLast? with
      | none => []
      | some s =>
        match (if d.ueAt 0x180 .exact s then none else SMap.find d.lku.exact s) with
        | none => []
        | some e => ((exSlots e.tbl e.key.toNat).filter fun t => !p.contains t && !d.ueAt 0x180 .exact t).map fun t => p ++ [t]
    match next.find? (fun p => match p.getLast? with
        | some s => (SMap.find d.lku.exact s).isNone
        | none => false) with
    | some p => some p
    | none => d.exPath k next

/-- The moves of a path, from its far end inward, then the new entry (R156). -/
def Dev.exMoves (d : Dev) (new : ExSlot) (path : List Nat) : List LkuStep :=
  let moves := (path.zip (path.drop 1)).filterMap fun p => (SMap.find d.lku.exact p.1).map fun e => LkuStep.exPut p.2 e
  moves.reverse ++ (match path with
    | [] => []
    | s :: _ => [.exPut s new])

/-- The steps of an EX_INSERT; none when no path exists. -/
def Dev.exInsert (d : Dev) (new : ExSlot) : Option (List LkuStep) :=
  let ss := exSlots new.tbl new.key.toNat
  match ss.find? (fun s => (SMap.find d.lku.exact s).isNone && !d.ueAt 0x180 .exact s) with
  | some s => some [.exPut s new]
  | none => (d.exPath 4 (ss.map fun s => [s])).map (d.exMoves new)

/-! ### DIRECT and ECMP (R157, R158) -/

/-- The fields of a DIRECT descriptor (Table 6.11). -/
def dirKind (t : BitVec 32 × BitVec 32) : Nat := bits t.1.toNat 1 1
def dirEw (t : BitVec 32 × BitVec 32) : Nat := 8 * 2 ^ bits t.1.toNat 2 2
def dirBase (t : BitVec 32 × BitVec 32) : Nat := bits t.1.toNat 5 21
def dirSize (t : BitVec 32 × BitVec 32) : Nat := bits t.2.toNat 0 23

/-- Row and byte offset of entry `i`. -/
def dirPlace (t : BitVec 32 × BitVec 32) (i : Nat) : Nat × Nat :=
  (dirBase t + i * dirEw t / 32, i * dirEw t % 32)

/-- The bytes of an entry. -/
def Lku.dirEntry (l : Lku) (t : BitVec 32 × BitVec 32) (i : Nat) : List Byte :=
  let p := dirPlace t i
  sliceD 0#8 (beBytes 32 (SMap.get 0 l.dir p.1).toNat) p.2 (dirEw t)

/-- An entry of a DIRECT table is read: its words of its row. -/
def Dev.dirRead (d : Dev) (t : BitVec 32 × BitVec 32) (i : Nat) : Bool × Dev :=
  let p := dirPlace t i
  d.lkuRead .dir p.1 (p.2 / 8) (dirEw t / 8)

/-- A DIRECT lookup, plain or ECMP. -/
def Dev.dirLookup (d : Dev) (q : LkReq) : List Byte × Dev :=
  match (if 16 ≤ q.tbl then none else SMap.find d.lku.dirTbl q.tbl) with
  | none => (statusOnly q.words 0x20, d.bump LKU_UNSERVED.COUNT)
  | some t =>
    if !q.ok then (statusOnly q.words 0, d)
    else if dirKind t = 0 then
      let i := ofBe (q.key.take 4)
      if dirSize t ≤ i then (statusOnly q.words 0x01, d)
      else
        let r := d.dirRead t i
        if r.1 then (statusOnly q.words 0x40, r.2.lkuErr)
        else (withStatus q.words 0x80 (r.2.lku.dirEntry t i), r.2)
    else
      let k := ofBe (fitBytes q.key 4)
      let g := k / 2 ^ 16
      if dirSize t ≤ g then (statusOnly q.words 0x01, d)
      else
        let r := d.dirRead t g
        if r.1 then (statusOnly q.words 0x40, r.2.lkuErr)
        else
          let ds := ofBe (r.2.lku.dirEntry t g)
          if !bit ds 63 then (statusOnly q.words 0, r.2)
          else
            let m := bits ds 9 21 + (k % 2 ^ 16 * (bits ds 0 9 + 1)) / 2 ^ 16
            let r := r.2.lkuRead .member m 0 1
            if r.1 then (statusOnly q.words 0x40, r.2.lkuErr)
            else (withStatus q.words 0x80 (beBytes 8 (SMap.get 0 r.2.lku.members m).toNat), r.2)

/-! ### HASH (R159) -/

/-- A symmetric key's two address and port pairs in order: the greater source pair is swapped (R159). -/
def hashOrder (alen : Nat) (key : List Byte) : List Byte :=
  let sa := key.take alen
  let da := (key.drop alen).take alen
  let sp := (key.drop (2 * alen)).take 2
  let dp := (key.drop (2 * alen + 2)).take 2
  if ofBe (da ++ dp) < ofBe (sa ++ sp) then da ++ sa ++ dp ++ sp ++ key.drop (2 * alen + 4) else key

/-- A HASH lookup. -/
def hashLookup (q : LkReq) : List Byte :=
  if !q.ok then statusOnly q.words 0
  else
    let sym := bits q.opt 0 2 = 0
    let known := q.key.length = 13 ∨ q.key.length = 37
    let key := if sym ∧ q.key.length = 13 then hashOrder 4 q.key
      else if sym ∧ q.key.length = 37 then hashOrder 16 q.key else q.key
    fitBytes ([if sym ∧ ¬ known then 0x81#8 else 0x80#8, 0#8, 0#8, 0#8] ++ beBytes 4 (crc32c key)) (8 * q.words)

/-! ### Flow contexts (R161 to R165) -/

/-- `w` bytes of a context at offset `o`, big-endian. -/
def cget (c : BitVec 512) (o w : Nat) : Nat := bits c.toNat (8 * (64 - o - w)) (8 * w)

/-- A context with those bytes set. -/
def cset (c : BitVec 512) (o w v : Nat) : BitVec 512 := BitVec.ofNat 512 (setBits c.toNat (8 * (64 - o - w)) (8 * w) v)

/-- LEN + OVH, or 0 when that is negative (R163). -/
def ctxLen (c : BitVec 512) (len : Nat) : Nat := (len + sInt 8 (cget c 31 1)).toNat

/-- The meter of R163: the colour and the context after it. -/
def ctxMeter (c : BitVec 512) (tick colourIn len : Nat) : Nat × BitVec 512 :=
  let flags := cget c 30 1
  if !bit flags 6 then (0, c)
  else
    let cbs := cget c 8 4 % 2 ^ 24
    let pbs := cget c 12 4 % 2 ^ 24
    let e := min (tickSub tick (cget c 24 6)) (2 ^ 24)
    let tc := min (256 * cbs) (cget c 16 4 + cget c 0 4 * e)
    let tp := min (256 * pbs) (cget c 20 4 + cget c 4 4 * e)
    let need := 256 * len
    let aware := bit flags 5
    let red := (aware ∧ 2 ≤ colourIn) ∨ tp < need
    let yellow := ¬ red ∧ ((aware ∧ colourIn = 1) ∨ tc < need)
    let tp' := if red then tp else tp - need
    let tc' := if red ∨ yellow then tc else tc - need
    (if red then 2 else if yellow then 1 else 0, cset (cset (cset c 24 6 (tick % tickMod)) 16 4 tc') 20 4 tp')

/-- The count of R164. -/
def ctxCount (c : BitVec 512) (len : Nat) (red : Bool) : BitVec 512 :=
  cset (cset (cset c 32 8 (cget c 32 8 + 1)) 40 8 (cget c 40 8 + len)) 48 8 (cget c 48 8 + b2n red)

/-- A CTX lookup (R161 to R165). -/
def Dev.ctxLookup (d : Dev) (m : Manifest) (q : LkReq) : List Byte × Dev :=
  if q.tbl ≠ 0 then (statusOnly q.words 0x20, d.bump LKU_UNSERVED.COUNT)
  else if !q.ok then (statusOnly q.words 0, d)
  else
    let id := ofBe (fitBytes q.key 3) % 2 ^ 18
    let r := d.lkuRead .ctx id 0 8
    if r.1 then (statusOnly q.words 0x40, (r.2.bump CTX_ERR_RESULT.COUNT).markFault d.tck.now)
    else
      let d := r.2
      let c := SMap.get 0 d.lku.ctx id
      if !bit (cget c 30 1) 7 then (statusOnly q.words 0x00, d.bump CTX_INVALID.COUNT)
      else
        let len := ctxLen c (mLEN m)
        let op := bits q.opt 0 2
        let r := if bit op 0 then ctxMeter c d.tck.now (bits (mFWD m) 28 2) len else (0, c)
        let c := if bit op 1 then ctxCount r.2 len (op = 3 && r.1 == 2) else r.2
        let d := { d with lku := { d.lku with ctx := SMap.set 0 d.lku.ctx id c } }
        let d := if bit op 0 then d.evt 0x22 0x20 else d
        let d := if bit op 1 then d.evt 0x22 0x21 else d
        let d := if r.1 = 2 then d.evt 0x22 0x22 else d
        (fitBytes (BitVec.ofNat 8 (0x80 + r.1) :: beBytes 7 (cget c 57 7)) (8 * q.words), if op = 0 then d else d.wrote 0x181 .ctx id)

/-! ### One lookup of a row (R56) -/

/-- A lookup of engines 1 to 6 as a row issues it: the result bytes and, for TCAM, the banks of the copy that answers. -/
def Dev.lookup (d : Dev) (dir pipe stage : Nat) (m : Manifest) (q : LkReq) : List Byte × Option (Nat × Nat) × Dev :=
  match q.eng with
  | 1 =>
    let r := d.tcamSearch dir pipe stage q
    let ds := d.asx.tbl q.tbl
    let banks := r.2.1.map fun c =>
      (if d.on (ASX_TBL_B.SPARE_USED q.tbl) && d.rd (ASX_TBL_B.SPARE_COPY q.tbl) = c then ds.spareBank else ds.copyBank c, ds.span)
    (fitBytes (beBytes 16 r.1) (8 * q.words), banks, r.2.2.evt 0x20 (if r.2.1.isSome then 0x20 else 0x21) (some q.tbl))
  | 2 => let r := d.lpmLookup q; (r.1, none, r.2)
  | 3 => let r := d.exLookup q; (r.1, none, r.2)
  | 4 => let r := d.dirLookup q; (r.1, none, r.2)
  | 5 => let r := d.ctxLookup m q; (r.1, none, r.2)
  | _ => (hashLookup q, none, d)

/-! ### Descriptors at a boundary (R145) -/

/-- Record a refused descriptor. -/
def Dev.lkuCfgErr (d : Dev) (seen : Bool) (tbl kind code : Nat) : Dev × Bool :=
  let d := d.wr LKU_STATUS.CFG_ERR 1
  (if seen then d else d.wrs [(LKU_CFG_ERR.TBL, tbl), (LKU_CFG_ERR.KIND, kind), (LKU_CFG_ERR.CODE, code)], true)

/-- A descriptor differs from the one in force in a field other than VALID. -/
def descMoved (u t : BitVec 32 × BitVec 32) : Bool := u.1 ||| 1#32 != t.1 ||| 1#32 || u.2 != t.2

/-- An EXACT descriptor. In each kind, one that is not valid and would replace none is not checked (DESIGN CHOICE: log entry 67). -/
def Dev.exApply (d : Dev) (seen : Bool) (n : Nat) : Dev × Bool :=
  let klen := d.rd (LKU_EX_TBL.KLEN n)
  let cur := SMap.find d.lku.exTbl n
  if d.rd (LKU_EX_TBL.VALID n) = 0 then
    if cur.any (· != klen) then d.lkuCfgErr seen n 0 0x03
    else ({ d with lku := { d.lku with exTbl := SMap.erase d.lku.exTbl n } }, seen)
  else match cur with
    | some k => if k = klen then (d, seen) else d.lkuCfgErr seen n 0 0x03
    | none => if klen = 0 ∨ 16 < klen then d.lkuCfgErr seen n 0 0x01
      else ({ d with lku := { d.lku with exTbl := SMap.ins d.lku.exTbl n klen } }, seen)

/-- A DIRECT descriptor. -/
def Dev.dirApply (d : Dev) (seen : Bool) (n : Nat) : Dev × Bool :=
  let t := (d.reg (LKU_DIR_TBL_A.addr n), d.reg (LKU_DIR_TBL_B.addr n))
  if !bit t.1.toNat 0 then
    if (SMap.find d.lku.dirTbl n).any (descMoved t) then d.lkuCfgErr seen n 1 0x03
    else ({ d with lku := { d.lku with dirTbl := SMap.erase d.lku.dirTbl n } }, seen)
  else match SMap.find d.lku.dirTbl n with
    | some u => if u = t then (d, seen) else d.lkuCfgErr seen n 1 0x03
    | none =>
      if dirEw t = 64 ∨ (dirKind t = 1 ∧ dirEw t ≠ 8) then d.lkuCfgErr seen n 1 0x01
      else if 1572864 * 32 < dirBase t * 32 + dirSize t * dirEw t then d.lkuCfgErr seen n 1 0x02
      else ({ d with lku := { d.lku with dirTbl := SMap.ins d.lku.dirTbl n t } }, seen)

/-- The fields of a TIER2 descriptor. -/
def t2Fam (t : BitVec 32 × BitVec 32) : Nat := bits t.1.toNat 1 1
def t2Bits (t : BitVec 32 × BitVec 32) : Nat := bits t.1.toNat 2 5
def t2Vrf (t : BitVec 32 × BitVec 32) : Nat := bits t.1.toNat 16 16
def t2Base (t : BitVec 32 × BitVec 32) : Nat := bits t.2.toNat 0 18

/-- A TIER2 descriptor. -/
def Dev.t2Apply (d : Dev) (seen : Bool) (n : Nat) : Dev × Bool :=
  let t := (d.reg (LKU_T2_TBL_A.addr n), d.reg (LKU_T2_TBL_B.addr n))
  if !bit t.1.toNat 0 then
    if (SMap.find d.lku.t2Tbl n).any (descMoved t) then d.lkuCfgErr seen n 2 0x03
    else ({ d with lku := { d.lku with t2Tbl := SMap.erase d.lku.t2Tbl n } }, seen)
  else match SMap.find d.lku.t2Tbl n with
    | some u => if u = t then (d, seen) else d.lkuCfgErr seen n 2 0x03
    | none =>
      if t2Bits t < 8 ∨ 18 < t2Bits t then d.lkuCfgErr seen n 2 0x01
      else if 262144 < t2Base t + 2 ^ t2Bits t then d.lkuCfgErr seen n 2 0x02
      else ({ d with lku := { d.lku with t2Tbl := SMap.ins d.lku.t2Tbl n t } }, seen)

/-- The descriptors whose registers took an RWT write at this boundary, in address order (R145). -/
def Dev.lkuApply (d : Dev) (addrs : List Nat) : Dev :=
  let hit (a : Nat) := addrs.contains a
  let r := ((List.range 16).filter fun n => hit (LKU_EX_TBL.addr n)).foldl
    (fun (p : Dev × Bool) n => p.1.exApply p.2 n) (d, false)
  let r := ((List.range 16).filter fun n => hit (LKU_DIR_TBL_A.addr n) || hit (LKU_DIR_TBL_B.addr n)).foldl
    (fun (p : Dev × Bool) n => p.1.dirApply p.2 n) r
  (((List.range 4).filter fun n => hit (LKU_T2_TBL_A.addr n) || hit (LKU_T2_TBL_B.addr n)).foldl
    (fun (p : Dev × Bool) n => p.1.t2Apply p.2 n) r).1

/-! ### Write operations (R149) -/

/-- An operation's end: DONE and CODE, and ERR when it failed. -/
def Dev.lkuDone (d : Dev) (code : Nat) : Dev :=
  let d := (d.wr LKU_WR_STATUS.DONE 1).wr LKU_WR_STATUS.CODE code
  if code = 0 then d else d.wr LKU_WR_STATUS.ERR 1

/-- BUSY and PENDING follow the queue; the use counters follow the stores. -/
def Dev.lkuCount (d : Dev) : Dev :=
  let n := d.lku.queue.length + (if d.lku.run.isSome then 1 else 0)
  d.wrs [(LKU_WR_STATUS.PENDING, n), (LKU_WR_STATUS.BUSY, b2n (n ≠ 0)), (LKU_LPM_USED.UNITS, d.lku.lpmUsed),
    (LKU_EX_USED.SLOTS, d.lku.exact.length), (LKU_LAYBY_USED.ENTRIES, d.lku.layby.length),
    (LKU_T2_BUF.ENTRIES, d.lku.t2buf.length), (LKU_STATUS.T2_BUF_FULL, b2n (d.lku.t2buf.length = 256))]

/-- The operation that the registers spell (Table 6.6). -/
def Dev.lkuOpOf (d : Dev) (holder : Nat) : LkuOp :=
  { holder, op := d.rd LKU_WR_ADDR.OP, tbl := d.rd LKU_WR_ADDR.TBL, index := d.rd LKU_WR_INDEX.INDEX,
    data := (List.range 16).map fun i => d.reg (LKU_WR_DATA.addr i) }

/-- The code of a GO's first failing check (R149); 0 when it is queued. -/
def Dev.lkuGoCheck (d : Dev) (o : LkuOp) : Nat :=
  if d.isRevoked o.holder then 0x0A
  else if 256 ≤ d.rd LKU_WR_STATUS.PENDING then 0x01
  else if o.op = 0 ∨ 0xE ≤ o.op then 0x02
  else 0

/-- A write of LKU_WR_CMD.GO by a holder (R149). -/
def Dev.lkuGo (d : Dev) (holder : Nat) : Dev :=
  let o := d.lkuOpOf holder
  let code := d.lkuGoCheck o
  if code ≠ 0 then (d.wr LKU_WR_STATUS.ERR 1).wr LKU_WR_STATUS.CODE code
  else { d with lku := { d.lku with queue := d.lku.queue ++ [o] } }.lkuCount

/-- The registers as a submission writes them (R149). -/
def Dev.lkuLoad (d : Dev) (op tbl index : Nat) (data : List (BitVec 32)) : Dev :=
  data.zipIdx.foldl (fun d p => if p.2 < 16 then d.setReg (LKU_WR_DATA.addr p.2) p.1 else d)
    (d.wrs [(LKU_WR_ADDR.OP, op), (LKU_WR_ADDR.TBL, tbl), (LKU_WR_INDEX.INDEX, index)])

/-- The registers of a submission, then GO (R149). -/
def Dev.lkuSubmit (d : Dev) (holder op tbl index : Nat) (data : List (BitVec 32)) : Dev := (d.lkuLoad op tbl index data).lkuGo holder

/-- Data words `i` to `i + n - 1` as one number, the first most significant. -/
def LkuOp.num (o : LkuOp) (i n : Nat) : Nat := (sliceD 0#32 o.data i n).foldl (fun a w => a * 2 ^ 32 + w.toNat) 0

/-- Some data word from `i` on is not 0. -/
def LkuOp.rest (o : LkuOp) (i : Nat) : Bool := (o.data.drop i).any fun w => w != 0#32

/-- Must-be-zero bits of a tier-2 entry (Table 6.7). -/
def t2Bad (e : Nat) : Bool :=
  let ty := bits e 62 2
  if ty = 0 then e != 0
  else if ty = 1 then bits e 56 6 != 0 || bits e 20 4 != 0
  else if ty = 2 then bits e 42 16 != 0 || bits e 0 7 != 0
  else true

/-- A context a CTX_WRITE may store (Table 6.5, R161). -/
def ctxBad (c : BitVec 512) : Bool :=
  cget c 8 1 != 0 || cget c 12 1 != 0 || bits (cget c 30 1) 0 5 != 0 || cget c 56 1 != 0 ||
  256 * (cget c 8 4) < cget c 16 4 || 256 * (cget c 12 4) < cget c 20 4

/-- The operation at the head: its result code, or its steps (R149, Table 6.2, Table 6.4). -/
def Dev.lkuCheck (d : Dev) (o : LkuOp) : Nat ⊕ List LkuStep :=
  let l := d.lku
  let tbl0 := o.op = 7 ∨ o.op = 8 ∨ o.op = 9 ∨ o.op = 0xA ∨ o.op = 0xB ∨ o.op = 0xC ∨ o.op = 0xD
  if tbl0 ∧ o.tbl ≠ 0 then .inl 0x03
  else if o.op = 1 ∨ o.op = 2 then
    let d0 := o.num 0 1
    let fam := bits d0 8 1
    let len := bits d0 0 8
    let addr := if fam = 0 then o.num 1 1 * 2 ^ 96 else o.num 1 4
    let bad := bits d0 9 7 ≠ 0 ∨ (fam = 0 ∧ o.num 2 3 ≠ 0) ∨ famBits fam < len ∨ topBits addr len ≠ addr ∨
      (o.op = 1 ∧ bits (o.num 5 1) 20 4 ≠ 0) ∨ o.rest (if o.op = 1 then 6 else 5)
    let key := lpmKey o.tbl (bits d0 16 16) fam len addr
    let present := (SMap.find l.lpm key).isSome
    let k := Config.lpmSteps d.free % 24
    if bad then .inl 0x05
    else if o.op = 1 then
      if present then .inr [.lpmPut key (BitVec.ofNat 32 (o.num 5 1))]
      else if 4194304 < l.lpmUsed + (fam + 1) then .inl 0x06
      else .inr (List.replicate k .trie ++ [.lpmPut key (BitVec.ofNat 32 (o.num 5 1))])
    else if present then .inr (List.replicate k .trie ++ [.lpmDel key]) else .inl 0x07
  else if o.op = 3 ∨ o.op = 4 ∨ o.op = 5 then
    match SMap.find l.exTbl o.tbl with
    | none => .inl 0x03
    | some klen =>
      let key := BitVec.ofNat 128 (o.num 0 4)
      let e : ExSlot := { tbl := o.tbl, key, data := BitVec.ofNat 120 (o.num 4 4) }
      if key.toNat % 2 ^ (8 * (16 - klen)) ≠ 0 ∨ o.rest (if o.op = 5 then 4 else 8) ∨ (o.op ≠ 5 ∧ 2 ^ 120 ≤ o.num 4 4)
      then .inl 0x05
      else match o.op, d.exFind o.tbl key with
        | 3, [] => match d.exInsert e with
          | some st => .inr st
          | none => .inl 0x09
        | 3, _ => .inl 0x08
        | _, [] => .inl 0x07
        | 4, ss => .inr [.exPut (ss.headD 0) e]
        | _, _ => .inr [.exDelete o.tbl key]
  else if o.op = 6 then
    match SMap.find l.dirTbl o.tbl with
    | none => .inl 0x03
    | some t =>
      let bytes := beBytes 32 (o.num 0 8)
      let e := ofBe (bytes.take 8)
      let p := dirPlace t o.index
      if dirSize t ≤ o.index then .inl 0x04
      else if (bytes.drop (dirEw t)).any (· != 0#8) ∨ o.rest 8 ∨ (dirKind t = 1 ∧ bits e 30 33 ≠ 0) then .inl 0x05
      else if dirKind t = 1 ∧ 2097152 < bits e 9 21 + bits e 0 9 + 1 then .inl 0x0B
      else .inr [.dirPut p.1 p.2 (dirEw t) (bytes.take (dirEw t))]
  else if o.op = 7 then
    if 2097152 ≤ o.index then .inl 0x04 else if o.rest 2 then .inl 0x05
    else .inr [.member o.index (BitVec.ofNat 64 (o.num 0 2))]
  else if o.op = 8 then
    let c := BitVec.ofNat 512 (o.num 0 16)
    if 262144 ≤ o.index then .inl 0x04 else if ctxBad c then .inl 0x05 else .inr [.ctxPut o.index c]
  else if o.op = 9 ∨ o.op = 0xA then
    if 262144 ≤ o.index then .inl 0x04 else .inr [.ctxGet o.index (o.op = 0xA)]
  else if o.op = 0xB then
    if 262144 ≤ o.index then .inl 0x04 else if t2Bad (o.num 0 2) ∨ o.rest 2 then .inl 0x05
    else .inr [.t2dir o.index (BitVec.ofNat 64 (o.num 0 2))]
  else if o.op = 0xC then
    let a := o.num 0 2
    if 2 ^ 42 ≤ a ∨ a % 8 ≠ 0 ∨ t2Bad (o.num 2 2) ∨ o.rest 4 then .inl 0x05
    else .inr [.t2node a (BitVec.ofNat 64 (o.num 2 2))]
  else if 2097152 ≤ o.index then .inl 0x04 else .inr [.exClear o.index]

/-- The operation at the head is checked and starts its steps (R149); a RATE of 0 pauses the queue (R147). -/
def Dev.lkuOpStart (d : Dev) : Dev :=
  match d.lku.run, d.lku.queue with
  | none, o :: rest =>
    if d.rd LKU_WR_CTRL.RATE = 0 then d else
    let r := d.lkuCheck o
    let d := { d with lku := { d.lku with queue := rest }, free := d.free + 1 }
    match r with
    | .inl c => (d.lkuDone c).lkuCount
    | .inr st => { d with lku := { d.lku with run := some { op := o, steps := st } } }.lkuCount
  | _, _ => d

/-- A context's bytes in the data registers (R149). -/
def Dev.lkuShow (d : Dev) (c : BitVec 512) : Dev :=
  (List.range 16).foldl (fun d i => d.wr (LKU_WR_DATA.DATA i) (cget c (4 * i) 4)) d

/-- What CTX_READ shows: the stored bytes; of an uncorrectable word, which the spec gives no value, a free value. -/
def Dev.ctxShow (d : Dev) (i : Nat) (c : BitVec 512) : Dev :=
  let x := d.draw
  let word (k : Nat) : Nat :=
    if d.ueIn 0x181 .ctx i k 1 then Config.undef 5 (8 * x.1 + k) % 2 ^ 64 else cget c (8 * k) 8
  if (List.range 8).any fun k => d.ueIn 0x181 .ctx i k 1 then
    x.2.lkuShow (BitVec.ofNat 512 (((List.range 8).map fun k => word k * 2 ^ (64 * (7 - k))).sum))
  else d.lkuShow c

/-- The effect of one step on the stores (R148). -/
def Dev.lkuEffect (d : Dev) (s : LkuStep) : Dev :=
  let l := d.lku
  match s with
  | .trie => d
  | .lpmPut k v => { d with lku := { l with lpm := SMap.ins l.lpm k v } }
  | .lpmDel k => { d with lku := { l with lpm := SMap.erase l.lpm k } }
  | .exPut i e => { d with lku := { l with exact := SMap.ins l.exact i e } }.wrote 0x180 .exact i
  | .exDelete t k => (d.exFind t k).foldl
      (fun (d : Dev) i => { d with lku := { d.lku with exact := SMap.erase d.lku.exact i } }.wrote 0x180 .exact i) d
  | .exClear i => { d with lku := { l with exact := SMap.erase l.exact i } }.wrote 0x180 .exact i
  | .dirPut row off w bs =>
    let old := beBytes 32 (SMap.get 0 l.dir row).toNat
    let new := old.take off ++ bs ++ old.drop (off + w)
    (({ d with lku := { l with dir := SMap.set 0 l.dir row (BitVec.ofNat 256 (ofBe new)) } }.eccClearIn 0x180 .dir row (off / 8)
      (w / 8)).injectInto 0x180 0x180 .dir row)
  | .member i v => { d with lku := { l with members := SMap.set 0 l.members i v } }.wrote 0x180 .member i
  | .ctxPut i c => { d with lku := { l with ctx := SMap.set 0 l.ctx i c } }.wrote 0x181 .ctx i
  | .ctxGet i clr =>
    let c := SMap.get 0 l.ctx i
    let r := d.lkuRead .ctx i 0 8
    let d := r.2.ctxShow i c
    if clr ∧ ¬ r.1 then
      { d with lku := { d.lku with ctx := SMap.set 0 d.lku.ctx i (cset (cset (cset c 32 8 0) 40 8 0) 48 8 0) } }.wrote 0x181 .ctx i
    else d
  | .t2dir i v =>
    let old := if (SMap.find l.t2old i).isSome then l.t2old else SMap.ins l.t2old i (SMap.get 0 l.t2dir i)
    { d with lku := { l with t2dir := SMap.set 0 l.t2dir i v, t2old := old } }.wrote 0x180 .t2dir i
  | .t2node a v => { d with lku := { l with t2buf := l.t2buf ++ [{ addr := a, data := v, at_ := d.sc, issued := false }] } }

/-- The LKU queue presents a step: a trie node to rewrite first (R171), else the running operation's (R147). -/
def Dev.lkuPresents (d : Dev) : Bool :=
  decide (d.lku.stepped < d.rd LKU_WR_CTRL.RATE) &&
  (d.lku.lpmFix ≠ [] ||
   (match d.lku.run with
    | some r => (match r.steps with
      | [] => false
      | _ => true)
    | none => false))

/-- The LKU queue's step is a T2_WRITE, and the write buffer is full: withheld at the head of its channel (R169). -/
def Dev.t2Withheld (d : Dev) : Bool :=
  d.lku.lpmFix.isEmpty && decide (256 ≤ d.lku.t2buf.length) &&
  (match d.lku.run with
   | some r => (match r.steps with
     | .t2node _ _ :: _ => true
     | _ => false)
   | none => false)

/-- One LKU step applied by a MAINT slot. -/
def Dev.lkuStep (d : Dev) : Dev :=
  let d := { d with lku := { d.lku with stepped := d.lku.stepped + 1 } }.evt 0x21 0x21
  match d.lku.lpmFix with
  | n :: rest => ({ d with lku := { d.lku with lpmFix := rest } }).wrote 0x180 .lpm n
  | [] => match d.lku.run with
    | none => d
    | some r => match r.steps with
      | [] => d
      | s :: rest =>
        let d := d.lkuEffect s
        if rest = [] then ({ d with lku := { d.lku with run := none } }.lkuDone 0x00).lkuCount
        else { d with lku := { d.lku with run := some { r with steps := rest } } }.lkuCount

/-- The effect of a holder's revocation on the operations (R150). -/
def Dev.lkuRevoke (d : Dev) (h : Nat) : Dev :=
  let mine := d.lku.queue.filter fun o => o.holder == h
  let d := { d with lku := { d.lku with queue := d.lku.queue.filter fun o => o.holder != h } }
  let d := mine.foldl (fun (d : Dev) _ => d.lkuDone 0x0A) d
  (match d.lku.run with
   | some r => if r.op.holder = h then { d with lku := { d.lku with run := none } }.lkuDone 0x0A else d
   | none => d).lkuCount

/-! ### Maintenance channels (R146, R147) -/

/-- The pipelines whose itinerary entry of a slot is MAINT on channel `k`, as 64 × direction + pipeline, ascending. -/
def ChartBank.maintPipes (b : ChartBank) (variant slot k : Nat) : List Nat :=
  (List.range 128).filter fun p =>
    let e := b.entry (p / 64) (p % 64) variant slot
    bits e 12 4 = 7 && bits e 0 6 = k

/-- Whether a channel has a step to apply. -/
def Dev.chanReady (d : Dev) (k : Nat) : Bool :=
  (d.rd ASX_OP_CTRL.CHAN = k && d.asxPresents) || (d.rd LKU_WR_CTRL.CHAN = k && d.lkuPresents)

/-- Whether the step at a channel's head is the LKU queue's: the source that did not apply its previous step goes first (R147), but for a
step withheld, which stays at the head (R146). -/
def Dev.chanHead (d : Dev) (k : Nat) : Bool :=
  let a : Bool := d.rd ASX_OP_CTRL.CHAN = k && d.asxPresents
  let l : Bool := d.rd LKU_WR_CTRL.CHAN = k && d.lkuPresents
  let fair : Bool := l && (!a || !d.lku.lastLku.contains k)
  match SMap.find d.lku.held k with
  | some h => if h.2 then l else if a then false else fair
  | none => fair

/-- A channel applies the step at its head. -/
def Dev.chanStep (d : Dev) (k : Nat) : Dev :=
  let goL := d.chanHead k
  let last := if goL then k :: d.lku.lastLku.erase k else d.lku.lastLku.erase k
  let d := { d with lku := { d.lku with held := SMap.erase d.lku.held k, lastLku := last } }
  if goL then d.lkuStep else d.asxStep

/-- A slot cycle of channel `k` for the pipelines that hold it (R146): the machine, and the pipeline that applied a step. -/
def Dev.chanSlot (d : Dev) (k : Nat) (pipes : List Nat) : Dev × Option Nat :=
  match pipes with
  | [] => (d, none)
  | p :: _ =>
    if !d.chanReady k || (d.chanHead k && d.t2Withheld) then (d, none)
    else match SMap.find d.lku.held k with
      | some h =>
        if pipes.contains h.1 && d.chanHead k == h.2 then (d.chanStep k, some h.1) else (d, none)
      | none => (d.chanStep k, some p)

/-- A new slot cycle: every directory entry is as the steps so far left it (R148). -/
def Dev.lkuCycle (d : Dev) : Dev := { d with lku := { d.lku with t2old := [] } }

/-! ### Tier-2 walks and the lay-by (R166 to R169) -/

/-- What a tier-2 entry says (Table 6.7, R167): a read at an address with the bits used after it, or the end. -/
inductive T2Next where
  | read (addr used : Nat)
  | done (result : List Byte)
  | err
  deriving DecidableEq, Repr

/-- The result of a hit: status, length, route data with [23:20] as 0, and ATTR when two words are asked for. -/
def t2Hit (words e : Nat) : List Byte :=
  let rd := bits e 0 20 + bits e 24 8 * 2 ^ 24
  fitBytes ([0x80#8, BitVec.ofNat 8 (bits e 48 8), 0#8, 0#8] ++ beBytes 4 rd ++
    (if words = 1 then [] else beBytes 2 (bits e 32 16))) (8 * words)

/-- A walk at an entry. -/
def t2Next (v6 : Bool) (words addr used reads e : Nat) : T2Next :=
  let ty := bits e 62 2
  let abits := if v6 then 128 else 32
  if ty = 0 then .done (statusOnly words 0)
  else if ty = 1 then .done (t2Hit words e)
  else if ty = 3 then .err
  else
    let s := bits e 58 4 + 1
    if reads = 3 ∨ abits < used + s then .err
    else .read (bits e 7 35 * 2 ^ 7 + 8 * (bits addr (128 - used - s) s)) (used + s)

/-- An error result. -/
def t2Err (words : Nat) (event : Nat) : T2State := .done (statusOnly words 0x40) (some event)

/-- Whether an entry of the write buffer covers an address for a request dispatched at `at_` (R169): the latest such. -/
def Lku.t2Covered (l : Lku) (addr at_ : Nat) : Option (BitVec 64) :=
  ((l.t2buf.filter fun b => b.addr == addr && b.at_ < at_).getLast?).map T2Buf.data

/-- A walk of a request dispatched at `at_` goes on at an entry: its next read is issued at the port that the address names, or it ends
(R167, R333, R334, R338). An entry that the write buffer covers is read from the buffer, with no CXL read (R169; DEDUCED: log entry 68);
`fuel` bounds the reads, of which R167 allows three. -/
def Dev.t2Go (d : Dev) (at_ : Nat) (v6 : Bool) (words addr : Nat) : (fuel used reads e : Nat) → T2State × Dev
  | 0, _, _, _ => (t2Err words 0x06, d)
  | fuel + 1, used, reads, e =>
  match t2Next v6 words addr used reads e with
  | .done r => (.done r none, d)
  | .err => (t2Err words 0x06, d)
  | .read a u =>
    if !d.cxlIn 0 a 8 then (t2Err words 0x06, d)
    else match d.lku.t2Covered a at_ with
    | some x => d.t2Go at_ v6 words addr fuel u (reads + 1) x.toNat
    | none => match d.cxlPort a with
      | none => (t2Err words 0x06, d)
      | some p =>
        if !d.cxlUp p then (t2Err words 0x00, d)
        else
          (.walking { v6, addr, used := u, reads := reads + 1, rdAddr := a, port := p, tick := d.tck.now, at_ := d.sc },
            (d.cxlIssue p (a / 64 * 64) 64).evt 0x23 0x21 (some p))

/-- A request dispatched (R167), at the variant in force (R83): its state. -/
def Dev.t2Dispatch (d : Dev) (q : T2Req) : T2State × Dev :=
  match q.desc with
  | none => (.done (statusOnly q.words 0x20) none, d.bump LKU_UNSERVED.COUNT)
  | some t =>
    if d.rd CHT_STATUS.VARIANT = 3 then (.done (statusOnly q.words 0x08) none, d)
    else match (if q.ok then lpmParse q.key else none) with
      | none => (.done (statusOnly q.words 0) none, d)
      | some (vrf, fam, addr) =>
        if vrf ≠ t2Vrf t ∨ fam ≠ t2Fam t then (.done (statusOnly q.words 0) none, d)
        else
          let i := t2Base t + addr / 2 ^ (128 - t2Bits t)
          let r := d.lkuRead .t2dir i 0 1
          let x := (SMap.find r.2.lku.t2old i).getD (SMap.get 0 r.2.lku.t2dir i)
          if r.1 then (.done (statusOnly q.words 0x40) none, r.2.lkuErr)
          else r.2.t2Go d.sc (fam = 1) q.words addr 4 (t2Bits t) 0 x.toNat

/-- A tier-2 request that ended in a read. -/
def T2State.tookRead : T2State → Bool
  | .walking _ => true
  | .done _ _ => false

/-- The lowest-numbered free lay-by entry. -/
def Lku.laybyFree (l : Lku) : Option Nat := (List.range 4096).find? fun i => (SMap.find l.layby i).isNone

/-- A tier-2 read returns (R167, R168): the entry's data, or poison, or a completion error. A read whose request passed
its deadline is discarded and counted. -/
def Dev.t2Return (d : Dev) (entry : Nat) (data : BitVec 64) (poison err : Bool) (ns : Nat) : Dev :=
  match SMap.find d.lku.layby entry with
  | none => d
  | some p => match p.st with
    | .done _ _ => d
    | .walking w =>
      let d := (d.cxlLat w.port ns)
      let d := if poison ∨ err then d.cxlError w.port else d
      let r := if poison then (t2Err p.req.words 0x02, d)
        else if err then (t2Err p.req.words 0x06, d)
        else d.t2Go p.at_ w.v6 p.req.words w.addr 4 w.used w.reads data.toNat
      { r.2 with lku := { r.2.lku with layby := SMap.ins r.2.lku.layby entry { p with st := r.1 } } }

/-- A read that arrives after its request's deadline (R168). -/
def Dev.t2LateReturn (d : Dev) (port addr : Nat) : Dev :=
  match d.lku.t2late.find? (fun w => w.port == port && w.rdAddr == addr) with
  | some w => ({ d with lku := { d.lku with t2late := d.lku.t2late.erase w } }).bump LKU_T2_LATE.COUNT
  | none => d

/-- The result written over a parked packet's RDST words at the start of tick T+6 (R168). -/
def Dev.t2Land (d : Dev) (entry : Nat) (p : Parked) : Dev :=
  let put (r : List Byte) : Manifest := msetBytes p.pkt.m (0x180 + 8 * p.req.rdst) r
  match p.st with
  | .walking w =>
    let p := { p with pkt := { p.pkt with m := put (statusOnly p.req.words 0x10) }, landed := true, miss := true,
                      st := .done (statusOnly p.req.words 0x10) none }
    { d with lku := { d.lku with layby := SMap.ins d.lku.layby entry p, t2late := d.lku.t2late ++ [w] } }
  | .done r e =>
    let d := match e with
      | none => d
      | some ev =>
        let d := (d.bump LKU_T2_ERR.COUNT).markFault d.tck.now
        if ev = 0 then d else d.fault 0x182 contained ev (d.tck.now * 2 ^ 48)
    let p := { p with pkt := { p.pkt with m := put r }, landed := true }
    { d with lku := { d.lku with layby := SMap.ins d.lku.layby entry p } }

/-- The deadline at the start of tick T+6: every result of requests parked in tick T (R168). -/
def Dev.t2Deadline (d : Dev) : Dev :=
  d.lku.layby.foldl (fun (d : Dev) q =>
    if !q.2.landed && tickReached (tickAdd q.2.tick 6) d.tck.now then d.t2Land q.1 q.2 else d) d

/-- Whether every request dispatched in a buffer entry's slot cycle or earlier has completed or passed its deadline
(R169). -/
def Lku.t2BufFree (l : Lku) (b : T2Buf) : Bool :=
  l.layby.all fun q => b.at_ < q.2.at_ || !q.2.st.tookRead

/-- A buffered T2_WRITE issues its CXL write (R169). An address with no port to send it to is never sent (R333). -/
def Dev.t2BufIssue (d : Dev) : Dev :=
  match d.lku.t2buf.find? (fun b => !b.issued) with
  | none => d
  | some b =>
    if !d.lku.t2BufFree b then d
    else
      let buf := d.lku.t2buf.map fun c => if c = b then { c with issued := true } else c
      let d := { d with lku := { d.lku with t2buf := buf } }
      match d.cxlPort b.addr with
      | some p => if d.cxlUp p then d.emit (.cxlWrite p b.addr (beBytes 8 b.data.toNat))
        else d.bump (CXL_PORT_WDROP.COUNT p)
      | none => d

/-- The CXL write of the `k`-th issued buffer entry completes and frees that entry (R169, R336). -/
def Dev.t2BufDone (d : Dev) (k : Nat) (err : Bool) : Dev :=
  match (d.lku.t2buf.filter T2Buf.issued)[k]? with
  | none => d
  | some b =>
    let d := { d with lku := { d.lku with t2buf := d.lku.t2buf.erase b } }
    (match d.cxlPort b.addr with
     | some p => d.cxlWritten p err
     | none => d).lkuCount

/-- Port loss as tier-2 requests see it (R338): walks whose read is outstanding there end with 0x40, and reads already
past their deadline never arrive. -/
def Dev.t2PortLost (d : Dev) (port : Nat) : Dev :=
  let lay := d.lku.layby.map fun q => match q.2.st with
    | .walking w => if w.port = port then (q.1, { q.2 with st := t2Err q.2.req.words 0x00 }) else q
    | .done _ _ => q
  { d with lku := { d.lku with layby := lay, t2late := d.lku.t2late.filter fun w => w.port != port } }

/-! ### Scrubbing (R171) -/

/-- The scrubber reaches an entry. -/
def Dev.lkuScrub (d : Dev) (st : Store) (i : Nat) : Dev :=
  let r := d.lkuRead st i 0 512
  if r.1 ∧ st = .lpm ∧ ¬ r.2.lku.lpmFix.contains i then { r.2 with lku := { r.2.lku with lpmFix := r.2.lku.lpmFix ++ [i] } } else r.2

end Sys2Proof.Machine
end

