-- ==== Sys2Proof/Machine/Dpt.lean ====
section
/-! DEFINITION. Carriages and depots (chapter 7): placement and reads (R174 to R176), headers (R177, R178), free lists
(R179, R185), ownership (R180, R181), allocation (R182 to R188), coupling (R189, R190), releases (R191) and tail errors
(R195, R198). The auditor stands in Machine/Audit.lean. -/

namespace Sys2Proof.Machine

/-- Carriages of `len` bytes (R183). -/
def carriages (len : Nat) : Nat := ceilDiv len 256

/-- Items charged to a tick's modelled cost (R288): index of Table 12.1, or 0x3F for row costs in 1/64 EU. -/
def Dev.charge (d : Dev) (tick idx k : Nat) : Dev :=
  let key := tick * 64 + idx
  { d with nrg := { d.nrg with counts := SMap.set 0 d.nrg.counts key (SMap.get 0 d.nrg.counts key + k) } }

/-- A chain by its number. -/
def Dev.chain (d : Dev) (c : Nat) : Option Chain := SMap.find d.dpt.chains c

/-- The machine with a chain stored. -/
def Dev.setChain (d : Dev) (c : Nat) (v : Chain) : Dev :=
  { d with dpt := { d.dpt with chains := SMap.ins d.dpt.chains c v } }

/-- Carriages of a chain. -/
def Chain.ncar (c : Chain) : Nat := carriages c.bytes.length

/-- Bank and row of a carriage pointer (R173). -/
def ptrBank (p : Nat) : Nat := p % 128
def ptrRow (p : Nat) : Nat := p / 128

/-! ### Free lists (R179) -/

/-- The row at the head of a bank's free list, and the depot without it. -/
def Dpt.pop (x : Dpt) (bank : Nat) : Option (Nat × Dpt) :=
  match SMap.get [] x.stack bank with
  | r :: rest => some (r, { x with stack := SMap.set [] x.stack bank rest })
  | [] =>
    let r := SMap.get 0 x.fresh bank
    if r < 8192 then some (r, { x with fresh := SMap.set 0 x.fresh bank (r + 1) }) else none

/-- A carriage pushed onto its bank's free list. -/
def Dpt.push (x : Dpt) (p : Nat) : Dpt :=
  { x with stack := SMap.set [] x.stack (ptrBank p) (ptrRow p :: SMap.get [] x.stack (ptrBank p)) }

/-- The carriages a chain still holds: those placed, without what a punt's copy has let go (R311). -/
def Chain.held (c : Chain) : List Nat := c.ptrs.drop c.gone

/-- The chain that holds a carriage, with the carriage's place in it. -/
def Dpt.holding (x : Dpt) (p : Nat) : Option (Nat × Chain × Nat) :=
  (x.chains.find? fun e => e.2.held.contains p).map fun e => (e.1, e.2, e.2.ptrs.idxOf p)

/-- The carriage below one on its bank's free list, 0 for none (R179): the header of a carriage not used since cold reset is zero. -/
def Dpt.nextFree (x : Dpt) (p : Nat) : Nat :=
  let l := SMap.get [] x.stack (ptrBank p)
  if l.contains (ptrRow p) then
    match l.drop (l.idxOf (ptrRow p) + 1) with
    | r :: _ => r * 128 + ptrBank p
    | [] => let r := SMap.get 0 x.fresh (ptrBank p); if r < 8192 then r * 128 + ptrBank p else 0
  else 0

/-! ### Headers (R177, R178) -/

/-- Header word 0 of the carriage at a place of a chain (Table 7.2), AMARK aside. -/
def Dpt.word0 (x : Dpt) (c : Chain) (i : Nat) : Nat :=
  let last := i + 1 = c.ncar
  let fill := if last then c.bytes.length - 256 * i - 1 else 0xFF
  2 ^ 63 + b2n (i == 0) * 2 ^ 62 + b2n last * 2 ^ 61 + b2n (i == 0 && c.terr) * 2 ^ 60 +
    (if i = 0 then c.owner else SMap.get 0 x.own (c.ptrs.getD i 0)) * 2 ^ 44 + c.csrc * 2 ^ 32 + c.ptrs.getD (i + 1) 0 * 2 ^ 8 + fill

/-- Header word 0 of a carriage (Table 7.2), computed from its one home: of a chain, of the reassembly pool, an orphan, or free. The
spec names no CSRC and no FILL of a free carriage; zero here (log entry 70). -/
def Dev.hdr0 (d : Dev) (p : Nat) : Nat :=
  let am := SMap.get 0 d.dpt.mark p * 2 ^ 43
  match d.dpt.holding p with
  | some (_, c, i) => d.dpt.word0 c i + am
  | none =>
    if d.fab.pool.contains p then 7 * 2 ^ 61 + 0x0411 * 2 ^ 44 + am + 257 * 2 ^ 32 + 0xFF
    else match SMap.find d.dpt.orphans p with
      | some w => w + am
      | none => SMap.get 0 d.dpt.own p * 2 ^ 44 + am + d.dpt.nextFree p * 2 ^ 8

/-- Header word 1 of a carriage (Table 7.3): zero but in the head of a chain. -/
def Dev.hdr1 (d : Dev) (p : Nat) : Nat :=
  match d.dpt.holding p with
  | some (_, c, 0) => c.couple * 2 ^ 52 + (c.ptrs.getLast?.getD 0) * 2 ^ 8 + (c.ncar - 1)
  | some _ => 0
  | none => if d.fab.pool.contains p then 2 ^ 52 + p * 2 ^ 8 else 0

/-- The CSRC in header word 0. -/
def w0Csrc (w : Nat) : Nat := bits w 32 9

/-! ### Allocation (R182 to R184) -/

/-- A source's use above its reservation. -/
def Dev.over (d : Dev) (src : Nat) : Nat := d.rd (DPT_SRC_USED.COUNT src) - d.rd (DPT_SRC_RSV.RSV src)

/-- The free-carriage check of R183. -/
def Dev.freeOk (d : Dev) (need : Nat) : Bool := need + 32768 ≤ d.rd DPT_FREE.COUNT

/-- Whether the port-reserved and shared depots take `need` carriages of a source, with the part the shared one takes. -/
def Dev.sharedFit (d : Dev) (src need : Nat) : Option Nat :=
  let a := min need (d.rd (DPT_SRC_RSV.RSV src) - d.rd (DPT_SRC_USED.COUNT src))
  let b := need - a
  if b = 0 ∨ (d.rd DPT_SHR_USED.COUNT + b ≤ d.rd DPT_SHR_SIZE.SIZE ∧ d.over src + b ≤ d.rd (DPT_SRC_MAX.MAX src)) then some b
  else none

/-- The charge of carriages to a source, of which `b` count against the shared depot. -/
def Dev.chargeSrc (d : Dev) (src need b : Nat) : Dev :=
  ((d.wr (DPT_SRC_USED.COUNT src) (d.rd (DPT_SRC_USED.COUNT src) + need)).wr DPT_SHR_USED.COUNT
    (d.rd DPT_SHR_USED.COUNT + b)).evt 0x30 0x20 none need

/-- The decision of R183 for `len` bytes from a source, with the wagons open to spill: the CSRC and the wagons reserved,
or none for a drop with reason 0x30. -/
def Dev.allocate (d : Dev) (holder src len openWagons : Nat) : Option (Nat × Nat) × Dev :=
  let need := carriages len
  let w := ceilDiv len 2048
  if d.isRevoked holder then (none, d.bump DPT_DROP_NOBUF.COUNT)
  else match d.sharedFit src need with
    | some b =>
      if d.freeOk need then (some (src, 0), d.chargeSrc src need b)
      else (none, (d.wr DPT_STATUS.RSV_SHORT 1).bump DPT_DROP_NOBUF.COUNT)
    | none =>
      if d.rd DPT_TRANSIT_USED.COUNT + need ≤ d.rd DPT_TRANSIT_RSV.SIZE ∧ w ≤ openWagons then
        if d.freeOk need then
          (some (0x1FE, w), ((d.wr DPT_TRANSIT_USED.COUNT (d.rd DPT_TRANSIT_USED.COUNT + need)).bump DPT_FALLBACK.COUNT).evt 0x30 0x20 none need)
        else (none, (d.wr DPT_STATUS.RSV_SHORT 1).bump DPT_DROP_NOBUF.COUNT)
      else (none, d.bump DPT_DROP_NOBUF.COUNT)

/-- Carriages for splice growth or copy-on-write of a chain charged to `csrc` (R187): through the port-reserved and shared depots only,
or the transit depot for a transit chain. DEDUCED (log entry 69): a refilled chain has no port-reserved depot, and the deep tier alone
allocates from the refill depot (R182), so that its growth counts against the shared depot. -/
def Dev.growAlloc (d : Dev) (holder csrc need : Nat) : Grow × Dev :=
  if need = 0 then (.none_, d)
  else if d.isRevoked holder then (.fail, d)
  else
    let fit : Option Dev :=
      if csrc = 0x1FE then
        (if d.rd DPT_TRANSIT_USED.COUNT + need ≤ d.rd DPT_TRANSIT_RSV.SIZE then
          some ((d.wr DPT_TRANSIT_USED.COUNT (d.rd DPT_TRANSIT_USED.COUNT + need)).evt 0x30 0x20 none need) else none)
      else if csrc = 0x1FF then
        (if d.rd DPT_SHR_USED.COUNT + need ≤ d.rd DPT_SHR_SIZE.SIZE then
          some ((d.wr DPT_SHR_USED.COUNT (d.rd DPT_SHR_USED.COUNT + need)).evt 0x30 0x20 none need) else none)
      else (d.sharedFit csrc need).map (d.chargeSrc csrc need)
    match fit with
    | none => (.fail, d)
    | some e => if d.freeOk need then (.ok, e) else (.failShort, d.wr DPT_STATUS.RSV_SHORT 1)

/-- A new chain of frame bytes, its carriages handed to a write port (R175, R178); `shr` of them come from the shared depot for a refilled
chain. -/
def Dev.newChain (d : Dev) (owner csrc wagons port shr : Nat) (terr : Bool) (bytes : List Byte) : Nat × Dev :=
  let id := d.dpt.nextChain
  let c : Chain := { owner, couple := 1, csrc, terr, ue := false, bytes, ptrs := [], gone := 0, shr, wagons }
  let e : Place := { port, chain := id, by_ := owner, refill := false }
  let place := d.dpt.place ++ List.replicate (carriages bytes.length) e
  (id, { d with dpt := { d.dpt with chains := SMap.ins d.dpt.chains id c, nextChain := id + 1, place } })

/-- The bank that a write port holds in a slot cycle, and that a read port holds (R174). -/
def writeBank (port c : Nat) : Nat := (2 * port + c) % 128
def readBank (port c : Nat) : Nat := (2 * port + 1 + c) % 128

/-- What a write port would place: the carriage handed to it first, admissions and growth ahead of refills (R175, R233). -/
def Dpt.nextPlace (x : Dpt) (port : Nat) : Option Place :=
  let mine := x.place.filter fun e => e.port == port
  (mine.find? fun e => !e.refill).orElse fun _ => mine.head?

/-- One write port places a carriage into the bank it holds, when that bank has a free one and the port has placed none in the slot cycle
(R173 to R175). A carriage beyond the end of its chain, which a header error has cut, is an orphan (R198). -/
def Dev.placeAt (d : Dev) (port : Nat) : Dev :=
  match d.dpt.nextPlace port, d.dpt.placed.contains port with
  | some e, false =>
    let bank := writeBank port d.sc
    match d.dpt.pop bank, d.chain e.chain with
    | some (row, x), some c =>
      let p := row * 128 + bank
      let x := { x with place := x.place.erase e, placed := port :: x.placed, mark := SMap.set 0 x.mark p (d.rd DPT_AUD_STATUS.COLOUR),
                        own := SMap.set 0 x.own p e.by_ }
      let x := if c.ptrs.length < c.ncar then { x with chains := SMap.ins x.chains e.chain { c with ptrs := c.ptrs ++ [p] } }
        else { x with orphans := SMap.ins x.orphans p (2 ^ 63 + 2 ^ 61 + e.by_ * 2 ^ 44 + c.csrc * 2 ^ 32 + 0xFF) }
      let d := ({ d with dpt := x }.wrote 0x200 .carData p).wrote 0x200 .carHdr p
      (d.wr DPT_FREE.COUNT (d.rd DPT_FREE.COUNT - 1)).charge d.tck.now 0x20 1
    | _, _ => d
  | _, _ => d

/-- Every port places what it can by the end of the slot cycle in progress (R175): on CARRIAGE_PLACE, and before the next cycle begins. -/
def Dev.placeDue (d : Dev) : Dev := ((d.dpt.place.map Place.port).eraseDups).foldl Dev.placeAt d

/-! ### Ownership (R180, R181) -/

/-- Every carriage of a chain takes the marking colour (R193). -/
def Dev.markChain (d : Dev) (c : Chain) : Dev :=
  let m := c.ptrs.foldl (fun m p => SMap.set 0 m p (d.rd DPT_AUD_STATUS.COLOUR)) d.dpt.mark
  { d with dpt := { d.dpt with mark := m } }

/-- A hand-off rewrites OWNER of an uncoupled chain's head; a revoked holder's request is ignored (R181, R189, R192). -/
def Dev.handOff (d : Dev) (c from_ to_ : Nat) : Dev :=
  match d.chain c with
  | none => d
  | some v =>
    if d.isRevoked from_ then d
    else
      let d := d.markChain v
      if 1 < v.couple ∨ v.owner = 0xFFFE then d
      else if v.owner = from_ then d.setChain c { v with owner := to_ } else d

/-- A reference added to a chain for a holder (R189): refused above 4,095; none answers that a revoked holder's request is ignored
(R192). -/
def Dev.coupleUp (d : Dev) (c holder : Nat) : Option Bool × Dev :=
  match d.chain c with
  | none => (none, d)
  | some v =>
    if d.isRevoked holder then (none, d)
    else if 4095 ≤ v.couple then (some false, d.bump DPT_COUPLE_OVF.COUNT)
    else (some true, d.setChain c { v with couple := v.couple + 1, owner := 0xFFFE })

/-! ### Releases (R179, R185, R190, R191) -/

/-- What is credited when a chain loses `k` carriages, as depots' charges, and what is left of its part of the shared depot (R185, R187). -/
def Chain.lose (v : Chain) (k : Nat) : List (Nat × Nat) × Nat :=
  let s := min v.shr k
  (if s = 0 then [(v.csrc, k)] else [(v.csrc, k - s), (0x200, s)], v.shr - s)

/-- A chain's carriages leave it: they rejoin their free lists later, and their charge is credited from the next slot
cycle (R185), unless a punt hand-off has credited it (R311). -/
def Dev.freeChain (d : Dev) (c : Nat) (v : Chain) (releaser : Nat) : Dev :=
  let x := d.dpt
  let own := v.held.foldl (fun m p => SMap.set 0 m p releaser) x.own
  let dead := match v.ptrs with
    | p :: _ => SMap.ins x.dead c p
    | [] => x.dead
  let x := { x with chains := SMap.erase x.chains c, own, dead, place := x.place.filter (fun e => e.chain != c),
                    readQ := x.readQ.filter (fun r => r.chain != c) }
  let d := d.evt 0x30 0x21 none (v.ncar - v.gone)
  if x.paid.contains c then { d with dpt := { x with paid := x.paid.erase c, rejoinPaid := x.rejoinPaid ++ v.held } }
  else { d with dpt := { x with rejoin := x.rejoin ++ v.held, credit := x.credit ++ (v.lose v.ncar).1 } }

/-- A punt hand-off credits a chain that its ring's holder holds to its depot counts, and its carriages count as free from then on (R311). -/
def Dev.payChain (d : Dev) (c holder : Nat) : Dev :=
  match d.chain c with
  | some v =>
    if v.owner ≠ holder ∨ d.isRevoked holder ∨ d.dpt.paid.contains c then d
    else
      let x := d.dpt
      ({ d with dpt := { x with paid := x.paid ++ [c], credit := x.credit ++ (v.lose v.ncar).1 } }).wr DPT_FREE.COUNT
        (d.rd DPT_FREE.COUNT + v.ptrs.length)
  | none => d

/-- The next carriage of a punted chain rejoins its free list as its read returns (R311); the holder holds the chain only until the last. -/
def Dev.letGo (d : Dev) (c holder : Nat) : Dev :=
  match d.chain c with
  | some v =>
    if v.owner ≠ holder ∨ d.isRevoked holder ∨ ¬ d.dpt.paid.contains c then d
    else match v.held with
      | [] => d
      | [_] => d.freeChain c v holder
      | p :: _ =>
        let d := d.setChain c { v with gone := v.gone + 1 }
        { d with dpt := { d.dpt with own := SMap.set 0 d.dpt.own p holder, rejoinPaid := d.dpt.rejoinPaid ++ [p] } }.evt 0x30 0x21
  | none => d

/-- The reference holders of a coupled chain (R190). -/
def refHolder (h : Nat) : Bool :=
  h == 0x0200 || (0x0140 ≤ h && h ≤ 0x017F) || (0x0300 ≤ h && h ≤ 0x033F) || h == 0x0410 || (0x0400 ≤ h && h ≤ 0x0407)

/-- A refused release (R191): recorded and logged; with AUTO set it starts an audit. -/
def Dev.badRelease (d : Dev) (ptr releaser owner : Nat) (double : Bool) : Dev :=
  let d := d.bump (if double then DPT_DBL_REL.COUNT else DPT_NONOWN_REL.COUNT)
  let d := d.wrs [(DPT_BADREL_PTR.PTR, ptr), (DPT_BADREL_PTR.KIND, b2n (!double)), (DPT_BADREL_WHO.RELEASER, releaser),
    (DPT_BADREL_WHO.OWNER, owner), (DPT_STATUS.BAD_REL, 1)]
  let d := d.fault 0x200 contained 0x07 (ptr * 2 ^ 72 + b2n (!double) * 2 ^ 71 + releaser * 2 ^ 55 + owner * 2 ^ 39)
  if d.on DPT_AUD_CTRL.AUTO then { d with dpt := { d.dpt with audWanted := true } } else d

/-- A release of a stored chain by a releaser (R190, R191). -/
def Dev.releaseChain (d : Dev) (c : Nat) (v : Chain) (releaser : Nat) : Dev :=
  let ptr := v.ptrs.headD 0
  if v.owner = 0xFFFE then
    if refHolder releaser then
      if v.couple ≤ 1 then d.freeChain c v releaser else d.setChain c { v with couple := v.couple - 1 }
    else d.badRelease ptr releaser v.owner false
  else if v.owner = releaser then d.freeChain c v releaser
  else d.badRelease ptr releaser v.owner false

/-- A release that names a carriage pointer (R191). -/
def Dev.releaseAt (d : Dev) (ptr releaser : Nat) : Dev :=
  if d.isRevoked releaser then d
  else match d.dpt.holding ptr with
    | some (c, v, 0) => d.releaseChain c v releaser
    | some _ => d.badRelease ptr releaser (SMap.get 0 d.dpt.own ptr) false
    | none =>
      if d.fab.pool.contains ptr then d.badRelease ptr releaser 0x0411 false
      else match SMap.find d.dpt.orphans ptr with
        | some w => d.badRelease ptr releaser (bits w 44 16) false
        | none => d.badRelease ptr releaser (SMap.get 0 d.dpt.own ptr) true

/-- A holder releases the chain it holds; of a chain that is gone, the release names what was its head (R191). -/
def Dev.release (d : Dev) (c releaser : Nat) : Dev :=
  if d.isRevoked releaser then d
  else match d.chain c with
    | some v => d.releaseChain c v releaser
    | none => match SMap.find d.dpt.dead c with
      | some p => d.releaseAt p releaser
      | none => d

/-- The release the depot manager makes on a revoked holder's behalf (R192 item 2). -/
def Dev.releaseFor (d : Dev) (c holder : Nat) : Dev :=
  match d.chain c with
  | some v => d.releaseChain c v holder
  | none => d

/-- Carriages released go onto their banks' free lists, in order (R179, R185). -/
def Dev.rejoinAll (d : Dev) : Dev :=
  let ps := d.dpt.rejoin
  let d := { d with dpt := { (ps ++ d.dpt.rejoinPaid).foldl Dpt.push d.dpt with rejoin := [], rejoinPaid := [] } }
  d.wr DPT_FREE.COUNT (d.rd DPT_FREE.COUNT + ps.length)

/-- One credit to a depot: the shared count follows R183; 0x200 stands for the shared depot alone. -/
def Dev.credit1 (d : Dev) (csrc n : Nat) : Dev :=
  if csrc = 0x1FE then d.wr DPT_TRANSIT_USED.COUNT (d.rd DPT_TRANSIT_USED.COUNT - n)
  else if csrc = 0x1FF then d.wr DPT_REFILL_USED.COUNT (d.rd DPT_REFILL_USED.COUNT - n)
  else if csrc = 0x200 then d.wr DPT_SHR_USED.COUNT (d.rd DPT_SHR_USED.COUNT - n)
  else
    let before := d.over csrc
    let d := d.wr (DPT_SRC_USED.COUNT csrc) (d.rd (DPT_SRC_USED.COUNT csrc) - n)
    d.wr DPT_SHR_USED.COUNT (d.rd DPT_SHR_USED.COUNT - (before - d.over csrc))

/-- The credits of earlier slot cycles (R185). -/
def Dev.creditAll (d : Dev) : Dev :=
  d.dpt.credit.foldl (fun (d : Dev) e => d.credit1 e.1 e.2) { d with dpt := { d.dpt with credit := [] } }

/-! ### Depot sizes (R188) -/

/-- Sum of a list of registers' waiting values. -/
def Dev.rsvSum (d : Dev) : Nat := ((List.range 259).map fun n => d.rdPend (DPT_SRC_RSV.RSV n)).sum

/-- Whether an address is one of the size registers of R188. -/
def dptSizeReg (a : Nat) : Bool :=
  a == DPT_TRANSIT_RSV.addr || a == DPT_REFILL_RSV.addr || (0x1801000 ≤ a && a ≤ 0x1801408)

/-- The waiting writes of depot sizes at a boundary: dropped together when the shared size would be negative (R188). -/
def Dev.dptSizes (d : Dev) : Dev :=
  if d.rwt.any (fun p => dptSizeReg p.1) then
    if 1048576 - 32768 < d.rsvSum + d.rdPend DPT_TRANSIT_RSV.SIZE + d.rdPend DPT_REFILL_RSV.SIZE then
      { d with rwt := d.rwt.filter fun p => !dptSizeReg p.1 }.wr DPT_STATUS.CFG_ERR 1
    else d
  else d

/-- The shared depot's size and use after a boundary's size writes (R182, R183). -/
def Dev.dptShared (d : Dev) (addrs : List Nat) : Dev :=
  if addrs.any dptSizeReg then
    let rsv := ((List.range 259).map fun n => d.rd (DPT_SRC_RSV.RSV n)).sum
    let d := d.wr DPT_SHR_SIZE.SIZE (1048576 - 32768 - rsv - d.rd DPT_TRANSIT_RSV.SIZE - d.rd DPT_REFILL_RSV.SIZE)
    let grown := (d.dpt.chains.map fun c => c.2.shr).sum + ((d.dpt.credit.filter fun e => e.1 == 0x200).map Prod.snd).sum
    d.wr DPT_SHR_USED.COUNT (((List.range 259).map d.over).sum + grown)
  else d

/-! ### Reads (R174, R176) -/

/-- Continuous slot cycles count modulo 504 × 2^48, as the tick number wraps. -/
def scMod : Nat := 504 * tickMod

/-- Slot cycles from `b` to `a`. -/
def scSub (a b : Nat) : Nat := (a + scMod - b % scMod) % scMod

/-- Slot cycle `c` is not before `b`. -/
def scReached (b c : Nat) : Bool := scSub c b < scMod / 2

/-- Reads of the carriages `lo` to `lo + n - 1` of a chain owed at a read port, carriage `lo + i` not before a slot cycle. -/
def Dev.readChain (d : Dev) (port c lo n : Nat) (why : ReadFor) (from_ : Nat → Nat) : Dev :=
  match d.chain c with
  | none => d
  | some v =>
    let rs := (List.range (min n (v.ncar - lo))).map fun i => ({ port, chain := c, idx := lo + i, why, from_ := from_ i } : CarRead)
    { d with dpt := { d.dpt with readQ := d.dpt.readQ ++ rs } }

/-- The slot cycle, from `c` on, in which a read port holds a carriage's bank (R174). -/
def touchAt (port c p : Nat) : Nat := (c + (ptrBank p + 256 - readBank port c) % 128) % scMod

/-- The carriage a read would read and the slot cycle it would touch its bank in, if it can issue in slot cycle `c`: it waits while its
carriage is not placed, and while a read in flight at the port touches that bank in the same slot cycle (R173). A read beyond the end of
its chain reads nothing. -/
def Dev.canRead (d : Dev) (c : Nat) (r : CarRead) : Option (Option (Nat × Nat)) :=
  if !scReached r.from_ c then none
  else match d.chain r.chain with
    | none => some none
    | some v =>
      if v.ncar ≤ r.idx then some none
      else match v.ptrs[r.idx]? with
        | none => none
        | some p =>
          let t := touchAt r.port c p
          if d.dpt.reads.any fun x => x.rd.port == r.port && (x.touch.map Prod.snd) == some t then none else some (some (p, t))

/-- The order of what a read port carries: departures, then punts, then spills (R230, R311). -/
def ReadFor.rank : ReadFor → Nat
  | .depart _ => 0
  | .punt _ _ => 1
  | .spill _ => 2

/-- A read port issues one read in the slot cycle in progress (R176): its carriage is charged to the tick (R288). -/
def Dev.readIssue1 (d : Dev) (port : Nat) : Dev :=
  let mine := d.dpt.readQ.filter fun r => r.port == port
  let pick (k : Nat) : Option (CarRead × Option (Nat × Nat)) :=
    mine.findSome? fun r => if r.why.rank = k then (d.canRead d.sc r).map fun t => (r, t) else none
  match (pick 0).orElse fun _ => (pick 1).orElse fun _ => pick 2 with
  | none => d
  | some (r, t) =>
    let d := { d with dpt := { d.dpt with readQ := d.dpt.readQ.erase r, reads := d.dpt.reads ++ [{ rd := r, at_ := d.sc, touch := t }] } }
    if t.isSome then d.charge d.tck.now 0x21 1 else d

/-- Every read port issues at most one read. -/
def Dev.readIssue (d : Dev) : Dev := ((d.dpt.readQ.map CarRead.port).eraseDups).foldl Dev.readIssue1 d

/-! ### Tail errors (R195, R198) -/

/-- A tail error is flagged (R195). -/
def Dev.tailErr (d : Dev) : Dev := d.wr DPT_STATUS.TAIL_ERR 1

/-- TERR set in a chain's head (R195), which an uncorrectable word brought about. -/
def Dev.setTerr (d : Dev) (c : Nat) : Dev :=
  match d.chain c with
  | some v => if v.terr ∧ v.ue then d else (d.setChain c { v with terr := true, ue := true }).tailErr
  | none => d

/-- An uncorrectable data word of a carriage. -/
def Dev.carUe (d : Dev) (ptr : Nat) : Dev :=
  let d := d.wrs [(DPT_UE_WHERE.PTR, ptr), (DPT_UE_WHERE.HDR, 0)]
  let d := d.wordFault 0x200 .carData ptr 0x200 contained 0x02 (ptr * 2 ^ 72)
  match d.dpt.holding ptr with
  | some (c, _, _) => d.setTerr c
  | none => d

/-- What is still to be sent of a chain cut to `keep` bytes ends there too (R196, R198). -/
def Dev.cutSent (d : Dev) (c keep : Nat) : Dev :=
  let cutDep (x : Depart) : Depart :=
    if x.chain = c ∧ keep < x.stored then { x with bytes := x.bytes.take (x.bytes.length - (x.stored - keep)), stored := keep } else x
  let wan := { d.wan with deps := d.wan.deps.map cutDep, tx := d.wan.tx.map fun t => { t with x := cutDep t.x } }
  let hst := { d.hst with
    punts := d.hst.punts.map (fun p => if p.chain = c then { p with bytes := p.bytes.take keep } else p),
    recs := d.hst.recs.map fun p => if p.chain = c ∧ ¬ p.done then { p with bytes := p.bytes.take keep } else p }
  { d with wan, hst }

/-- A header word of a carriage with an uncorrectable error ends the chain at the carriage before it (R198): the carriages beyond become
orphans. DEDUCED (log entry 71): before a head there is no carriage, and the whole chain is treated as a tail error. -/
def Dev.hdrUe (d : Dev) (ptr : Nat) : Dev :=
  let d := d.wrs [(DPT_UE_WHERE.PTR, ptr), (DPT_UE_WHERE.HDR, 1)]
  let d := d.wordFault 0x200 .carHdr ptr 0x200 contained 0x02 (ptr * 2 ^ 72 + 2 ^ 71)
  let d := if d.on DPT_AUD_CTRL.AUTO then { d with dpt := { d.dpt with audWanted := true } } else d
  match d.dpt.holding ptr with
  | none => d
  | some (c, _, 0) => d.setTerr c
  | some (c, v, k) =>
    let orphans := (List.range (v.ptrs.length - k)).foldl (fun m i => SMap.ins m (v.ptrs.getD (k + i) 0) (d.dpt.word0 v (k + i))) d.dpt.orphans
    let d := { d with dpt := { d.dpt with orphans } }
    ((d.setChain c { v with ptrs := v.ptrs.take k, bytes := v.bytes.take (256 * k), terr := true, ue := true }).tailErr).cutSent c (256 * k)

/-- The single-bit errors of a carriage's words are corrected, rewritten, logged and counted (R195). -/
def Dev.carFix (d : Dev) (st : Store) (ptr : Nat) : Dev :=
  let n := d.ceIn 0x200 st ptr 0 64
  if n = 0 then d
  else ((List.range n).foldl (fun (d : Dev) _ =>
    (d.wordFault 0x200 st ptr 0x200 corrected 0x01).bump DPT_SCRUB_CE.COUNT) d).eccFix 0x200 st ptr

/-- A carriage's words as a read or the scrubber finds them, whoever holds it (R195, R198). -/
def Dev.carCheck (d : Dev) (ptr : Nat) : Dev :=
  let d := (d.carFix .carHdr ptr).carFix .carData ptr
  let d := if d.ueAt 0x200 .carHdr ptr then d.hdrUe ptr else d
  if d.ueAt 0x200 .carData ptr then d.carUe ptr else d

/-- The read ports touch the banks they hold in the slot cycle in progress (R174): the words are checked, and a departure that meets an
uncorrectable one is noted (R196). -/
def Dev.readTouch (d : Dev) : Dev :=
  let now := d.dpt.reads.filter fun x => (x.touch.map Prod.snd) == some d.sc
  now.foldl (fun (d : Dev) x =>
    let p := (x.touch.map Prod.fst).getD 0
    let bad : Bool := d.ueAt 0x200 .carData p || d.ueAt 0x200 .carHdr p
    let reads := d.dpt.reads.map fun y => if y = x then { y with touch := none } else y
    let hurt := if bad then d.dpt.hurt ++ [x.rd.why] else d.dpt.hurt
    { d with dpt := { d.dpt with reads, hurt } }.carCheck p) d

/-- A read for a reason is owed or in flight. -/
def Dev.reading (d : Dev) (why : ReadFor) : Bool :=
  d.dpt.readQ.any (fun r => r.why == why) || d.dpt.reads.any fun x => x.rd.why == why

end Sys2Proof.Machine
end

