-- ==== Sys2Proof/Machine/Record.lean ====
section
/-! DEFINITION. Output records of the replay digest (R29, Table 1.8), ordered lists, and what the scheduler sees of its ports
(R219, R256, R278). -/

namespace Sys2Proof.Machine

/-! ### Ordered lists -/

/-- Lexicographic order of lists of numbers, as a test. -/
def lexLe : List Nat → List Nat → Bool
  | [], _ => true
  | _ :: _, [] => false
  | a :: r, b :: s => a < b || (a = b && lexLe r s)

/-- An element put behind every element that does not come after it. -/
def insertKey {α : Type} (key : α → List Nat) (x : α) : List α → List α
  | [] => [x]
  | y :: r => if lexLe (key y) (key x) then y :: insertKey key x r else x :: y :: r

/-- A list in ascending order of a key; equal keys keep their order. -/
def sortKey {α : Type} (key : α → List Nat) (l : List α) : List α := l.foldl (fun acc x => insertKey key x acc) []

/-! ### Output records -/

/-- The units of R29. -/
abbrev unitSched : Nat := 128
abbrev unitFabric : Nat := 129

/-- Append an output record of a tick (R29): a unit, its slot, rank and tick fields, the type code, the queue ID of a
scheduler record, and the fields after the type code. -/
def Dev.record (d : Dev) (tick unit slot rank tickField type queue : Nat) (fields : List Byte) : Dev :=
  { d with tck := { d.tck with recs := d.tck.recs ++
      [{ tick, unit, slot, rank, tickField, type, queue, bytes := BitVec.ofNat 8 type :: fields }] } }

/-- The slot field as two bytes, the tick field as six (R29). -/
def tickSlotBytes (tick slot : Nat) : List Byte := beBytes 6 tick ++ beBytes 2 slot

/-- A Drop record of a pipeline (Table 1.8): the rank is present only when the slot is 0x1FF. -/
def Dev.recDrop (d : Dev) (tick unit atick aslot rank reason : Nat) : Dev :=
  d.record tick unit aslot rank atick 1 0
    (tickSlotBytes atick aslot ++ (if aslot = 0x1FF then beBytes 2 rank else []) ++ beBytes 1 reason)

/-- A Punt record (Table 1.8). -/
def Dev.recPunt (d : Dev) (tick unit atick aslot ring : Nat) (bytes : List Byte) : Dev :=
  d.record tick unit aslot 0 atick 2 0
    (tickSlotBytes atick aslot ++ beBytes 1 ring ++ beBytes 2 bytes.length ++ beBytes 4 (crc32c bytes))

/-- The admission slot in ASRC (Table 2.2). -/
abbrev mASLOT (m : Manifest) : Nat := bits (mASRC m) 0 9

/-- The admission pipeline in ASRC. -/
abbrev mAPIPE (m : Manifest) : Nat := bits (mASRC m) 16 6

/-- A Queue drop record (Table 1.8). -/
def Dev.recQueueDrop (d : Dev) (tick q : Nat) (m : Manifest) (reason : Nat) : Dev :=
  d.record tick unitSched (mASLOT m) 0 (mATICK m) 4 q (beBytes 3 q ++ tickSlotBytes (mATICK m) (mASLOT m) ++ beBytes 1 reason)

/-- An ECN mark record (Table 1.8). -/
def Dev.recMark (d : Dev) (tick q : Nat) (m : Manifest) : Dev :=
  d.record tick unitSched (mASLOT m) 0 (mATICK m) 5 q (beBytes 3 q ++ tickSlotBytes (mATICK m) (mASLOT m))

/-! ### Ports as the scheduler sees them -/

/-- Whether WAN port `n` exists in a cage mode (Table 10.1). -/
def portInMode (mode n : Nat) : Bool :=
  (mode = 1 && n % 8 = 0) || (mode = 2 && n % 4 = 0) || (mode = 3 && n % 2 = 0) || mode = 4

/-- Whether WAN port `n` exists (R247, R248). -/
def Dev.wanExists (d : Dev) (n : Nat) : Bool := n < 256 && portInMode (d.rd (WAN_CAGE.MODE (n / 8))) n

/-- The scheduler sees a WAN port up (R219, R256, R257). -/
def Dev.wanUp (d : Dev) (n : Nat) : Bool := d.wanExists n && (d.on (WAN_PORT_ST.LINK n) || d.on (WAN_PORT_ST.MASKED n))

/-- Lanes in the transmit set of a group (R283). -/
def Dev.fabLanes (d : Dev) (g : Nat) : Nat := (List.range 5).countP fun i => d.on (FAB_LANE.IN_SET (5 * g + i))

/-- The grant or reach bit of a device ID (R278). -/
def Dev.fabBit (d : Dev) (f : Nat → Field) (ddev : Nat) : Bool := bit (d.rd (f (ddev / 32))) (ddev % 32)

/-- The transmit set of a group meets FAB_CTRL.MINLANES (R278): 0 acts as 1, 6 and 7 as 5 (Table 11.6). -/
def Dev.fabEnough (d : Dev) (g : Nat) : Bool := max 1 (min 5 (d.rd FAB_CTRL.MINLANES)) ≤ d.fabLanes g

/-- A virtual port is up for a group (R278), while the interface runs (R286). -/
def Dev.fabUp (d : Dev) (g vp : Nat) : Bool :=
  d.on FAB_CTRL.EN && d.on FAB_STATUS.UP && d.on (FAB_VP.EN vp) && d.fabBit FAB_REACH.BITS (d.rd (FAB_VP.DDEV vp)) && d.fabEnough g

/-- A virtual port is granted for a group (R278). -/
def Dev.fabGranted (d : Dev) (g vp : Nat) : Bool :=
  d.on (FAB_VP.EN vp) && d.fabBit FAB_GRANT.BITS (d.rd (FAB_VP.DDEV vp)) && d.fabEnough g

/-! ### The bank and the variant of the tick to come -/

/-- A swap armed for a tick will take effect there (R99, R103). -/
def Dev.swapsAt (d : Dev) (t : Nat) : Bool :=
  d.on CHT_STATUS.ARMED &&
  (if d.cht.armScope = 2 then
    match d.cht.held with
    | some h => h.target = t && h.chartId = d.shadow.chartId && 3 ≤ tickSub h.target h.receipt
    | none => false
  else d.cht.armTarget = t)

/-- A swap of the tick in progress has not yet been taken by its own step (R99). -/
def Dev.swapDue (d : Dev) : Bool := d.swapsAt d.tck.now

/-- The number of the bank active in the tick in progress (R77, R99), and the bank. -/
def Dev.bankNow (d : Dev) : Nat := if d.swapDue then 1 - d.activeNo else d.activeNo
def Dev.chartNow (d : Dev) : ChartBank := d.cht.bank d.bankNow

/-- The bank whose itinerary governs the next tick (R99, R211). -/
def Dev.nextBank (d : Dev) : ChartBank :=
  if d.swapDue || d.swapsAt (tickAdd d.tck.now 1) then d.shadow else d.active

/-- The variant named for a tick (R289); FULL where none is named. -/
def Dev.variantOf (d : Dev) (t : Nat) : Nat := SMap.get 0 d.nrg.named t

end Sys2Proof.Machine
end

