-- ==== Sys2Proof/Machine/Que.lean ====
section
/-! DEFINITION. Queues, scheduling and shaping (chapter 8): the descriptors and their configuration (R202 to R205), enqueues
(R206 to R210), and the scheduler's round (R211 to R222). -/

namespace Sys2Proof.Machine

/-! ### Entities -/

/-- An entity: its type (0 queue, 1 L2, 2 L1, 3 L0, 4 group arbiter) and index (R200). -/
abbrev Ent := Nat × Nat

/-- The key of an entity or descriptor. -/
def entKey (e : Ent) : Nat := e.1 * 2 ^ 18 + e.2

/-- A descriptor's stored words as one number. -/
def Dev.desc (d : Dev) (e : Ent) : Nat := (SMap.get 0#256 d.que.cfg (entKey e)).toNat

/-- A field of DATA`w` of a descriptor. -/
def dfield (v w low width : Nat) : Nat := bits v (32 * w + low) width

/-- The parent of an entity (R200). -/
def Dev.parent (d : Dev) (e : Ent) : Ent :=
  if e.1 = 3 then (4, e.2 / 8) else (e.1 + 1, dfield (d.desc e) 0 0 15)

/-- The entities of a queue's path below its group arbiter, from the queue upward (R200). -/
def Dev.path (d : Dev) (q : Nat) : List Ent :=
  let l2 := d.parent (0, q)
  let l1 := d.parent l2
  [(0, q), l2, l1, d.parent l1]

/-- The L0 node of a queue. -/
def Dev.l0Of (d : Dev) (q : Nat) : Nat := (d.parent (d.parent (d.parent (0, q)))).2

/-- The port group of a queue. -/
def Dev.groupOf (d : Dev) (q : Nat) : Nat := d.l0Of q / 8

def Dev.entEn (d : Dev) (e : Ent) : Bool := dfield (d.desc e) 0 31 1 = 1
def Dev.entWeight (d : Dev) (e : Ent) : Nat := dfield (d.desc e) 0 20 8
def Dev.entPri (d : Dev) (e : Ent) : Bool := dfield (d.desc e) 0 (if e.1 = 3 then 28 else 29) 1 = 1
def Dev.cirEn (d : Dev) (e : Ent) : Bool := e.1 != 0 && dfield (d.desc e) 5 1 1 = 1
def Dev.pirEn (d : Dev) (e : Ent) : Bool := e.1 != 0 && dfield (d.desc e) 5 0 1 = 1

/-- A queue of kind replicate (R206). -/
def Dev.replicate (d : Dev) (q : Nat) : Bool := dfield (d.desc (0, q)) 0 30 1 = 1

/-- An L0 node's kind, ceiling, port and PIN (Table 8.1). -/
def Dev.l0Kind (d : Dev) (n : Nat) : Nat := dfield (d.desc (3, n)) 0 29 2
def Dev.l0Ceil (d : Dev) (n : Nat) : Nat := dfield (d.desc (3, n)) 0 10 5
def Dev.l0Port (d : Dev) (n : Nat) : Nat := dfield (d.desc (3, n)) 0 0 8
def Dev.l0Pin (d : Dev) (n : Nat) : Bool := dfield (d.desc (3, n)) 0 19 1 = 1

/-- The length the scheduler measures under an L0 node (R208). -/
def Dev.wireLen (d : Dev) (n len : Nat) : Nat :=
  max 1 (len + sInt 8 (d.rd (QUE_OVH.OVH (dfield (d.desc (3, n)) 0 15 4)))).toNat

/-- The increment of a child's finish tag for a length (R214). -/
def Dev.delta (d : Dev) (e : Ent) (l : Nat) : Nat := l * 256 / d.entWeight e

/-! ### Queues -/

/-- A queue's state. -/
def Dev.queue (d : Dev) (q : Nat) : QState := SMap.get QState.empty d.que.q q

/-- The machine with a queue's state set. -/
def Dev.setQueue (d : Dev) (q : Nat) (v : QState) : Dev :=
  { d with que := { d.que with q := SMap.set QState.empty d.que.q q v } }

/-- A queue's packets in order (R226). -/
def QState.pkts (q : QState) : List QPkt := q.front ++ q.middle ++ q.back

/-- A queue's depth in bytes, in both tiers (R209, R222). -/
def QState.depth (q : QState) : Nat := (q.pkts.map fun p => mLEN p.m).sum

/-- A packet's length in carriages. -/
def QPkt.car (p : QPkt) : Nat := carriages (mLEN p.m)

/-- The back of a queue joins its front. -/
def QState.join (q : QState) : QState := { q with front := q.front ++ q.back, back := [] }

/-- When the middle of a queue empties, its back joins its front (R226). -/
def QState.joinFrom (q was : QState) : QState := if q.middle.isEmpty && !was.middle.isEmpty then q.join else q

/-- DESIGN CHOICE (log entry 72): a back with neither a middle nor a front before it, which nothing would ever serve, joins the front. -/
def QState.unstick (q : QState) : QState := if q.middle.isEmpty && q.front.isEmpty then q.join else q

/-- An entity's subtree holds a packet (R214). -/
def Dev.holds (d : Dev) (e : Ent) : Bool :=
  d.que.q.any fun p => !p.2.pkts.isEmpty && ((d.path p.1).contains e || (e.1 = 4 && d.groupOf p.1 = e.2))

/-- Finish tag and virtual time (R214). -/
def Dev.tag (d : Dev) (e : Ent) : Nat := SMap.get 0 d.que.tagF (entKey e)
def Dev.vtime (d : Dev) (e : Ent) : Nat := SMap.get 0 d.que.vt (entKey e)
def Dev.setTag (d : Dev) (e : Ent) (v : Nat) : Dev :=
  { d with que := { d.que with tagF := SMap.set 0 d.que.tagF (entKey e) (v % tickMod) } }
def Dev.setVtime (d : Dev) (e : Ent) (v : Nat) : Dev :=
  { d with que := { d.que with vt := SMap.set 0 d.que.vt (entKey e) (v % tickMod) } }

/-- Committed and peak buckets (R217). -/
def Dev.tc (d : Dev) (e : Ent) : Int := SMap.get 0 d.que.tc (entKey e)
def Dev.tp (d : Dev) (e : Ent) : Int := SMap.get 0 d.que.tp (entKey e)
def Dev.setTc (d : Dev) (e : Ent) (v : Int) : Dev := { d with que := { d.que with tc := SMap.set 0 d.que.tc (entKey e) v } }
def Dev.setTp (d : Dev) (e : Ent) (v : Int) : Dev := { d with que := { d.que with tp := SMap.set 0 d.que.tp (entKey e) v } }

/-- The states of Table 8.6. -/
abbrev l0Up : Nat := 0
abbrev l0Hold : Nat := 1
abbrev l0Flush : Nat := 2
abbrev l0Down : Nat := 3

/-- The state of an L0 node and what it keeps beside its register. -/
def Dev.l0State (d : Dev) (n : Nat) : Nat := d.rd (QUE_L0_ST.STATE n)
def Dev.l0 (d : Dev) (n : Nat) : L0St := SMap.get L0St.reset d.que.l0 n
def Dev.setL0 (d : Dev) (n : Nat) (v : L0St) : Dev := { d with que := { d.que with l0 := SMap.set L0St.reset d.que.l0 n v } }

/-! ### Configuration (R203 to R205) -/

/-- Entities or entries of a TYPE; none for a reserved TYPE. -/
def queTypeCount (t : Nat) : Option Nat :=
  if t = 0 ∨ t = 7 then some 262144 else if t = 1 then some 32768 else if t = 2 then some 4096 else if t = 3 then some 512
  else if t = 4 then some 256 else if t = 5 then some 16384 else if t = 6 then some 131072 else none

/-- The check at GO (R203, R205); the lowest code that applies. -/
def Dev.queGoCheck (d : Dev) (o : QueOp) : Nat :=
  if 256 ≤ d.que.ops.length then 0x01
  else if ¬ (o.op = 1 ∨ o.op = 2 ∨ o.op = 3) ∨ (queTypeCount o.type).isNone ∨ (o.op = 1 ∧ o.type = 7) ∨
    (o.op = 3 ∧ o.type ≠ 7) then 0x02
  else if (queTypeCount o.type).getD 0 ≤ o.index then 0x03
  else if d.isRevoked o.holder then 0x08
  else 0x00

/-- PENDING and BUSY show the operations pending. -/
def Dev.queCount (d : Dev) : Dev :=
  d.wrs [(QUE_CFG_STATUS.PENDING, d.que.ops.length), (QUE_CFG_STATUS.BUSY, b2n (!d.que.ops.isEmpty))]

/-- The operation that the registers spell (Table 8.2). -/
def Dev.queOpOf (d : Dev) (holder : Nat) : QueOp :=
  { holder, op := d.rd QUE_CFG_ADDR.OP, type := d.rd QUE_CFG_ADDR.TYPE, index := d.rd QUE_CFG_ADDR.INDEX, timed := d.on QUE_CFG_ADDR.AT,
    tick := d.rdPair QUE_CFG_TICK_LO.TICK QUE_CFG_TICK_HI.TICK, data := (List.range 8).map fun i => d.reg (QUE_CFG_DATA.addr i) }

/-- An operation is queued or refused (R203). -/
def Dev.queTake (d : Dev) (o : QueOp) : Dev :=
  let c := d.queGoCheck o
  if c = 0 then { d with que := { d.que with ops := d.que.ops ++ [o] } }.queCount
  else d.wrs [(QUE_CFG_STATUS.ERR, 1), (QUE_CFG_STATUS.CODE, c)]

/-- QUE_CFG_CMD.GO: the operation in the registers. -/
def Dev.queGo (d : Dev) (holder : Nat) : Dev := d.queTake (d.queOpOf holder)

/-- The registers as a submission writes them (R203). -/
def Dev.queLoad (d : Dev) (op type index : Nat) (timed : Bool) (tick : Nat) (data : List (BitVec 32)) : Dev :=
  let d := d.wrs [(QUE_CFG_ADDR.INDEX, index), (QUE_CFG_ADDR.TYPE, type), (QUE_CFG_ADDR.OP, op), (QUE_CFG_ADDR.AT, b2n timed)]
  let d := d.wrTick QUE_CFG_TICK_LO.TICK QUE_CFG_TICK_HI.TICK tick
  (List.range data.length).foldl (fun (d : Dev) i => d.setReg (QUE_CFG_DATA.addr i) (data.getD i 0)) d

/-- A submission: the registers are written, then GO (R203). -/
def Dev.queSubmit (d : Dev) (holder op type index : Nat) (timed : Bool) (tick : Nat) (data : List (BitVec 32)) : Dev :=
  (d.queLoad op type index timed tick data).queGo holder

/-- The bits of a descriptor that Table 8.1 uses, under the type and kind (0x04). -/
def queUsedMask (t v : Nat) : Nat :=
  let shaper := 0xFFFFFFFF * 2 ^ 32 + 0xFFFFFFFF * 2 ^ 64 + 0xFFFFFF * 2 ^ 96 + 0xFFFFFF * 2 ^ 128 + 3 * 2 ^ 160
  if t = 0 then
    if dfield v 0 30 1 = 1 then 0xFFF07FFF + 0xFFFFFF00 * 2 ^ 32 + 0x3FFF * 2 ^ 64 else 0xFFF07FFF + 0xFFFFFF00 * 2 ^ 32
  else if t = 1 ∨ t = 2 then 0xAFF07FFF + shaper
  else if t = 3 then 0xFFFFFCFF + shaper
  else if t = 4 then (List.range 3).foldl (fun a c => a + (0xFFFFFF + 0xFFFFFFFF * 2 ^ 32) * 2 ^ (64 * c)) 0
  else if t = 5 then 0x8001FFFF + 0xFFF * 2 ^ 32
  else 0x8003FFFF

/-- The field ranges of code 0x05. -/
def queFieldBad (t v : Nat) : Bool :=
  let noWeight := dfield v 0 31 1 = 1 && dfield v 0 20 8 = 0
  if t = 0 then noWeight && dfield v 0 30 1 = 0
  else if t = 1 then noWeight || 4095 < dfield v 0 0 15
  else if t = 2 then noWeight || 511 < dfield v 0 0 15
  else if t = 3 then noWeight || 2 ≤ dfield v 0 29 2 || 16 < dfield v 0 10 5
  else if t = 4 then (List.range 3).any fun c => dfield v (2 * c + 1) 0 24 != 0 && dfield v (2 * c + 1) 0 24 < dfield v (2 * c) 0 24
  else if t = 5 then 131072 < dfield v 0 0 17 + dfield v 1 0 12
  else false

/-- A WRITE moves an entity that holds a packet (R205, 0x06). -/
def Dev.queMoves (d : Dev) (t i v : Nat) : Bool :=
  let o := d.desc (t, i)
  let changed :=
    if t = 0 then dfield o 0 0 15 != dfield v 0 0 15 || dfield o 0 30 1 != dfield v 0 30 1
    else if t = 1 ∨ t = 2 then dfield o 0 0 15 != dfield v 0 0 15
    else t = 3 && (dfield o 0 29 2 != dfield v 0 29 2 || dfield o 0 0 8 != dfield v 0 0 8)
  changed && d.holds (t, i)

/-- The ceilings of the enabled L0 nodes of a group would sum above 16 (0x07). -/
def Dev.queCeilBad (d : Dev) (t i v : Nat) : Bool :=
  let cell (n : Nat) : Nat := let x := if n = i then v else d.desc (3, n)
    if dfield x 0 31 1 = 1 then dfield x 0 10 5 else 0
  t = 3 && 16 < ((List.range 8).map fun k => cell (8 * (i / 8) + k)).sum

/-- The check of a WRITE as it applies; the lowest code (Table 8.2). -/
def Dev.queCheck (d : Dev) (t i v : Nat) : Nat :=
  if v &&& (2 ^ 256 - 1 - queUsedMask t v) ≠ 0 then 0x04
  else if queFieldBad t v then 0x05
  else if d.queMoves t i v then 0x06
  else if d.queCeilBad t i v then 0x07
  else 0x00

/-- A WRITE applies (R204); a node's buckets start full (R205). -/
def Dev.queWrite (d : Dev) (t i v : Nat) : Dev :=
  let d := { d with que := { d.que with cfg := SMap.set 0#256 d.que.cfg (entKey (t, i)) (BitVec.ofNat 256 v) } }
  let d := if 1 ≤ t ∧ t ≤ 3 then
      (d.setTc (t, i) (256 * dfield v 3 0 24)).setTp (t, i) (256 * dfield v 4 0 24)
    else d
  d.commit

/-- The words of Table 8.4. -/
def Dev.queStateWords (d : Dev) (q : Nat) : List Nat :=
  let s := d.queue q
  let res := match s.pkts.head? with
    | some p => min (tickSub d.tck.now p.etick) 0xFFFFFF
    | none => 0
  [s.depth % 2 ^ 32, s.depth / 2 ^ 32, s.pkts.length, s.high, res, s.deq % 2 ^ 32, s.dropped % 2 ^ 32, s.marked % 2 ^ 32]

/-- A READ shows its result in the data registers (R222). -/
def Dev.queShow (d : Dev) (t i : Nat) : Dev :=
  let ws := if t = 7 then d.queStateWords i else (List.range 8).map fun w => dfield (d.desc (t, i)) w 0 32
  (List.range 8).foldl (fun (d : Dev) k => d.setReg (QUE_CFG_DATA.addr k) (BitVec.ofNat 32 (ws.getD k 0))) d

/-- An operation completes with a code (R204). -/
def Dev.queDone (d : Dev) (c : Nat) : Dev :=
  let d := d.wrs [(QUE_CFG_STATUS.DONE, 1), (QUE_CFG_STATUS.CODE, c)]
  if c = 0 then d else d.wr QUE_CFG_STATUS.ERR 1

/-- A failure at a boundary: the first of the tick is recorded (R204). -/
def Dev.queFail (d : Dev) (seen : Bool) (o : QueOp) (c : Nat) : Dev :=
  let d := (d.queDone c).wr QUE_STATUS.CFG_ERR 1
  if seen then d else d.wrs [(QUE_CFG_ERR.INDEX, o.index), (QUE_CFG_ERR.TYPE, o.type), (QUE_CFG_ERR.CODE, c)]

/-- The operation at the head applies or fails (R204, R222); the result says whether a failure is now seen. -/
def Dev.queOne (d : Dev) (seen : Bool) (o : QueOp) : Dev × Bool :=
  if o.op = 1 then
    let v := (List.range 8).foldl (fun a w => a + (o.data.getD w 0).toNat * 2 ^ (32 * w)) 0
    let c := d.queCheck o.type o.index v
    if c = 0 then ((d.queWrite o.type o.index v).queDone 0, seen) else (d.queFail seen o c, true)
  else
    let d := (d.queShow o.type o.index).queDone 0
    if o.op = 3 then
      (d.setQueue o.index { d.queue o.index with high := 0, deq := 0, dropped := 0, marked := 0 }, seen)
    else (d, seen)

/-- The pending operations at the boundary of the tick in progress (R204), with a bound on their number. -/
def Dev.queApply (d : Dev) : Nat → Bool → Dev
  | 0, _ => d.queCount
  | k + 1, seen =>
    match d.que.ops with
    | [] => d.queCount
    | o :: r =>
      if o.timed ∧ tickFuture o.tick d.tck.now then d.queCount
      else
        let d := { d with que := { d.que with ops := r } }
        if o.timed ∧ o.tick ≠ d.tck.now then (d.queFail seen o 0x09).queApply k true
        else let x := d.queOne seen o; x.1.queApply k x.2

/-- A revocation ends the holder's queued operations (R205). -/
def Dev.queRevoke (d : Dev) (h : Nat) : Dev :=
  if d.que.ops.any fun o => o.holder == h then
    ({ d with que := { d.que with ops := d.que.ops.filter fun o => o.holder != h } }.queDone 0x08).queCount
  else d

/-! ### Enqueue (R206 to R210) -/

/-- The draw of the ramp (R209): the low 16 bits of a CRC-32C of 13 bytes. -/
def rampDraw (q atick aslot copy : Nat) : Nat :=
  crc32c (beBytes 3 q ++ beBytes 6 atick ++ beBytes 2 aslot ++ beBytes 2 copy) % 2 ^ 16

/-- The decision of R209 for a packet: a drop reason, or 0 to append, and whether it is marked. -/
def Dev.enqDecide (d : Dev) (q : Nat) (m : Manifest) (copyIdx : Nat) : Nat × Bool :=
  if !(d.path q).all d.entEn then (0x38, false)
  else if d.l0State (d.l0Of q) = l0Flush ∨ d.l0State (d.l0Of q) = l0Down then (0x3D, false)
  else
    let prof := d.desc (4, dfield (d.desc (0, q)) 1 24 8)
    let col := min (bits (mFWD m) 28 2) 2
    let mn := dfield prof (2 * col) 0 24
    let mx := dfield prof (2 * col + 1) 0 24
    let pmax := dfield prof (2 * col + 1) 24 8
    let u := (d.queue q).depth / 256
    if mx ≠ 0 ∧ mx ≤ u then (0x39, false)
    else if mx ≠ 0 ∧ pmax ≠ 0 ∧ mn ≤ u then
      let p := pmax * 256 * (u - mn) / (mx - mn)
      if rampDraw q (mATICK m) (mASLOT m) copyIdx < p then
        if bit (mFWD m) 31 then (0, true) else (0x3A, false)
      else (0, false)
    else (0, false)

/-- The manifest as the queue store holds it (R207, R210): the queue ID, and the colour of a marked packet. -/
def queManifest (m : Manifest) (q : Nat) (mark : Bool) : Manifest :=
  let f := mFWD m
  let col := if mark then 3 else if bits f 28 2 = 3 then 2 else bits f 28 2
  mset m 0x1F4 4 (setBits (setBits f 28 2 col) 0 18 q)

/-- The counter of a queue drop reason (Table 8.3). -/
def queDropCounter (reason : Nat) : Field :=
  if reason = 0x38 then QUE_DROP_DISABLED.COUNT else if reason = 0x39 then QUE_DROP_HARD.COUNT
  else if reason = 0x3A then QUE_DROP_RAMP.COUNT else if reason = 0x3B then QUE_DROP_AGED.COUNT
  else if reason = 0x3C then QUE_DROP_FLUSH.COUNT else if reason = 0x3D then QUE_DROP_PORTDOWN.COUNT
  else if reason = 0x3E then QUE_DROP_BATCH.COUNT else if reason = 0x33 then YRD_DROP_REC.COUNT else YRD_DROP_STK.COUNT

/-- A queue drop is counted and recorded (R29, Table 8.3). -/
def Dev.queDropped (d : Dev) (q : Nat) (m : Manifest) (reason : Nat) : Dev :=
  ((d.bump (queDropCounter reason)).evt 0x31 0x23 (some (d.groupOf q))).recQueueDrop d.tck.now q m reason

/-- A drop by R209 also counts in the queue (R222). -/
def Dev.queCountDrop (d : Dev) (q : Nat) : Dev :=
  let s := d.queue q
  d.setQueue q { s with dropped := s.dropped + 1 }

/-- Activation (R214): every entity of the path that held no packet takes V_p + Δ_e(L). -/
def Dev.activate (d : Dev) (q len : Nat) : Dev :=
  let l := d.wireLen (d.l0Of q) len
  ((d.path q).filter fun e => !d.holds e).foldl
    (fun (d : Dev) e => d.setTag e (d.vtime (d.parent e) + d.delta e l)) d

/-- A packet is appended to the tail of a unicast queue (R209, R226, R227). -/
def Dev.append (d : Dev) (q etick : Nat) (p : Pkt) (mark : Bool) : Dev :=
  let d := d.activate q (mLEN p.m)
  let id := d.que.nextId
  let k : QPkt := { id, m := queManifest p.m q mark, etick, copy := p.copy, trunc := p.trunc, frame := p.frame, refilled := false, loc := .res p.chain }
  let s := d.queue q
  let alone := s.pkts.isEmpty
  let transit := match d.chain p.chain with
    | some c => c.csrc == 0x1FE
    | none => false
  let s := if !s.middle.isEmpty || !s.back.isEmpty || transit then { s with back := s.back ++ [k] }
    else { s with front := s.front ++ [k] }
  let s := { s with high := max s.high (ceilDiv s.depth 256), marked := s.marked + b2n mark }
  let d := d.setQueue q s
  let d := { d with que := { d.que with nextId := id + 1, applied := d.que.applied ++ [(q, id, alone)] } }
  let d := d.evt 0x31 0x20 (some (d.groupOf q))
  if mark then ((d.bump QUE_MARK.COUNT).evt 0x31 0x22 (some (d.groupOf q))).recMark d.tck.now q k.m else d

/-- One enqueue to a unicast queue: kept or not. `extra` says that a kept packet adds a reference to the chain (R207). -/
def Dev.enqOne (d : Dev) (q etick copyIdx : Nat) (p : Pkt) (extra : Bool) : Bool × Dev :=
  let r := d.enqDecide q p.m copyIdx
  if r.1 ≠ 0 then (false, (d.queDropped q p.m r.1).queCountDrop q)
  else if extra then
    match d.coupleUp p.chain 0x0200 with
    | (some true, d) => (true, d.append q etick p r.2)
    | (some false, d) => (false, d.recQueueDrop d.tck.now q p.m 0x32)
    | (none, d) => (false, d)
  else (true, d.append q etick p r.2)

/-- Member entries of a replication list, by position, with the member queue: VALID 0 or not unicast is skipped (R207). -/
def Dev.members (d : Dev) (list : Nat) : List (Nat × Option Nat) :=
  let v := d.desc (5, list)
  (List.range (dfield v 1 0 12)).map fun e =>
    let m := d.desc (6, dfield v 0 0 17 + e)
    let q := dfield m 0 0 18
    (e, if dfield m 0 31 1 = 1 ∧ !d.replicate q then some q else none)

/-- The most enqueues a batch applies (R206). -/
abbrev batchMax : Nat := 65536

/-- A batch's enqueue beyond the limit (R206). -/
def Dev.batchOver (d : Dev) (q : Nat) (m : Manifest) : Dev :=
  (d.queDropped q m 0x3E).wr QUE_STATUS.BATCH_OVF 1

/-- The copies of an enqueue to a replicate queue, in member order (R207): how many enqueues the batch has applied, whether
a copy has been kept. -/
def Dev.enqCopies (d : Dev) (etick : Nat) (p : Pkt) (n : Nat) (kept : Bool) : List (Nat × Option Nat) → Nat × Bool × Dev
  | [] => (n, kept, d)
  | (_, none) :: r => (d.bump QUE_REPL_SKIP.COUNT).enqCopies etick p n kept r
  | (e, some q) :: r =>
    if batchMax ≤ n then (d.batchOver q p.m).enqCopies etick p n kept r
    else
      let x := d.enqOne q etick (if p.copy then 0x8000 + e else e) p kept
      x.2.enqCopies etick p (n + 1) (kept || x.1) r

/-- One enqueue of the batch (R206, R207, R209); beyond the limit every enqueue is dropped with 0x3E, one for each copy of a list that
makes any. -/
def Dev.enqueue (st : Nat × Dev) (e : Enq) : Nat × Dev :=
  let n := st.1
  let d := st.2
  if d.replicate e.queue then
    let list := dfield (d.desc (0, e.queue)) 2 0 14
    let off : Bool := !d.entEn (0, e.queue) || dfield (d.desc (5, list)) 0 31 1 = 0
    if batchMax ≤ n ∧ (off ∨ ¬ (d.members list).any fun x => x.2.isSome) then
      (n, (d.batchOver e.queue e.pkt.m).release e.pkt.chain 0x0200)
    else if off then (n, (d.queDropped e.queue e.pkt.m 0x38).release e.pkt.chain 0x0200)
    else
      let x := d.enqCopies e.tick e.pkt n false (d.members list)
      (x.1, if x.2.1 then x.2.2 else x.2.2.release e.pkt.chain 0x0200)
  else if batchMax ≤ n then (n, (d.batchOver e.queue e.pkt.m).release e.pkt.chain 0x0200)
  else
    let x := d.enqOne e.queue e.tick (if e.pkt.copy then 0xFFFF else 0) e.pkt false
    (n + 1, if x.1 then x.2 else x.2.release e.pkt.chain 0x0200)

/-- The order of a batch in tick `now` (R7, R27, R206): admission slot, pipeline, admission tick, an original before its mirror copy. -/
def enqKey (now : Nat) (e : Enq) : List Nat := [mASLOT e.pkt.m, mAPIPE e.pkt.m, tickKey now (mATICK e.pkt.m), b2n e.pkt.copy]

/-- Step 2 of the round: the batch of the previous tick (R206, R211). -/
def Dev.applyBatch (d : Dev) : Dev :=
  let e := tickSub d.tck.now 1
  let now := sortKey (enqKey d.tck.now) (d.que.batch.filter fun b => b.tick == e)
  let d := { d with que := { d.que with batch := d.que.batch.filter (fun b => b.tick != e), applied := [] } }
  (now.foldl Dev.enqueue (0, d)).2

/-! ### The round -/

/-- QUE_HOLD.TICKS as it acts (R220). -/
def Dev.holdTicks (d : Dev) : Nat := min (d.rd QUE_HOLD.TICKS) 260417

/-- The port of an L0 node is up for the round (R219). -/
def Dev.l0PortUp (d : Dev) (n : Nat) : Bool :=
  if d.l0Kind n = 1 then d.fabUp (n / 8) (d.l0Port n) else d.l0Kind n = 0 && d.wanUp (d.l0Port n)

/-- The packets at the tail of a front that a record-only refill brought go back to the middle when the port returns
(R237: they are in wagons, and the scheduler serves only carriages). -/
def QState.unrefill (q : QState) : QState :=
  let wag (p : QPkt) : Bool := match p.loc with
    | .held _ => true
    | _ => false
  let keep := q.front.takeWhile fun p => !wag p
  { q with front := keep, middle := q.front.drop keep.length ++ q.middle }

/-- Step 1 for one L0 node (R219, Table 8.6). -/
def Dev.l0Step (d : Dev) (n : Nat) : Dev :=
  let st := d.l0State n
  let go (d : Dev) (s : Nat) : Dev := d.wr (QUE_L0_ST.STATE n) s
  if d.l0PortUp n then
    if st = l0Flush then
      (d.que.q.filter fun p => d.l0Of p.1 = n).foldl (fun (d : Dev) p => d.setQueue p.1 (d.queue p.1).unrefill) (go d l0Up)
    else go d l0Up
  else if st = l0Up then
    let d := d.setL0 n { d.l0 n with down := d.tck.now }
    go d (if d.holdTicks = 0 then l0Flush else l0Hold)
  else if st = l0Hold ∧ d.holdTicks ≤ tickSub d.tck.now (d.l0 n).down then go d l0Flush
  else d

/-- The configured nodes, each as an entity. -/
def Dev.nodes (d : Dev) : List Ent :=
  (d.que.cfg.filter fun p => 2 ^ 18 ≤ p.1 && p.1 < 2 ^ 20).map fun p => (p.1 / 2 ^ 18, p.1 % 2 ^ 18)

/-- Step 3 for one node: refill of the buckets in use (R217). -/
def Dev.refillNode (d : Dev) (e : Ent) : Dev :=
  let v := d.desc e
  let d := if d.cirEn e then d.setTc e (min (256 * dfield v 3 0 24 : Nat) (d.tc e + dfield v 1 0 32)) else d
  if d.pirEn e then d.setTp e (min (256 * dfield v 4 0 24 : Nat) (d.tp e + dfield v 2 0 32)) else d

/-- An L0 node's window (R218). -/
def Dev.window (d : Dev) (n : Nat) : Nat := 2400 * d.l0Ceil n

/-- Step 3 for one L0 node: its byte window opens (R218). -/
def Dev.openWindow (d : Dev) (n : Nat) : Dev :=
  let u := d.rd (QUE_L0_ST.POS n) - (d.l0 n).prevW
  (d.wr (QUE_L0_ST.POS n) u).setL0 n { d.l0 n with prevW := d.window n }

/-- Step 4 for one entity (R216). -/
def Dev.clamp (d : Dev) (e : Ent) : Dev :=
  let v := d.vtime (d.parent e)
  let lag := tickSub v (d.tag e)
  if 2 ^ 44 < lag ∧ lag < 2 ^ 47 then (d.setTag e (tickSub v (2 ^ 44))).bump QUE_CLAMP.COUNT else d

/-- The entities the clamp sweep of a tick visits (R216). -/
def clampVisits (r : Nat) : List Ent :=
  let k := r % 4096
  (List.range 64).map (fun i => (0, k + 4096 * i)) ++ (List.range 8).map (fun i => (1, k + 4096 * i)) ++ [(2, k)] ++
    (if k < 512 then [(3, k)] else [])

/-- A node may serve (R213), its subtree apart. -/
def Dev.nodeOk (d : Dev) (e : Ent) : Bool :=
  d.entEn e && (!d.pirEn e || 0 ≤ d.tp e) &&
  (e.1 != 3 || (d.l0State e.2 = l0Up && decide (d.rd (QUE_L0_ST.POS e.2) < d.window e.2) &&
    (d.l0Kind e.2 != 1 || d.fabGranted (e.2 / 8) (d.l0Port e.2))))

/-- Every node of a queue's path may serve, and the queue is unicast and enabled (R213). -/
def Dev.pathOk (d : Dev) (q : Nat) : Bool :=
  !d.replicate q && d.entEn (0, q) && ((d.path q).drop 1).all d.nodeOk

/-- The class of a child (R213). -/
def Dev.class (d : Dev) (e : Ent) : Nat := if d.entPri e then 0 else if d.cirEn e && 0 ≤ d.tc e then 1 else 2

/-- A tag is earlier than another (R214). -/
def tagEarlier (a b : Nat) : Bool := 1 ≤ tickSub b a && tickSub b a ≤ 2 ^ 47 - 1

/-- A child is chosen before another (R213). -/
def Dev.before (d : Dev) (a b : Ent) : Bool :=
  d.class a < d.class b ||
  (d.class a = d.class b && (tagEarlier (d.tag a) (d.tag b) || (d.tag a = d.tag b && a.2 < b.2)))

/-- The child chosen of a list (R213). -/
def Dev.bestOf (d : Dev) : List Ent → Option Ent
  | [] => none
  | e :: r => some (r.foldl (fun a b => if d.before b a then b else a) e)

/-- The queue reached by descending from the group arbiter among candidate queues, each with its path (R213): at each level,
from L0 down, the best child keeps only the queues below it. -/
def Dev.descend (d : Dev) (cand : List (List Ent)) : List Nat → Option Nat
  | [] => cand.head?.bind fun p => p.head?.map Prod.snd
  | lvl :: r =>
    match d.bestOf (sortKey (fun e => [e.2]) ((cand.map fun p => p.getD lvl (0, 0)).eraseDups)) with
    | some e => d.descend (cand.filter fun p => p.getD lvl (0, 0) = e) r
    | none => none

/-- A head packet's bytes are in carriages, all placed. -/
def Dev.resident (d : Dev) (p : QPkt) : Bool :=
  match p.loc with
  | .res c => match d.chain c with
    | some v => v.ptrs.length = v.ncar || !p.refilled
    | none => true
  | _ => false

/-- The key of a dequeue's slot. -/
def slotKey (tick pipe slot : Nat) : Nat := (tick * 64 + pipe) * 512 + slot

/-- A packet leaves its queue for a slot of the next tick (R211, R215): virtual time and tags, charges, the window, the hand-off to the
egress pipeline (Table 7.5), and the reads of its two head carriages (R196). -/
def Dev.serve (d : Dev) (q slot : Nat) (p : QPkt) : Dev :=
  let g := d.groupOf q
  let l0 := d.l0Of q
  let len := d.wireLen l0 (mLEN p.m)
  let s := d.queue q
  let drop (l : List QPkt) : List QPkt := l.filter fun x => x.id != p.id
  let s := ({ s with front := drop s.front, middle := drop s.middle, back := drop s.back, deq := s.deq + 1 } : QState).joinFrom s
  let d := d.setQueue q s
  let d := (d.path q).foldl (fun (d : Dev) e =>
    let d := d.setVtime (d.parent e) (d.tag e)
    if d.holds e then
      let l := if e.1 = 0 then d.wireLen l0 ((s.pkts.head?.map fun h => mLEN h.m).getD 0) else len
      d.setTag e (d.tag e + d.delta e l)
    else d) d
  let d := ((d.path q).drop 1).foldl (fun (d : Dev) e =>
    let d := if d.cirEn e then d.setTc e (d.tc e - 256 * len) else d
    if d.pirEn e then d.setTp e (d.tp e - 256 * len) else d) d
  let d := d.wr (QUE_L0_ST.POS l0) (d.rd (QUE_L0_ST.POS l0) + len)
  match p.loc with
  | .res c =>
    let d := (d.handOff c 0x0200 (0x0140 + g)).evt 0x31 0x21 (some g)
    let k : Pkt := { m := p.m, chain := c, row := 0, copy := p.copy, trunc := p.trunc, frame := p.frame }
    let key := slotKey (tickAdd d.tck.now 1) g slot
    { d with que := { d.que with slots := SMap.ins d.que.slots key k } }.readChain g c 0 2 (.depart key) fun _ => d.sc
  | _ => d

/-- EGRESS_ARRIVE slots of a group in the next tick (R211). -/
def Dev.egressSlots (d : Dev) (g : Nat) : List Nat :=
  let b := d.nextBank
  let v := d.variantOf (tickAdd d.tck.now 1)
  (List.range 504).filter fun s => b.entry 1 g v s / 4096 = 2 && !d.halted

/-- A slot of the next tick is claimed. -/
def Dev.claimed (d : Dev) (g slot : Nat) : Bool := (SMap.find d.que.slots (slotKey (tickAdd d.tck.now 1) g slot)).isSome

/-- Step 5 for one packet of the batch whose queue held no packet before it (R25, R212). -/
def Dev.pin (d : Dev) (e : Nat × Nat × Bool) : Dev :=
  let q := e.1
  match (d.queue q).pkts.head? with
  | none => d
  | some p =>
    let g := d.groupOf q
    let s := mASLOT p.m
    if !d.halted ∧ e.2.2 ∧ p.id = e.2.1 ∧ d.l0Pin (d.l0Of q) ∧ d.pathOk q ∧ d.resident p ∧
      d.nextBank.entry 1 g (d.variantOf (tickAdd d.tck.now 1)) s / 4096 = 2 ∧ ¬ d.claimed g s then
      (d.serve q s p).bump QUE_PINNED.COUNT
    else d

/-- The late-refill event (R22, R235): the tick marked, counted and logged. -/
def Dev.lateRefill (d : Dev) : Dev :=
  let d := (d.mark d.tck.now 1).bump TCK_EXP_CNT_REFILL.COUNT
  let d := (d.bump YRD_LATE.COUNT).wr YRD_STATUS.LATE 1
  d.fault 0x228 contained 0x11 (d.tck.now * 2 ^ 48)

/-- Step 6 for one slot: the descent is repeated while it reaches a queue whose head is late (R213, R235); such a queue is
left unserved in the round. -/
def Dev.fillSlot (d : Dev) (g slot : Nat) : Nat → Dev
  | 0 => d
  | k + 1 =>
    let cand := (d.que.q.filter fun p =>
      !p.2.front.isEmpty && d.groupOf p.1 = g && !d.que.late.contains p.1 && d.pathOk p.1).map fun p => d.path p.1
    match d.descend cand [3, 2, 1, 0] with
    | none => d
    | some q => match (d.queue q).front.head? with
      | none => d
      | some p =>
        if d.resident p then d.serve q slot p
        else { d with que := { d.que with late := d.que.late ++ [q] } }.lateRefill.fillSlot g slot k

/-- Step 6 for a group: its unclaimed slots in ascending order (R213). -/
def Dev.fillGroup (d : Dev) (g : Nat) : Dev :=
  (d.egressSlots g).foldl (fun (d : Dev) s => if d.claimed g s then d else d.fillSlot g s (d.que.q.length + 1)) d

/-- A wagon to be credited at a tick (R236). -/
def Dev.creditAt (d : Dev) (tick ptr : Nat) : Dev := { d with yrd := { d.yrd with credits := d.yrd.credits ++ [(tick, ptr)] } }

/-- A record's packet has left the tier at a due tick: its record wagon is credited at the latest due tick of its records
once all ten have left (R236). -/
def Dev.recDone (d : Dev) (ptr due : Nat) : Dev :=
  match d.yrd.recs.find? fun r => r.ptr == ptr with
  | none => d
  | some r =>
    let r' := { r with live := r.live - 1, due := max r.due due }
    let others := d.yrd.recs.filter fun x => x.ptr != ptr
    if r'.live = 0 ∧ r'.used = 10 then { d with yrd := { d.yrd with recs := others } }.creditAt r'.due ptr
    else { d with yrd := { d.yrd with recs := others ++ [r'] } }

/-- The wagons of a packet dropped in a tick are credited LEAD ticks later (R236). -/
def Dev.dropWagons (d : Dev) (w : Wag) : Dev :=
  let t := tickAdd d.tck.now (max 16 (d.rd YRD_CTRL.LEAD))
  let d := w.wptrs.foldl (fun (d : Dev) p => d.creditAt t p) d
  let d := if w.fetched.isSome then d.wr YRD_REC_USED.COUNT (d.rd YRD_REC_USED.COUNT - 1) else d
  d.recDone w.recPtr t

/-- What a dropped packet held goes back: its chain's reference, or its wagons. -/
def Dev.dropHeld (d : Dev) (p : QPkt) : Dev :=
  match p.loc with
  | .res c => d.release c 0x0200
  | .held w => d.dropWagons w
  | .spilling _ w => d.dropWagons w
  | .refill c w _ =>
    let d := match c with
      | some c => d.release c 0x0200
      | none => d
    d.dropWagons w

/-- A packet leaves its queue unserved (R220, R221): its finish tag follows the new head when it was the head. -/
def Dev.unqueue (d : Dev) (q : Nat) (p : QPkt) : Dev :=
  let s := d.queue q
  let head := (s.pkts.head?.map fun h => h.id == p.id).getD false
  let del (l : List QPkt) : List QPkt := l.filter fun x => x.id != p.id
  let s := ({ s with front := del s.front, middle := del s.middle, back := del s.back } : QState).joinFrom s
  let d := d.setQueue q s
  match s.pkts.head? with
  | some h =>
    if head then
      let l0 := d.l0Of q
      let a := d.delta (0, q) (d.wireLen l0 (mLEN p.m))
      d.setTag (0, q) (tickSub (d.tag (0, q)) a + d.delta (0, q) (d.wireLen l0 (mLEN h.m)))
    else d
  | none => d

/-- A head packet is flushed or aged out. -/
def Dev.headDrop (d : Dev) (q reason : Nat) (p : QPkt) : Dev :=
  (((d.unqueue q p).queCountDrop q).queDropped q p.m reason).dropHeld p

/-- Step 7 for one queue: head packets of the front dropped while `due` holds and fewer than 256 carriages have gone in the
node's round (R220, R221). -/
def Dev.dropHeads (due : Dev → QPkt → Bool) (reason q : Nat) : Nat → Nat × Dev → Nat × Dev
  | 0, st => st
  | k + 1, (n, d) =>
    match (d.queue q).front.head? with
    | none => (n, d)
    | some p => if n < 256 ∧ due d p then Dev.dropHeads due reason q k (n + p.car, d.headDrop q reason p) else (n, d)

/-- A head packet's residence exceeds 256 × MAXRES (R221). -/
def Dev.aged (q : Nat) (d : Dev) (p : QPkt) : Bool :=
  let mr := dfield (d.desc (0, q)) 1 12 12
  mr != 0 && 256 * mr < tickSub d.tck.now p.etick

/-- Step 7 for one L0 node (R219 to R221): flush, then ageing; a flush that leaves its queues empty ends in DOWN. -/
def Dev.dropStep (d : Dev) (n : Nat) : Dev :=
  let qs := (d.que.q.filter fun p => d.l0Of p.1 = n).map Prod.fst
  let each (due : Nat → Dev → QPkt → Bool) (reason : Nat) (st : Nat × Dev) : Nat × Dev :=
    qs.foldl (fun st q => Dev.dropHeads (due q) reason q (st.2.queue q).front.length st) st
  let st := if d.l0State n = l0Flush then each (fun _ _ _ => true) 0x3C (0, d) else (0, d)
  let d := (each Dev.aged 0x3B st).2
  if d.l0State n = l0Flush ∧ qs.all (fun q => (d.queue q).pkts.isEmpty) then d.wr (QUE_L0_ST.STATE n) l0Down else d

/-- Step 8: samples of every queue with SAMP 1 (R222). -/
def Dev.takeSamples (d : Dev) : Dev :=
  if d.on QUE_CTRL.SAMP_EN ∧ d.tck.now % 2 ^ d.rd QUE_CTRL.SAMP_LOG2 = 0 then
    let qs := (d.que.cfg.filter fun p => p.1 < 2 ^ 18 && bit p.2.toNat 28).map Prod.fst
    let ss := qs.map fun q =>
      let s := d.queue q
      ({ queue := q, tick := d.tck.now, bytes := s.depth, pkts := s.pkts.length,
         resid := (s.pkts.head?.map fun p => tickSub d.tck.now p.etick).getD 0 } : QSample)
    { d with que := { d.que with samples := d.que.samples ++ ss } }
  else d

/-- HOLDING and FLUSHING show whether a node is in the state. -/
def Dev.queFlags (d : Dev) : Dev :=
  let any (s : Nat) : Nat := b2n ((List.range 512).any fun n => d.l0State n = s)
  d.wrs [(QUE_STATUS.HOLDING, any l0Hold), (QUE_STATUS.FLUSHING, any l0Flush)]

/-- The round of the tick in progress (R211): the steps in order, each over every group in ascending order. -/
def Dev.round (d : Dev) : Dev :=
  let d := { d with que := { d.que with late := [] } }
  let d := (List.range 512).foldl Dev.l0Step d
  let d := d.applyBatch
  let d := (List.range 512).foldl Dev.openWindow (d.nodes.foldl Dev.refillNode d)
  let d := (clampVisits d.tck.now).foldl Dev.clamp d
  let d := d.que.applied.foldl Dev.pin d
  let d := (List.range 64).foldl Dev.fillGroup d
  let d := (List.range 512).foldl Dev.dropStep d
  d.takeSamples.queFlags

end Sys2Proof.Machine
end

