-- ==== Sys2Proof/Machine/Yrd.lean ====
section
/-! DEFINITION. The deep tier (chapter 9): wagons and their free pointers (R224, R229, R231, R236), the yard plan (R228 to
R238), the stack controllers (R239 to R241) and the stacks' states (R242 to R245). -/

namespace Sys2Proof.Machine

/-! ### Wagon pointers and stacks (R224, Table 9.1) -/

def wStack (p : Nat) : Nat := p / 2 ^ 25
def wWagon (p : Nat) : Nat := p / 64 % 2 ^ 19
/-- The key of a wagon's pseudo-channel: 64 × stack + pseudo-channel. -/
def wKey (p : Nat) : Nat := 64 * wStack p + p % 64
/-- The pointer of a wagon of a pseudo-channel. -/
def wPtr (key n : Nat) : Nat := key / 64 * 2 ^ 25 + n * 64 + key % 64

/-- The states of Table 9.5. -/
abbrev stkAwake : Nat := 0
abbrev stkEntering : Nat := 1
abbrev stkAsleep : Nat := 2
abbrev stkExiting : Nat := 3
abbrev stkTraining : Nat := 4
abbrev stkFailed : Nat := 5

def Dev.stk (d : Dev) (s : Nat) : Nat := d.rd (YRD_STK_STATUS.STATE s)

/-- A stack is FAILED or its engine is revoked (R238). -/
def Dev.stkDead (d : Dev) (s : Nat) : Bool := d.stk s = stkFailed || d.isRevoked (0x0400 + s)

/-- A transit spill may draw on a stack (R230). -/
def Dev.stkUsable (d : Dev) (s : Nat) : Bool := d.stk s = stkAwake && !d.on (YRD_STK_STATUS.TCLOSE s) && !d.stkDead s

/-- A stack is open to spill (R229). -/
def Dev.stkOpen (d : Dev) (s : Nat) : Bool :=
  d.on (YRD_STK_CTRL.EN s) && d.stkUsable s && d.yrd.named != some s &&
  decide (d.rd YRD_GUARD.WAGONS < d.rd (YRD_STK_FREE.COUNT s))

/-- Open wagons (R183, R229). -/
def Dev.openWagons (d : Dev) : Nat :=
  (((List.range 8).filter d.stkOpen).map fun s => d.rd (YRD_STK_FREE.COUNT s) - d.rd YRD_GUARD.WAGONS).sum -
    (d.dpt.chains.map fun c => c.2.wagons).sum

/-- LEAD as it acts (R234). -/
def Dev.lead (d : Dev) : Nat := max 16 (d.rd YRD_CTRL.LEAD)

/-! ### Free wagons (R231, R236) -/

/-- Pointers in a list of intervals. -/
def ivCount (l : List (Nat × Nat)) : Nat := (l.map fun p => p.2 - p.1).sum

/-- The first `k` pointers of a list of intervals, and the rest. -/
def ivTake : Nat → List (Nat × Nat) → List (Nat × Nat) × List (Nat × Nat)
  | _, [] => ([], [])
  | k, (a, b) :: r =>
    if k = 0 then ([], (a, b) :: r)
    else if b - a ≤ k then let x := ivTake (k - (b - a)) r; ((a, b) :: x.1, x.2)
    else ([(a, a + k)], (a + k, b) :: r)

/-- Wagons of a pseudo-channel (R224). -/
abbrev pcWagons : Nat := 393216

/-- A pseudo-channel as training builds it, in ascending wagon order (R244). -/
def PcFree.built : PcFree := { cache := [(0, 512)], lists := [], fresh := 512 }

/-- A pseudo-channel without a free wagon. -/
def PcFree.none : PcFree := { cache := [], lists := [], fresh := pcWagons }

/-- A pseudo-channel's free wagons. -/
def Dev.pcFree (d : Dev) (key : Nat) : PcFree :=
  (SMap.find d.yrd.free key).getD (if d.yrd.built.contains (key / 64) then PcFree.built else PcFree.none)

def Dev.setPc (d : Dev) (key : Nat) (v : PcFree) : Dev := { d with yrd := { d.yrd with free := SMap.ins d.yrd.free key v } }

/-- Columns a pseudo-channel has spent in the plan. -/
def Dev.wcolLeft (d : Dev) (key : Nat) : Nat := d.rd YRD_BUDGET.WCOL - SMap.get 0 d.yrd.wcol key
def Dev.rcolLeft (d : Dev) (key : Nat) : Nat := d.rd YRD_BUDGET.RCOL - SMap.get 0 d.yrd.rcol key

/-- Write and read columns planned on a pseudo-channel (R230, R288). -/
def Dev.spendW (d : Dev) (key n : Nat) : Dev :=
  { d with yrd := { d.yrd with wcol := SMap.set 0 d.yrd.wcol key (SMap.get 0 d.yrd.wcol key + n) } }.charge d.tck.now 0x22 n
def Dev.spendR (d : Dev) (key n : Nat) : Dev :=
  { d with yrd := { d.yrd with rcol := SMap.set 0 d.yrd.rcol key (SMap.get 0 d.yrd.rcol key + n) } }.charge d.tck.now 0x22 n

/-- The pseudo-channel with the most write budget left among those of stacks that qualify and with a pointer in their cache;
ties go to the lowest stack, then the lowest pseudo-channel (R230). -/
def Dev.pickPc (d : Dev) (ok : Nat → Bool) : Option Nat :=
  let keys := ((List.range 8).filter ok).flatMap fun s => (List.range 64).map (64 * s + ·)
  (keys.filter fun k => !(d.pcFree k).cache.isEmpty).foldl
    (fun best k => match best with
      | some b => if d.wcolLeft b < d.wcolLeft k then some k else some b
      | none => some k) none

/-- A wagon allocated, its columns charged (R230). -/
def Dev.allocWagon (d : Dev) (ok : Nat → Bool) (cols : Nat) : Option (Nat × Dev) :=
  match d.pickPc ok with
  | none => none
  | some k =>
    if d.wcolLeft k < cols then none
    else match ivTake 1 (d.pcFree k).cache with
      | ((n, _) :: _, rest) =>
        let d := (d.setPc k { d.pcFree k with cache := rest }).spendW k cols
        let s := k / 64
        let d := d.wr (YRD_STK_FREE.COUNT s) (d.rd (YRD_STK_FREE.COUNT s) - 1)
        some (wPtr k n, { d with yrd := { d.yrd with busy := d.yrd.busy ++ [s] } })
      | _ => none

/-- A wagon returned to its pseudo-channel (R236); its cache at 1,536 pointers asks for the stack's exit (R231). -/
def Dev.creditWagon (d : Dev) (p : Nat) : Dev :=
  let k := wKey p
  let s := wStack p
  if !d.yrd.built.contains s then d
  else
    let x := d.pcFree k
    let n := wWagon p
    let cache := match x.cache with
      | (a, b) :: r => if n + 1 = a then (n, b) :: r else (n, n + 1) :: (a, b) :: r
      | [] => [(n, n + 1)]
    let d := d.setPc k { x with cache }
    let d := d.wr (YRD_STK_FREE.COUNT s) (d.rd (YRD_STK_FREE.COUNT s) + 1)
    if 1536 ≤ ivCount cache ∧ d.stk s ≠ stkAwake then { d with yrd := { d.yrd with exitReq := d.yrd.exitReq ++ [s] } } else d

/-- The credits due at the tick in progress (R236). -/
def Dev.creditsDue (d : Dev) : Dev :=
  let due := d.yrd.credits.filter fun c => tickReached c.1 d.tck.now
  let d := { d with yrd := { d.yrd with credits := d.yrd.credits.filter fun c => !tickReached c.1 d.tck.now } }
  due.foldl (fun (d : Dev) c => d.creditWagon c.2) d

/-- The plan asks a pseudo-channel for columns from the next boundary on (R228); a read asks a stack asleep for its exit (R242). -/
def Dev.planHbm (d : Dev) (ptr col cols : Nat) (ready : Bool) (what : HWhat) : Dev :=
  let s := wStack ptr
  let y := d.yrd
  let exitReq := if what = .write ∨ d.stk s = stkAwake then y.exitReq else y.exitReq ++ [s]
  { d with yrd := { y with plan := y.plan ++ [.hbm ptr col cols ready what], busy := y.busy ++ [s], exitReq } }

/-- Step 1 of the plan for one pseudo-channel (R231): a pointer wagon is read back, its own number first, or written. -/
def Dev.cacheStep (d : Dev) (k : Nat) : Dev :=
  let x := d.pcFree k
  let n := ivCount x.cache
  if d.stk (k / 64) ≠ stkAwake then d
  else if n < 256 then
    if d.rcolLeft k < 32 then d
    else match x.lists with
      | l :: r => ((d.setPc k { x with cache := l ++ x.cache, lists := r }).spendR k 32).planHbm (wPtr k ((l.map Prod.fst).headD 0)) 0 32 true .ptrRead
      | [] =>
        if x.fresh < pcWagons then
          let e := min (x.fresh + 513) pcWagons
          ((d.setPc k { x with cache := (x.fresh, e) :: x.cache, fresh := e }).spendR k 32).planHbm (wPtr k x.fresh) 0 32 true .ptrRead
        else d
  else if 768 < n then
    if d.wcolLeft k < 32 then d
    else
      let t := ivTake 513 x.cache
      ((d.setPc k { x with cache := t.2, lists := t.1 :: x.lists }).spendW k 32).planHbm (wPtr k ((t.1.map Prod.fst).headD 0)) 0 32 true .write
  else d

/-! ### The stack controllers (R239 to R241) -/

def Dev.hbm (d : Dev) (key : Nat) : Hbm := SMap.get Hbm.idle d.yrd.hbm key
def Dev.setHbm (d : Dev) (key : Nat) (h : Hbm) : Dev := { d with yrd := { d.yrd with hbm := SMap.set Hbm.idle d.yrd.hbm key h } }

/-- Two requests touch one column (R240). -/
def HReq.meets (a b : HReq) : Bool := a.ptr == b.ptr && a.col < b.col + b.cols && b.col < a.col + a.cols

/-- A read waits for a write of its pseudo-channel (R240). -/
def Hbm.readWaits (h : Hbm) (r : HReq) : Bool := (h.writes ++ h.staging).any fun w => w.meets r && w.seq < r.seq

/-- A write waits for an earlier read (R240). -/
def Hbm.writeWaits (h : Hbm) (w : HReq) : Bool := (h.reads ++ h.returning).any fun r => r.meets w && r.seq < w.seq

/-- Staging fills the write queue of 64 entries in the order the plan issued the writes (R239). -/
def Hbm.fill (h : Hbm) : Hbm :=
  let n := min (64 - h.writes.length) (h.staging.takeWhile HReq.ready).length
  { h with writes := h.writes ++ h.staging.take n, staging := h.staging.drop n }

/-- The drain state (R239). -/
def Hbm.drained (h : Hbm) : Hbm :=
  let wait := h.reads.any h.readWaits
  { h with drain := wait || (if h.drain then 16 < h.writes.length else 48 ≤ h.writes.length) }

/-- A request reaches its pseudo-channel. -/
def Dev.hbmAdd (d : Dev) (ptr col cols : Nat) (ready : Bool) (what : HWhat) : Dev :=
  let k := wKey ptr
  let r : HReq := { seq := d.yrd.nextReq, ready, ptr, col, cols, done := 0, bypassed := 0, what }
  let d := { d with yrd := { d.yrd with nextReq := d.yrd.nextReq + 1 } }
  let h := d.hbm k
  if what = .write then d.setHbm k ({ h with staging := h.staging ++ [r] } : Hbm).fill.drained
  else
    let d := if h.readWaits r then d.bump YRD_RAW_WAIT.COUNT else d
    let d := if d.stk (wStack ptr) = stkAwake then d
      else { d with yrd := { d.yrd with exitReq := d.yrd.exitReq ++ [wStack ptr] } }.bump YRD_SR_WAIT.COUNT
    d.setHbm k ({ h with reads := h.reads ++ [r] } : Hbm).drained

/-- The oldest of a list of requests. -/
def oldest : List HReq → Option HReq
  | [] => none
  | r :: l => some (l.foldl (fun a b => if b.seq < a.seq then b else a) r)

/-- The request a list offers (R239): the oldest with its row open, else the oldest. -/
def Hbm.offer (h : Hbm) (l : List HReq) : Option HReq :=
  match oldest (l.filter fun r => h.open_.contains r.ptr) with
  | some r => some r
  | none => oldest l

/-- A burst that a refresh has stopped (R241). -/
def Hbm.stopped (h : Hbm) (r : HReq) : Bool :=
  match h.split with
  | some x => x.seq == r.seq && x.until_.isSome
  | none => false

/-- The request whose next column a pseudo-channel issues (R239): the burst in progress; a ready request bypassed 64 times; else reads
ahead of writes, or in a drain writes ahead of reads. -/
def Hbm.next (h : Hbm) : Option HReq :=
  match (h.reads ++ h.writes).find? fun r => 0 < r.done && !h.stopped r with
  | some r => some r
  | none =>
    let rs := h.reads.filter fun r => !h.readWaits r && !h.stopped r
    let ws := h.writes.filter fun w => !h.writeWaits w && !h.stopped w
    match oldest ((rs ++ ws).filter fun r => 64 ≤ r.bypassed) with
    | some r => some r
    | none =>
      if h.drain then (match h.offer ws with | some r => some r | none => h.offer rs)
      else match h.offer rs with | some r => some r | none => h.offer ws

/-- The bank that holds wagon `n` of a pseudo-channel of `nb` banks (R224): a free map in which consecutive wagons fall in different
banks. -/
def wagonBank (map : Nat → Nat) (nb : Nat) : Nat → Nat
  | 0 => map 0 % nb
  | n + 1 => (wagonBank map nb n + 1 + map (n + 1) % (nb - 1)) % nb

/-- The banks of a pseudo-channel of a stack, at least two (R224). -/
def hbmNb (s : Nat) : Nat := max 2 (Config.hbmBanks s)

/-- The bank a wagon is in. -/
def wBank (p : Nat) : Nat := wagonBank (Config.hbmBank (wStack p)) (hbmNb (wStack p)) (wWagon p)

/-- A column of a request issued: earlier requests not chosen are bypassed when a burst begins, its row opens, and the last
column ends it. -/
def Hbm.issue (h : Hbm) (r : HReq) : Hbm :=
  let by_ (l : List HReq) : List HReq :=
    if r.done = 0 then l.map fun x => if x.seq < r.seq then { x with bypassed := x.bypassed + 1 } else x else l
  let r' := { r with done := r.done + 1 }
  let upd (l : List HReq) : List HReq :=
    if r'.done = r.cols then (by_ l).filter (fun x => x.seq != r.seq) else (by_ l).map fun x => if x.seq = r.seq then r' else x
  let isW := r.what = .write
  let h := { h with open_ := r.ptr :: h.open_.filter fun p => wBank p != wBank r.ptr }
  let h := { h with reads := upd h.reads, writes := upd h.writes }
  ({ h with returning := if r'.done = r.cols ∧ ¬ isW then h.returning ++ [r'] else h.returning } : Hbm).fill.drained

/-- The instant of the slot cycle issued last, in 1/4,200 ns. -/
def Dev.instantNow (d : Dev) : Nat := d.tck.now * 1612800 + d.tck.slot * 3200

/-- A burst stopped for a refresh resumes once the per-bank refresh time has passed; one that has reached its boundary stops (R241). -/
def Dev.splitStep (d : Dev) (s k : Nat) : Dev :=
  let h := d.hbm k
  match h.split with
  | none => d
  | some x =>
    match x.until_ with
    | some t => if t ≤ d.instantNow ∨ d.instantNow + 2 ^ 40 < t then d.setHbm k { h with split := none } else d
    | none =>
      if (h.reads ++ h.writes).any fun r => r.seq == x.seq && r.done < x.stop then d
      else
        let nb := hbmNb s
        let open_ := h.open_.filter fun p => wBank p != h.bank
        let split := some { x with until_ := some (d.instantNow + 4200 * Config.hbmTrfc s) }
        (d.setHbm k { h with open_, bank := (h.bank + 1) % nb, split }).evt 0x32 0x23 (some s)

/-- A pseudo-channel issues its next column (R239 to R241). A written wagon's earlier errors are gone. -/
def Dev.hbmIssue (d : Dev) (s pc : Nat) : Dev :=
  let k := 64 * s + pc
  if d.stk s ≠ stkAwake then d
  else
    let d := d.splitStep s k
    let h := d.hbm k
    match h.next with
    | none => d
    | some r =>
      let d := (d.setHbm k (h.issue r)).evt 0x32 0x22 (some s)
      let d := if r.what = .write ∧ r.done + 1 = r.cols then
          if r.cols = 3 then d.wrote (0x220 + s) .wagRec (r.ptr * 16 + r.col / 3) else d.wrote (0x220 + s) .wagon r.ptr
        else d
      d.splitStep s k

/-- How many of the next `k` refreshes, from bank `b`, fall in a bank without the burst in progress. -/
def refreshRun (nb busy : Nat) : Nat → Nat → Nat
  | _, 0 => 0
  | b, k + 1 => if b = busy then 0 else 1 + refreshRun nb busy ((b + 1) % nb) k

/-- A per-bank refresh comes due (R241): postponed while its bank is in a burst, to a credit of 8; at full credit the burst is split at
the next 256-byte boundary after the column in progress; otherwise it is issued with those postponed. A refresh closes the row of its
bank. -/
def Dev.hbmRefresh (d : Dev) (s pc : Nat) : Dev :=
  let k := 64 * s + pc
  let h := d.hbm k
  let nb := hbmNb s
  let burst := (h.reads ++ h.writes).find? fun r => 0 < r.done && !h.stopped r
  let busy := match burst with
    | some r => wBank r.ptr
    | none => nb
  let n := refreshRun nb busy h.bank (h.credit + 1)
  if n = 0 then
    if h.credit < 8 then d.setHbm k { h with credit := h.credit + 1 }
    else match burst with
      | some r =>
        let x : Split := { seq := r.seq, stop := min r.cols ((r.done + 3) / 4 * 4), until_ := none }
        (((d.setHbm k { h with split := some x }).bump YRD_SPLIT.COUNT).evt 0x32 0x24 (some s)).splitStep s k
      | none => d
  else
    let done := (List.range n).map fun i => (h.bank + i) % nb
    let open_ := h.open_.filter fun p => !done.contains (wBank p)
    (d.evt 0x32 0x23 (some s) n).setHbm k { h with open_, bank := (h.bank + n) % nb, credit := h.credit + 1 - n }

/-! ### Spills (R225, R230) -/

/-- Data wagons of a frame, and the bytes in data wagon `k` (R225). -/
def nWagons (len : Nat) : Nat := ceilDiv len 2048
def wagonBytes (len k : Nat) : Nat := min 2048 (len - 2048 * k)

/-- The open record wagon of a queue with room for a record, and its successor (R225, R230). -/
def Dev.openRecord (d : Dev) (ok : Nat → Bool) (q : Nat) : Option Dev :=
  let s := d.queue q
  let start (d : Dev) (p : Nat) (next : Nat) : Dev :=
    let r : RecWag := { ptr := p, used := 0, live := 0, due := 0 }
    let d := { d with yrd := { d.yrd with recs := d.yrd.recs ++ [r] } }
    d.setQueue q { s with openRec := some (p, 0, next) }
  match s.openRec with
  | some (p, n, next) =>
    if n < 10 then some (d.setQueue q { s with openRec := some (p, n, next) })
    else (d.allocWagon ok 0).map fun x => start x.2 next x.1
  | none => match d.allocWagon ok 0 with
    | none => none
    | some a => (a.2.allocWagon ok 0).map fun b => start b.2 a.1 b.1

/-- A record is planned into the open record wagon (R230 item 1): its wagon and place. -/
def Dev.planRecord (d : Dev) (ok : Nat → Bool) (q : Nat) : Option (Nat × Nat × Dev) :=
  match d.openRecord ok q with
  | none => none
  | some d =>
    let s := d.queue q
    match s.openRec with
    | some (p, n, next) =>
      if d.wcolLeft (wKey p) < 3 then none
      else
        let recs := d.yrd.recs.map fun r => if r.ptr = p then { r with used := r.used + 1, live := r.live + 1 } else r
        let d := { d with yrd := { d.yrd with recs } }
        some (p, n, (d.setQueue q { s with openRec := some (p, n + 1, next) }).spendW (wKey p) 3)
    | none => none

/-- The data wagons of a frame (R230 items 2 and 3). -/
def Dev.planWagons (d : Dev) (ok : Nat → Bool) (len : Nat) : List Nat → Option (List Nat × Dev)
  | [] => some ([], d)
  | k :: r => match d.allocWagon ok (ceilDiv (wagonBytes len k) 64) with
    | none => none
    | some (p, d) => (d.planWagons ok len r).map fun x => (p :: x.1, x.2)

/-- The record of a spilled packet (Table 9.2), 192 bytes. -/
def QPkt.record (p : QPkt) (w : Wag) : List Byte :=
  let wp := (List.range 32).foldl (fun a k => a * 2 ^ 28 + w.wptrs.getD k 0) 0
  mbytes p.m 0x1E0 32 ++ mbytes p.m 0x1C0 32 ++ beBytes 6 p.etick ++ beBytes 1 (b2n w.terr * 128 + b2n w.transit * 64) ++
    beBytes 1 w.wptrs.length ++ beBytes 4 (2 ^ 31 + w.nextw) ++ beBytes 4 0 ++ beBytes 112 wp

/-- Bytes of a frame's data wagons that go to a stack. -/
def stackBytes (s len : Nat) (ws : List Nat) : Nat :=
  ((List.range ws.length).map fun k => if wStack (ws.getD k 0) = s then wagonBytes len k else 0).sum

/-- Bytes a stack's staging buffer holds, and those of spills whose carriages are being read (R232). -/
def Dev.staged (d : Dev) (s : Nat) : Nat :=
  ((List.range 64).map fun pc => (((d.hbm (64 * s + pc)).staging.filter HReq.ready).map fun r => 64 * r.cols).sum).sum +
  (d.que.q.map fun e => (e.2.middle.map fun p => match p.loc with
    | .spilling _ w => if d.reading (.spill p.id) then stackBytes s (mLEN p.m) w.wptrs else 0
    | _ => 0).sum).sum

/-- The size of a staging buffer (R232). -/
abbrev stagingBytes : Nat := 2097152

/-- A spill of a packet at the head of a queue's back (R230), under a cap of carriages of its group: none where a limit of
Table 9.3 fails. Its record, its carriage reads and its data writes follow in the plan's order. -/
def Dev.spill (d : Dev) (ok : Nat → Bool) (cap : Nat) (transit : Bool) (q : Nat) (p : QPkt) (c : Nat) : Option Dev :=
  let g := d.groupOf q
  let len := mLEN p.m
  let used := SMap.get 0 d.yrd.spillCar g
  if cap < used + p.car ∨ (¬ transit ∧ d.openWagons < nWagons len) then none
  else match d.planRecord ok q with
    | none => none
    | some (rp, ri, d) => match d.planWagons ok len (List.range (nWagons len)) with
      | none => none
      | some (ws, d) =>
        let s := wStack (ws.headD 0)
        let st := d.queue q
        let nextw := match st.openRec with
          | some (_, _, n) => n
          | none => 0
        let w : Wag := { bytes := [], terr := false, ue := false, transit := ((d.chain c).map fun v => v.csrc == 0x1FE).getD false, nextw,
                         wptrs := ws, recPtr := rp, recIdx := ri, fetched := none, inStore := false, recUe := false, toRead := [] }
        let d := d.setQueue q { st with back := st.back.filter (fun x => x.id != p.id),
                                        middle := st.middle ++ [{ p with loc := .spilling c w }] }
        let d := match d.chain c with
          | some v => d.setChain c { v with wagons := 0 }
          | none => d
        let d := d.handOff c 0x0200 (0x0400 + s)
        let d := d.planHbm rp (3 * ri) 3 true .write
        let d := { d with yrd := { d.yrd with spillCar := SMap.set 0 d.yrd.spillCar g (used + p.car),
                                              plan := d.yrd.plan ++ [.read { wptrs := ws, len, port := g, chain := c, car := p.car, id := p.id }] } }
        let d := (List.range ws.length).foldl (fun (d : Dev) k =>
          d.planHbm (ws.getD k 0) 0 (ceilDiv (wagonBytes len k) 64) false .write) d
        some ((d.bump YRD_SPILL_PKT.COUNT).evt 0x32 0x20 (some s) p.car)

/-- The stacks that a spill's data wagons lie in. -/
def HeldRead.stacks (h : HeldRead) : List Nat := (h.wptrs.map wStack).eraseDups

/-- The first stack whose staging buffer keeps a spill's reads back: the buffer has no room for its data, or holds an earlier spill back
(R238). -/
def Dev.heldAt (d : Dev) (earlier : List HeldRead) (h : HeldRead) : Option Nat :=
  h.stacks.find? fun s => earlier.any (fun x => x.stacks.contains s) || decide (stagingBytes < d.staged s + stackBytes s h.len h.wptrs)

/-- A spill's carriage reads are owed at its group's read port (R230 item 4). -/
def Dev.spillReads (d : Dev) (h : HeldRead) : Dev := d.readChain h.port h.chain 0 h.car (.spill h.id) fun _ => d.sc

/-- Spill reads that a staging buffer held start once it has room (R238). -/
def Dev.heldReads (d : Dev) : Dev :=
  d.yrd.held.foldl (fun (d : Dev) h =>
    match d.heldAt (d.yrd.held.takeWhile fun x => x != h) h with
    | some _ => d
    | none => { d with yrd := { d.yrd with held := d.yrd.held.filter fun x => x != h } }.spillReads h) d

/-- What the plan of the previous tick asks for issues from the boundary on, in its order (R228). A spill's reads that a staging buffer
holds back are logged and mark the tick (R238). -/
def Dev.yardIssue (d : Dev) : Dev :=
  let ops := d.yrd.plan
  let d := { d with yrd := { d.yrd with plan := [] } }.heldReads
  ops.foldl (fun (d : Dev) o => match o with
    | .hbm ptr col cols ready what => d.hbmAdd ptr col cols ready what
    | .read h =>
      let e := { d with yrd := { d.yrd with held := d.yrd.held ++ [h] } }
      match e.heldAt d.yrd.held h with
      | some s => if d.yrd.held.any fun x => x.stacks.contains s then e else e.faultMark (0x220 + s) contained 0x08
      | none => d.spillReads h) d

/-- The queue and the packet with an identity. -/
def Dev.findPkt (d : Dev) (id : Nat) : Option (Nat × QPkt) :=
  (d.que.q.findSome? fun e => (e.2.pkts.find? fun p => p.id == id).map fun p => (e.1, p))

/-- A packet of a middle replaced. -/
def QState.setMid (s : QState) (p : QPkt) : QState := { s with middle := s.middle.map fun x => if x.id = p.id then p else x }

/-- The data of a spill is in staging: its writes may move on, in the plan's order (R232, R239). -/
def Dev.stageReady (d : Dev) (ws : List Nat) : Dev :=
  ws.foldl (fun (d : Dev) p =>
    let h := d.hbm (wKey p)
    d.setHbm (wKey p) ({ h with staging := h.staging.map fun r => if r.ptr = p then { r with ready := true } else r } : Hbm).fill.drained) d

/-- The frame of a queued packet that is in carriages: as stored, or a copy's own. -/
def QPkt.frameBytes (p : QPkt) (v : Chain) : List Byte := (p.frame.getD v.bytes).take (mLEN p.m)

/-- The last carriage read of a spill has returned (R232): the wagon write completes, the engine of its first data wagon's stack releases
its reference (R190), and the data goes to staging. -/
def Dev.spillReturn (d : Dev) (c id : Nat) : Dev :=
  match d.findPkt id with
  | none => d
  | some (q, p) => match p.loc with
    | .spilling _ w =>
      let v := d.chain c
      let w' := { w with bytes := (v.map p.frameBytes).getD [], terr := (v.map Chain.terr).getD false, ue := (v.map Chain.ue).getD false }
      let d := d.setQueue q ((d.queue q).setMid { p with loc := .held w', frame := none, trunc := 0 })
      (d.stageReady w.wptrs).release c (0x0400 + wStack (w.wptrs.headD w.recPtr))
    | _ => d

/-! ### Fetches and refills (R227, R233 to R238) -/

/-- The spill profile of a queue (R227): EN, ON, FRONT and LOW in carriages, AHEAD. -/
def Dev.sprof (d : Dev) (q : Nat) : Nat := dfield (d.desc (0, q)) 1 8 4
def Dev.spEn (d : Dev) (q : Nat) : Bool := d.on (YRD_SPROF_B.EN (d.sprof q))
def Dev.spOn (d : Dev) (q : Nat) : Nat := 16 * d.rd (YRD_SPROF_A.ON (d.sprof q))
def Dev.spFront (d : Dev) (q : Nat) : Nat := 16 * d.rd (YRD_SPROF_A.FRONT (d.sprof q))
def Dev.spLow (d : Dev) (q : Nat) : Nat := 16 * d.rd (YRD_SPROF_B.LOW (d.sprof q))
def Dev.spAhead (d : Dev) (q : Nat) : Nat := d.rd (YRD_SPROF_B.AHEAD (d.sprof q))

/-- What a middle packet has in wagons. -/
def QPkt.wag (p : QPkt) : Option Wag :=
  match p.loc with
  | .res _ => none
  | .spilling _ w => some w
  | .held w => some w
  | .refill _ w _ => some w

/-- A refill of the packet is planned. -/
def QPkt.refilling (p : QPkt) : Bool :=
  match p.loc with
  | .refill _ _ _ => true
  | _ => false

/-- The packet's wagons replaced. -/
def QPkt.setWag (p : QPkt) (w : Wag) : QPkt :=
  match p.loc with
  | .res _ => p
  | .spilling c _ => { p with loc := .spilling c w }
  | .held _ => { p with loc := .held w }
  | .refill c _ t => { p with loc := .refill c w t }

/-- A wagon or record of the packet is in a stack that is FAILED or revoked (R238). -/
def Dev.wagDead (d : Dev) (w : Wag) : Bool := (w.recPtr :: w.wptrs).any fun p => d.stkDead (wStack p)

/-- The planned front in carriages (R227). -/
def QState.plannedFront (s : QState) : Nat :=
  ((s.front ++ s.middle.filter QPkt.refilling).map QPkt.car).sum

/-- A deep-tier drop of a middle packet (Table 9.4). -/
def Dev.midDrop (d : Dev) (q reason : Nat) (p : QPkt) : Dev := ((d.unqueue q p).queDropped q p.m reason).dropHeld p

/-- Step 3 for one queue: record fetches (R227, R233, Table 9.3). -/
def Dev.fetchStep (d : Dev) (q : Nat) : List QPkt → Dev
  | [] => d
  | p :: r => match p.wag with
    | none => d
    | some w =>
      if w.fetched.isSome then d.fetchStep q r
      else
        let n := (d.queue q).middle.countP fun x => (x.wag.map fun y => y.fetched.isSome).getD false
        let k := wKey w.recPtr
        if d.spAhead q ≤ n ∨ 131072 ≤ d.rd YRD_REC_USED.COUNT ∨ d.rcolLeft k < 3 ∨ d.stkDead (wStack w.recPtr) then d
        else
          let d := d.setQueue q ((d.queue q).setMid (p.setWag { w with fetched := some d.tck.now }))
          let d := (d.wr YRD_REC_USED.COUNT (d.rd YRD_REC_USED.COUNT + 1)).bump YRD_FETCH.COUNT
          let d := (d.spendR k 3).planHbm w.recPtr (3 * w.recIdx) 3 true (.recRead q p.id)
          d.fetchStep q r

/-- The packet's record is due usable in the plan in progress (R233). -/
def Dev.recDue (d : Dev) (w : Wag) : Bool :=
  match w.fetched with
  | some f => tickReached (tickAdd f d.lead) d.tck.now
  | none => false

/-- Read columns of a frame's data wagons charged, if every budget allows (R228, Table 9.3). -/
def Dev.planReads (d : Dev) (len : Nat) (ws : List Nat) : Option Dev :=
  (List.range ws.length).foldl (fun acc k => match acc with
    | none => none
    | some (d : Dev) =>
      let key := wKey (ws.getD k 0)
      let cols := ceilDiv (wagonBytes len k) 64
      if d.rcolLeft key < cols then none else some (d.spendR key cols)) (some d)

/-- A chain in refill carriages, none placed yet, held by the queue store (R233, Table 7.5). -/
def Dev.refillChain (d : Dev) (terr ue : Bool) (bytes : List Byte) : Nat × Dev :=
  let id := d.dpt.nextChain
  let c : Chain := { owner := 0x0200, couple := 1, csrc := 0x1FF, terr, ue, bytes, ptrs := [], gone := 0, shr := 0, wagons := 0 }
  let d := { d with dpt := { d.dpt with chains := SMap.ins d.dpt.chains id c, nextChain := id + 1 } }
  (id, d.wr DPT_REFILL_USED.COUNT (d.rd DPT_REFILL_USED.COUNT + carriages bytes.length))

/-- A refill of a held packet planned (R233): none where a limit of Table 9.3 fails. -/
def Dev.planRefill (d : Dev) (cap q : Nat) (p : QPkt) (w : Wag) : Option Dev :=
  let g := d.groupOf q
  let used := SMap.get 0 d.yrd.fillCar g
  if d.wagDead w ∨ cap < used + p.car ∨ d.rd DPT_REFILL_RSV.SIZE < d.rd DPT_REFILL_USED.COUNT + p.car then none
  else match d.planReads (mLEN p.m) w.wptrs with
    | none => none
    | some d =>
      let x := d.refillChain w.terr w.ue w.bytes
      let d := x.2
      let loc := Loc.refill (some x.1) { w with toRead := w.wptrs } (tickAdd d.tck.now d.lead)
      let s := d.queue q
      let d := d.setQueue q { s.setMid { p with loc } with refilling := true }
      let d := { d with yrd := { d.yrd with fillCar := SMap.set 0 d.yrd.fillCar g (used + p.car) } }
      let d := (List.range w.wptrs.length).foldl (fun (d : Dev) k =>
        d.planHbm (w.wptrs.getD k 0) 0 (ceilDiv (wagonBytes (mLEN p.m) k) 64) true (.dataRead q p.id)) d
      some ((d.bump YRD_REFILL_PKT.COUNT).evt 0x32 0x21 (some (wStack (w.wptrs.headD 0))) p.car)

/-- Step 4 for one queue once it refills (R227): packets in order while the planned front is short. -/
def Dev.refillLoop (d : Dev) (cap q : Nat) : List QPkt → Dev
  | [] => d
  | p :: r =>
    let pf := (d.queue q).plannedFront
    if ¬ (pf < d.spFront q ∨ pf < d.spLow q) then d
    else match p.loc with
      | .refill _ _ _ => d.refillLoop cap q r
      | .held w =>
        if ¬ d.recDue w then d
        else if ¬ w.inStore then d.lateRefill
        else match d.planRefill cap q p w with
          | some d => d.refillLoop cap q r
          | none => d
      | .spilling _ w => if d.recDue w ∧ ¬ w.inStore then d.lateRefill else d
      | .res _ => d

/-- Record-only refills while the L0 node is in FLUSH (R237). -/
def Dev.recordOnly (d : Dev) (q : Nat) : List QPkt → Dev
  | [] => d
  | p :: r => match p.loc with
    | .refill _ _ _ => d.recordOnly q r
    | .held w =>
      let g := 64 + d.groupOf q
      let n := SMap.get 0 d.yrd.fillCar g
      if ¬ d.recDue w ∨ 256 ≤ n then d
      else if ¬ w.inStore then d.lateRefill
      else
        let loc := Loc.refill none w (tickAdd d.tck.now d.lead)
        let s := d.queue q
        let d := d.setQueue q { s.setMid { p with loc } with refilling := true }
        ({ d with yrd := { d.yrd with fillCar := SMap.set 0 d.yrd.fillCar g (n + 1) } }).recordOnly q r
    | _ => d

/-- Drops of R238 before a queue's refills: records found uncorrectable, at the tick they are due usable, and packets of a
dead stack at the middle head. -/
def Dev.midDrops (d : Dev) (q : Nat) : Dev :=
  let d := (d.queue q).middle.foldl (fun (d : Dev) p => match p.wag with
    | some w => if w.recUe && d.recDue w then (d.fault 0x228 contained 0x02).markFault d.tck.now |>.midDrop q 0x33 p else d
    | none => d) d
  (d.queue q).middle.foldl (fun (d : Dev) p =>
    match (d.queue q).middle.head?, p.wag with
    | some h, some w => if h.id = p.id ∧ ¬ p.refilling ∧ d.wagDead w then d.midDrop q 0x34 p else d
    | _, _ => d) d

/-- Step 4 for one queue (R227, R237). -/
def Dev.refillStep (d : Dev) (cap q : Nat) : Dev :=
  let d := d.midDrops q
  let s := d.queue q
  let pf := s.plannedFront
  let was := s.refilling
  let d := d.setQueue q { s with refilling := false }
  if d.l0State (d.l0Of q) = l0Flush then d.recordOnly q s.middle
  else if pf < d.spLow q ∨ (was ∧ pf < d.spFront q) then d.refillLoop cap q s.middle
  else d

/-- Packets that end within the first `n` carriages, and the rest (R227). -/
def splitFront : Nat → List QPkt → List QPkt × List QPkt
  | _, [] => ([], [])
  | n, p :: r => if p.car ≤ n then let x := splitFront (n - p.car) r; (p :: x.1, x.2) else ([], p :: r)

/-- Spills from the head of a queue's back, until a limit fails. -/
def Dev.spillLoop (d : Dev) (cap q : Nat) : List QPkt → Dev
  | [] => d
  | p :: r => match p.loc with
    | .res c => match d.spill d.stkOpen cap false q p c with
      | some d => d.spillLoop cap q r
      | none => d
    | _ => d

/-- Step 5 for one queue: threshold spills (R227, R230). -/
def Dev.spillStep (d : Dev) (cap q : Nat) : Dev :=
  let s := d.queue q
  if ¬ d.spEn q then d
  else if !s.middle.isEmpty || !s.back.isEmpty then d.spillLoop cap q s.back
  else if (s.front.map QPkt.car).sum < d.spOn q then d
  else
    let x := splitFront (d.spFront q) s.front
    (d.setQueue q { s with front := x.1, back := x.2 }).spillLoop cap q x.2

/-- Step 2 for one packet of the batch: a transit chain is spilled into its reservation (R186, R230). -/
def Dev.transitStep (d : Dev) (e : Nat × Nat × Bool) : Dev :=
  match (d.queue e.1).back.find? fun p => p.id == e.2.1 with
  | none => d
  | some p => match p.loc with
    | .res c => match d.chain c with
      | some v =>
        if v.csrc = 0x1FE ∧ nWagons (mLEN p.m) ≤ v.wagons then
          (d.spill d.stkUsable (d.rd YRD_GRP_CAP.SPILL) true e.1 p c).getD d
        else d
      | none => d
    | _ => d

/-- Queues in the order the plan of a tick visits them (R228). -/
def Dev.planOrder (d : Dev) : List Nat :=
  let start := d.tck.now * 40503 % 262144
  sortKey (fun q => [(q + 262144 - start) % 262144]) (d.que.q.map Prod.fst)

/-- The summary views of YRD_STATUS and OPEN. -/
def Dev.yrdFlags (d : Dev) : Dev :=
  let d := d.wrs [(YRD_STATUS.THERM, b2n ((List.range 8).any fun s => d.on (YRD_STK_STATUS.TCLOSE s))),
    (YRD_STATUS.STK_FAIL, b2n ((List.range 8).any d.stkDead)),
    (YRD_STATUS.REC_FULL, b2n (131072 ≤ d.rd YRD_REC_USED.COUNT))]
  (List.range 8).foldl (fun (d : Dev) s => d.wr (YRD_STK_STATUS.OPEN s) (b2n (d.stkOpen s))) d

/-- Ticks each stack has gone without a planned spill or read (R242). -/
def Dev.idleStep (d : Dev) : Dev :=
  (List.range 8).foldl (fun (d : Dev) s =>
    d.wr (YRD_STK_IDLE.TICKS s) (if d.yrd.busy.contains s then 0 else min 2047 (d.rd (YRD_STK_IDLE.TICKS s) + 1))) d

/-- The yard plan of the tick in progress (R228). -/
def Dev.yardPlan (d : Dev) : Dev :=
  let d := { d with yrd := { d.yrd with wcol := [], rcol := [], spillCar := [], fillCar := [], busy := [] } }
  let lean := d.variantOf d.tck.now = 3
  let fillCap := if lean then d.rd YRD_GRP_CAP.LEAN else d.rd YRD_GRP_CAP.REFILL
  let spillCap := if lean then d.rd YRD_GRP_CAP.LEAN else d.rd YRD_GRP_CAP.SPILL
  let d := (List.range 512).foldl Dev.cacheStep d
  let d := d.que.applied.foldl Dev.transitStep d
  let qs := d.planOrder
  let d := qs.foldl (fun (d : Dev) q => d.fetchStep q (d.queue q).middle) d
  let d := qs.foldl (fun (d : Dev) q => d.refillStep fillCap q) d
  let d := qs.foldl (fun (d : Dev) q => d.spillStep spillCap q) d
  let d := (d.que.q.map Prod.fst).foldl (fun (d : Dev) q => d.setQueue q (d.queue q).unstick) d
  d.idleStep.yrdFlags

/-- A refill due at the boundary (R233): the packet joins the tail of the front and its wagons are credited; one that a dead
stack can no longer complete is dropped (R238, Table 15.9). -/
def Dev.refillDue (d : Dev) (q : Nat) : List QPkt → Dev
  | [] => d
  | p :: r => match p.loc with
    | .refill c w due =>
      if ¬ tickReached due d.tck.now then d
      else
        let placed := match c with
          | some c => (d.chain c).all fun v => v.ptrs.length = v.ncar
          | none => true
        if !placed && d.wagDead w then ((d.midDrop q 0x34 p).markFault d.tck.now).refillDue q r
        else
          let s := d.queue q
          let p' := match c with
            | some c => { p with loc := .res c, refilled := true }
            | none => { p with loc := .held { w with fetched := none, inStore := false } }
          let s := ({ s with middle := s.middle.filter (fun x => x.id != p.id), front := s.front ++ [p'] } : QState).joinFrom s
          let d := d.setQueue q s
          let d := d.wr YRD_REC_USED.COUNT (d.rd YRD_REC_USED.COUNT - 1)
          let d := if c.isSome then (w.wptrs.foldl Dev.creditWagon d).recDone w.recPtr d.tck.now else d
          d.refillDue q r
    | _ => d

/-- Every refill due at the boundary, then the credits due (R233, R236). -/
def Dev.refillsDue (d : Dev) : Dev :=
  ((d.que.q.map Prod.fst).foldl (fun (d : Dev) q => d.refillDue q (d.queue q).middle) d).creditsDue

/-- The words of a wagon or record that a read brings: single-bit errors are corrected and logged (R245); whether one is uncorrectable. -/
def Dev.hbmWords (d : Dev) (s : Nat) (st : Store) (i n : Nat) : Bool × Dev :=
  (d.ueIn (0x220 + s) st i 0 n, (List.range (d.ceIn (0x220 + s) st i 0 n)).foldl (fun (d : Dev) _ =>
    d.wordFault (0x220 + s) st i (0x220 + s) corrected 0x01) d)

/-- A data wagon's bytes, in `cols` columns, go into carriages of a chain through a write port (R233); an uncorrectable word sets TERR
(R238). -/
def Dev.wagonBack (d : Dev) (s ptr c port cols : Nat) : Dev :=
  let e : Place := { port, chain := c, by_ := 0x0400 + s, refill := true }
  let r := { d with dpt := { d.dpt with place := d.dpt.place ++ List.replicate (ceilDiv cols 4) e } }.hbmWords s .wagon ptr (8 * cols)
  if r.1 then
    let d := r.2.wrs [(YRD_UE_WHERE.PTR, ptr), (YRD_UE_WHERE.REC, 0), (YRD_UE_WHERE.SCRUB, 0)]
    (d.wordFault (0x220 + s) .wagon ptr (0x220 + s) contained 0x02).setTerr c
  else r.2

/-- A read that has returned leaves its pseudo-channel. -/
def Dev.hbmGone (d : Dev) (s pc : Nat) (r : HReq) : Dev :=
  let h := d.hbm (64 * s + pc)
  d.setHbm (64 * s + pc) ({ h with returning := h.returning.filter fun x => x.seq != r.seq } : Hbm).drained

/-- A read of a pseudo-channel completes (R233, R238): a record is in the store; a data wagon's carriages go to the group's
write port, and an uncorrectable word sets TERR. -/
def Dev.hbmReadDone (d : Dev) (s pc : Nat) : Dev :=
  match oldest (d.hbm (64 * s + pc)).returning with
  | none => d
  | some r =>
    let d := d.hbmGone s pc r
    match r.what with
    | .write => d
    | .ptrRead => d
    | .recRead q id => match d.findPkt id with
      | none => d
      | some (_, p) => match p.wag with
        | none => d
        | some w =>
          let i := r.ptr * 16 + w.recIdx
          let x := d.hbmWords s .wagRec i 24
          let d := if x.1 then x.2.wrs [(YRD_UE_WHERE.PTR, r.ptr), (YRD_UE_WHERE.REC, 1), (YRD_UE_WHERE.SCRUB, 0)] else x.2
          d.setQueue q ((d.queue q).setMid (p.setWag { w with inStore := true, recUe := x.1 }))
    | .dataRead q id => match d.findPkt id with
      | none => d
      | some (_, p) => match p.loc with
        | .refill (some c) w due =>
          let w := { w with toRead := w.toRead.erase r.ptr }
          let d := d.setQueue q ((d.queue q).setMid { p with loc := .refill (some c) w due })
          d.wagonBack s r.ptr c (d.groupOf q) r.cols
        | .res c => if p.refilled then d.wagonBack s r.ptr c (d.groupOf q) r.cols else d
        | _ => d

/-! ### Stack states, temperature, training and calibration (R242 to R245) -/

/-- A stack enters a state; awake, it owes no exit from self-refresh. -/
def Dev.stkGo (d : Dev) (s st : Nat) : Dev :=
  let exitReq := if st = stkAwake then d.yrd.exitReq.filter fun x => x != s else d.yrd.exitReq
  { d with yrd := { d.yrd with since := SMap.set 0 d.yrd.since s d.tck.now, exitReq } }.wr (YRD_STK_STATUS.STATE s) st

/-- The boundary's state changes (R242): the stack named enters self-refresh, stacks asleep with an exit asked for or
reopened leave it. -/
def Dev.stkBoundary (d : Dev) : Dev :=
  let d := match d.yrd.named with
    | some s => if d.stk s = stkAwake then { d.stkGo s stkEntering with yrd := { (d.stkGo s stkEntering).yrd with named := none } } else d
    | none => d
  (List.range 8).foldl (fun (d : Dev) s =>
    if d.stk s = stkAsleep ∧ (d.yrd.exitReq.contains s ∨ d.yrd.reopen = some s) then
      let y := { d.yrd with exitReq := d.yrd.exitReq.filter (fun x => x != s),
                            reopen := if d.yrd.reopen = some s then none else d.yrd.reopen }
      { d with yrd := y }.stkGo s stkExiting
    else d) d

/-- Entry to self-refresh has lasted 2 ticks (R242). -/
def Dev.srEntered (d : Dev) (s : Nat) : Dev :=
  if d.stk s = stkEntering ∧ 2 ≤ tickSub d.tck.now (SMap.get 0 d.yrd.since s) then
    if d.yrd.exitReq.contains s then
      { d with yrd := { d.yrd with exitReq := d.yrd.exitReq.filter fun x => x != s } }.stkGo s stkExiting
    else d.stkGo s stkAsleep
  else d

/-- Exit from self-refresh has lasted 1 tick (R242). -/
def Dev.srExited (d : Dev) (s : Nat) : Dev :=
  if d.stk s = stkExiting ∧ 1 ≤ tickSub d.tck.now (SMap.get 0 d.yrd.since s) then (d.stkGo s stkAwake).yrdFlags else d

/-- A stack temperature reading (R243), in two's complement. -/
def Dev.stkTemp (d : Dev) (s : Nat) (temp : Int) : Dev :=
  let d := d.wr (YRD_STK_STATUS.TEMP s) (ofInt 8 temp)
  let d := if 85 < temp then d.wr (YRD_STK_STATUS.REFX2 s) 1 else if temp ≤ 83 then d.wr (YRD_STK_STATUS.REFX2 s) 0 else d
  let warm := (d.rd YRD_THERM.WARN : Int) ≤ temp
  let was := d.yrd.warm.contains s
  let ws := d.yrd.warm.filter fun x => x != s
  let d := { d with yrd := { d.yrd with warm := if warm then ws ++ [s] else ws } }
  let d := if warm ∧ ¬ was then d.fault (0x220 + s) corrected 0x08 else d
  let closed := d.on (YRD_STK_STATUS.TCLOSE s)
  let d := if 105 ≤ temp ∧ ¬ closed then (d.wr (YRD_STK_STATUS.TCLOSE s) 1).fault (0x220 + s) contained 0x08
    else if temp ≤ 100 ∧ closed then d.wr (YRD_STK_STATUS.TCLOSE s) 0 else d
  d.yrdFlags

/-- Every tick in which a stack stays thermally closed takes the FAULT bit (R243). -/
def Dev.thermMark (d : Dev) : Dev :=
  if (List.range 8).any fun s => d.on (YRD_STK_STATUS.TCLOSE s) then d.markFault d.tck.now else d

/-- Training of a stack ends (R244): its lists are built and it is AWAKE, or it is FAILED. -/
def Dev.stkTrained (d : Dev) (s : Nat) (ok : Bool) : Dev :=
  if d.stk s ≠ stkTraining then d
  else if ok then
    let y := { d.yrd with built := d.yrd.built ++ [s], free := d.yrd.free.filter (fun p => p.1 / 64 != s),
                          credits := d.yrd.credits.filter (fun c => wStack c.2 != s) }
    (({ d with yrd := y }.wr (YRD_STK_FREE.COUNT s) 0x1800000).stkGo s stkAwake).yrdFlags
  else
    let y := { d.yrd with built := d.yrd.built.filter (fun x => x != s) }
    ((({ d with yrd := y }.wr (YRD_STK_FREE.COUNT s) 0).stkGo s stkFailed).fault (0x220 + s) contained 0x0E).yrdFlags

/-- A calibration step of a pseudo-channel of an awake stack (R245): in a slack cycle, YRD_CAL.PERIOD ticks after the latest one. -/
def Dev.hbmCal (d : Dev) (s pc : Nat) : Dev :=
  let k := 64 * s + pc
  if d.stk s = stkAwake ∧ 504 ≤ d.tck.slot ∧ d.rd YRD_CAL.PERIOD ≤ tickSub d.tck.now (SMap.get 0 d.yrd.cal k) then
    { d with yrd := { d.yrd with cal := SMap.set 0 d.yrd.cal k d.tck.now } }
  else d

/-- Patrol scrubbing reads a column of a wagon or record that holds words in error (R245): the correctable ones are rewritten, logged and
counted, an uncorrectable one is logged and left. -/
def Dev.hbmScrub (d : Dev) (src : Nat) (st : Store) (i lo : Nat) : Dev :=
  let ptr := if st = .wagRec then i / 16 else i
  let d := (List.range (d.ceIn src st i lo 8)).foldl (fun (d : Dev) _ =>
    (d.wordFault src st i src corrected 0x01).bump YRD_SCRUB_CE.COUNT) d
  let d := if d.ueIn src st i lo 8 then
      (d.wrs [(YRD_UE_WHERE.PTR, ptr), (YRD_UE_WHERE.REC, b2n (st == .wagRec)), (YRD_UE_WHERE.SCRUB, 1)]).wordFault src st i src contained 0x02
    else d
  { d with flt := { d.flt with ecc := d.flt.ecc.filter fun e =>
      !(e.at_ src st i && !e.dbl && decide (lo ≤ e.word ∧ e.word < lo + 8)) } }

/-- The column that a word in error lies in, as 32 × wagon + column. -/
def EccErr.column (e : EccErr) : Nat :=
  if e.store = .wagRec then 32 * wWagon (e.idx / 16) + 3 * (e.idx % 16) + e.word / 8 else 32 * wWagon e.idx + e.word / 8

/-- A slack cycle of the patrol (R245): in every 12th, one column of every pseudo-channel of the awake stacks. -/
def Dev.patrol (d : Dev) : Dev :=
  if d.yrd.slack < 11 then { d with yrd := { d.yrd with slack := d.yrd.slack + 1 } }
  else
    let at_ := d.yrd.patrol
    let d := { d with yrd := { d.yrd with slack := 0, patrol := (at_ + 1) % (32 * pcWagons) } }
    let hit := d.flt.ecc.filter fun e => (e.store == .wagon || e.store == .wagRec) && e.column == at_ && d.stk (e.src - 0x220) = stkAwake
    ((hit.map fun e => (e.src, e.store, e.idx, e.word / 8 * 8)).eraseDups).foldl (fun (d : Dev) x => d.hbmScrub x.1 x.2.1 x.2.2.1 x.2.2.2) d

end Sys2Proof.Machine
end

