-- ==== Sys2Proof/Machine/Nrg.lean ====
section
/-! DEFINITION. Energy reckoning and supply sag (chapter 12): cost sets (R287, R293), settlement and the plan (R288 to R291),
the choice of stacks (R295), the measurement window (R294) and sag episodes (R297 to R300). -/

namespace Sys2Proof.Machine

/-! ### Cost sets -/

/-- An index of Table 12.1 that is not reserved. -/
def costIdxOk (i : Nat) : Bool := i < 5 || (8 ≤ i && i < 0x18) || (0x19 ≤ i && i < 0x23)

/-- The default of an entry (Table 12.1). -/
def costDefault (i : Nat) : Nat :=
  if i < 8 then [2150400, 46080, 6144, 983040, 196608, 0, 0, 0].getD i 0
  else if i < 0x10 then [0, 512, 384, 512, 512, 512, 512, 128].getD (i - 8) 0
  else if i < 0x18 then [0, 6144, 4096, 6144, 6144, 6144, 6144, 256].getD (i - 0x10) 0
  else if i < 0x20 then [0, 384, 192, 128, 64, 128, 32, 3072].getD (i - 0x18) 0
  else [96, 96, 1024].getD (i - 0x20) 0

/-- An entry of a cost set. -/
def costOf (s : SMap Nat) (i : Nat) : Nat := (SMap.find s i).getD (costDefault i)

/-- K as it acts (R293). -/
def kActs (k : Nat) : Nat := max 0x0800 k

/-- NRG_COST_DATA shows the entry that NRG_COST_IDX names. -/
def Dev.nrgShow (d : Dev) : Dev :=
  let i := d.rd NRG_COST_IDX.INDEX
  let s := if d.on NRG_COST_IDX.ACT then d.nrg.active else d.nrg.pending
  d.wr NRG_COST_DATA.VALUE (if costIdxOk i then costOf s i else 0)

/-- A write of NRG_COST_DATA (R287, R293). -/
def Dev.nrgCostWrite (d : Dev) (v : Nat) : Dev :=
  let i := d.rd NRG_COST_IDX.INDEX
  if d.on NRG_COST_IDX.ACT then d
  else if costIdxOk i then
    ({ d with nrg := { d.nrg with pending := SMap.ins d.nrg.pending i (v % 2 ^ 24) } }.wr NRG_STATUS.PEND 1).nrgShow
  else d.wr NRG_STATUS.CFG_ERR 1

/-- The pending set and factor take effect with a chart swap of the tick in progress (R293). -/
def Dev.nrgApply (d : Dev) : Dev :=
  let n := { d.nrg with old := d.nrg.active, oldK := d.rd NRG_CAL_ACT.K, since := d.tck.now, active := d.nrg.pending }
  (({ d with nrg := n }.wr NRG_CAL_ACT.K (d.rd NRG_CAL_PEND.K)).wr NRG_STATUS.PEND 0).nrgShow

/-! ### Settlement and the plan -/

/-- What a tick starts with in its account (R288): BASE, and each stack by its state. -/
def Dev.nrgStart (d : Dev) : Dev :=
  let awake := (List.range 8).countP fun s => d.stk s ≠ stkAsleep && d.stk s ≠ stkFailed
  let asleep := (List.range 8).countP fun s => d.stk s = stkAsleep
  ((d.charge d.tck.now 0 1).charge d.tck.now 1 awake).charge d.tck.now 2 asleep

/-- The unit of an entry in 1/64 EU. -/
def costUnit (i : Nat) : Nat := if i < 8 then 64 else 1

/-- cost(n) in 1/64 EU (R288). -/
def Dev.cost (d : Dev) (n : Nat) : Nat :=
  let new := tickReached d.nrg.since n
  let s := if new then d.nrg.active else d.nrg.old
  let k := kActs (if new then d.rd NRG_CAL_ACT.K else d.nrg.oldK)
  let sum := (d.nrg.counts.map fun p =>
    if p.1 / 64 = n then (if p.1 % 64 = 0x3F then p.2 else p.2 * costOf s (p.1 % 64) * costUnit (p.1 % 64)) else 0).sum
  sum * k / 4096

/-- The plan cost of the itinerary entries of a variant (R290): slots 0 to 503, both directions, 64 pipelines. -/
def ChartBank.planSum (b : ChartBank) (v : Nat) (cost : Nat → Nat) : Nat :=
  let es := b.itin.filter fun p => p.1 / 512 % 4 = v && p.1 % 512 < 504
  (es.map fun p => let s := p.2.toNat / 4096; if s < 8 then cost (0x10 + s) else 0).sum + (64512 - es.length) * cost 0x10

/-- A swap at a tick is known (R290). -/
def Dev.swapKnown (d : Dev) (m : Nat) : Bool :=
  d.on CHT_STATUS.ARMED &&
  (if d.cht.armScope = 2 then d.cht.held.map HeldSwap.target == some m else d.cht.armTarget == m)

/-- plan(v, m) in 1/64 EU (R290). -/
def Dev.plan (d : Dev) (v m : Nat) : Nat :=
  let swap := d.swapKnown m || d.swapDue
  let b := if swap then d.shadow else d.active
  let s := if swap then d.nrg.pending else d.nrg.active
  let k := kActs (d.rd (if swap then NRG_CAL_PEND.K else NRG_CAL_ACT.K))
  let awake := (List.range 8).countP fun x => d.stk x ≠ stkAsleep && d.stk x ≠ stkFailed
  let asleep := (List.range 8).countP fun x => d.stk x = stkAsleep
  let eu := costOf s 0 + awake * costOf s 1 + asleep * costOf s 2 + (if v = 3 then costOf s 4 else costOf s 3)
  (64 * eu + b.planSum v (costOf s)) * k / 4096

/-- The balance in 1/64 EU (R289). -/
def Dev.bal (d : Dev) : Int := sInt 48 (d.rdPair NRG_BAL_LO.BAL NRG_BAL_HI.BAL)
def Dev.setBal (d : Dev) (v : Int) : Dev := d.wrTick NRG_BAL_LO.BAL NRG_BAL_HI.BAL (ofInt 48 v)

/-- The variant that a balance allows (R289). -/
def Dev.chooseVariant (d : Dev) (bal : Int) (m : Nat) : Nat :=
  let floor : Int := 64 * sInt 32 (d.rd NRG_FLOOR.EU)
  let fits (c : Nat) : Bool := floor ≤ bal - (d.plan c m : Nat)
  if !d.on NRG_CTRL.EN then 0 else if fits 0 then 0 else if fits 1 then 1 else if fits 2 then 2 else 3

/-- A tick counts its variant (R289). -/
def Dev.countVariant (d : Dev) (v : Nat) : Dev :=
  if v = 1 then d.bump NRG_VAR_L1.COUNT else if v = 2 then d.bump NRG_VAR_L2.COUNT
  else if v = 3 then d.bump NRG_VAR_L3.COUNT else d

/-- Settlement and naming at the start of the tick in progress (R289). -/
def Dev.reckon (d : Dev) : Dev :=
  let n := d.tck.now
  let p := tickSub n 2
  let cost := d.cost p
  let cap : Int := 64 * d.rd NRG_CAP.EU
  let bal := min cap (d.bal + 64 * d.rd NRG_BUDGET.EU + (SMap.get 0 d.nrg.rsv p : Nat) - (cost : Nat))
  let m := tickAdd n 2
  let v := d.chooseVariant bal m
  let r := d.plan v m
  let after := bal - (r : Nat)
  let inWin := tickReached d.nrg.winStart p && (d.nrg.counts.any fun x => x.1 / 64 = p)
  let nrg := { d.nrg with
    counts := d.nrg.counts.filter (fun x => x.1 / 64 != p),
    rsv := SMap.set 0 ((d.nrg.rsv.filter fun x => x.1 != p)) m r,
    named := SMap.set 0 (d.nrg.named.filter fun x => x.1 == n || tickFuture x.1 n) m v,
    modelSum := if inWin then d.nrg.modelSum + cost else d.nrg.modelSum, closing := none }
  let last : Nat := if d.nrg.counts.any fun x => x.1 / 64 = p then cost else 0
  let d := match d.nrg.closing with
    | some c => d.wrTick NRG_MODEL_LO.EU NRG_MODEL_HI.EU ((c + last) / 64)
    | none => d
  let d := ({ d with nrg := nrg }.setBal after).wrs [(NRG_LAST_COST.EU, cost / 64), (NRG_LAST_PLAN.EU, r / 64),
    (NRG_STATUS.NEXT_VAR, v)]
  let d := if bal < 0 ∨ after < 0 then d.wr NRG_STATUS.NEG 1 else d
  d.countVariant (d.variantOf n)

/-- The Trelier counts of a tick are lost by an uncorrectable die-to-die error (R288). -/
def Dev.nrgLose (d : Dev) (n : Nat) : Dev :=
  { d with nrg := { d.nrg with counts := d.nrg.counts.filter fun x => !(x.1 / 64 = n && 0x20 ≤ x.1 % 64 && x.1 % 64 ≤ 0x22) } }

/-! ### Stacks (R295) -/

/-- Open wagons not counting a stack. -/
def Dev.openWagonsBut (d : Dev) (s : Nat) : Nat :=
  (((List.range 8).filter fun x => x != s && d.stkOpen x).map fun x => d.rd (YRD_STK_FREE.COUNT x) - d.rd YRD_GUARD.WAGONS).sum -
    (d.dpt.chains.map fun c => c.2.wagons).sum

/-- The stack that is named for self-refresh, if one is. -/
def Dev.srName (d : Dev) : Option Nat :=
  let keep := max 1 (d.rd NRG_SR_CTRL.MIN_AWAKE)
  let awake := (List.range 8).countP fun s => d.stk s = stkAwake
  (List.range 8).reverse.find? fun s =>
    d.stk s = stkAwake && 1024 ≤ d.rd (YRD_STK_IDLE.TICKS s) && keep + 1 ≤ awake &&
    d.rd NRG_SR_CTRL.WAKE * 65536 ≤ d.openWagonsBut s

/-- The choice of stacks at the start of a tick (R295). -/
def Dev.stackChoice (d : Dev) : Dev :=
  if !d.on YRD_CTRL.SR_EN then d
  else match d.srName with
    | some s => { d with yrd := { d.yrd with named := some s } }.yrdFlags
    | none =>
      if d.openWagons < d.rd NRG_SR_CTRL.WAKE * 65536 then
        { d with yrd := { d.yrd with reopen := (List.range 8).find? fun s => d.stk s = stkAsleep } }
      else d

/-! ### The measurement window (R294) -/

/-- The window length as it acts. -/
def Dev.winTicks (d : Dev) : Nat := 2 ^ min 24 (max 10 (d.rd NRG_CTRL.WIN_LOG2))

/-- The window that ends with the start of the tick in progress is latched, with the energy measured. Its last tick is settled at the
start of the next tick (R288), and NRG_MODEL shows the sum from then on (DEDUCED, log entry 73). -/
def Dev.energyLatch (d : Dev) (meas : Nat) : Dev :=
  if d.tck.now % d.winTicks = 0 ∧ d.nrg.closing.isNone then
    let d := d.wrTick NRG_MEAS_LO.EU NRG_MEAS_HI.EU meas
    { d with nrg := { d.nrg with closing := some d.nrg.modelSum, modelSum := 0, winStart := d.tck.now } }
  else d

/-! ### Supply sag (R297 to R301, R303) -/

/-- A die's sag controller: 0 Atkor, 1 Trelier. -/
def Dev.sag (d : Dev) (die : Nat) : Sag := if die = 0 then d.nrg.sagA else d.nrg.sagT
def Dev.setSag (d : Dev) (die : Nat) (s : Sag) : Dev :=
  if die = 0 then { d with nrg := { d.nrg with sagA := s } } else { d with nrg := { d.nrg with sagT := s } }

/-- The deeper of the two dies' clock levels (R301). -/
def Dev.clkLevel (d : Dev) : Nat := max d.nrg.sagA.level d.nrg.sagT.level

/-- The clock state views (R301). -/
def Dev.sagViews (d : Dev) : Dev :=
  d.wrs [(NRG_STATUS.SAG_A, d.nrg.sagA.level), (NRG_STATUS.SAG_T, d.nrg.sagT.level), (TCK_STATUS.CLK_STATE, d.clkLevel)]

/-- The warning and the deep level below the setpoint, in quarters of a percent (Table 12.5). -/
def Dev.warnBelow (d : Dev) : Nat := 12 + 2 * min 10 (d.rd NRG_SAG_CTRL.WARN)
def deepBelow : Nat := 32

/-- The hysteresis in quarters of a percent (R299). -/
def Dev.sagHyst (d : Dev) : Nat := max 1 (min 8 (d.rd NRG_SAG_CTRL.HYST))

/-- The level a die's clock stands at, below which a reading is a crossing: that of the deep level at 3/4, of the warning level else. -/
def Dev.sagBelow (d : Dev) (die : Nat) : Nat := if (d.sag die).level = 2 then deepBelow else d.warnBelow

/-- A reading in µV lies below, or above, the level `q` quarters of a percent under a setpoint in mV. -/
def under (mv q low : Nat) : Bool := low * 400 < mv * 1000 * (400 - q)
def above (mv q low : Nat) : Bool := mv * 1000 * (400 - q) < low * 400

/-- A die's clock moves to a level: the counts of edges and of clean cycles restart (R11, R298, R299). -/
def Dev.sagTo (d : Dev) (die level : Nat) : Dev :=
  let s := d.sag die
  let s := if s.level = 0 then { s with onset := d.tck.now, cycles := 0, deepest := level } else s
  let d := d.setSag die { s with level, deepest := max s.deepest level, edges := 0, clean := 0 }
  { d with nrg := { d.nrg with stretched := true } }.sagViews

/-- A reading during a stretch that is not above the level in force plus HYST: a dip, which restarts the count (R299). -/
def Dev.sagDip (d : Dev) (die low : Nat) : Dev :=
  let s := d.sag die
  if s.level ≠ 0 ∧ ¬ above s.base (d.sagBelow die - d.sagHyst) low then d.setSag die { s with clean := 0 } else d

/-- A sensor reads `low` µV and crosses the warning level (R297, R298): 7/8, or 3/4 when WARN places the level at 8.0 %. -/
def Dev.sagWarn (d : Dev) (die low : Nat) : Dev :=
  let s := d.sag die
  if s.level = 0 ∧ under s.base d.warnBelow low then d.sagTo die (if 10 ≤ d.rd NRG_SAG_CTRL.WARN then 2 else 1)
  else d.sagDip die low

/-- A sensor reads `low` µV and crosses the deep level. -/
def Dev.sagDeep (d : Dev) (die low : Nat) : Dev :=
  let s := d.sag die
  if s.level < 2 ∧ under s.base deepBelow low then d.sagTo die 2 else d.sagDip die low

/-- The end of an episode (R300). -/
def Dev.sagEnd (d : Dev) (die : Nat) (s : Sag) : Dev :=
  let cyc := min s.cycles 0xFFFFFF
  let d := d.wrs [(NRG_SAG_LAST.DIE, die), (NRG_SAG_LAST.LEVEL, s.deepest), (NRG_SAG_LAST.CYCLES, cyc), (NRG_STATUS.SAG_EVT, 1)]
  let d := d.wrTick NRG_SAG_TICK_LO.TICK NRG_SAG_TICK_HI.TICK s.onset
  let d := d.bump (if die = 0 then NRG_SAG_WARN_A.COUNT else NRG_SAG_WARN_T.COUNT)
  let d := if s.deepest = 2 then d.bump (if die = 0 then NRG_SAG_DEEP_A.COUNT else NRG_SAG_DEEP_T.COUNT) else d
  d.fault (0x350 + die) (if s.deepest = 2 then contained else corrected) 0x0C
    (die * 2 ^ 95 + s.deepest * 2 ^ 93 + cyc * 2 ^ 69 + s.onset * 2 ^ 21)

/-- The lowest reading of a die's sensors is `low` µV: the clock returns one level, once 256 cycles have passed without a dip
(R299). -/
def Dev.sagReturn (d : Dev) (die low : Nat) : Dev :=
  let s := d.sag die
  if s.level = 0 then d
  else if ¬ above s.base (d.sagBelow die - d.sagHyst) low then d.sagDip die low
  else if s.clean < 256 then d
  else if s.level = 2 then d.sagTo die 1
  else ((d.setSag die { s with level := 0, deepest := 0, edges := 0, clean := 0 }).sagViews).sagEnd die s

/-- Every sensor of a die reads from `lo` to `hi` µV: the levels of a raised setpoint follow it once all are within 1.0 % (R303). -/
def Dev.sagFollow (d : Dev) (die mv lo hi : Nat) : Dev :=
  let s := d.sag die
  if s.base < mv ∧ 990 * mv ≤ lo ∧ hi ≤ 1010 * mv then d.setSag die { s with base := mv } else d

/-- The gate suppresses a die's next edge (R11, R298). -/
def Sag.gated (s : Sag) : Bool := (s.level == 1 && (s.edges + 1) % 8 == 0) || (s.level == 2 && (s.edges + 1) % 4 == 0)

/-- One core-clock cycle of a die. -/
def Sag.cycle (s : Sag) : Sag :=
  { s with edges := s.edges + 1, clean := s.clean + 1, done := s.done + b2n (!s.gated),
           cycles := if s.level = 0 then s.cycles else s.cycles + 1 }

/-- One core-clock cycle of the device (R11, R301). -/
def Dev.gateCycle (d : Dev) : Dev :=
  { d with tck := { d.tck with cyc := d.tck.cyc + 1 }, nrg := { d.nrg with sagA := d.nrg.sagA.cycle, sagT := d.nrg.sagT.cycle } }

/-- Both dies have reached `k` slot cycles and slack cycles of the tick (R301). -/
def Dev.reached (d : Dev) (k : Nat) : Bool := k ≤ d.nrg.sagA.done && k ≤ d.nrg.sagT.done

end Sys2Proof.Machine
end

