-- ==== Sys2Proof/Machine/Ring.lean ====
section
/-! DEFINITION. The host endpoint's functions and ring registers (R305, R309, R317, R318), which navigator firmware injects through as the
host does (R265). -/

namespace Sys2Proof.Machine

def Dev.func (d : Dev) (fn : Nat) : Func := if fn = 0 then d.hst.pf0 else d.hst.pf1
def Dev.setFunc (d : Dev) (fn : Nat) (f : Func) : Dev :=
  if fn = 0 then { d with hst := { d.hst with pf0 := f } } else { d with hst := { d.hst with pf1 := f } }

/-- A function may issue requests: Bus Master Enable in D0 (R305, R318). -/
def Func.masters (f : Func) : Bool := f.bme && !f.d3

/-! ### Ring registers; ring `r` below 64 is punt ring r, ring 64 + n is inject ring n -/

def rState (r : Nat) : Field := if r < 64 then HST_PUNT_STATE.STATE r else HST_INJ_STATE.STATE (r - 64)
def rErr (r : Nat) : Field := if r < 64 then HST_PUNT_STATE.ERR r else HST_INJ_STATE.ERR (r - 64)
def rHead (r : Nat) : Field := if r < 64 then HST_PUNT_HEAD.COUNT r else HST_INJ_HEAD.COUNT (r - 64)
def rTail (r : Nat) : Field := if r < 64 then HST_PUNT_TAIL.COUNT r else HST_INJ_TAIL.COUNT (r - 64)
def rEn (r : Nat) : Field := if r < 64 then HST_PUNT_CFG.EN r else HST_INJ_CFG.EN (r - 64)
def rVec (r : Nat) : Field := if r < 64 then HST_PUNT_CFG.VEC r else HST_INJ_CFG.VEC (r - 64)
def rIrqEn (r : Nat) : Field := if r < 64 then HST_PUNT_CFG.IRQ_EN r else HST_INJ_CFG.IRQ_EN (r - 64)
def rLog2 (r : Nat) : Field := if r < 64 then HST_PUNT_CFG.SIZE_LOG2 r else HST_INJ_CFG.SIZE_LOG2 (r - 64)

/-- Descriptors of a ring (R309). -/
def Dev.ringSize (d : Dev) (r : Nat) : Nat := 2 ^ max 4 (d.rd (rLog2 r))

/-- Ring base address in host memory. -/
def Dev.ringBase (d : Dev) (r : Nat) : Nat :=
  if r < 64 then 64 * d.rd (HST_PUNT_BASE_LO.BASE r) + 2 ^ 32 * d.rd (HST_PUNT_BASE_HI.BASE r)
  else 64 * d.rd (HST_INJ_BASE_LO.BASE (r - 64)) + 2 ^ 32 * d.rd (HST_INJ_BASE_HI.BASE (r - 64))

/-- Descriptors posted and not yet consumed. -/
def Dev.posted (d : Dev) (r : Nat) : Nat := (d.rd (rTail r) + 65536 - d.rd (rHead r)) % 65536

/-- The states of Table 13.8. -/
abbrev ringDisabled : Nat := 0
abbrev ringRun : Nat := 1
abbrev ringHalt : Nat := 2
abbrev ringError : Nat := 3

/-- A ring that is served (R317, R318). -/
def Dev.served (d : Dev) (r : Nat) : Bool := d.rd (rState r) == ringRun && d.hst.pf1.masters && !d.hst.arming.contains r

end Sys2Proof.Machine
end

