-- ==== Sys2Proof/Machine/Wan.lean ====
section
/-! DEFINITION. WAN ports (chapter 10): the management buses (R258 to R260), ceilings (R253), how sessions end (R269, R270), link state
(R256, R257), cage modes (R248), reception (R14, R250) and departures (R251, R252, R254, R196, R362). -/

namespace Sys2Proof.Machine

/-! ### Time in 1/4,200 ns -/

/-- A nanosecond. -/
abbrev uNs : Nat := 4200

/-- The slot instant of slot `s` in tick `t` (R13). -/
def slotInstant (t s : Nat) : Nat := t * 384 * uNs + s * 3200

/-- Instants wrap with the tick number (R7); a slot cycle is 3,200 units. -/
def instMod : Nat := scMod * 3200

/-- Instant `b` is not before instant `a` (R7). -/
def instReached (a b : Nat) : Bool := (b + instMod - a % instMod) % instMod < instMod / 2

/-- The tick in which an instant lies. -/
def instTick (u : Nat) : Nat := u / (384 * uNs) % tickMod

/-- The rate in Gb/s of a port mode (Table 10.1), the transmit and receive constants in ns. -/
def wanRate (mode : Nat) : Nat := [0, 1600, 800, 400, 200].getD mode 0
def wanCtx (mode : Nat) : Nat := [0, 88, 104, 136, 200].getD mode 0
def wanKrx (mode : Nat) : Nat := [0, 152, 176, 224, 320].getD mode 0

/-- The time `l` bytes take on the wire in a mode. -/
def wireTime (mode l : Nat) : Nat := 21 * 2 ^ (mode - 1) * l

/-- The offset of time of day in force (R410): whole seconds, quarter nanoseconds. -/
def Dev.todOffset (d : Dev) : Nat × Nat :=
  (d.rdPair SXT_OFS_ACT_SEC_LO.SEC SXT_OFS_ACT_SEC_HI.SEC, 4 * d.rd SXT_OFS_ACT_NS.NS + d.rd SXT_OFS_ACT_NS.QNS)

/-- Time of day of an instant under an offset (R254, R410): whole seconds, whole nanoseconds. -/
def timeOfDay (ofs : Nat × Nat) (u : Nat) : Nat × Nat :=
  let t := u + ofs.1 * 10 ^ 9 * uNs + ofs.2 * 1050
  (t / (10 ^ 9 * uNs) % 2 ^ 48, t / uNs % 10 ^ 9)

/-! ### Counters -/

/-- A saturating counter of a port: 8 RX_FCS_ERR to 15 LINK_DOWN (Table 10.11). -/
def Dev.wanBump (d : Dev) (port k : Nat) (n : Nat := 1) : Dev := d.bump (WAN_CNT.COUNT port k) n

/-- A 64-bit counter of a port, which wraps: its LO and HI are counters k and k + 1. -/
def Dev.wanAdd (d : Dev) (port k n : Nat) : Dev :=
  let v := (d.rdPair (WAN_CNT.COUNT port k) (WAN_CNT.COUNT port (k + 1)) + n) % 2 ^ 64
  (d.wr (WAN_CNT.COUNT port k) v).wr (WAN_CNT.COUNT port (k + 1)) (v / 2 ^ 32)

/-- The mode of a port's cage. -/
def Dev.wanMode (d : Dev) (port : Nat) : Nat := d.rd (WAN_CAGE.MODE (port / 8))

/-- A configuration write that is not applied: WAN_CFG_ERR takes the first failure since software cleared the flag (R271). -/
def Dev.wanCfgErr (d : Dev) (index code : Nat) : Dev :=
  if d.on WAN_STATUS.CFG_ERR then d
  else d.wrs [(WAN_STATUS.CFG_ERR, 1), (WAN_CFG_ERR.INDEX, index), (WAN_CFG_ERR.CODE, code)]

/-- Codewords that a port's decoder corrected, and could not correct, in the tick that ends (R250, R267, R271). -/
def Dev.fecReport (d : Dev) (port corr uncorr : Nat) : Dev :=
  if !d.wanExists port then d
  else
    let d := ((d.wanBump port 13 corr).evt 0x28 0x22 (some port) corr)
    if uncorr = 0 then d
    else
      let d := ((d.wanBump port 14 uncorr).evt 0x28 0x23 (some port) uncorr)
      { d with wan := { d.wan with dirty := SMap.ins d.wan.dirty port d.tck.now } }

/-! ### Ceilings (R253) -/

/-- The L0 nodes enabled that name a WAN port, in ascending index. -/
def Dev.portNodes (d : Dev) (port : Nat) : List Nat :=
  (List.range 512).filter fun n => d.entEn (3, n) && d.l0Kind n = 0 && d.l0Port n = port

/-- The share of a node (R253). -/
def Dev.nodeShare (d : Dev) (n : Nat) : Nat :=
  match d.wan.settings with
  | some g => Config.nodeShare g n
  | none => 1

/-- The steps that a node of a port can still take, when the port's nodes have been given what a list says: at most 16, and no more than
its group can take under code 0x07 (R253). -/
def Dev.nodeRoom (d : Dev) (given : List (Nat × Nat)) (n : Nat) : Nat :=
  let others := ((List.range 8).map (8 * (n / 8) + ·)).filter fun k => d.entEn (3, k) && !given.any fun p => p.1 == k
  16 - ((others.map d.l0Ceil).sum + ((given.filter fun p => p.1 / 8 == n / 8).map Prod.snd).sum)

/-- A node of a list takes `k` steps more. -/
def giveNode (given : List (Nat × Nat)) (n k : Nat) : List (Nat × Nat) := given.map fun p => if p.1 = n then (n, p.2 + k) else p

/-- `k` steps go one at a time to the nodes of a list in order, and round again; a step that a node cannot take goes to the next. -/
def Dev.spreadSteps (d : Dev) : Nat → List Nat → List (Nat × Nat) → List (Nat × Nat)
  | 0, _, given => given
  | k + 1, order, given =>
    match order.find? fun n => 0 < d.nodeRoom given n with
    | none => given
    | some n =>
      let rest := (order.dropWhile fun x => x != n).drop 1
      d.spreadSteps k (rest ++ order.takeWhile (fun x => x != n) ++ [n]) (giveNode given n 1)

/-- How `c` steps divide among a port's nodes (R253). -/
def Dev.ceilPlan (d : Dev) (port c : Nat) : List (Nat × Nat) :=
  let ns := d.portNodes port
  let sum := (ns.map d.nodeShare).sum
  let given := ns.foldl (fun g n => giveNode g n (min (d.nodeRoom g n) (c * d.nodeShare n / sum))) (ns.map fun n => (n, 0))
  d.spreadSteps (c - (given.map Prod.snd).sum) ns given

/-- A navigator's lease holder: the cores of the Atkor die submit (DESIGN CHOICE, log entry 75). -/
abbrev navHolder : Nat := 0x10

/-- Navigator firmware sets a port's ceiling to `c` steps through queue operations (R204, R253), from a tick on or at the next boundary: the
nodes that lose steps come first. -/
def Dev.setCeil (d : Dev) (port c : Nat) (at_ : Option Nat) : Dev :=
  let plan := (d.ceilPlan port c).filter fun p => p.2 != d.l0Ceil p.1
  let ops := plan.filter (fun p => p.2 < d.l0Ceil p.1) ++ plan.filter fun p => d.l0Ceil p.1 < p.2
  let d := ops.foldl (fun (d : Dev) p =>
    let v := setBits (d.desc (3, p.1)) 10 5 p.2
    d.queTake { holder := navHolder, op := 1, type := 3, index := p.1, timed := at_.isSome, tick := at_.getD 0,
                data := (List.range 8).map fun i => BitVec.ofNat 32 (v / 2 ^ (32 * i)) }) d
  if at_.isSome then d else d.wr (WAN_PORT_ST.CEIL port) c

/-! ### The management buses (R258 to R260) -/

/-- The cage whose module a transaction addresses. -/
def BusOp.cage : BusOp → Nat
  | .poll p => p / 8
  | .nav c _ => c
  | .select c _ => c
  | .host c _ _ _ _ _ => c
  | .steer p _ _ => p / 8

/-- What starts on the wires. -/
def BusOp.emit : BusOp → Emit
  | .poll p => .busRead (p / 8) 0x20
  | .nav c page => .busRead c page
  | .select c mode => .select c mode
  | .host c bank page off len w => .bus c bank page off len w
  | .steer p kind app => .module_ p kind app

/-- Cage `c` holds a module. -/
def Dev.modulePresent (d : Dev) (c : Nat) : Bool := d.on (CGE_SLOT_STS.PDS c)

/-- A navigator sees a cage's module in its Ready state (R253): the ports without margin steering take their full rate. -/
def Dev.cageReady (d : Dev) (c : Nat) : Dev :=
  if d.wan.ready.contains c then d
  else
    let d := { d with wan := { d.wan with ready := d.wan.ready ++ [c] } }
    (List.range 8).foldl (fun (d : Dev) i =>
      let p := 8 * c + i
      if d.wanExists p ∧ ¬ d.on (WAN_PORT_CFG.MS_EN p) then d.setCeil p (wanRate (d.wanMode p) / 50) none else d) d

/-- The modules of a cage no longer count as ready (R248, R328). -/
def Dev.cageUnready (d : Dev) (cage : Nat) : Dev :=
  { d with wan := { d.wan with ready := d.wan.ready.filter fun c => c != cage } }

/-- A module's state byte shows Ready (PRESUMED, log entry 76: CMIS's ModuleReady, 3 in bits 3:1). -/
def moduleReady (data : List Byte) : Bool := bits (data.headD 0#8).toNat 1 3 == 3

/-- A transaction has ended: what the mailbox shows (R260), and what a navigator makes of its reads. -/
def Dev.busEnd (d : Dev) (o : BusOp) (code : Nat) (data : List Byte) : Dev :=
  match o with
  | .host _ _ _ _ len w =>
    let d := if code = 0 ∧ w.isNone then
        let old := (List.range 32).flatMap fun i => beBytes 4 (d.rd (WAN_CM_DATA.DATA i))
        let new := fitBytes data len ++ old.drop len
        (List.range 32).foldl (fun (d : Dev) i => d.wr (WAN_CM_DATA.DATA i) (ofBe (sliceD 0#8 new (4 * i) 4))) d
      else d
    d.wrs [(WAN_CM_STATUS.BUSY, 0), (WAN_CM_STATUS.DONE, 1), (WAN_CM_STATUS.CODE, code),
      (WAN_CM_STATUS.ERR, if code = 0 then d.rd WAN_CM_STATUS.ERR else 1)]
  | .nav c 0x00 => if code = 0 ∧ moduleReady data then d.cageReady c else d
  | _ => d

/-- What a navigator queues after a transaction: the module state again until it is Ready, then the advertisements; after a change of
application the module state again; after a steering write the configuration status (R259). -/
def BusOp.after (code : Nat) (data : List Byte) : BusOp → List BusOp
  | .nav c 0x00 => if code = 0 ∧ moduleReady data then [.nav c 0x01] else [.nav c 0x00]
  | .select c _ => [.nav c 0x00]
  | .steer p _ _ => [.nav (p / 8) 0x11]
  | _ => []

/-- The transactions of a controller from the next on: the first whose module is present starts, and those before it end with code 0x02
(R328). -/
def Dev.busRun (d : Dev) : List BusOp → Dev × List BusOp
  | [] => (d, [])
  | o :: r => if d.modulePresent o.cage then (d.emit o.emit, o :: r) else (d.busEnd o 2 []).busRun r

/-- A controller's transactions. -/
def Dev.busQ (d : Dev) (k : Nat) : List BusOp := SMap.get [] d.wan.bus k
def Dev.setBus (d : Dev) (k : Nat) (l : List BusOp) : Dev := { d with wan := { d.wan with bus := SMap.set [] d.wan.bus k l } }

/-- A transaction is queued on the controller of its cage (R258): a host transaction starts when the one that is running ends. -/
def Dev.busAdd (d : Dev) (o : BusOp) : Dev :=
  let k := o.cage / 4
  match d.busQ k, o with
  | [], _ => let r := d.busRun [o]; r.1.setBus k r.2
  | run :: rest, .host _ _ _ _ _ _ => d.setBus k (run :: o :: rest)
  | l, _ => d.setBus k (l ++ [o])

/-- The transaction running on a controller ends, and the next starts (R258); a module that has gone does not answer (R328). -/
def Dev.busDone (d : Dev) (ctrl code : Nat) (data : List Byte) : Dev :=
  match d.busQ ctrl with
  | [] => d
  | o :: r =>
    let here := d.modulePresent o.cage
    let code := if here then code else 2
    let d := d.busEnd o code data
    let r := d.busRun (r ++ if here then o.after code data else [])
    r.1.setBus ctrl r.2

/-- The running transaction of each controller ends when its module has gone (R328). -/
def Dev.busGone (d : Dev) (cage : Nat) : Dev :=
  match d.busQ (cage / 4) with
  | o :: _ => if o.cage = cage then d.busDone (cage / 4) 2 [] else d
  | [] => d

/-- A mailbox command (R260): refused at once with a code of Table 10.9, or queued. -/
def Dev.cmGo (d : Dev) (rd wr : Bool) : Dev :=
  let cage := d.rd WAN_CM_ADDR.CAGE
  let page := d.rd WAN_CM_ADDR.PAGE
  let off := d.rd WAN_CM_ADDR.OFFSET
  let len := d.rd WAN_CM_ADDR.LEN + 1
  let fail (c : Nat) : Dev := d.wrs [(WAN_CM_STATUS.DONE, 1), (WAN_CM_STATUS.ERR, 1), (WAN_CM_STATUS.CODE, c)]
  if !rd && !wr then d
  else if d.on WAN_CM_STATUS.BUSY then d
  else if 256 < off + len then fail 0x04
  else if rd && wr then fail 0x05
  else if wr ∧ page = 0x10 ∧ (List.range 8).any (fun i => d.on (WAN_PORT_CFG.MS_EN (8 * cage + i))) then fail 0x06
  else
    let bytes := (List.range 32).flatMap fun i => beBytes 4 (d.rd (WAN_CM_DATA.DATA i))
    (d.wr WAN_CM_STATUS.BUSY 1).busAdd
      (.host cage (d.rd WAN_CM_CMD.BANK) page off len (if wr then some (bytes.take len) else none))

/-- The registers of a command as it writes them; `data` none for a read. -/
def Dev.cmLoad (d : Dev) (cage page offset len bank : Nat) (data : List Byte) : Dev :=
  (List.range 32).foldl (fun (d : Dev) i =>
      if 4 * i < data.length then d.wr (WAN_CM_DATA.DATA i) (ofBe (sliceD 0#8 data (4 * i) 4)) else d)
    (d.wrs [(WAN_CM_ADDR.CAGE, cage), (WAN_CM_ADDR.PAGE, page), (WAN_CM_ADDR.OFFSET, offset),
      (WAN_CM_ADDR.LEN, len - 1), (WAN_CM_CMD.BANK, bank)])

/-- A command with its registers written first. -/
def Dev.cmSubmit (d : Dev) (wr : Bool) (cage page offset len bank : Nat) (data : List Byte) : Dev :=
  if d.on WAN_CM_STATUS.BUSY then d else (d.cmLoad cage page offset len bank data).cmGo (!wr) wr

/-! ### Sessions and how they end (R263 to R270) -/

/-- States of WAN_MS_STn. -/
abbrev msIdle : Nat := 0
abbrev msProposed : Nat := 1
abbrev msAccepted : Nat := 2
abbrev msDrained : Nat := 3
abbrev msSwitched : Nat := 4
abbrev msConfirmed : Nat := 5
abbrev msReverting : Nat := 6

def Dev.msState (d : Dev) (port : Nat) : Nat := d.rd (WAN_MS_ST.STATE port)
def Dev.msLeads (d : Dev) (port : Nat) : Bool := d.on (WAN_MS_ST.LEADER port)
def Dev.msRetune (d : Dev) (port : Nat) : Bool := d.on (WAN_MS_ST.RETUNE port)
def Dev.setSess (d : Dev) (port : Nat) (s : Sess) : Dev := { d with wan := { d.wan with sess := SMap.ins d.wan.sess port s } }
def Dev.sess (d : Dev) (port : Nat) : Option Sess := SMap.find d.wan.sess port

/-- A margin entry's fields (Table 10.5). -/
def Dev.mtEntry (d : Dev) (prof e : Nat) : Nat := d.rd (WAN_MT.ENTRY prof e)
def mtValid (v : Nat) : Bool := bit v 0
def mtCeil (v : Nat) : Nat := bits v 1 6
def mtApp (v : Nat) : Nat := bits v 7 4
def mtAdapt (v : Nat) : Bool := bit v 11
def mtMin (v : Nat) : Nat := bits v 16 12

/-- A port's profile. -/
def Dev.prof (d : Dev) (port : Nat) : Nat := d.rd (WAN_PORT_CFG.MSPROF port)

/-- The device's SYSID. -/
def Dev.sysid (d : Dev) : Nat := d.rdPair WAN_BRG_SYSID_LO.SYSID WAN_BRG_SYSID_HI.SYSID

/-- Bytes 0 to 59 of a bearing message (Table 10.6): subtype, session, SEQ, RETUNE, REASON, ENTRY, CEIL, APPSEL and DELAY; the port MAC
address is the model's free value. -/
def Dev.brgBytes (d : Dev) (port sub id seq : Nat) (retune : Bool) (reason entry ceil app delay : Nat) : List Byte :=
  beBytes 6 (d.rdPair WAN_BRG_DA_LO.DA WAN_BRG_DA_HI.DA) ++ beBytes 6 (Config.undef 1 port) ++ beBytes 2 0x88B5 ++
  [0x10#8] ++ beBytes 1 sub ++ beBytes 6 d.sysid ++ beBytes 2 port ++ beBytes 4 id ++ beBytes 2 seq ++
  beBytes 1 (if retune then 0x80 else 0) ++ beBytes 1 reason ++ beBytes 1 entry ++ beBytes 1 ceil ++
  beBytes 1 app ++ beBytes 1 (d.rd (WAN_PORT_ST.CEIL port)) ++ beBytes 2 (d.rd (WAN_PORT_ST.ESNR port)) ++
  beBytes 2 delay ++ beBytes 6 d.tck.now ++ List.replicate 14 0#8

/-- Navigator firmware injects a bearing message (R265, R314): a descriptor on inject ring INJ_RING, whose META bytes 2 and 3 name the
egress port. A ring that is not served takes none. -/
def Dev.navInject (d : Dev) (port : Nat) (bs : List Byte) : Dev :=
  let n := d.rd WAN_BRG_CTRL.INJ_RING
  let r := 64 + n
  if !d.served r then d
  else
    let pre := [0#8, 0#8] ++ beBytes 2 port ++ List.replicate 12 0#8
    let x : InjDesc := { addr := 0, len := bs.length, prefix_ := true, metaBytes := pre, kind := 1, fcsBad := false, pipe := 0, slot := 0,
                         source := 0, tick := 0, h := 0 }
    let inj := SMap.set [] d.hst.inj n (SMap.get [] d.hst.inj n ++ [.staged x (pre ++ bs) d.tck.now])
    (({ d with hst := { d.hst with inj } }).wr (rTail r) (d.rd (rTail r) + 1)).emit (.bearing port bs)

/-- A message of the port's session is sent, and starts the resend timer (R269). -/
def Dev.brgSend (d : Dev) (port sub reason delay : Nat) : Dev :=
  match d.sess port with
  | none => d
  | some s =>
    let bs := d.brgBytes port sub s.id (s.sent + 1) (d.msRetune port) reason (d.rd (WAN_MS_ST.TARGET port)) s.newCeil s.newApp delay
    (d.setSess port { s with sent := s.sent + 1, last := bs, lastTick := d.tck.now, tries := 0 }).navInject port bs

/-- The last message of a session goes out again (R266, R269). -/
def Dev.brgRepeat (d : Dev) (port : Nat) (s : Sess) : Dev := if s.last.isEmpty then d else d.navInject port s.last

/-- A session ends (R270). -/
def Dev.sessEnd (d : Dev) (port : Nat) : Dev :=
  let wan := { d.wan with sess := SMap.erase d.wan.sess port, since := SMap.ins d.wan.since port 0,
                          drainNext := d.wan.drainNext.filter fun p => p != port }
  ({ d with wan := wan }.wr (WAN_MS_ST.STATE port) msIdle).wr WAN_STATUS.MS_EVT 1

/-- The reversion of R269: before the module applied a change, the old ceiling; after an adaptive switch, min(old, new) with
the corresponding entry current; after a retune apply, the old application, and the session waits for its link. A session that R270 ends
ends then and there: the port keeps the entry under which its module runs. -/
def Dev.sessRevert (d : Dev) (port : Nat) (drop : Bool) : Dev :=
  match d.sess port with
  | none => d
  | some s =>
    if d.msRetune port then
      let d := if s.fell then d.setCeil port s.oldCeil none else d
      if s.applied.isNone then (d.wr (WAN_PORT_ST.MASKED port) 0).sessEnd port
      else if drop then
        ((if d.msState port = msReverting then d else d.wr (WAN_PORT_ST.ENTRY port) (d.rd (WAN_MS_ST.TARGET port))).wr
          (WAN_PORT_ST.MASKED port) 0).sessEnd port
      else
        let d := (d.busAdd (.steer port 2 s.oldApp)).wr (WAN_MS_ST.STATE port) msReverting
        d.setSess port { s with applied := some d.tck.now }
    else if msSwitched ≤ d.msState port then
      let d := if d.msLeads port then d.setCeil port (min s.oldCeil s.newCeil) none else d
      (if s.newCeil < s.oldCeil then d.wr (WAN_PORT_ST.ENTRY port) (d.rd (WAN_MS_ST.TARGET port)) else d).sessEnd port
    else (if s.fell then d.setCeil port s.oldCeil none else d).sessEnd port

/-- The session ends with an ABORT sent (R269, Table 10.8). -/
def Dev.sessAbort (d : Dev) (port reason : Nat) : Dev :=
  ((d.brgSend port 0x07 reason 0).wr (WAN_MS_ST.REASON port) reason).sessRevert port false

/-- A port's session is ended with reason 0x07, which is sent where the link allows (R270). -/
def Dev.sessDrop (d : Dev) (port : Nat) : Dev :=
  if (d.sess port).isNone then d
  else
    let d := if d.on (WAN_PORT_ST.LINK port) then d.brgSend port 0x07 0x07 0 else d
    (d.wr (WAN_MS_ST.REASON port) 0x07).sessRevert port true

/-- An unmasked link down, a mode write or a removal ends the sessions of a cage (R270). -/
def Dev.cageSessions (d : Dev) (cage : Nat) : Dev := (List.range 8).foldl (fun (d : Dev) i => d.sessDrop (8 * cage + i)) d

/-! ### Link state (R250, R256, R257) -/

/-- Lanes of a port. -/
def Dev.portLanes (d : Dev) (port : Nat) : List Nat := (List.range (2 ^ (4 - d.wanMode port))).map (port + ·)

/-- The four conditions of R256. -/
def Dev.linkConds (d : Dev) (port : Nat) : List Bool :=
  [(d.portLanes port).all (fun l => d.on (WAN_LANE.LOCK l)), d.wan.am.contains port, !d.wan.fecLoss.contains port,
    !d.wan.faults.any fun x => x / 2 == port]

/-- Every link condition of a port holds. -/
def Dev.linkOk (d : Dev) (port : Nat) : Bool := (d.linkConds port).all id

/-- A port sends remote fault ordered sets while its own receive side fails or receives local fault ones (R250; IEEE 802.3's
reconciliation sublayer). -/
def Dev.faultSend (d : Dev) (port : Nat) : Dev :=
  let want : Bool := !((d.linkConds port).take 3).all id || d.wan.faults.contains (2 * port)
  if want = d.wan.rf.contains port then d
  else
    let rest := d.wan.rf.filter fun x => x != port
    { d with wan := { d.wan with rf := if want then rest ++ [port] else rest } }.emit (.remoteFault port want)

/-- After an event on a port: the first boundary from which its conditions all hold, or each of them fails. -/
def Dev.linkNote (d : Dev) (port : Nat) : Dev :=
  let n := tickAdd d.tck.now 1
  let note (m : SMap Nat) (k : Nat) (on : Bool) : SMap Nat :=
    if !on then SMap.erase m k else if (SMap.find m k).isSome then m else SMap.ins m k n
  let bad := (d.linkConds port).zipIdx.foldl (fun m c => note m (4 * port + c.2) (!c.1)) d.wan.bad
  { d with wan := { d.wan with bad, good := note d.wan.good port (d.linkOk port) } }.faultSend port

/-- The port that a lane belongs to in its cage's mode. -/
def Dev.lanePort (d : Dev) (lane : Nat) : Nat := let k := 2 ^ (4 - d.wanMode lane); lane / k * k

/-- Block lock of a lane (0), alignment-marker lock (1) or RS-FEC lock (2) of a port gained or lost. -/
def Dev.wanLock (d : Dev) (kind n : Nat) (locked : Bool) : Dev :=
  let add (l : List Nat) : List Nat := if l.contains n then l else l ++ [n]
  let del (l : List Nat) : List Nat := l.filter fun x => x != n
  if d.wanMode n = 0 ∨ 256 ≤ n then d
  else if kind = 0 then (d.wr (WAN_LANE.LOCK n) (b2n locked)).linkNote (d.lanePort n)
  else if kind = 1 then
    { d with wan := { d.wan with am := if locked then add d.wan.am else del d.wan.am } }.linkNote n
  else
    { d with wan := { d.wan with fecLoss := if locked then del d.wan.fecLoss else add d.wan.fecLoss,
                                 dirty := SMap.ins d.wan.dirty n d.tck.now } }.linkNote n

/-- Local or remote fault ordered sets begin or cease on a port (R250). -/
def Dev.wanFault (d : Dev) (port : Nat) (remote present : Bool) : Dev :=
  let k := 2 * port + b2n remote
  let rest := d.wan.faults.filter fun x => x != k
  if !d.wanExists port then d
  else { d with wan := { d.wan with faults := if present then rest ++ [k] else rest } }.linkNote port

/-- A port's link state falls: counted, an RWT commit, and unmasked sessions of the cage end (R256, R270). -/
def Dev.linkFall (d : Dev) (port : Nat) : Dev :=
  let d := ((d.wr (WAN_PORT_ST.LINK port) 0).wr WAN_STATUS.LINK_CHG 1).commit
  let d := d.wanBump port 15
  if d.on (WAN_PORT_ST.MASKED port) then d else d.cageSessions (port / 8)

/-- A port's link state rises (R256); a session that is reverting ends (R269). -/
def Dev.linkRise (d : Dev) (port : Nat) : Dev :=
  let d := ((d.wr (WAN_PORT_ST.LINK port) 1).wr WAN_STATUS.LINK_CHG 1).commit
  if d.msState port = msReverting then (d.wr (WAN_PORT_ST.MASKED port) 0).sessEnd port else d

/-- The latch of one port at a boundary (R256). -/
def Dev.linkStep (d : Dev) (port : Nat) : Dev :=
  if !d.wanExists port then d
  else
    let n := d.tck.now
    if d.on (WAN_PORT_ST.LINK port) then
      if d.wan.gone.contains (port / 8) then
        { d with wan := { d.wan with good := if d.linkOk port then SMap.ins d.wan.good port n else d.wan.good } }.linkFall port
      else if (d.linkConds port).zipIdx.any (fun c => !c.1 && match SMap.find d.wan.bad (4 * port + c.2) with
          | some b => decide (d.rd (WAN_PORT_CFG.DNDEB port) ≤ tickSub n b)
          | none => true) then d.linkFall port
      else d
    else match SMap.find d.wan.good port with
      | some g => if 256 * d.rd (WAN_PORT_CFG.UPDEB port) ≤ tickSub n g then d.linkRise port else d
      | none => d

/-- LINK_STATE_LATCH: every port, then proposers' retune drains that were due (R256, R268). -/
def Dev.linkLatch (d : Dev) : Dev :=
  let d := (List.range 256).foldl Dev.linkStep d
  let d := { d with wan := { d.wan with gone := [] } }
  d.wan.drainNext.foldl (fun (d : Dev) p => (d.wr (WAN_PORT_ST.MASKED p) 1).wr (WAN_MS_ST.STATE p) msDrained)
    { d with wan := { d.wan with drainNext := [] } }

/-- A cage's mode changes at a boundary (R248): ports of the old mode are reported down, sessions end, and lanes of a cage in
OFF are powered down; a navigator selects the module's matching application. `old` is the mode before. -/
def Dev.cageMode (d : Dev) (cage old : Nat) : Dev :=
  let new := d.rd (WAN_CAGE.MODE cage)
  if new = old then d
  else
    let ports := (List.range 8).map (8 * cage + ·)
    let d := d.cageSessions cage
    let d := ports.foldl (fun (d : Dev) p =>
      if portInMode old p ∧ d.on (WAN_PORT_ST.LINK p) then d.linkFall p else d) d
    let d := if new = 0 then ports.foldl (fun (d : Dev) p => d.wr (WAN_LANE.LOCK p) 0) d else d
    let out (l : List Nat) : List Nat := l.filter fun p => p / 8 != cage
    let keep (m : SMap Nat) (k : Nat) : SMap Nat := m.filter fun x => x.1 / k != cage
    let wan := { d.wan with am := out d.wan.am, fecLoss := out d.wan.fecLoss, rf := out d.wan.rf,
                            faults := d.wan.faults.filter (fun x => x / 16 != cage), good := keep d.wan.good 8, bad := keep d.wan.bad 32 }
    let d : Dev := { d with wan }
    let d := d.cageUnready cage
    if new ≠ 0 ∧ d.modulePresent cage then d.busAdd (.select cage new) else d

/-! ### Reception (R14, R15, R250) -/

/-- A frame has been received, its head complete at `h` (R14): runts and long frames are discarded and counted, and in replay
mode every frame is (R31). -/
def Dev.frameIn (d : Dev) (port h : Nat) (fcsBad : Bool) (bytes : List Byte) : Dev :=
  if !d.wanExists port then d
  else
    let d := (d.wanAdd port 0 1).wanAdd port 2 bytes.length
    let d := if fcsBad then d.wanBump port 8 else d
    if bytes.length < 64 then d.wanBump port 10
    else if min 16000 (d.rd (WAN_PORT_CFG.MAXF port)) < bytes.length then d.wanBump port 9
    else if d.on TCK_CTRL.REPLAY then d
    else { d with tck := { d.tck with rx := d.tck.rx ++ [{ port, h, fcsBad, bytes }] } }

/-- A frame arrives at the ball: a cage in loopback receives nothing from there (R250). -/
def Dev.frameReceive (d : Dev) (port h : Nat) (fcsBad : Bool) (bytes : List Byte) : Dev :=
  if d.on (WAN_CAGE.LOOP (port / 8)) then d else d.frameIn port h fcsBad bytes

/-! ### Departures (R251, R252, R254, R196) -/

/-- `w` bytes of a frame replaced at an offset. -/
def putBytes (bs : List Byte) (o : Nat) (new : List Byte) : List Byte := bs.take o ++ new ++ bs.drop (o + new.length)

/-- The ones-complement sum of 16-bit words of bytes. -/
def onesSum (bs : List Byte) : Nat :=
  let rec go : List Byte → Nat
    | [] => 0
    | [a] => a.toNat * 256
    | a :: b :: r => a.toNat * 256 + b.toNat + go r
  go bs

/-- A ones-complement number folded to 16 bits. -/
def fold16 (n : Nat) : Nat := let a := n % 65536 + n / 65536; let b := a % 65536 + a / 65536; b % 65536 + b / 65536

/-- RFC 1624: a checksum word after `old` bytes become `new`. -/
def csumAdjust (c : Nat) (old new : List Byte) : Nat :=
  let w (bs : List Byte) : Nat := fold16 (onesSum bs)
  0xFFFF - fold16 ((0xFFFF - c) + (0xFFFF - w old) + w new)

/-- Scratch word 11 (Table 10.3). -/
def mW11 (m : Manifest) : Nat := mget m 0x1D8 8

/-- One-step timestamp insertion (R254); the words of the checksum lie at even distances from it. -/
def ptpInsert (m : Manifest) (ofs : Nat × Nat) (ttx : Nat) (bs : List Byte) : List Byte :=
  let w := mW11 m
  let tso := bits w 0 16
  let cso := bits w 16 16
  if bit (mFWD m) 30 ∧ tso + 10 ≤ bs.length then
    let t := timeOfDay ofs ttx
    let new := beBytes 6 t.1 ++ beBytes 4 t.2
    let old := (bs.drop tso).take 10
    let out := putBytes bs tso new
    let pad : List Byte := if (tso + cso) % 2 = 1 then [0#8] else []
    if cso ≠ 0 ∧ cso + 2 ≤ bs.length then
      putBytes out cso (beBytes 2 (csumAdjust (ofBe ((out.drop cso).take 2)) (pad ++ old) (pad ++ new)))
    else out
  else bs

/-- The two-step FIFO's head is shown in WAN_TS_ENT. -/
def Dev.tsShow (d : Dev) : Dev :=
  let d := d.wr WAN_TS_STATUS.COUNT d.wan.ts.length
  match d.wan.ts with
  | [] => d.wrs [(WAN_TS_ENT0.VALID, 0), (WAN_TS_ENT0.PORT, 0), (WAN_TS_ENT0.TAG, 0), (WAN_TS_ENT1.NS, 0), (WAN_TS_ENT2.SEC, 0),
      (WAN_TS_ENT3.SEC, 0)]
  | r :: _ => d.wrs [(WAN_TS_ENT0.VALID, 1), (WAN_TS_ENT0.PORT, r.port), (WAN_TS_ENT0.TAG, r.tag), (WAN_TS_ENT1.NS, r.ns),
      (WAN_TS_ENT2.SEC, r.sec), (WAN_TS_ENT3.SEC, r.sec / 2 ^ 32)]

/-- A two-step record is pushed, or lost and counted (R254). -/
def Dev.tsPush (d : Dev) (port : Nat) (m : Manifest) (ofs : Nat × Nat) (ttx : Nat) : Dev :=
  let w := mW11 m
  if !bit w 63 then d
  else if 64 ≤ d.wan.ts.length then (d.bump WAN_TS_STATUS.OVF).wr WAN_STATUS.TS_OVF 1
  else
    let t := timeOfDay ofs ttx
    let r : TsRec := { port, tag := bits w 48 15, sec := t.1, ns := t.2 }
    { d with wan := { d.wan with ts := d.wan.ts ++ [r] } }.tsShow

/-- A read of WAN_TS_ENT3 pops the head record. -/
def Dev.tsPop (d : Dev) : Dev := { d with wan := { d.wan with ts := d.wan.ts.drop 1 } }.tsShow

/-- A chain is known bad (R196), and by an uncorrectable word (R195). -/
def Dev.terr (d : Dev) (c : Nat) : Bool := ((d.chain c).map Chain.terr).getD false
def Dev.chainUe (d : Dev) (c : Nat) : Bool := ((d.chain c).map Chain.ue).getD false

/-- A device that is not ACTIVE is squelched (R362). -/
def Dev.squelched (d : Dev) : Bool := d.rd HLM_STATUS.STATE ≠ 3

/-- A port's departure is dropped with a reason (R252, R29). -/
def Dev.departDrop (d : Dev) (x : Depart) (reason : Nat) : Dev :=
  ((d.wanBump x.port 12).recDrop x.tick (64 + x.pipe) (mATICK x.m) (mASLOT x.m) 0 reason).release x.chain (0x0140 + x.pipe)

/-- The transmit timestamp of a departure begun (R254). -/
def Dev.txStamp (d : Dev) (t : TxFrame) : Nat := t.start + 64 * uNs / wanRate (d.wanMode t.x.port)

/-- The bytes a departure transmits before its FCS. -/
def Dev.txBytes (d : Dev) (t : TxFrame) : List Byte := ptpInsert t.x.m (t.ofs.getD d.todOffset) (d.txStamp t) t.x.bytes

/-- The fields of a departure's record (Table 1.8). The CRC-32C covers the bytes without the FCS, as their length does (DEDUCED, log
entry 26). -/
def Dev.txRecord (d : Dev) (t : TxFrame) : List Byte :=
  let bs := d.txBytes t
  beBytes 1 t.x.port ++ tickSlotBytes t.x.tick t.x.slot ++ beBytes 2 bs.length ++ beBytes 4 (crc32c bs) ++ beBytes 1 (b2n t.stomp)

/-- A departure's record as its frame ended. -/
def Dev.txAmend (d : Dev) (t : TxFrame) : Dev :=
  { d with tck := { d.tck with recs := d.tck.recs.map fun (r : OutRec) =>
      if r.tick = t.x.tick ∧ r.unit = 64 + t.x.pipe ∧ r.slot = t.x.slot ∧ r.type = 3 then { r with bytes := 3#8 :: d.txRecord t } else r } }

/-- Where a looped frame's head is complete (R14, R250, R255): its transmit timestamp, the receive constant and the head's bytes; the
loop itself adds nothing (DESIGN CHOICE, log entry 77). -/
def Dev.loopBack (d : Dev) (t : TxFrame) (bs : List Byte) : Dev :=
  let mode := d.wanMode t.x.port
  if !d.on (WAN_CAGE.LOOP (t.x.port / 8)) then d
  else d.frameIn t.x.port ((d.txStamp t + wanKrx mode * uNs + wireTime mode (min 384 bs.length)) / 1050) t.stomp bs

/-- A departure's last carriage has been read (R196): the frame ends with its FCS, or with a stomp if its chain is bad; its record is as
it went out, and its chain is released (Table 7.5). -/
def Dev.txFinish (d : Dev) (t : TxFrame) : Dev :=
  let x := t.x
  let hurt := d.dpt.hurt.contains (.depart x.key)
  let t := { t with stomp := t.stomp || hurt || d.terr x.chain }
  let d := if hurt || d.chainUe x.chain then d.markFault x.tick else d
  let d := if t.stomp then (d.tailErr.bump DPT_TAIL_ERR.COUNT).wanBump x.port 11 else d
  let d := { d with dpt := { d.dpt with hurt := d.dpt.hurt.filter fun w => w != ReadFor.depart x.key } }
  let bytes := d.txBytes t
  let fcs := if t.stomp then crc32 bytes ^^^ 0xFFFFFFFF else crc32 bytes
  let out := bytes ++ leBytes 4 fcs
  let d := (((d.tsPush x.port x.m (t.ofs.getD d.todOffset) (d.txStamp t)).wanAdd x.port 4 1).wanAdd x.port 6 out.length).txAmend t
  let d := d.release x.chain (0x0140 + x.pipe)
  if t.quiet then d else (d.emit (.wanFrame x.port t.start out)).loopBack t out

/-- Every departure begun whose reads have ended and whose offset is known is finished. -/
def Dev.txFinishAll (d : Dev) : Dev :=
  let done (t : TxFrame) : Bool := t.ofs.isSome && !d.reading (.depart t.x.key)
  let go := d.wan.tx.filter done
  go.foldl Dev.txFinish { d with wan := { d.wan with tx := d.wan.tx.filter fun t => !done t } }

/-- At a boundary, the frames whose transmit timestamps lie in the tick that begins take the offset in force (R254). -/
def Dev.txOffsets (d : Dev) : Dev :=
  let f (t : TxFrame) : TxFrame :=
    if t.ofs.isNone ∧ tickReached (instTick (d.txStamp t)) d.tck.now then { t with ofs := some d.todOffset } else t
  { d with wan := { d.wan with tx := d.wan.tx.map f } }

/-- A departure onto an up port (R251, R196): its place in the FIFO, its wire start, its record, and the reads of its carriages from the
third on, each at most 128 slot cycles before its first byte is due on the wire. -/
def Dev.departSend (d : Dev) (x : Depart) : Dev :=
  let mode := d.wanMode x.port
  let at_ := slotInstant x.tick x.slot
  let q := (SMap.get [] d.wan.fifo x.port).filter fun e => !instReached e.1 at_
  if 65536 < (q.map Prod.snd).sum + x.bytes.length then d.departDrop x 0x25
  else
    let ready := (at_ + wanCtx mode * uNs) % instMod
    let start := match SMap.find d.wan.busy x.port with
      | some b => if instReached b ready then ready else b
      | none => ready
    let end_ := (start + wireTime mode (x.bytes.length + 24)) % instMod
    let t : TxFrame := { x, start, stomp := d.terr x.chain, quiet := d.squelched || d.on FLT_STATUS.HALTED, ofs := none }
    let wan := { d.wan with busy := SMap.ins d.wan.busy x.port end_, fifo := SMap.ins d.wan.fifo x.port (q ++ [(end_, x.bytes.length)]),
                            tx := d.wan.tx ++ [t] }
    let d := { d with wan }.txOffsets
    let d := d.record x.tick (64 + x.pipe) x.slot 0 x.tick 3 0 (d.txRecord t)
    let due (i : Nat) : Nat := ((start + wireTime mode (8 + 256 * (2 + i)) + 3199) / 3200 + scMod - 128) % scMod
    ((d.readChain x.pipe x.chain 2 (carriages x.stored) (.depart x.key) due).evt 0x28 0x21 (some x.port)).txFinishAll

/-- The order in which a port's FIFO takes departures (R251): by instant, of a 1.6T port lower pipelines first. -/
def departKey (x : Depart) (now : Nat) : List Nat := [tickKey now x.tick, x.slot, x.pipe]

/-- A departure for an egress pipeline's next port: the first of those due of that port (R251, R252, R257). -/
def Dev.wanDeparture (d : Dev) (pipe : Nat) : Dev :=
  let due := sortKey (fun x => departKey x d.tck.now) (d.wan.deps.filter fun x => !x.fabric && tickReached x.tick d.tck.now)
  match (due.find? fun x => x.pipe = pipe).bind fun y => due.find? fun x => x.port = y.port with
  | none => d
  | some x =>
    let d := { d with wan := { d.wan with deps := d.wan.deps.erase x } }
    if d.on (WAN_PORT_ST.MASKED x.port) then d.release x.chain (0x0140 + x.pipe)
    else if !d.wanUp x.port then d.departDrop x 0x24
    else d.departSend x

end Sys2Proof.Machine
end

