-- ==== Sys2Proof/Machine/Steer.lean ====
section
/-! DEFINITION. Margin steering (chapter 10): margin selection (R261 to R263) and bearing sessions (R264 to R270). -/

namespace Sys2Proof.Machine

/-! ### Margin selection (R261 to R263) -/

/-- Of two entries, the one with the larger CEIL; ties to the lower index. -/
def betterEntry (a b : Nat × Nat) : Nat × Nat := if mtCeil a.2 < mtCeil b.2 then b else a

/-- The entry of a list with the largest CEIL. -/
def largestEntry : List (Nat × Nat) → Option (Nat × Nat)
  | [] => none
  | e :: r => some (r.foldl betterEntry e)

/-- The entry R262 selects for a filtered reading, with the current entry. -/
def Dev.marginSelect (d : Dev) (port : Nat) (e : Int) : Nat :=
  let prof := d.prof port
  let cur := d.rd (WAN_PORT_ST.ENTRY port)
  let curCeil := mtCeil (d.mtEntry prof cur)
  let hyst : Int := d.rd WAN_MS_POLL.HYST
  let valid := ((List.range 16).map fun i => (i, d.mtEntry prof i)).filter fun x => mtValid x.2
  match largestEntry (valid.filter fun x => (mtMin x.2 : Int) ≤ e) with
  | some x =>
    if mtCeil x.2 ≤ curCeil then x.1
    else match largestEntry (valid.filter fun x => (mtMin x.2 : Int) + hyst ≤ e && curCeil < mtCeil x.2) with
      | some y => y.1
      | none => cur
  | none => match valid with
    | [] => cur
    | x :: r => (r.foldl (fun a b => if mtCeil b.2 < mtCeil a.2 then b else a) x).1

/-- A new session's record. -/
def Dev.newSess (d : Dev) (port id target newCeil newApp : Nat) (leader retune : Bool) : Dev :=
  let cur := d.rd (WAN_PORT_ST.ENTRY port)
  let s : Sess := { id, sent := 0, heard := [], oldEntry := cur, oldCeil := d.rd (WAN_PORT_ST.CEIL port), newCeil,
                    oldApp := mtApp (d.mtEntry (d.prof port) cur), newApp, last := [], lastTick := d.tck.now, tries := 0,
                    td := 0, fell := false, drain := 0, owd2 := none, switch_ := none, apply_ := none, applied := none, restore := none,
                    ownClean := false, peerConfirm := false }
  (d.setSess port s).wrs [(WAN_MS_ST.LEADER port, b2n leader), (WAN_MS_ST.RETUNE port, b2n retune), (WAN_MS_ST.TARGET port, target)]

/-- A session is proposed for a target entry (R262, R263). `immediate` says that the module advertises ApplyImmediate. -/
def Dev.propose (d : Dev) (port target : Nat) (immediate : Bool) : Dev :=
  let prof := d.prof port
  let a := d.mtEntry prof (d.rd (WAN_PORT_ST.ENTRY port))
  let b := d.mtEntry prof target
  let adaptive := mtAdapt a && mtAdapt b && mtApp a = mtApp b && immediate
  let id := d.wan.nextSess
  let next := if (id + 1) % 2 ^ 32 = 0 then 1 else (id + 1) % 2 ^ 32
  let d := { d with wan := { d.wan with nextSess := next } }
  ((d.newSess port id target (mtCeil b) (mtApp b) false (!adaptive)).wr (WAN_MS_ST.STATE port) msProposed).brgSend port 0x01 0 0

/-- The polls of a boundary (R261): every 2^POLL_LOG2 ticks each port with margin steering is polled, on its cage's controller (R258). -/
def Dev.pollsDue (d : Dev) : Dev :=
  if d.tck.now % 2 ^ d.rd WAN_MS_POLL.POLL_LOG2 ≠ 0 then d
  else
    let ports := (List.range 256).filter fun p => d.on (WAN_PORT_CFG.MS_EN p) && d.wanExists p && !(d.busQ (p / 32)).contains (.poll p)
    ports.foldl (fun (d : Dev) p => d.busAdd (.poll p)) d

/-- A filtered reading: the mean of the readings kept, and the session it starts or cancels (R261, R263). -/
def Dev.marginRead (d : Dev) (port : Nat) (r : Int) (immediate : Bool) : Dev :=
  let n := 2 ^ d.rd WAN_MS_POLL.AVG_LOG2
  let l := (r :: SMap.get [] d.wan.esnr port).take n
  let mean := l.sum / (l.length : Int)
  let since := (SMap.find d.wan.since port).map (· + 1)
  let d := { d with wan := { d.wan with
    esnr := SMap.set [] d.wan.esnr port l,
    since := match since with
      | some k => SMap.ins d.wan.since port k
      | none => d.wan.since } }
  let d := d.wr (WAN_PORT_ST.ESNR port) (ofInt 16 mean)
  let sel := d.marginSelect port mean
  let cur := d.rd (WAN_PORT_ST.ENTRY port)
  match d.sess port with
  | some _ => if sel = cur ∧ ¬ d.msLeads port ∧ d.msState port < msDrained then d.sessAbort port 0x09 else d
  | none =>
    let prof := d.prof port
    let up := mtCeil (d.mtEntry prof cur) < mtCeil (d.mtEntry prof sel)
    if sel = cur ∨ (up ∧ since.any fun k => k < 64) then d else d.propose port sel immediate

/-- The poll of a port's module that runs on its controller ends (R258, R261): none for a reading that fails, which is skipped.
`immediate` says that the module advertises ApplyImmediate. -/
def Dev.marginPoll (d : Dev) (port : Nat) (reading : Option Int) (immediate : Bool) : Dev :=
  if (d.busQ (port / 32)).head? ≠ some (.poll port) then d
  else
    let d := d.busDone (port / 32) 0 []
    if !d.on (WAN_PORT_CFG.MS_EN port) || !d.wanExists port then d
    else match reading with
      | none => d
      | some r => d.marginRead port r immediate

/-! ### Bearing messages received (R265 to R270) -/

/-- A message is of the punt ring that navigator firmware takes bearing messages from (R265). -/
def Dev.brgRing (d : Dev) (m : BrgMsg) : Bool := m.ring == d.rd WAN_BRG_CTRL.PUNT_RING

/-- The checks common to every message but PROPOSE (R266): the session if it is to be acted on. -/
def Dev.brgCheck (d : Dev) (port : Nat) (m : BrgMsg) : Option Sess × Dev :=
  if !d.brgRing m then (none, d)
  else match d.sess port with
  | none => (none, d.bump WAN_BRG_BAD.COUNT)
  | some s =>
    if m.session ≠ s.id ∨ m.subtype = 0 ∨ 8 ≤ m.subtype then (none, d.bump WAN_BRG_BAD.COUNT)
    else if s.heard.contains m.seq then (none, d.brgRepeat port s)
    else (some { s with heard := s.heard ++ [m.seq] }, d.setSess port { s with heard := s.heard ++ [m.seq] })

/-- An ABORT that answers a PROPOSE without a session of its own (R266, R267): its fields are those of the PROPOSE. -/
def Dev.brgRefuse (d : Dev) (port : Nat) (m : BrgMsg) (reason : Nat) : Dev :=
  d.navInject port
    (d.brgBytes port 0x07 m.session 1 m.retune reason m.entry m.ceil m.appsel (tickSub d.tck.now m.adm))

/-- A PROPOSE is accepted: this end leads, and chooses Td `gap` ticks on (R263, R267). In a retune the target application is staged
(R268). -/
def Dev.brgAccept (d : Dev) (port : Nat) (m : BrgMsg) (gap : Nat) : Dev :=
  let d := d.newSess port m.session m.entry m.ceil m.appsel true m.retune
  let d := match d.sess port with
    | some s => d.setSess port { s with heard := [m.seq], td := tickAdd d.tck.now gap }
    | none => d
  let d := if m.retune then d.busAdd (.steer port 0 m.appsel) else d
  (d.wr (WAN_MS_ST.STATE port) msAccepted).brgSend port 0x02 0 (tickSub d.tck.now m.adm)

/-- A PROPOSE against this end's profile (R267, Table 10.8). `capable` says that the module can make the change. -/
def Dev.brgJudge (d : Dev) (port : Nat) (m : BrgMsg) (capable : Bool) (gap : Nat) : Dev :=
  let v := d.mtEntry (d.prof port) m.entry
  if !mtValid v ∨ mtCeil v ≠ m.ceil ∨ mtApp v ≠ m.appsel then d.brgRefuse port m 0x01
  else if !capable then d.brgRefuse port m 0x03
  else d.brgAccept port m gap

/-- A PROPOSE received (R266, R267, R270): of two that cross, the session whose proposer has the lower SYSID proceeds, and the other end
drops its own without ABORT. -/
def Dev.bearingPropose (d : Dev) (port : Nat) (m : BrgMsg) (capable : Bool) (gap : Nat) : Dev :=
  let other := (List.range 8).any fun i => 8 * (port / 8) + i != port && (d.sess (8 * (port / 8) + i)).isSome
  if !d.brgRing m then d
  else if m.ver / 16 ≠ 1 then d.brgRefuse port m 0x05
  else if !d.on (WAN_PORT_CFG.MS_EN port) then d.brgRefuse port m 0x04
  else match d.sess port with
    | some s =>
      if m.session = s.id ∧ s.heard.contains m.seq then d.brgRepeat port s
      else if d.msState port = msProposed then
        if m.sysid < d.sysid then (d.sessEnd port).brgJudge port m capable gap else d
      else d.brgRefuse port m 0x02
    | none => if other then d.brgRefuse port m 0x02 else d.brgJudge port m capable gap

/-- An ACCEPT received by the proposer (R267, R268). -/
def Dev.bearingAccept (d : Dev) (port : Nat) (m : BrgMsg) : Dev :=
  match d.brgCheck port m with
  | (some s, d) =>
    if d.msState port = msProposed then
      let d := if d.msRetune port then d.busAdd (.steer port 0 s.newApp) else d
      d.wr (WAN_MS_ST.STATE port) msAccepted
    else d
  | (none, d) => d

/-- A DRAIN received (R267, R268): the proposer of a retune drains at the next boundary and echoes it; the leader takes the
one-way delay from the echo. -/
def Dev.bearingDrain (d : Dev) (port : Nat) (m : BrgMsg) : Dev :=
  match d.brgCheck port m with
  | (some s, d) =>
    if d.msLeads port then
      if d.msRetune port then d.setSess port { s with owd2 := some (tickSub m.adm s.drain - m.delay) } else d
    else if d.msRetune port then
      let d := (d.setSess port { s with fell := true }).setCeil port 0 none
      let d := { d with wan := { d.wan with drainNext := d.wan.drainNext ++ [port] } }
      d.brgSend port 0x03 0 (tickSub d.tck.now m.adm)
    else d.wr (WAN_MS_ST.STATE port) msDrained
  | (none, d) => d

/-- A SWITCH received by the proposer (R267, R268). -/
def Dev.bearingSwitch (d : Dev) (port : Nat) (m : BrgMsg) : Dev :=
  match d.brgCheck port m with
  | (some s, d) =>
    if d.msLeads port then d
    else
      let s := { s with switch_ := some m.adm }
      let d := d.wr (WAN_MS_ST.STATE port) (max msSwitched (d.msState port))
      if d.msRetune port ∧ s.applied.isNone then d.setSess port { s with apply_ := some (tickAdd m.adm m.delay) }
      else d.setSess port s
  | (none, d) => d

/-- The new ceiling is to take effect 3 ticks after an admission, and no sooner than the next boundary, through AT operations (R267,
R268). -/
def Dev.startRestore (d : Dev) (port adm : Nat) : Dev :=
  match d.sess port with
  | some s =>
    let at_ := if tickFuture (tickAdd adm 3) d.tck.now then tickAdd adm 3 else tickAdd d.tck.now 1
    ((d.setSess port { s with restore := some at_ }).wr (WAN_MS_ST.STATE port) msConfirmed).setCeil port s.newCeil (some at_)
  | none => d

/-- A CONFIRM received (R267, R268): a leader restores 3 ticks after its admission. -/
def Dev.bearingConfirm (d : Dev) (port : Nat) (m : BrgMsg) : Dev :=
  match d.brgCheck port m with
  | (some s, d) =>
    let d := d.setSess port { s with peerConfirm := true }
    if !d.msLeads port then d
    else if d.msRetune port ∧ ¬ s.ownClean then d
    else d.startRestore port m.adm
  | (none, d) => d

/-- A RESTORE received by the proposer: an adaptive change is complete, a retune completes 3 ticks later. -/
def Dev.bearingRestore (d : Dev) (port : Nat) (m : BrgMsg) : Dev :=
  match d.brgCheck port m with
  | (some _, d) =>
    if d.msLeads port then d
    else if d.msRetune port then d.startRestore port m.adm
    else (d.wr (WAN_PORT_ST.ENTRY port) (d.rd (WAN_MS_ST.TARGET port))).sessEnd port
  | (none, d) => d

/-- An ABORT received ends the session with the reversion of R269. -/
def Dev.bearingAbort (d : Dev) (port : Nat) (m : BrgMsg) : Dev :=
  match d.brgCheck port m with
  | (some _, d) => (d.wr (WAN_MS_ST.REASON port) m.reason).sessRevert port false
  | (none, d) => d

/-- An end waits for a message of the other (R267 to R269). -/
def Dev.msWaits (d : Dev) (port : Nat) (s : Sess) : Bool :=
  let st := d.msState port
  if d.msLeads port then (st == msSwitched && !s.peerConfirm) || (st == msDrained && d.msRetune port && s.owd2.isNone)
  else st == msProposed || st == msAccepted || st == msDrained || (st == msConfirmed && s.restore.isNone)

/-- The resend timer of a session that waits for a message (R269). -/
def Dev.bearingResend (d : Dev) (port : Nat) : Dev :=
  match d.sess port with
  | none => d
  | some s =>
    if !d.msWaits port s ∨ s.last.isEmpty ∨ tickSub d.tck.now s.lastTick < d.rd WAN_MS_TIMER.RTO then d
    else if s.tries < d.rd WAN_MS_TIMER.RETRY then
      (d.setSess port { s with tries := s.tries + 1, lastTick := d.tck.now }).navInject port s.last
    else d.sessAbort port 0x06

/-! ### The leader's and both ends' timed steps (R267 to R269) -/

/-- The steps of sessions that belong to a boundary: in tick Td - 2 the leader submits the operations that lower its ceilings at Td, to 0 in
a retune; at Td and at Tr the ceiling and the mask follow (R204, R267, R268). -/
def Dev.steerStep (d : Dev) (port : Nat) : Dev :=
  match d.sess port with
  | none => d
  | some s =>
    let now := d.tck.now
    let low := if d.msRetune port then 0 else min s.oldCeil s.newCeil
    let d := if d.msLeads port ∧ d.msState port = msAccepted ∧ now = tickSub s.td 2 then
        (d.setSess port { s with fell := true }).setCeil port low (some s.td)
      else d
    let d := if s.fell ∧ d.msLeads port ∧ d.msState port = msAccepted ∧ now = s.td then
        let d := d.wr (WAN_PORT_ST.CEIL port) low
        if d.msRetune port then d.wr (WAN_PORT_ST.MASKED port) 1 else d
      else d
    if s.restore = some now then (d.wr (WAN_PORT_ST.CEIL port) s.newCeil).wr (WAN_PORT_ST.MASKED port) 0 else d

/-- Margin steering at a boundary, before the round. -/
def Dev.steerBoundary (d : Dev) : Dev := ((d.wan.sess.map Prod.fst).foldl Dev.steerStep d).pollsDue

/-- Td (R267, R268): the ceilings have fallen, and DRAIN is sent. -/
def Dev.leaderDrain (d : Dev) (port : Nat) : Dev :=
  match d.sess port with
  | none => d
  | some s =>
    if d.msLeads port ∧ d.msState port = msAccepted ∧ s.fell ∧ tickReached s.td d.tck.now then
      let d := d.setSess port { s with drain := d.tck.now }
      (d.wr (WAN_MS_ST.STATE port) msDrained).brgSend port 0x03 0 0
    else d

/-- Ts (R267): the ApplyImmediate write starts and SWITCH is sent. -/
def Dev.leaderSwitch (d : Dev) (port : Nat) : Dev :=
  match d.sess port with
  | none => d
  | some s =>
    if d.msLeads port ∧ ¬ d.msRetune port ∧ d.msState port = msDrained ∧
      d.rd WAN_MS_TIMER2.GAP ≤ tickSub d.tck.now s.td then
      ((d.busAdd (.steer port 1 s.newApp)).wr (WAN_MS_ST.STATE port) msSwitched).brgSend port 0x04 0 0
    else d

/-- The port's transmit FIFO is empty at the tick in progress. -/
def Dev.fifoEmpty (d : Dev) (port : Nat) : Bool :=
  (SMap.get [] d.wan.fifo port).all (fun e => instReached e.1 (slotInstant d.tck.now 0)) &&
    !d.wan.deps.any fun x => !x.fabric && x.port = port

/-- The leader's FIFO has drained (R268): SWITCH is injected, and its apply tick follows. -/
def Dev.retuneDrained (d : Dev) (port : Nat) : Dev :=
  match d.sess port with
  | none => d
  | some s => match s.owd2 with
    | none => d
    | some o =>
      if d.msLeads port ∧ d.msRetune port ∧ d.msState port = msDrained ∧ d.fifoEmpty port then
        let dly := d.rd WAN_MS_RETUNE.SWDLY
        let d := d.setSess port { s with apply_ := some (tickAdd d.tck.now (4 + ceilDiv o 2 + dly)) }
        (d.wr (WAN_MS_ST.STATE port) msSwitched).brgSend port 0x04 0 dly
      else d

/-- The apply tick of a retune (R268): ApplyDPInit. A drained proposer whose link has gone down applies at once. -/
def Dev.retuneApply (d : Dev) (port : Nat) : Dev :=
  match d.sess port with
  | none => d
  | some s =>
    let due : Bool := match s.apply_ with
      | some t => tickReached t d.tck.now
      | none => !d.msLeads port && d.msState port == msDrained && !d.on (WAN_PORT_ST.LINK port)
    if d.msRetune port ∧ s.applied.isNone ∧ due then
      ((d.setSess port { s with applied := some d.tck.now, apply_ := none }).wr (WAN_MS_ST.STATE port) msSwitched).busAdd
        (.steer port 2 s.newApp)
    else d

/-- A port's receive side has shown FEC lock and no uncorrectable codeword for CONFIRM ticks, counted from tick `t` at the earliest
(R267). -/
def Dev.cleanSince (d : Dev) (port t : Nat) : Bool :=
  let k := d.rd WAN_MS_TIMER2.CONFIRM
  k ≤ tickSub d.tck.now t && !d.wan.fecLoss.contains port &&
    (match SMap.find d.wan.dirty port with
      | some u => k ≤ tickSub d.tck.now u
      | none => true)

/-- The receive side has been clean for CONFIRM ticks (R267, R268): CONFIRM is sent, of a retune by both ends once the link is up. -/
def Dev.cleanReceive (d : Dev) (port : Nat) : Dev :=
  match d.sess port with
  | none => d
  | some s =>
    let delay := (s.switch_.map fun t => tickSub d.tck.now t).getD 0
    let from_ := if d.msRetune port then s.applied else if d.msLeads port then none else s.switch_
    match from_ with
    | none => d
    | some t =>
      if s.ownClean ∨ d.msState port ≠ msSwitched ∨ ¬ d.cleanSince port t ∨ (d.msRetune port ∧ ¬ d.on (WAN_PORT_ST.LINK port)) then d
      else
        let d := (d.setSess port { s with ownClean := true }).brgSend port 0x05 0 delay
        if !d.msLeads port then d.wr (WAN_MS_ST.STATE port) msConfirmed
        else if s.peerConfirm then d.startRestore port d.tck.now else d

/-- The ceiling of a completed change is in effect (R267, R268): a leader sends RESTORE, and the target entry is current. -/
def Dev.ceilingRestore (d : Dev) (port : Nat) : Dev :=
  match d.sess port with
  | none => d
  | some s => match s.restore with
    | some t =>
      if tickReached t d.tck.now then
        let d := if d.msLeads port then d.brgSend port 0x06 0 (tickSub d.tck.now t + 3) else d
        (d.wr (WAN_PORT_ST.ENTRY port) (d.rd (WAN_MS_ST.TARGET port))).sessEnd port
      else d
    | none => d

/-- A retune's link is not up within MAX ticks (R269): the old application is applied; a further MAX ticks later the mask
clears. -/
def Dev.retuneTimeout (d : Dev) (port : Nat) : Dev :=
  match d.sess port with
  | none => d
  | some s => match s.applied with
    | some t =>
      if d.rd WAN_MS_RETUNE.MAX ≤ tickSub d.tck.now t ∧ ¬ d.on (WAN_PORT_ST.LINK port) then
        if d.msState port = msReverting then (d.wr (WAN_PORT_ST.MASKED port) 0).sessEnd port
        else d.sessAbort port 0x08
      else d
    | none => d

end Sys2Proof.Machine
end

