-- ==== Sys2Proof/Machine/Fab.lean ====
section
/-! DEFINITION. The fabric interface (chapter 11): modes (R272), codewords and cells (R273 to R276), sending (R277), grants and
flow control (R278, R279), reassembly (R280, R281), lane set (R283), start-up and shutdown (R284, R286). -/

namespace Sys2Proof.Machine

/-- The fabric SerDes are powered: the mode is not STANDALONE (R272). -/
def Dev.fabPowered (d : Dev) : Bool := d.rd GLB_BOOT_STATUS.MODE ≠ 0

/-- A fabric command has an effect only on a powered interface. -/
def Dev.fabDo (d : Dev) (f : Dev → Dev) : Dev := if d.fabPowered then f d else d

def Dev.fabLane (d : Dev) (l : Nat) : LaneSt := (SMap.find d.fab.lanes l).getD (LaneSt.new d.tck.now)
def Dev.setFabLane (d : Dev) (l : Nat) (v : LaneSt) : Dev := { d with fab := { d.fab with lanes := SMap.ins d.fab.lanes l v } }

/-! ### Cells -/

/-- CRC-8 with polynomial 0x07 (R275). -/
def hcrc (bs : List Byte) : Nat := crcN 8 0x07 0 bs

/-- Bytes of a cell with that many payload bytes, padded to whole 32-byte units (R275). -/
def cellUnits (n : Nat) : Nat := ceilDiv n 32
def cellLen (n : Nat) : Nat := 20 + 32 * cellUnits n

/-- The header bits [127:8] without HCRC. -/
def CellHdr.top (h : CellHdr) : Nat :=
  0x1 * 2 ^ 124 + b2n h.first * 2 ^ 123 + b2n h.last * 2 ^ 122 + b2n h.err * 2 ^ 121 + h.units % 8 * 2 ^ 118 +
    h.ddev % 1024 * 2 ^ 108 + h.sdev % 1024 * 2 ^ 98 + h.dpipe % 64 * 2 ^ 92 + h.spipe % 64 * 2 ^ 86 +
    h.pseq % 65536 * 2 ^ 70 + h.stick % 65536 * 2 ^ 54 + h.cidx % 64 * 2 ^ 48 + h.cls % 8 * 2 ^ 45 +
    h.fhash % 65536 * 2 ^ 29 + h.plen % 65536 * 2 ^ 13

/-- The cell a header and its payload make, trailer included. -/
def CellHdr.cell (h : CellHdr) (payload : List Byte) : List Byte :=
  let head := beBytes 15 (h.top / 256)
  let body := head ++ beBytes 1 (hcrc head) ++ fitBytes payload (32 * (h.units + 1))
  body ++ beBytes 4 (crc32c body)

/-- A DATA cell as received: its header when HCRC and trailer hold (R275). -/
def cellParse (bs : List Byte) : Option (CellHdr × List Byte) :=
  let n := ofBe (bs.take 16)
  let units := bits n 118 3
  let len := 16 + 32 * (units + 1)
  if hcrc (bs.take 15) = bits n 0 8 ∧ bs.length = len + 4 ∧ crc32c (bs.take len) = ofBe (bs.drop len) then
    some ({ first := bit n 123, last := bit n 122, err := bit n 121, units, ddev := bits n 108 10, sdev := bits n 98 10,
            dpipe := bits n 92 6, spipe := bits n 86 6, pseq := bits n 70 16, stick := bits n 54 16, cidx := bits n 48 6,
            cls := bits n 45 3, fhash := bits n 29 16, plen := bits n 13 16 }, (bs.take len).drop 16)
  else none

/-- A CTRL cell (R276): OP, DDEV, SDEV and ARG, laid out with both checks. -/
def ctrlCell (op ddev sdev arg : Nat) : List Byte :=
  let top := 0x2 * 2 ^ 124 + op % 16 * 2 ^ 120 + ddev % 1024 * 2 ^ 108 + sdev % 1024 * 2 ^ 98 + arg % 2 ^ 64 * 2 ^ 8
  let head := beBytes 15 (top / 256)
  let body := head ++ beBytes 1 (hcrc head)
  body ++ beBytes 4 (crc32c body)

/-- A CTRL cell as received: OP, DDEV and ARG when HCRC and CRC hold. -/
def ctrlParse (bs : List Byte) : Option (Nat × Nat × Nat) :=
  let n := ofBe (bs.take 16)
  if bs.length = 20 ∧ hcrc (bs.take 15) = bits n 0 8 ∧ crc32c (bs.take 16) = ofBe (bs.drop 16) then
    some (bits n 120 4, bits n 108 10, bits n 8 64)
  else none

/-- A lane's receiver locks or loses lock (R273, R283). -/
def Dev.fabLock (d : Dev) (lane : Nat) (locked : Bool) : Dev :=
  let d := d.wr (FAB_LANE.RXLOCK lane) (b2n locked)
  if locked then d
  else
    let d := { d with fab := { d.fab with part := SMap.erase d.fab.part lane } }
    match SMap.find d.fab.lanes lane with
    | some s => d.setFabLane lane { s with badNow := true, run := 0 }
    | none => d

/-! ### Receiving (R280, R281) -/

/-- The latest tick no later than `now` whose bits 15:0 are STICK. -/
def departTick (now stick : Nat) : Nat := tickSub now ((now + 65536 - stick) % 65536)

/-- Carriages of the reassembly pool are free again. -/
def Dev.fabGive (d : Dev) (ps : List Nat) : Dev :=
  { d with fab := { d.fab with free := d.fab.free ++ ps.filter d.fab.pool.contains } }

/-- A packet is lost: counted, logged and marked (R281). -/
def Dev.fabLost (d : Dev) (tick : Nat) : Dev :=
  (((d.bump FAB_LOST.COUNT).evt 0x33 0x22).fault 0x2A0 contained 0x06).markFault tick

/-- A cell belongs to a gathered packet: SDEV, SPIPE, the departure tick and PSEQ (R280). -/
def Gather.owns (g : Gather) (h : CellHdr) (t : Nat) : Bool := g.sdev == h.sdev && g.spipe == h.spipe && g.tick == t && g.pseq == h.pseq

/-- The gathered packets with one more cell; of two cells with one CIDX the first stays (DESIGN CHOICE, log entry 81). -/
def gatherCell (gs : List Gather) (h : CellHdr) (t : Nat) (c : FabCell) : List Gather :=
  if gs.any fun g => g.owns h t then gs.map fun g => if g.owns h t then { g with cells := g.cells ++ [c] } else g
  else gs ++ [{ sdev := h.sdev, spipe := h.spipe, tick := t, pseq := h.pseq, cells := [c] }]

/-- A DATA cell received (R275, R280, R281): placed into a carriage of the reassembly pool. -/
def Dev.dataCell (d : Dev) (bs : List Byte) : Dev :=
  match cellParse bs with
  | none => d.bump FAB_CELL_BAD.COUNT
  | some (h, payload) =>
    let d := d.evt 0x33 0x21 (some h.dpipe)
    let t := departTick d.tck.now h.stick
    let f := tickAdd t (d.rd FAB_HOP.L)
    if !(d.on FAB_CTRL.EN && d.on FAB_STATUS.UP) then d
    else if tickReached f d.tck.now then d.fabLost f
    else if d.fab.gathers.any fun g => g.owns h t && g.cells.any fun x => x.cidx == h.cidx then d
    else match d.fab.free with
      | [] => d.bump FAB_NOSTAGE.COUNT
      | p :: rest =>
        let c : FabCell := { cidx := h.cidx, last := h.last, err := h.err, plen := h.plen, dpipe := h.dpipe, payload, ptr := p }
        let d := { d with fab := { d.fab with gathers := gatherCell d.fab.gathers h t c, free := rest } }
        (d.wrote 0x200 .carData p).charge d.tck.now 0x20 1

/-- The frame of a gathered packet, and whether its last cell has ERR, when it is complete (R281). -/
def Gather.frame (g : Gather) : Option (List Byte × Bool) :=
  match g.cells with
  | [] => none
  | c :: _ =>
    let n := ceilDiv c.plen 256
    let cells := (List.range n).map fun i => g.cells.find? fun x => x.cidx = i
    if g.cells.all (fun x => x.plen == c.plen && x.last == (x.cidx + 1 == n)) && cells.all Option.isSome && n != 0 then
      let cs := cells.filterMap id
      some ((cs.flatMap fun x => fitBytes x.payload 256).take c.plen, cs.any fun x => x.last && x.err)
    else none

/-- One gathered packet at the start of its release tick (R281). -/
def Dev.releaseOne (d : Dev) (g : Gather) : Dev :=
  let ps := g.cells.map FabCell.ptr
  match g.frame with
  | none => (d.fabGive ps).fabLost d.tck.now
  | some (bytes, err) =>
    if err then (d.fabGive ps).bump FAB_ERR_CHAIN.COUNT
    else
      let p : FabPkt := { dpipe := ((g.cells.find? fun c => c.cidx = 0).map FabCell.dpipe).getD 0, sdev := g.sdev, bytes, cells := ps }
      { d with fab := { d.fab with released := d.fab.released ++ [p] } }

/-- The packets whose release tick begins (R281), in the order of R282. -/
def Dev.fabRelease (d : Dev) : Dev :=
  let due (g : Gather) : Bool := d.on FAB_CTRL.EN && d.on FAB_STATUS.UP && tickReached (tickAdd g.tick (d.rd FAB_HOP.L)) d.tck.now
  let gs := sortKey (fun g : Gather => [tickKey d.tck.now g.tick, g.sdev, g.spipe, g.pseq]) (d.fab.gathers.filter due)
  gs.foldl Dev.releaseOne { d with fab := { d.fab with gathers := d.fab.gathers.filter (fun g => !due g), released := [] } }

/-! ### CTRL cells (R276, R278, R283, R284) -/

/-- A CTRL cell concerning a device: 0x1 XOFF, 0x2 XON, 0x3 UNREACH, 0x4 REACH (Table 11.3). -/
def Dev.fabCtrl (d : Dev) (op ddev : Nat) : Dev :=
  if op ≤ 2 then { d with fab := { d.fab with grant := SMap.ins d.fab.grant ddev (op == 2) } }
  else { d with fab := { d.fab with reach := SMap.ins d.fab.reach ddev (op == 4) } }

/-- Tick times wrap with the tick number (R7): quarter nanoseconds. -/
def tickTimeMod : Nat := 1536 * tickMod

/-- A PROBE cell on a lane (R284): its arrival tick time and ARG in 0.25 ns. -/
def Dev.fabProbe (d : Dev) (lane arrival arg : Nat) : Dev :=
  if d.fab.probing.isNone then d
  else
    let p := max (SMap.get 0 d.fab.probe lane) ((arrival + tickTimeMod - arg % tickTimeMod) % tickTimeMod)
    { d with fab := { d.fab with probe := SMap.set 0 d.fab.probe lane p } }.wr (FAB_LANE.PROP lane) (min 2047 (p / 4))

/-- An LSTAT cell received on a lane (R283). -/
def Dev.fabLstat (d : Dev) (lane : Nat) (good : Bool) : Dev :=
  let s := d.fabLane lane
  let s := { s with last := d.tck.now, goodNow := s.goodNow || good, badNow := s.badNow || !good }
  (d.wr (FAB_LANE.FAR_GOOD lane) (b2n good)).setFabLane lane s

/-- A CTRL cell received in a codeword (Table 11.3): one whose check fails is discarded (DEDUCED, log entry 78); GOOD is the bit of the
header numbered 8 (DEDUCED, log entry 79). -/
def Dev.ctrlReceive (d : Dev) (lane arrival : Nat) (bs : List Byte) : Dev :=
  match ctrlParse bs with
  | none => d
  | some (op, ddev, arg) =>
    if op = 0 ∨ 7 ≤ op then d.bump FAB_CTRL_BAD.COUNT
    else if op = 5 then d.fabProbe lane arrival arg
    else if op = 6 then d.fabLstat lane (bit arg 0)
    else d.fabCtrl op ddev

/-! ### Codewords (R273, R274) -/

/-- The cells of a lane's stream in turn (Table 11.1); what is left of a cell not yet complete waits for the next codeword, and after a
reserved type the receiver resumes at the next PTR. -/
def Dev.cellWalk (d : Dev) (lane arrival : Nat) : Nat → List Byte → Dev
  | 0, _ => d
  | fuel + 1, s =>
    let wait (d : Dev) : Dev := { d with fab := { d.fab with part := SMap.ins d.fab.part lane s } }
    if s.length < 4 then wait d
    else
      let n := ofBe (s.take 4)
      let type := bits n 28 4
      let len := if type = 0 then 4 else if type = 1 then 20 + 32 * (bits n 22 3 + 1) else 20
      if 3 ≤ type then (d.bump FAB_CELL_BAD.COUNT)
      else if s.length < len then wait d
      else
        let bs := s.take len
        let d := if type = 1 then d.dataCell bs else if type = 2 then d.ctrlReceive lane arrival bs else d
        d.cellWalk lane arrival fuel (s.drop len)

/-- A codeword received on a lane (R273): whether FEC could correct it, its 20-bit header, its 640 bytes, and the tick time in 0.25 ns of
its arrival. One that is bad takes every cell that overlaps it. -/
def Dev.codeword (d : Dev) (lane : Nat) (good : Bool) (hdr : Nat) (stream : List Byte) (arrival : Nat) : Dev :=
  let had := SMap.find d.fab.part lane
  let d := { d with fab := { d.fab with part := SMap.erase d.fab.part lane } }
  if !good ∨ popcount 20 hdr % 2 ≠ 0 then
    (d.bump FAB_CW_UNCORR.COUNT).setFabLane lane { d.fabLane lane with dirty := true }
  else match had with
    | some bs => d.cellWalk lane arrival 240 (bs ++ stream)
    | none => if 640 ≤ bits hdr 1 10 then d else d.cellWalk lane arrival 240 (stream.drop (bits hdr 1 10))

/-- A codeword header (R273): LANEID, PTR and even parity. -/
def cwHeader (lane ptr : Nat) : Nat :=
  let n := lane % 512 * 2 ^ 11 + ptr % 1024 * 2
  n + popcount 20 n % 2

/-- The header of the codeword that a lane begins at an instant (R273), from the cells in the trace: the next cell, be it an IDLE, starts
on the 4-byte boundary where the cell on the lane ends. -/
def Dev.txHeader (d : Dev) (lane at_ : Nat) : Nat :=
  let left := d.out.filterMap fun e => match e with
    | .cell l start bs =>
      if l = lane ∧ start < at_ ∧ at_ < start + 168 * bs.length then some (4 * ceilDiv (start + 168 * bs.length - at_) 672) else none
    | _ => none
  let ptr := left.foldl max 0
  cwHeader lane (if 640 ≤ ptr then 0x3FF else ptr)

/-! ### Boundaries (R278, R279, R283) -/

/-- One latched bit; a change is an RWT commit. -/
def Dev.fabLatchBit (f : Nat → Field) (d : Dev) (p : Nat × Bool) : Dev :=
  let dev := p.1 % 1024
  if d.fabBit f dev = p.2 then d
  else (d.wr (f (dev / 32)) (setBits (d.rd (f (dev / 32))) (dev % 32) 1 (b2n p.2))).commit

/-- Grant and reach bits take the state of the latest CTRL cells (R278). -/
def Dev.fabLatch (d : Dev) : Dev :=
  let d := d.fab.grant.foldl (Dev.fabLatchBit FAB_GRANT.BITS) d
  let d := d.fab.reach.foldl (Dev.fabLatchBit FAB_REACH.BITS) d
  { d with fab := { d.fab with grant := [], reach := [] } }

/-- One lane at a boundary (R283): it joins after UPDEB ticks of the condition; it leaves after an LSTAT with GOOD 0, four
ticks without one, or loss of lock. -/
def Dev.fabLaneStep (d : Dev) (p : Nat × LaneSt) : Dev :=
  let s := p.2
  let ok := s.goodNow && !s.badNow && d.on (FAB_LANE.RXLOCK p.1)
  let run := if ok then s.run + 1 else 0
  let inSet := d.on (FAB_LANE.IN_SET p.1)
  let leave := s.badNow || !d.on (FAB_LANE.RXLOCK p.1) || 4 < tickSub d.tck.now s.last
  let nowIn := if inSet then !leave else ok && d.rd FAB_CTRL.UPDEB ≤ run
  let d := d.setFabLane p.1 { s with goodNow := false, badNow := false, dirty := false, run }
  if nowIn = inSet then d else ((d.wr (FAB_LANE.IN_SET p.1) (b2n nowIn)).wr FAB_STATUS.LANE_CHG 1).commit

/-- Every lane at a boundary. -/
def Dev.fabLaneSteps (d : Dev) : Dev := d.fab.lanes.foldl Dev.fabLaneStep d

/-- A lane's receiver is locked, and no codeword of the tick that ended was uncorrectable (R276). -/
def Dev.laneGood (d : Dev) (lane : Nat) : Bool :=
  d.on (FAB_LANE.RXLOCK lane) && !(((SMap.find d.fab.lanes lane).map LaneSt.dirty).getD false)

/-- What the interface sends in a tick (R276, R279, R284): LSTAT on every lane, with GOOD 1 on those of a list; its XOFF or XON on every
lane of every transmit set; and PROBE cells while it probes. DEDUCED (log entry 80): LSTAT and PROBE concern the sender. -/
def Dev.fabSend (d : Dev) (good : List Nat) : Dev :=
  if !(d.fab.en && d.on FAB_CTRL.EN) then d
  else
    let id := d.rd FAB_DEVID.ID
    let all := List.range 320
    let d := (d.emit (.ctrl good (ctrlCell 6 id id 1))).emit (.ctrl (all.filter fun l => !good.contains l) (ctrlCell 6 id id 0))
    let d := if d.fab.probing.isSome then d.emit (.ctrl all (ctrlCell 5 id id (d.tck.now * 1536))) else d
    if d.on FAB_STATUS.UP then
      let x := if d.fab.free.length < 16 * d.rd FAB_XOFF_TH.HI then true
        else if 16 * d.rd FAB_XOFF_TH.LO < d.fab.free.length then false else d.on FAB_STATUS.XOFF_SENT
      let lanes := all.filter fun l => d.on (FAB_LANE.IN_SET l)
      (d.wr FAB_STATUS.XOFF_SENT (b2n x)).emit (.ctrl lanes (ctrlCell (if x then 1 else 2) id id 0))
    else d

/-- The interface at a tick boundary: grants and reach, the lane sets, what it sends in the tick, and the packets whose release tick
begins. -/
def Dev.fabBoundary (d : Dev) : Dev :=
  let good := (List.range 320).filter d.laneGood
  ((d.fabLatch.fabLaneSteps).fabSend good).fabRelease

/-! ### Sending (R277) -/

/-- The lane of a group's transmit set whose previous cell ends earliest; ties go to the lowest number, and a lane that has sent nothing
goes first. -/
def Dev.fabPick (d : Dev) (g at_ : Nat) : Option Nat :=
  let key (l : Nat) : Nat := match SMap.find d.fab.busy l with
    | some e => (e + instMod + instMod / 2 - at_ % instMod) % instMod
    | none => 0
  ((List.range 5).map (5 * g + ·)).foldl (fun (a : Option Nat) l =>
    if d.on (FAB_LANE.IN_SET l) then
      match a with
      | some b => if key l < key b then some l else a
      | none => some l
    else a) none

/-- A cell's place: its lane, start and end. -/
def Dev.fabPlace (d : Dev) (pipe at_ len : Nat) : Option (Nat × Nat × Nat) :=
  (d.fabPick pipe at_).map fun lane =>
    let ready := (at_ + 80 * uNs) % instMod
    let start := match SMap.find d.fab.busy lane with
      | some b => if instReached b ready then ready else b
      | none => ready
    (lane, start, (start + 168 * len) % instMod)

/-- The fields of a cell's output record (Table 1.8). -/
def CellHdr.rec_ (h : CellHdr) (bs : List Byte) : List Byte :=
  beBytes 2 h.ddev ++ beBytes 1 h.dpipe ++ beBytes 2 h.pseq ++ beBytes 1 h.cidx ++ bs.drop (bs.length - 4)

/-- Cells are driven unless the device is squelched or halted (R362, R386). -/
def Dev.cellOut (d : Dev) (lane start : Nat) (bs : List Byte) : Dev :=
  if d.squelched || d.on FLT_STATUS.HALTED then d else d.emit (.cell lane start bs)

/-- One cell of a departure: its lane, start and record (Table 1.8). The last one goes out once the tail of its chain has been read
(R197). -/
def Dev.cellSend (d : Dev) (x : Depart) (h : CellHdr) (payload : List Byte) : Dev :=
  let bs := h.cell payload
  match d.fabPlace x.pipe (slotInstant x.tick x.slot) bs.length with
  | none => d
  | some (lane, start, end_) =>
    let fifo := SMap.get [] d.fab.fifo x.pipe ++ [(end_, bs.length)]
    let fab := { d.fab with busy := SMap.ins d.fab.busy lane end_, fifo := SMap.ins d.fab.fifo x.pipe fifo }
    let d := { d with fab := fab }.evt 0x33 0x20 (some x.pipe)
    let d := d.record x.tick unitFabric x.slot (x.pipe * 64 + h.cidx) x.tick 6 0 (h.rec_ bs)
    if h.last then { d with fab := { d.fab with tails := d.fab.tails ++ [FabTail.mk x lane start end_ h payload] } }
    else d.cellOut lane start bs

/-- A fabric departure dropped by the interface (Table 11.4). -/
def Dev.fabDrop (d : Dev) (x : Depart) (reason : Nat) : Dev :=
  let d := d.bump (if reason = 0x26 then FAB_DROP_UNREACH.COUNT else FAB_DROP_FIFO.COUNT)
  (d.recDrop x.tick (64 + x.pipe) (mATICK x.m) (mASLOT x.m) 0 reason).release x.chain 0x0410

/-- The tail of a departure's chain has been read: its last cell goes out, with ERR when the chain is bad (R197), and its record is that of
the cell as sent. -/
def Dev.tailFinish (d : Dev) (t : FabTail) : Dev :=
  let x := t.x
  let hurt := d.dpt.hurt.contains (.depart x.key)
  let bad := hurt || d.terr x.chain
  let d := if hurt || d.chainUe x.chain then d.markFault x.tick else d
  let d := if bad then d.tailErr.bump DPT_TAIL_ERR.COUNT else d
  let h := { t.h with err := bad }
  let bs := h.cell t.payload
  let recs := d.tck.recs.map fun (r : OutRec) =>
    if r.tick = x.tick ∧ r.unit = unitFabric ∧ r.slot = x.slot ∧ r.rank = x.pipe * 64 + h.cidx then { r with bytes := 6#8 :: h.rec_ bs } else r
  let d := { d with
    tck := { d.tck with recs }
    dpt := { d.dpt with hurt := d.dpt.hurt.filter fun w => w != ReadFor.depart x.key }
    fab := { d.fab with sent := d.fab.sent ++ [(t.end_, x.chain, x.pipe)] } }
  d.cellOut t.lane t.start bs

/-- Every departure whose reads have ended sends its last cell, and a chain whose last cell has been sent is released (Table 7.5). -/
def Dev.fabFinishAll (d : Dev) : Dev :=
  let done (t : FabTail) : Bool := !d.reading (.depart t.x.key)
  let go := d.fab.tails.filter done
  let d := go.foldl Dev.tailFinish { d with fab := { d.fab with tails := d.fab.tails.filter fun t => !done t } }
  let ended (e : Nat × Nat × Nat) : Bool := instReached e.1 (slotInstant d.tck.now d.tck.slot)
  let gone := d.fab.sent.filter ended
  gone.foldl (fun (d : Dev) e => d.release e.2.1 0x0410) { d with fab := { d.fab with sent := d.fab.sent.filter fun e => !ended e } }

/-- A fabric departure sent as cells (R275, R277): its header fields from the virtual port, PSEQ counted up. -/
def Dev.fabDepart (d : Dev) (x : Depart) : Dev :=
  let vp := x.port
  let at_ := slotInstant x.tick x.slot
  let q := (SMap.get [] d.fab.fifo x.pipe).filter fun e => !instReached e.1 at_
  let n := ceilDiv x.bytes.length 256
  let len (k : Nat) : Nat := min 256 (x.bytes.length - 256 * k)
  let total := ((List.range n).map fun k => cellLen (len k)).sum
  if !(d.fabUp x.pipe vp && d.fabGranted x.pipe vp) then d.fabDrop x 0x26
  else if 131072 < (q.map Prod.snd).sum + total then d.fabDrop x 0x27
  else
    let ddev := d.rd (FAB_VP.DDEV vp)
    let sdev := d.rd FAB_DEVID.ID
    let key := (sdev * 64 + x.pipe) * 1024 + ddev
    let pseq := SMap.get 0 d.fab.pseq key
    let d := { d with fab := { d.fab with fifo := SMap.ins d.fab.fifo x.pipe q, pseq := SMap.set 0 d.fab.pseq key ((pseq + 1) % 65536) } }
    let d := (List.range n).foldl (fun (d : Dev) k =>
      let h : CellHdr :=
        { first := k == 0, last := k + 1 == n, err := false, units := cellUnits (len k) - 1, ddev, sdev,
          dpipe := d.rd (FAB_VP.DPIPE vp), spipe := x.pipe, pseq, stick := x.tick % 65536, cidx := k,
          cls := d.rd (FAB_VP.CLASS vp), fhash := mHASH x.m % 65536, plen := x.bytes.length }
      d.cellSend x h ((x.bytes.drop (256 * k)).take (len k))) d
    (d.readChain x.pipe x.chain 2 (carriages x.stored) (.depart x.key) fun _ => d.sc).fabFinishAll

/-- The next fabric departure of an egress pipeline, in order of instants, is made once its tick has begun (R277). -/
def Dev.fabricDeparture (d : Dev) (pipe : Nat) : Dev :=
  let due := d.wan.deps.filter fun x => x.pipe = pipe && x.fabric && tickReached x.tick d.tck.now
  match sortKey (fun x => departKey x d.tck.now) due with
  | [] => d
  | x :: _ => { d with wan := { d.wan with deps := d.wan.deps.erase x } }.fabDepart x

/-! ### Start-up and shutdown (R284, R286) -/

/-- The hop allowance in force: the interface runs. -/
def Dev.fabStart (d : Dev) (l : Nat) : Dev :=
  { (d.wr FAB_HOP.L l).wr FAB_STATUS.UP 1 with fab := { d.fab with probing := none } }

/-- `n` carriages taken from the free lists, one bank after another (DESIGN CHOICE, log entry 82). -/
def Dpt.takeFree (x : Dpt) : Nat → Nat → List Nat × Dpt
  | 0, _ => ([], x)
  | n + 1, b =>
    match (List.range 128).findSome? fun i => (x.pop ((b + i) % 128)).map fun r => (r.1 * 128 + (b + i) % 128, r.2) with
    | none => ([], x)
    | some (p, y) =>
      let r := y.takeFree n (ptrBank p + 1)
      (p :: r.1, r.2)

/-- The reassembly pool is allocated under source 257 for holder 0x0411 (R182, R286); a revoked holder gets none (R192). Where R183
refuses it the interface has no pool (DEDUCED, log entry 82). -/
def Dev.fabPool (d : Dev) : Dev :=
  let n := d.rd FAB_STAGE.SIZE
  match d.isRevoked 0x0411, d.sharedFit 257 n with
  | false, some b =>
    if d.freeOk n then
      let d := d.chargeSrc 257 n b
      let (ps, x) := d.dpt.takeFree n 0
      let own := ps.foldl (fun m p => SMap.set 0 m p 0x0411) x.own
      let mark := ps.foldl (fun m p => SMap.set 0 m p (d.rd DPT_AUD_STATUS.COLOUR)) x.mark
      let d := { d with dpt := { x with own, mark }, fab := { d.fab with pool := ps, free := ps } }
      d.wr DPT_FREE.COUNT (d.rd DPT_FREE.COUNT - ps.length)
    else d.wr DPT_STATUS.RSV_SHORT 1
  | _, _ => d

/-- EN = 1 takes effect (R284): refused without LOCKED; BACK_TO_BACK probes, FABRIC takes FAB_HOP.TICKS. -/
def Dev.fabEnable (d : Dev) : Dev :=
  if ¬ d.on FAB_CTRL.EN ∨ d.fab.en then d
  else
    let d := { d with fab := { d.fab with en := true } }
    if ¬ d.on TCK_STATUS.LOCKED then d.wr FAB_STATUS.HOP_ERR 1
    else
      let d := d.fabPool
      if d.rd GLB_BOOT_STATUS.MODE = 1 then { d with fab := { d.fab with probing := some d.tck.now, probe := [] } }
      else if d.rd FAB_HOP.TICKS = 0 then d.wr FAB_STATUS.HOP_ERR 1
      else d.fabStart (d.rd FAB_HOP.TICKS)

/-- 256 ticks of probing have passed (R284). -/
def Dev.fabProbeDone (d : Dev) : Dev :=
  match d.fab.probing with
  | none => d
  | some t =>
    if tickSub d.tck.now t < 256 then d
    else
      let p := d.fab.probe.foldl (fun a x => max a x.2) 0
      let l := max 1 (ceilDiv (4 * (384 + 80 + 512 + 96) + p) 1536)
      if 8 < l then { d with fab := { d.fab with probing := none } }.wr FAB_STATUS.HOP_ERR 1 else d.fabStart l

/-- The pool's carriages go back to source 257 (R286); a revoked holder's release is ignored, so that they stay held until an audit
(R192). -/
def Dev.fabPoolBack (d : Dev) : Dev :=
  if d.isRevoked 0x0411 then { d with fab := { d.fab with free := [] } }
  else
    let own := d.fab.pool.foldl (fun m p => SMap.set 0 m p 0x0411) d.dpt.own
    let x := { d.dpt with own, rejoin := d.dpt.rejoin ++ d.fab.pool, credit := d.dpt.credit ++ [(257, d.fab.pool.length)] }
    { d with dpt := x, fab := { d.fab with pool := [], free := [] } }.evt 0x30 0x21 none d.fab.pool.length

/-- EN = 0 takes effect (Table 11.6): cells stop, gathered cells are discarded, the pool returns to source 257, and every FABRIC
L0 node sees its port down. -/
def Dev.fabDisable (d : Dev) : Dev :=
  if d.on FAB_CTRL.EN ∨ ¬ d.fab.en then d
  else
    let chains := d.fab.tails.map (fun t => t.x.chain) ++ d.fab.sent.map fun e => e.2.1
    let d := (d.emit (.fabStop (slotInstant d.tck.now 0))).fabPoolBack
    let fab := { d.fab with en := false, probing := none, probe := [], gathers := [], released := [], fifo := [], tails := [], sent := [] }
    let d := chains.foldl (fun (d : Dev) c => d.release c 0x0410) { d with fab := fab }
    (d.wr FAB_HOP.L 0).wrs [(FAB_STATUS.UP, 0), (FAB_STATUS.XOFF_SENT, 0)]

end Sys2Proof.Machine
end

