-- ==== Sys2Proof/Machine/Hst.lean ====
section
/-! DEFINITION. The host endpoint (chapter 13): functions and MSI-X (R305 to R307), punt rings (R308 to R312), inject rings
(R313 to R316), ring states and host-side failures (R317 to R320), resets (R322, R323). -/

namespace Sys2Proof.Machine

/-! ### Functions and MSI-X -/

/-- An MSI-X table entry; an entry never written is masked and zero. -/
def Func.entry (f : Func) (v : Nat) : BitVec 128 := SMap.get (BitVec.ofNat 128 (2 ^ 96)) f.table v

/-- A vector of a function is sent, or sets its pending bit while masked (R307). -/
def Dev.sendVec (d : Dev) (fn v : Nat) : Dev :=
  let f := d.func fn
  if !f.masters || !f.msixEn then d
  else if f.msixMask || bit (f.entry v).toNat 96 then d.setFunc fn { f with pba := v :: f.pba.filter (· != v) }
  else d.emit (.msix fn v)

/-- Pending vectors that are no longer masked are sent. -/
def Dev.msixFlush (d : Dev) (fn : Nat) : Dev :=
  let f := d.func fn
  if !f.masters || !f.msixEn || f.msixMask then d
  else
    let go := f.pba.filter fun v => !bit (f.entry v).toNat 96
    go.foldl (fun (d : Dev) v => d.emit (.msix fn v)) (d.setFunc fn { f with pba := f.pba.filter fun v => !go.contains v })

/-- A write of one word of a function's MSI-X table: word `w` of entry `v`. -/
def Dev.msixWrite (d : Dev) (fn v w value : Nat) : Dev :=
  let f := d.func fn
  let e := BitVec.ofNat 128 (setBits (f.entry v).toNat (32 * w) 32 value)
  (d.setFunc fn { f with table := SMap.set (BitVec.ofNat 128 (2 ^ 96)) f.table v e }).msixFlush fn

/-! ### Discards and ring states -/

/-- Queued records of a punt ring are dropped and counted (R311). -/
def Dev.dropRecs (d : Dev) (r : Nat) : Dev :=
  let n := (d.hst.recs.filter fun x => x.ring == r).length
  let d := { d with hst := { d.hst with recs := d.hst.recs.filter fun x => x.ring != r } }
  if r < 64 then d.bump (HST_PUNT_DROP.COUNT r) n else d

/-- The discards of R317 item 1: staged frames, queued records, prefetched descriptors; data of reads outstanding is to be
discarded. -/
def Dev.ringDiscard (d : Dev) (r : Nat) : Dev :=
  let h := d.hst
  let reads := h.reads.map fun p => if p.2.ring = r then (p.1, { p.2 with stale := true }) else p
  if r < 64 then ({ d with hst := { h with reads } }).dropRecs r
  else
    let arrivals := d.pipe.arrivals.map fun x => if x.ring = some (r - 64) then { x with ring := none } else x
    { d with pipe := { d.pipe with arrivals }, hst := { h with reads, inj := SMap.erase h.inj (r - 64), order := SMap.erase h.order (r - 64) } }

/-- A ring enters ERROR (R317, Table 13.8): it is not served, and what its reads still bring is discarded. -/
def Dev.ringFail (d : Dev) (r err : Nat) : Dev :=
  let d := ((d.wr (rState r) ringError).wr (rErr r) err).wr HST_STATUS.RING_ERR 1
  let d := d.ringDiscard r
  d.fault 0x311 contained (if err = 1 then 0x05 else 0x06)

/-- CFG.ARM written 1 (R317): discards, then a wait for outstanding reads. -/
def Dev.ringArm (d : Dev) (r : Nat) : Dev :=
  let d := d.ringDiscard r
  { d with hst := { d.hst with arming := r :: d.hst.arming.filter (· != r) } }

/-- Arming ends with no read of the ring outstanding (R317 items 3 and 4). -/
def Dev.ringArmDone (d : Dev) (r : Nat) : Dev :=
  if !d.hst.arming.contains r || d.hst.reads.any (fun p => p.2.ring == r) then d
  else
    let d := { d with hst := { d.hst with arming := d.hst.arming.filter (· != r) } }
    let d := d.wrs [(rHead r, 0), (rTail r, 0), (rErr r, 0), (rState r, if d.on (rEn r) then ringRun else ringDisabled)]
    if r < 64 then d.wr (HST_PUNT_STATE.PHASE r) 1 else d

/-- CFG.EN written 0 (R317): a running ring is disabled with the same discards. -/
def Dev.ringDisable (d : Dev) (r : Nat) : Dev :=
  if d.rd (rState r) = ringRun then (d.ringDiscard r).wr (rState r) ringDisabled else d

/-- A write of a ring's CFG register (Table 13.13). -/
def Dev.ringCfg (d : Dev) (r v : Nat) : Dev :=
  let d := d.wrs [(rEn r, bits v 0 1), (rLog2 r, bits v 2 4), (rVec r, bits v 16 10), (rIrqEn r, bits v 26 1)]
  let d := if r < 64 then d else d.wr (HST_INJ_CFG.REPLAY (r - 64)) (bits v 6 1)
  if bit v 1 then d.ringArm r else if bit v 0 then d else d.ringDisable r

/-! ### Host reads and writes -/

/-- A transfer as transaction packets: at most `most` bytes each, none across a 4 KiB boundary. Pairs of offset and length. -/
def tlpSplit (addr most : Nat) : Nat → Nat → Nat → List (Nat × Nat)
  | 0, _, _ => []
  | fuel + 1, off, left =>
    if left = 0 then []
    else
      let n := min left (min most (4096 - (addr + off) % 4096))
      (off, n) :: tlpSplit addr most fuel (off + n) (left - n)

/-- The packets of `len` bytes at an address. -/
def tlps (addr most len : Nat) : List (Nat × Nat) := tlpSplit addr most len 0 len

/-- A write of host memory by a function, in packets of at most its Max Payload Size (R305, R308). -/
def Dev.hostWrite (d : Dev) (fn addr : Nat) (bs : List Byte) : Dev :=
  (tlps addr (2 ^ (7 + min 2 (d.func fn).mps)) bs.length).foldl (fun (d : Dev) p =>
    d.emit (.hostWrite (addr + p.1) ((bs.drop p.1).take p.2))) d

/-- The tags that a request may use (R305): 14-bit in flit mode, 10-bit otherwise. -/
def Dev.tagSpace (d : Dev) : Nat := if d.on HST_STATUS.FLIT then 16384 else 1024

/-- The lowest tag neither in use nor withheld; at most 512 reads are outstanding (R305, R319). -/
def Dev.freeTag (d : Dev) : Option Nat :=
  if 512 ≤ d.hst.reads.length then none
  else (List.range (min d.tagSpace (d.hst.reads.length + d.hst.withheld.length + 1))).find? fun t =>
    (SMap.find d.hst.reads t).isNone && !d.hst.withheld.any fun p => p.1 == t

/-- A read of host memory is issued for a ring: its tag. -/
def Dev.hostRead (d : Dev) (r : Nat) (frame : Bool) (addr len : Nat) : Option (Nat × Dev) :=
  d.freeTag.map fun t =>
    let x : HostRd := { ring := r, frame, len, tick := d.tck.now, stale := false }
    (t, { d with hst := { d.hst with reads := SMap.ins d.hst.reads t x } }.emit (.hostRead t addr len))

/-- A punt ring fetches the descriptor at HEAD when one is posted. -/
def Dev.puntFetch (d : Dev) (r : Nat) : Dev :=
  if d.served r ∧ d.posted r ≠ 0 ∧ ¬ d.hst.reads.any (fun p => p.2.ring == r) then
    match d.hostRead r false (d.ringBase r + 16 * (d.rd (rHead r) % d.ringSize r)) 16 with
    | some e => e.2
    | none => d
  else d

/-- An inject ring that is served: a replay ring while replay is in effect, a normal ring while it is not (R316). -/
def Dev.injServed (d : Dev) (n : Nat) : Bool := d.served (64 + n) && (d.on TCK_CTRL.REPLAY == d.on (HST_INJ_CFG.REPLAY n))

def InjStage.bytes : InjStage → Nat
  | .fetch => 0
  | .wait _ => 0
  | .read x _ => x.len + 16 * b2n x.prefix_
  | .staged x _ _ => x.len + 16 * b2n x.prefix_

/-- Replay entries of a ring that wait for their slots: staged, and not yet consumed (R315, R316). -/
def Dev.injMoved (d : Dev) (n : Nat) : List Arrival := d.pipe.arrivals.filter fun x => x.ring == some n

/-- Bytes that a ring has staged or is staging. -/
def Dev.injBytes (d : Dev) (n : Nat) : Nat :=
  ((SMap.get [] d.hst.inj n).map InjStage.bytes).sum + ((d.injMoved n).map fun x => x.bytes.length).sum

/-- Carriage-sized entries of the inject buffer in use (R313). -/
def Dev.injEntries (d : Dev) : Nat :=
  (d.hst.inj.map fun p => (p.2.map fun s => carriages s.bytes).sum).sum +
    ((d.pipe.arrivals.filter fun x => x.ring.isSome).map fun x => carriages x.bytes.length).sum

/-- The parts in which a frame is read (R305): at most PF1's Max Read Request Size, up to 4,096 bytes. -/
def Dev.injParts (d : Dev) (x : InjDesc) : List InjPart :=
  (tlps x.addr (min 4096 (2 ^ (7 + d.hst.pf1.mrrs))) x.len).map fun p => { off := p.1, len := p.2, tag := none, data := none }

/-- The parts of a frame not yet asked for are, while requests can be issued. -/
def Dev.askParts (d : Dev) (r : Nat) (x : InjDesc) : List InjPart → List InjPart × Dev
  | [] => ([], d)
  | p :: rest =>
    match p.tag, d.hostRead r true (x.addr + p.off) p.len with
    | none, some e =>
      let y := e.2.askParts r x rest
      ({ p with tag := some e.1 } :: y.1, y.2)
    | _, _ =>
      let y := d.askParts r x rest
      (p :: y.1, y.2)

/-- A ring's descriptors in order: those whose parts are not all asked for ask; and the first that waits for room takes it, within 64 KiB of
the ring and the buffer's entries (R313). -/
def Dev.askStages (d : Dev) (n : Nat) : List InjStage → List InjStage × Dev
  | [] => ([], d)
  | .read x parts :: rest =>
    let a := d.askParts (64 + n) x parts
    let y := a.2.askStages n rest
    (.read x a.1 :: y.1, y.2)
  | .wait x :: rest =>
    let size := x.len + 16 * b2n x.prefix_
    if d.injBytes n + size ≤ 65536 ∧ d.injEntries + carriages size ≤ 1024 then
      let a := d.askParts (64 + n) x (d.injParts x)
      (.read x a.1 :: rest, a.2)
    else (.wait x :: rest, d)
  | s :: rest =>
    let y := d.askStages n rest
    (s :: y.1, y.2)

/-- An inject ring asks for its frames, and for its next descriptor within four frames (R313). -/
def Dev.injFetch (d : Dev) (n : Nat) : Dev :=
  let r := 64 + n
  if !d.injServed n then d
  else
    let a := d.askStages n (SMap.get [] d.hst.inj n)
    let l := a.1
    let d := { a.2 with hst := { a.2.hst with inj := SMap.set [] a.2.hst.inj n l } }
    let k := l.length + (d.injMoved n).length
    if k < 4 ∧ k < d.posted r ∧ ¬ l.contains .fetch then
      match d.hostRead r false (d.ringBase r + 32 * ((d.rd (rHead r) + k) % d.ringSize r)) 32 with
      | some e => { e.2 with hst := { e.2.hst with inj := SMap.set [] e.2.hst.inj n (l ++ [.fetch]) } }
      | none => d
    else d

/-- Every inject ring asks again. -/
def Dev.injFetchAll (d : Dev) : Dev := (List.range 16).foldl Dev.injFetch d

/-- A doorbell (R309, R317): the new TAIL; a running ring posted beyond its size goes into ERROR. -/
def Dev.doorbell (d : Dev) (r tail : Nat) : Dev :=
  let d := d.wr (rTail r) tail
  if d.rd (rState r) ≠ ringRun then d
  else if d.ringSize r < d.posted r then d.ringFail r 0x06
  else if r < 64 then d.puntFetch r else d.injFetchAll

/-- What a read of a doorbell page returns (R309): HEAD at offset 0x4, 0 elsewhere. Pages 0 to 63 are the punt rings', 64 to 79 the inject
rings' (Table 13.2). -/
def Dev.doorbellRead (d : Dev) (a : Nat) : Nat := if a < 0x50000 ∧ a % 0x1000 = 4 then d.rd (rHead (a / 0x1000)) else 0

/-- The read of a tag ends. -/
def Dev.endRead (d : Dev) (tag : Nat) : Dev := { d with hst := { d.hst with reads := SMap.erase d.hst.reads tag } }

/-- An unexpected completion (R319). -/
def Dev.unexpected (d : Dev) : Dev := (d.bump HST_UNEXP_CPL.COUNT).emit (.aer 2)

/-- A completion arrives (R319): 0 successful, whose data is another command's; 1 Unsupported Request; 2 Completer Abort;
3 poisoned. -/
def Dev.hostCompletion (d : Dev) (tag status : Nat) : Dev :=
  match SMap.find d.hst.reads tag with
  | none => d.unexpected
  | some x =>
    if x.stale then d.endRead tag
    else if status = 0 then d
    else (d.endRead tag).ringFail x.ring (status + 1)

/-- The completion timeout in microseconds (Table 13.9). -/
def timeoutUs (v : Nat) : Nat :=
  match v with
  | 0x1 => 80
  | 0x2 => 5000
  | 0x5 => 40000
  | 0x6 => 160000
  | 0x9 => 600000
  | 0xA => 2000000
  | _ => 10000

/-- A host read that has waited for its timeout times out (R319): its tag is withheld for twice the timeout value, and for at least 1 s. -/
def Dev.hostTimeout (d : Dev) (tag : Nat) : Dev :=
  match SMap.find d.hst.reads tag with
  | none => d
  | some x =>
    let us := timeoutUs d.hst.pf1.timeout
    if tickSub d.tck.now x.tick < usTicks us then d
    else
      let d := ((d.endRead tag).bump HST_CPL_TO.COUNT).emit (.aer 1)
      let back := tickAdd d.tck.now (usTicks (max (2 * us) 1000000))
      { d with hst := { d.hst with withheld := d.hst.withheld ++ [(tag, back)] } }.ringFail x.ring 0x01

/-- A withheld tag whose time is over becomes usable again (R319). -/
def Dev.tagBack (d : Dev) (tag : Nat) : Dev :=
  { d with hst := { d.hst with withheld := d.hst.withheld.filter fun p => !(p.1 == tag && tickReached p.2 d.tck.now) } }.injFetchAll

/-! ### Punts (R310 to R312) -/

/-- The admission a packet's manifest names: tick, pipeline, slot, kind and source. -/
def headKey (m : Manifest) : Nat := (((mATICK m * 64 + mAPIPE m) * 512 + mASLOT m) * 4 + bits (mASRC m) 22 2) * 65536 + mPORT m

/-- The punt record of Table 13.5. -/
def Dev.puntRecord (d : Dev) (x : PuntRec) (trunc : Bool) : List Byte :=
  let h := (SMap.find d.hst.heads (headKey x.m)).getD { h := 0, len := 0, fcsBad := false }
  mbytes x.m 0x1E0 32 ++ mbytes x.m 0x180 32 ++ mbytes x.m 0x1A0 32 ++ beBytes 8 h.h ++ beBytes 2 h.len ++
    beBytes 1 (b2n x.terr * 128 + b2n x.egress * 64 + b2n trunc * 32 + b2n h.fcsBad * 16) ++ beBytes 1 0 ++
    beBytes 6 x.tick ++ beBytes 14 0

/-- Carriages a record holds in the punt buffer. -/
def PuntRec.cells (x : PuntRec) : Nat := carriages x.bytes.length

/-- The hand-off of the earliest punt that is due (R311): its record, the credit of its chain, the copy of its carriages from slot cycle 0
of the tick on, and a place in its ring's queue or a drop. -/
def Dev.puntHandoff (d : Dev) : Dev :=
  match d.hst.punts.find? fun p => tickReached p.due d.tck.now with
  | none => d
  | some p =>
    let id := d.hst.nextPunt
    let d := { d with hst := { d.hst with punts := d.hst.punts.erase p, nextPunt := id + 1 } }
    let unit := if p.egress then 64 + p.pipe else p.pipe
    let d := d.recPunt p.due unit (mATICK p.m) (mASLOT p.m) p.ring p.bytes
    let d := if d.chainUe p.chain then d.markFault p.due else d
    let d := d.payChain p.chain (0x0300 + p.ring)
    let x : PuntRec := { ring := p.ring, id, tick := p.due, egress := p.egress, m := p.m, bytes := p.bytes, chain := p.chain,
                         done := false, terr := d.terr p.chain }
    let d := d.readChain p.pipe p.chain 0 (carriages p.bytes.length) (.punt p.ring id) fun _ => 504 * p.due
    let used := (d.hst.recs.map PuntRec.cells).sum
    if d.served p.ring ∧ used + x.cells ≤ 8192 ∧ (d.hst.recs.filter fun y => y.ring == p.ring).length < 256 then
      { d with hst := { d.hst with recs := d.hst.recs ++ [x] } }
    else d.bump (HST_PUNT_DROP.COUNT p.ring)

/-- The copy of a punted chain into the punt buffer is complete; a bad chain shows in its record (R197, R311). -/
def Dev.puntCopied (d : Dev) (id chain : Nat) (hurt : Bool) : Dev :=
  let bad := hurt || d.terr chain
  { d with hst := { d.hst with recs := d.hst.recs.map fun x => if x.id = id then { x with done := true, terr := x.terr || bad } else x } }

/-- A read of a punted chain has returned (R311): the carriage rejoins its free list. With the last one the copy is complete, and of a chain
with other references the ring's own ends. -/
def Dev.puntRead (d : Dev) (ring id chain : Nat) : Dev :=
  let why : ReadFor := .punt ring id
  let ended : Bool := !d.reading why
  let hurt := d.dpt.hurt.contains why
  let d := if ended then { d with dpt := { d.dpt with hurt := d.dpt.hurt.filter fun w => w != why } }.puntCopied id chain hurt else d
  let d := if ended ∧ hurt then d.markFault d.tck.now else d
  if d.dpt.paid.contains chain then d.letGo chain (0x0300 + ring)
  else if ended then d.release chain (0x0300 + ring) else d

/-- A fetched punt descriptor's checks (Table 13.4). -/
def puntDescOk (addr ctl : Nat) : Bool :=
  let blen := bits ctl 0 17
  addr % 128 = 0 && bits ctl 17 15 = 0 && blen % 128 = 0 && 256 ≤ blen && blen ≤ 65536

/-- A queued record is written to the posted buffer whose descriptor has been fetched (R308 to R310). -/
def Dev.puntWrite (d : Dev) (r addr ctl : Nat) : Dev :=
  match d.hst.recs.find? (fun x => x.ring == r), d.hst.reads.find? (fun p => p.2.ring == r && !p.2.stale) with
  | some x, some t =>
    if !d.served r ∨ d.posted r = 0 ∨ !x.done then d
    else
      let d := d.endRead t.1
      if !puntDescOk addr ctl then d.ringFail r 0x05
      else
        let room := bits ctl 0 17 - 128
        let n := min x.bytes.length room
        let trunc : Bool := n < x.bytes.length
        let head := d.rd (rHead r)
        let size := d.ringSize r
        let phase := d.rd (HST_PUNT_STATE.PHASE r)
        let wb := phase * 2 ^ 31 + b2n trunc * 2 ^ 30 + b2n x.terr * 2 ^ 29 + (128 + n)
        let d := d.hostWrite 1 addr (d.puntRecord x trunc ++ x.bytes.take n)
        let d := d.hostWrite 1 (d.ringBase r + 16 * (head % size) + 12) (beBytes 4 wb)
        let d := d.wr (rHead r) (head + 1)
        let d := if (head + 1) % size = 0 then d.wr (HST_PUNT_STATE.PHASE r) (1 - phase) else d
        let h := d.hst
        (({ d with hst := { h with recs := h.recs.erase x, wrote := r :: h.wrote.filter (· != r) } }.bump
          (HST_PUNT_PUNT.COUNT r)).evt 0x26 0x20 (some r)).puntFetch r
  | _, _ => d

/-- The oldest record of a ring has outwaited PUNT_WAIT (R311). -/
def Dev.puntExpire (d : Dev) (r : Nat) : Dev :=
  match d.hst.recs.find? fun x => x.ring == r with
  | some x =>
    if d.rd HST_CTRL.PUNT_WAIT < tickSub d.tck.now x.tick then
      { d with hst := { d.hst with recs := d.hst.recs.erase x } }.bump (HST_PUNT_DROP.COUNT r)
    else d
  | none => d

/-! ### Injects (R313 to R316) -/

/-- A normal-mode descriptor (Table 13.6). -/
def injParse (bs : List Byte) : Option InjDesc :=
  let f (o n : Nat) : Nat := ofBe (sliceD 0#8 bs o n)
  let flags := f 10 1
  let len := f 8 2
  let total := len + 16 * (flags % 2)
  if flags / 2 = 0 ∧ f 11 5 = 0 ∧ 14 ≤ total ∧ total ≤ 15996 then
    some { addr := f 0 8, len, prefix_ := flags = 1, metaBytes := sliceD 0#8 bs 16 16, kind := 1, fcsBad := false, pipe := 0,
           slot := 0, source := 0, tick := 0, h := 0 }
  else none

/-- A replay descriptor (Table 13.7). -/
def replayParse (bs : List Byte) : Option InjDesc :=
  let f (o n : Nat) : Nat := ofBe (sliceD 0#8 bs o n)
  let kind := f 10 1
  if kind < 8 ∧ kind % 4 ≠ 3 ∧ f 11 1 < 64 ∧ f 12 2 < 504 ∧ f 22 2 = 0 ∧ 18 ≤ f 8 2 ∧ f 8 2 ≤ 16000 then
    some { addr := f 0 8, len := f 8 2, prefix_ := false, metaBytes := [], kind := kind % 4, fcsBad := 4 ≤ kind, pipe := f 11 1,
           slot := f 12 2, source := f 14 2, tick := f 16 6, h := f 24 8 }
  else none

/-- A place of a replay entry comes after another (R7, R316). -/
def placeAfter (a b : Nat) : Bool :=
  if a / 32768 = b / 32768 then b % 32768 < a % 32768 else tickFuture (a / 32768) (b / 32768)

/-- The first element of a list that a test names, replaced; or taken out. -/
def replaceFirst {α : Type} (p : α → Bool) (y : Option α) : List α → List α
  | [] => []
  | x :: r => if p x then y.toList ++ r else x :: replaceFirst p y r

/-- The descriptors of an inject ring on their way become those a function gives. -/
def Dev.setInj (d : Dev) (n : Nat) (l : List InjStage) : Dev := { d with hst := { d.hst with inj := SMap.set [] d.hst.inj n l } }

/-- An inject or replay descriptor arrives and is checked (R313, R316, R317); one of a ring that is no longer served is dropped. -/
def Dev.injDescriptor (d : Dev) (tag : Nat) (bs : List Byte) : Dev :=
  match SMap.find d.hst.reads tag with
  | none => d.unexpected
  | some x =>
    if x.stale then d.endRead tag
    else if x.frame ∨ x.ring < 64 then d
    else
      let d := d.endRead tag
      let n := x.ring - 64
      let l := SMap.get [] d.hst.inj n
      let replay := d.on (HST_INJ_CFG.REPLAY n)
      if !d.injServed n then d.setInj n (replaceFirst (· = .fetch) none l)
      else match if replay then replayParse bs else injParse bs with
      | none => d.ringFail x.ring 0x05
      | some y =>
        let place := y.tick * 32768 + y.pipe * 512 + y.slot
        let behind : Bool := match SMap.find d.hst.order n with
          | some p => !placeAfter place p
          | none => false
        if replay ∧ behind then d.ringFail x.ring 0x05
        else
          let d := if replay then { d with hst := { d.hst with order := SMap.ins d.hst.order n place } } else d
          (d.setInj n (replaceFirst (· = .fetch) (some (.wait y)) l)).injFetchAll

/-- The bytes that a tag's request brought are put into the frame they belong to; a frame whose parts have all arrived is staged. -/
def fillStage (tag now : Nat) (bs : List Byte) : InjStage → InjStage
  | .read x parts =>
    let ps := parts.map fun p => if p.tag = some tag then { p with data := some (fitBytes bs p.len) } else p
    if ps.all fun p => p.data.isSome then
      .staged x (x.metaBytes.take (16 * b2n x.prefix_) ++ ps.flatMap fun p => p.data.getD []) now
    else .read x ps
  | s => s

/-- The bytes of a frame's read have arrived (R313, R319). -/
def Dev.injFrame (d : Dev) (tag : Nat) (bs : List Byte) : Dev :=
  match SMap.find d.hst.reads tag with
  | none => d.unexpected
  | some x =>
    if x.stale then d.endRead tag
    else if !x.frame then d
    else
      let n := x.ring - 64
      ((d.endRead tag).setInj n ((SMap.get [] d.hst.inj n).map (fillStage tag d.tck.now bs))).injFetchAll

/-- The next wholly staged frame of an inject ring, if the ring is served. -/
def Dev.injHead (d : Dev) (n : Nat) : Option (InjDesc × List Byte × Nat) :=
  if !d.injServed n then none
  else match SMap.get [] d.hst.inj n with
    | .staged x bs t :: _ => some (x, bs, t)
    | _ => none

/-- The first staged frame of an inject ring leaves it. -/
def Dev.injTake (d : Dev) (n : Nat) : Dev := d.setInj n ((SMap.get [] d.hst.inj n).drop 1)

/-- A descriptor is consumed (R315). -/
def Dev.injConsume (d : Dev) (n : Nat) : Dev :=
  let r := 64 + n
  let h := d.hst
  ({ d with hst := { h with wrote := r :: h.wrote.filter (· != r) } }.wr (rHead r) (d.rd (rHead r) + 1)).injFetchAll

/-- The head write-backs and vectors of a tick's rings, at its end (R312, R315). -/
def Dev.ringIrqs (d : Dev) : Dev :=
  let l := (List.range 80).filter d.hst.wrote.contains
  l.foldl (fun (d : Dev) r =>
    if !d.hst.pf1.masters then d
    else
      let wb := 4 * d.rd (HST_INJ_WB_LO.ADDR (r - 64)) + 2 ^ 32 * d.rd (HST_INJ_WB_HI.ADDR (r - 64))
      let d := if r < 64 then d else d.hostWrite 1 wb (beBytes 4 (d.rd (rHead r)))
      if d.on (rIrqEn r) then d.sendVec 1 (d.rd (rVec r)) else d) { d with hst := { d.hst with wrote := [] } }

/-! ### Bus Master Enable, resets and the link (R305, R318, R322, R323) -/

/-- Bus Master Enable of PF1 is cleared, or PF1 enters D3hot: running rings halt (R318). -/
def Dev.haltRings (d : Dev) : Dev :=
  let reads := d.hst.reads.map fun p => (p.1, { p.2 with stale := true })
  let d := { d with hst := { d.hst with reads } }
  ((List.range 80).foldl (fun (d : Dev) r =>
    if d.rd (rState r) = ringRun then (d.ringDiscard r).wr (rState r) ringHalt else d) d).wr HST_STATUS.BME_HALT 1

/-- BUS_MASTER_DISABLE. -/
def Dev.busMasterOff (d : Dev) : Dev :=
  if d.hst.pf1.bme then ({ d with hst := { d.hst with pf1 := { d.hst.pf1 with bme := false } } }).haltRings else d

/-- Boot has completed (R352, R354); until then configuration requests complete with Request Retry Status. -/
def Dev.booted (d : Dev) : Bool := d.on GLB_BOOT_STATUS.READY || d.on GLB_BOOT_STATUS.BOOT_ERR

/-- The value of a configuration field (Table 13.1, R306, Table 13.2, R307, R319). Type bits of a memory BAR are PCI's (PRESUMED, log entry
83): bit 2 for 64 bits, bit 3 prefetchable. -/
def Dev.cfgValue (d : Dev) (fn : Nat) (what : CfgField) : Nat :=
  let f := d.func fn
  match what with
  | .deviceId => if fn = 0 then 0x5120 else 0x5121
  | .classCode => if fn = 0 then 0x0B4000 else 0x028000
  | .barSize k => if k = 0 then (if fn = 0 then 2 ^ 26 else 2 ^ 20) else if k = 2 ∧ fn = 0 then 2 ^ 24 else 0
  | .barType k => if k = 0 then 0b0100 else if k = 2 ∧ fn = 0 then 0b1100 else 0
  | .expansionRom => 0
  | .maxPayloadSupported => 2
  | .tag10 => 1
  | .tag14 => 1
  | .timeoutRanges => 0b0111
  | .timeoutDisable => 0
  | .flr => 1
  | .aer => 1
  | .ecrcCap => 1
  | .laneMargining => 1
  | .absent => 0
  | .msixSize => 1023
  | .msixTable => if fn = 0 then 0x2380000 else 0x80000
  | .msixPba => if fn = 0 then 0x23C0000 else 0xC0000
  | .bme => b2n f.bme
  | .d3 => b2n f.d3
  | .msixEnable => b2n f.msixEn
  | .msixMask => b2n f.msixMask
  | .timeout => f.timeout
  | .mps => f.mps
  | .mrrs => f.mrrs
  | .ecrc => f.ecrc

/-- A configuration request (R305, R318, R319, R352). -/
def Dev.configReq (d : Dev) (q : CfgReq) : Dev :=
  if !d.booted then d.emit (.cpl 4 [])
  else
    let v := match q with
      | .read fn what => leBytes 4 (d.cfgValue fn what)
      | _ => []
    let d := d.emit (.cpl 0 v)
    match q with
    | .read _ _ => d
    | .mps fn v => d.setFunc fn { d.func fn with mps := v % 8 }
    | .mrrs fn v => d.setFunc fn { d.func fn with mrrs := v % 8 }
    | .ecrc fn v => d.setFunc fn { d.func fn with ecrc := v % 4 }
    | .bme fn on =>
      if fn ≠ 0 ∧ !on then d.busMasterOff else (d.setFunc fn { d.func fn with bme := on }).msixFlush fn
    | .d3 fn on =>
      let was := (d.func fn).d3
      let d := (d.setFunc fn { d.func fn with d3 := on }).msixFlush fn
      if fn ≠ 0 ∧ on ∧ !was ∧ d.hst.pf1.bme then d.haltRings else d
    | .msix fn en mask => (d.setFunc fn { d.func fn with msixEn := en, msixMask := mask }).msixFlush fn
    | .timeout fn v => d.setFunc fn { d.func fn with timeout := v % 16 }

/-- An FLR of PF1 (R322). -/
def Dev.flr1 (d : Dev) : Dev :=
  let d := (List.range 80).foldl (fun (d : Dev) r => (d.ringDiscard r).wr (rState r) ringDisabled) d
  ({ d with hst := { d.hst with pf1 := Func.reset, arming := [] } }).wr HST_STATUS.FLR 1

/-- An FLR of PF0 (R322). -/
def Dev.flr0 (d : Dev) : Dev :=
  let d := (List.range 16).foldl (fun (d : Dev) k => d.setReg (HST_IRQ_MAP.addr k) 0) d
  let d := (List.range 14).foldl (fun (d : Dev) n =>
    [HST_WIN_NEXT_LO.addr n, HST_WIN_NEXT_HI.addr n, HST_WIN_NEXT_CTL.addr n, HST_WIN_CUR_LO.addr n, HST_WIN_CUR_HI.addr n,
      HST_WIN_CUR_CTL.addr n].foldl (fun (d : Dev) a => d.setReg a 0) d) d
  ({ d with hst := { d.hst with pf0 := Func.reset } }).wr HST_STATUS.FLR 1

/-- The link goes down. -/
def Dev.linkDown (d : Dev) : Dev :=
  d.wrs [(HST_STATUS.LINK_UP, 0), (HST_STATUS.SPEED, 0), (HST_STATUS.WIDTH, 0), (HST_STATUS.FLIT, 0)]

/-- A hot reset, or PERST_N asserted (R323). -/
def Dev.hostReset (d : Dev) (perst : Bool) : Dev :=
  let d := d.flr0.flr1.linkDown
  { d with hst := { d.hst with perst := d.hst.perst || perst, training := !(d.hst.perst || perst) && d.hst.cal } }

/-- DL_Down (R323). -/
def Dev.pcieLost (d : Dev) : Dev :=
  if ¬ d.on HST_STATUS.LINK_UP then d
  else ((d.hostReset false).wr HST_STATUS.LINK_LOSS 1).fault 0x310 contained 0x0A

/-- PERST_N is deasserted (R352): training starts once the lanes are calibrated. -/
def Dev.perstOff (d : Dev) : Dev := { d with hst := { d.hst with perst := false, training := d.hst.cal } }

/-- Training completes (Table 13.13). -/
def Dev.pcieTrained (d : Dev) (speed width : Nat) (flit : Bool) : Dev :=
  if !d.hst.training then d
  else
    { d with hst := { d.hst with training := false } }.wrs
      [(HST_STATUS.LINK_UP, 1), (HST_STATUS.SPEED, speed), (HST_STATUS.WIDTH, width), (HST_STATUS.FLIT, b2n flit)]

/-- The fault collector revokes a ring's holder (R320): 0x0300 + n a punt ring, 0x0340 + n an inject ring. -/
def Dev.ringRevoke (d : Dev) (h : Nat) : Dev :=
  if 0x0300 ≤ h ∧ h < 0x0350 then d.ringFail (h - 0x0300) 0x07 else d

end Sys2Proof.Machine
end

