-- ==== Sys2Proof/Machine/Cge.lean ====
section
/-! DEFINITION. The cage sideband and cage slots (R324 to R328), and the host windows and CXL port loss (R321, R336 to R338). -/

namespace Sys2Proof.Machine

/-! ### Cages -/

def Dev.cage (d : Dev) (c : Nat) : Cage := SMap.get Cage.reset d.cge.cages c
def Dev.setCage (d : Dev) (c : Nat) (v : Cage) : Dev := { d with cge := { d.cge with cages := SMap.set Cage.reset d.cge.cages c v } }

/-- An indicator's level (R326). -/
def Dev.indicator (d : Dev) (v : Nat) : Nat := if v = 1 then 1 else if v = 2 then bits d.tck.now 20 1 else 0

/-- The output byte of a cage (Table 13.10, R326); `rst` frames of reset are left. -/
def Dev.cageOut (d : Dev) (c rst : Nat) : Nat :=
  let pcc := d.on (CGE_SLOT_CTL.PCC c)
  let rstN := !(d.on (CGE_SLOT_CTL.RESET c) || pcc || 0 < rst)
  b2n rstN * 128 + d.rd (CGE_SLOT_CTL.LPMODE c) * 64 + b2n (!pcc) * 32 + d.indicator (d.rd (CGE_SLOT_CTL.PIC c)) * 16 +
    d.indicator (d.rd (CGE_SLOT_CTL.AIC c)) * 8

/-- A write of CGE_SLOTc_CTL (R326, R327): PCC = 0 is ignored while PWRFLT_N reads 0. -/
def Dev.slotControl (d : Dev) (c v : Nat) : Dev :=
  let pcc := if d.on (CGE_SLOT_STS.PFLT c) then d.rd (CGE_SLOT_CTL.PCC c) else bits v 10 1
  let d := d.wrs [(CGE_SLOT_CTL.ABP_EN c, bits v 0 1), (CGE_SLOT_CTL.PFD_EN c, bits v 1 1), (CGE_SLOT_CTL.PDC_EN c, bits v 2 1),
    (CGE_SLOT_CTL.MIC_EN c, bits v 3 1), (CGE_SLOT_CTL.CC_EN c, bits v 4 1), (CGE_SLOT_CTL.AIC c, bits v 6 2),
    (CGE_SLOT_CTL.PIC c, bits v 8 2), (CGE_SLOT_CTL.PCC c, pcc), (CGE_SLOT_CTL.RESET c, bits v 11 1), (CGE_SLOT_CTL.LPMODE c, bits v 12 1)]
  d.setCage c { d.cage c with cc := (d.cage c).cc ||| 1 }

/-- One cage at a frame (R324): the pins take the bits of the previous frame, a control write carried by it is applied, and the
outputs of this frame are formed. -/
def Dev.cageFrame (d : Dev) (c : Nat) : Dev :=
  let s := d.cage c
  let d := if bit s.cc 1 then d.wr (CGE_SLOT_STS.CC c) 1 else d
  let on : Bool := !d.on (CGE_SLOT_CTL.PCC c)
  let rst := if on ∧ ¬ bit s.out 5 then d.rd CGE_CFG.RSTHOLD else s.rst - 1
  let pins := s.out
  (d.wr (CGE_SLOT_STS.PWR c) (bits pins 5 1)).setCage c
    { s with pins, out := d.cageOut c rst, rst, cc := if bit s.cc 0 then 2 else 0 }

/-- The frame of one chain (R325): input bytes with a bad marker are counted and ignored. -/
def Dev.chainFrame (d : Dev) (ch : Nat) (inputs : List Nat) : Dev :=
  let cs := (List.range 16).map (16 * ch + ·)
  let errF : Field := if ch = 0 then CGE_STATUS.CHAIN0_ERR else CGE_STATUS.CHAIN1_ERR
  let ok := cs.all fun c => bits (inputs.getD c 0) 0 2 = 2
  let d := cs.foldl Dev.cageFrame d
  let d := d.emit (.sideband ch (cs.map fun c => BitVec.ofNat 8 (d.cage c).out))
  if ok then
    let good := SMap.get 0 d.cge.good ch + 1
    let d := { d with cge := { d.cge with good := SMap.set 0 d.cge.good ch good, bad := SMap.erase d.cge.bad ch } }
    let d := if 4 ≤ good then d.wr errF 0 else d
    cs.foldl (fun (d : Dev) c => d.setCage c { d.cage c with cap := some (inputs.getD c 0 % 256) }) d
  else
    let bad := SMap.get 0 d.cge.bad ch + 1
    let d := { d with cge := { d.cge with bad := SMap.set 0 d.cge.bad ch bad, good := SMap.erase d.cge.good ch } }
    let d := d.bump (if ch = 0 then CGE_CHAIN_ERR0.COUNT else CGE_CHAIN_ERR1.COUNT)
    if bad = 2 then (d.wr errF 1).fault 0x312 contained 0x06 else d

/-- A sideband frame, at a tick whose number is a multiple of 8, with the 32 input bytes (R324). -/
def Dev.sidebandFrame (d : Dev) (inputs : List Nat) : Dev :=
  if d.tck.now % 8 = 0 then (d.chainFrame 0 inputs).chainFrame 1 inputs else d

/-- A cage is removed (R328): its ports go down at this boundary, its sessions end (R270), and what runs on its bus ends with 0x02. -/
def Dev.cageRemoved (d : Dev) (c : Nat) : Dev :=
  let d := d.wrs [(CGE_SLOT_STS.PDS c, 0), (CGE_SLOT_STS.PDC c, 1)]
  let d := (d.cageUnready c).cageSessions c
  let d := { d with wan := { d.wan with gone := c :: d.wan.gone } }
  let d := ((List.range 8).map (8 * c + ·)).foldl Dev.linkStep d
  let d := { d with wan := { d.wan with gone := d.wan.gone.filter (· != c) } }.busGone c
  if d.on CGE_CFG.AUTO_OFF then d.wrs [(CGE_SLOT_CTL.PCC c, 1), (CGE_SLOT_CTL.RESET c, 1), (CGE_SLOT_CTL.LPMODE c, 1)] else d

/-- Presence of one cage (R328); a power fault keeps PCC at 1 (R327). A navigator begins with the module's state. -/
def Dev.cagePresence (d : Dev) (c b : Nat) : Dev :=
  let s := d.cage c
  if bit b 7 then
    let d := d.setCage c { s with present := 0 }
    if d.on (CGE_SLOT_STS.PDS c) then d.cageRemoved c else d
  else
    let n := s.present + 1
    let d := d.setCage c { s with present := n }
    if ¬ d.on (CGE_SLOT_STS.PDS c) ∧ max 1 (d.rd CGE_CFG.PDEB) ≤ n then
      let d := d.wrs [(CGE_SLOT_STS.PDS c, 1), (CGE_SLOT_STS.PDC c, 1)]
      let d := if d.on CGE_CFG.AUTO_ON ∧ bit b 5 then d.wr (CGE_SLOT_CTL.PCC c) 0 else d
      d.busAdd (.nav c 0)
    else d

/-- Power fault, attention button and interrupt of one cage (R327). -/
def Dev.cageEvents (d : Dev) (c b : Nat) : Dev :=
  let s := d.cage c
  let d := if bit b 5 then d.wr (CGE_SLOT_STS.PFLT c) 0
    else d.wrs [(CGE_SLOT_STS.PFLT c, 1), (CGE_SLOT_STS.PFD c, 1), (CGE_SLOT_CTL.PCC c, 1), (CGE_SLOT_CTL.RESET c, 1)]
  let low := if bit b 4 then 0 else s.low + 1
  let high := if bit b 4 then s.high + 1 else 0
  let press : Bool := s.armed && 2 ≤ low
  let armed := if press then false else s.armed || 2 ≤ high
  let d := if press then d.wr (CGE_SLOT_STS.ABP c) 1 else d
  let d := if bit b 6 ≠ bit s.inp 6 then d.wr (CGE_SLOT_STS.MIC c) 1 else d
  (d.wr (CGE_SLOT_STS.MINT c) (1 - bits b 6 1)).setCage c { s with low, high, armed, inp := b }

/-- The inputs of the latest frame take effect, at the boundary of tick 8k + 6 (R324); the boundary itself does so ahead of the link
states. -/
def Dev.sidebandApply (d : Dev) : Dev :=
  if d.tck.now % 8 ≠ 6 then d
  else (List.range 32).foldl (fun (d : Dev) c =>
    match (d.cage c).cap with
    | some b => ((d.setCage c { d.cage c with cap := none }).cageEvents c b).cagePresence c b
    | none => d) d

/-- CGE_STATUS.EVT (R326). -/
def Dev.cageEvt (d : Dev) : Dev :=
  let on := (List.range 32).any fun c =>
    bits (d.reg (CGE_SLOT_CTL.addr c)).toNat 0 5 &&& bits (d.reg (CGE_SLOT_STS.addr c)).toNat 0 5 ≠ 0
  d.wr CGE_STATUS.EVT (b2n on)

/-! ### Windows (R321) -/

/-- The CXL address of a BAR2 offset through its window, with EN and WR of the copies in force. -/
def Dev.bar2Window (d : Dev) (off : Nat) : Nat × Bool × Bool :=
  let n := off / 2 ^ 20
  (d.rd (HST_WIN_CUR_LO.ADDR n) * 2 ^ 20 + d.rd (HST_WIN_CUR_HI.ADDR n) * 2 ^ 32 + off % 2 ^ 20,
    n < 14 && d.on (HST_WIN_CUR_CTL.EN n), d.on (HST_WIN_CUR_CTL.WR n))

/-- A read TLP through a window: sent to its port, or completed with Unsupported Request or Completer Abort (R321, R338). -/
def Dev.winRead (d : Dev) (off len : Nat) : Dev :=
  let w := d.bar2Window off
  if !w.2.1 then d.emit (.cpl 1 [])
  else match d.cxlPort w.1 with
    | some p =>
      if d.cxlUp p then
        let r : CxlRd := { port := p, addr := w.1, len, tick := d.tck.now, who := 0 }
        { d with cxl := { d.cxl with reads := d.cxl.reads ++ [r] } }.cxlIssue p w.1 len
      else d.emit (.cpl 2 [])
    | none => d.emit (.cpl 2 [])

/-- A write TLP through a window: applied to CXL memory, or discarded and counted (R321, R338). -/
def Dev.winWrite (d : Dev) (off : Nat) (bs : List Byte) : Dev :=
  let w := d.bar2Window off
  if !(w.2.1 && w.2.2) then (d.bump HST_WIN_DROP.COUNT).emit (.aer 0)
  else match d.cxlPort w.1 with
    | some p => if d.cxlUp p then d.emit (.cxlWrite p w.1 bs) else d.bump (CXL_PORT_WDROP.COUNT p)
    | none => (d.bump HST_WIN_DROP.COUNT).emit (.aer 0)

/-- A commit at its boundary: NEXT becomes CUR (R321). -/
def Dev.winApply (d : Dev) : Dev :=
  if ¬ d.on HST_WIN_COMMIT.PENDING then d
  else
    ((List.range 14).foldl (fun (d : Dev) n =>
      ((d.setReg (HST_WIN_CUR_LO.addr n) (d.reg (HST_WIN_NEXT_LO.addr n))).setReg (HST_WIN_CUR_HI.addr n)
        (d.reg (HST_WIN_NEXT_HI.addr n))).setReg (HST_WIN_CUR_CTL.addr n) (d.reg (HST_WIN_NEXT_CTL.addr n))) d).wr
      HST_WIN_COMMIT.PENDING 0

/-! ### CXL reads for windows and staging, and port loss (R336 to R338) -/

/-- A host window's completion (R336). -/
def winCpl (poison err : Bool) (data : List Byte) : Emit :=
  if err then .cpl 2 [] else if poison then .cpl 3 data else .cpl 0 data

/-- A read of a host window ends (R336): its data, poisoned data, or an error. -/
def Dev.winReturn (d : Dev) (port : Nat) (poison err : Bool) (ns : Nat) (data : List Byte) : Dev :=
  match d.cxl.reads.find? fun r => r.port = port && r.who = 0 with
  | none => d
  | some r =>
    let d := { d with cxl := { d.cxl with reads := d.cxl.reads.erase r } }.cxlLat port ns
    let d := if poison || err then d.cxlError port else d
    d.emit (winCpl poison err (fitBytes data r.len))

/-- Reads outstanding at a port for tier-2 lookups, by tick of issue. -/
def Dev.t2Outstanding (d : Dev) (port : Nat) : List Nat :=
  (d.lku.layby.filterMap fun p => match p.2.st with
    | .walking w => if w.port = port then some w.tick else none
    | .done _ _ => none) ++ (d.lku.t2late.filterMap fun w => if w.port = port then some w.tick else none)

/-- A read outstanding CXL_TIMEOUT ticks has timed out: counted, and the port is lost (R337). -/
def Dev.cxlTimedOut (d : Dev) (port : Nat) : Dev :=
  let t := max 1 (d.rd CXL_TIMEOUT.TICKS)
  let ticks := d.t2Outstanding port ++ (d.cxl.reads.filter fun r => r.port == port).map CxlRd.tick
  if ticks.any (fun x => t ≤ tickSub d.tck.now x) then (d.bump (CXL_PORT_TO.COUNT port)).cxlLose port 0x05 else d

/-- Ports lost enter DOWN at the boundary (R338): outstanding reads end as errors, and one fault is logged for each. Staging
reads that end so are named in the second component. -/
def Dev.cxlLosses (d : Dev) : Dev × Nat :=
  d.cxl.lost.foldl (fun (p : Dev × Nat) x =>
    let d := p.1
    let mine := d.cxl.reads.filter fun r => r.port == x.1
    let d := { d with cxl := { d.cxl with reads := d.cxl.reads.filter (fun r => r.port != x.1), next := SMap.erase d.cxl.next x.1 } }
    let d := (mine.filter fun r => r.who == 0).foldl (fun (d : Dev) _ => d.emit (.cpl 2 [])) d
    let d := d.wrs [(CXL_PORT_ST.STATE x.1, 0), (CXL_PORT_ST.FLIT x.1, 0), (CXL_PORT_ST.SPEED x.1, 0), (CXL_PORT_ST.WIDTH x.1, 0),
      (CXL_STATUS.PORT_CHG, 1)]
    (((d.commit).t2PortLost x.1).fault (0x300 + x.1) contained x.2, p.2 + (mine.filter fun r => r.who == 1).length))
    ({ d with cxl := { d.cxl with lost := [] } }, 0)

end Sys2Proof.Machine
end

