-- ==== Sys2Proof/Machine/Cvy.lean ====
section
/-! DEFINITION. The convoy (chapter 15): messages and their routes (R341 to R344), hop measurement and tick alignment (R345 to
R347), enumeration (R348, R349), announced actions as the link carries them (R350), and the announce lead (R351). -/

namespace Sys2Proof.Machine

abbrev cvuPort : Nat := 0
abbrev dstLocal : Nat := 0
abbrev dstAll : Nat := 0xFFFF

/-- The tick alignment's fault source (Table 17.1). -/
abbrev srcConvoy : Nat := 0x323

/-- This device is the root (R346). -/
def Dev.isRoot (d : Dev) : Bool := d.on GLB_BOOT_STATUS.ROOT

/-- Own convoy address. -/
def Dev.cvyAddr (d : Dev) : Nat := d.rd CVY_ADDR.ADDR

/-! ### Messages -/

/-- The bytes of a message after its type byte (Table 15.2): header, payload padded with zeros to 8 × LEN - 4 bytes, CRC-32C. -/
def cvyBytes (mtype dst src seq len : Nat) (payload : List Byte) : List Byte :=
  let body := beBytes 1 mtype ++ beBytes 2 dst ++ beBytes 2 src ++ beBytes 1 ((len - 1) * 8) ++ beBytes 1 seq ++
    fitBytes payload (8 * len - 4)
  body ++ beBytes 4 (crc32c body)

/-- The present instant, in 1/4,200 ns: the slot instant of the next slot. -/
def Dev.instant (d : Dev) : Nat := slotInstant d.tck.now d.tck.slot

/-- How long it is until an instant (R7); 0 when it has come. -/
def instLeft (now e : Nat) : Nat := if instReached e now then 0 else (e + instMod - now % instMod) % instMod

/-- A message put on a port in use (R343): a priority message waits only for one in progress and pushes the normal ones back; a
normal one takes a place of the queue of 64, or is discarded and counted. -/
def Dev.cvyPut (d : Dev) (port : Nat) (pri : Bool) (mtype dst src seq len : Nat) (payload : List Byte) : Dev :=
  if !d.on (CVY_PORT_CTL.EN port) then d
  else
    let now := d.instant
    let time := 10752 * (len + 1)
    let q := (SMap.get [] d.cvy.tx port).filter fun e => 0 < instLeft now e.2
    let pend := instLeft now (SMap.get now d.cvy.pri port)
    let bs := cvyBytes mtype dst src seq len payload
    if pri then
      let start := (now + pend) % instMod
      let q := q.map fun e => (if 0 < instLeft now e.1 then (e.1 + time) % instMod else e.1, (e.2 + time) % instMod)
      let d := { d with cvy := { d.cvy with tx := SMap.set [] d.cvy.tx port q, pri := SMap.ins d.cvy.pri port ((start + time) % instMod) } }
      ((d.bump (CVY_PORT_TX.COUNT port)).evt 0x34 0x20 (some port)).emit (.convoy port start bs)
    else if 64 ≤ q.countP (fun e => 0 < instLeft now e.1) then d.bump (CVY_PORT_DROP.COUNT port)
    else
      let start := (now + (q.map fun e => instLeft now e.2).foldl max pend) % instMod
      let d := { d with cvy := { d.cvy with tx := SMap.set [] d.cvy.tx port (q ++ [(start, (start + time) % instMod)]) } }
      ((d.bump (CVY_PORT_TX.COUNT port)).evt 0x34 0x20 (some port)).emit (.convoy port start bs)

/-- A message this device originates: its number is the next SEQ. -/
def Dev.cvySend (d : Dev) (ports : List Nat) (pri : Bool) (mtype dst len : Nat) (payload : List Byte) : Dev :=
  let seq := d.cvy.seq
  let d := { d with cvy := { d.cvy with seq := (seq + 1) % 256 } }
  ports.foldl (fun d p => d.cvyPut p pri mtype dst d.cvyAddr seq len payload) d

/-- Ports in use with block lock. -/
def Dev.cvyUp (d : Dev) : List Nat := (List.range 3).filter fun p => d.on (CVY_PORT_CTL.EN p) && d.on (CVY_PORT_ST.LOCK p)

/-- Where an addressed message goes (R344): consumed here, or the port it leaves on, or nowhere. -/
inductive CvyRoute where
  | here
  | out (port : Nat)
  | lost
  deriving DecidableEq, Repr

def Dev.cvyRoute (d : Dev) (dst : Nat) : CvyRoute :=
  let a := d.cvyAddr
  let s0 := d.rd CVY_TREE0.SIZE0
  let s1 := d.rd CVY_TREE0.SIZE1
  if dst = dstLocal then .here
  else if a ≠ 0 ∧ dst = a then .here
  else if a ≠ 0 ∧ a < dst ∧ dst ≤ a + s0 then .out 1
  else if a ≠ 0 ∧ a + s0 < dst ∧ dst ≤ a + s0 + s1 then .out 2
  else if d.isRoot then .lost else .out cvuPort

/-- A received message is looked at only on a port in use, and by a root not on its CVU (R347). It counts in RX. -/
def Dev.cvyRx (d : Dev) (port : Nat) (f : Dev → Dev) : Dev :=
  if !d.on (CVY_PORT_CTL.EN port) || (port == cvuPort && d.isRoot) then d else f ((d.bump (CVY_PORT_RX.COUNT port)).evt 0x34 0x21 (some port))

/-- An addressed or broadcast message other than ACTION (R344): forwarded, and consumed where it is for this device. -/
def Dev.cvyCarry (d : Dev) (port mtype dst src seq : Nat) (payload : List Byte) (consume : Dev → Dev) : Dev :=
  let len := ceilDiv (payload.length + 4) 8
  if dst = dstAll then
    consume ((d.cvyUp.filter (· != port)).foldl (fun d p => d.cvyPut p false mtype dst src seq len payload) d)
  else match d.cvyRoute dst with
    | .here => consume d
    | .out p => d.cvyPut p false mtype dst src seq len payload
    | .lost => d.bump CVY_UNROUTE.COUNT

/-- A bad message (R341, R342, Table 15.3): 0 failed CRC, cut short or a reserved control block; 1 a reserved MTYPE or a wrong
LEN; 2 an FWR message of LEN 1 or with a reserved OP (R420), which is carried on like any other. -/
def Dev.cvyBad (d : Dev) (port kind dst src seq : Nat) (payload : List Byte) : Dev :=
  if !d.on (CVY_PORT_CTL.EN port) || (port == cvuPort && d.isRoot) then d
  else if kind = 0 then d.bump (CVY_PORT_CRC.COUNT port)
  else if kind = 1 then d.bump CVY_MSG_BAD.COUNT
  else d.cvyRx port fun d => d.cvyCarry port 0x0A dst src seq payload fun d => d.bump FWU_RX_BAD.COUNT

/-! ### Hops (R345) -/

/-- Time from `b` to `a` in tick time, which wraps with the tick number (R7). -/
def tickTimeSub (a b : Nat) : Nat := (a + tickTimeMod - b % tickTimeMod) % tickTimeMod

/-- A hop measurement starts: DREQ leaves on CVU at tick or provisional time `t1`. -/
def Dev.hopMeasure (d : Dev) (t1 : Nat) : Dev :=
  if d.isRoot || !d.cvy.cal then d else d.cvySend [cvuPort] true 0x02 dstLocal 2 (beBytes 8 t1)

/-- DREQ on a downstream port, stamped `t2`, is answered by DRESP leaving at `t3`. -/
def Dev.dreq (d : Dev) (port t1 t2 t3 : Nat) : Dev :=
  d.cvyRx port fun d => if port = 0 then d
    else d.cvySend [port] true 0x03 dstLocal 4 (beBytes 8 t1 ++ beBytes 8 t2 ++ beBytes 8 t3)

/-- DRESP on CVU, stamped `t4`: CVY_PORT0_HOP takes the mean of the last 16 measurements once 16 exist. -/
def Dev.dresp (d : Dev) (port t1 t2 t3 t4 : Nat) : Dev :=
  d.cvyRx port fun d => if port ≠ 0 then d
    else
      let hops := ((tickTimeSub t4 t1 - tickTimeSub t3 t2) :: d.cvy.hops).take 16
      let d := { d with cvy := { d.cvy with hops } }
      if hops.length = 16 then (d.wr (CVY_PORT_HOP.HOP 0) (min 0xFFFF (hops.sum / 32))).wr (CVY_PORT_ST.MEASURED 0) 1 else d

/-! ### Alignment (R346, R347) -/

/-- The start of the size phase (R348): at the first lock, or at RECOUNT. -/
def Dev.sizeStart (d : Dev) : Dev :=
  let d := { d with cvy := { d.cvy with sizing := some d.tck.now, entered := true, sent := false, kids := [], absent := [] } }
  (d.wr (CVY_PORT_ST.PRESENT 1) 0).wr (CVY_PORT_ST.PRESENT 2) 0

/-- LOCKED sets; the first lock starts the size phase. -/
def Dev.cvyLock (d : Dev) : Dev :=
  let d := (d.wr TCK_STATUS.LOCKED 1).wr CVY_STATUS.STATE 1
  if d.cvy.entered then d else d.sizeStart

/-- LOCKED clears and the device holds over; a device without a reference yet stays so. -/
def Dev.cvyUnlock (d : Dev) : Dev :=
  let d := (d.wr TCK_STATUS.LOCKED 0)
  let d := { d with cvy := { d.cvy with good := 0 } }
  if d.rd CVY_STATUS.STATE = 1 then d.wr CVY_STATUS.STATE 2 else d

/-- The end of step 2 (R346, R352): the root's tick time starts at 0 and is LOCKED; a member's provisional base runs. -/
def Dev.cvyCalibrated (d : Dev) : Dev :=
  let d := { d with cvy := { d.cvy with cal := true } }
  if d.isRoot then { d with cvy := { d.cvy with loaded := true } }.cvyLock else d

/-- The offset as CVY_OFFSET shows it: signed 32 bits. -/
def Dev.showOffset (d : Dev) (o : Int) : Dev := d.wr CVY_OFFSET.O (ofInt 32 o)

/-- A usable SYNC (R346): its departure time, its arrival in tick time; the first one loads the tick count. -/
def Dev.sync (d : Dev) (port tdep tarr : Nat) : Dev :=
  d.cvyRx port fun d =>
    if port ≠ 0 ∨ ¬ d.on (CVY_PORT_ST.MEASURED 0) ∨ d.cvy.stuck then d
    else
      let at_ := (tdep + d.rd (CVY_PORT_HOP.HOP 0)) % tickTimeMod
      if !d.cvy.loaded then
        let tck := { d.tck with now := at_ / 1536 % tickMod }
        let cvy := { d.cvy with loaded := true, good := 1, lastSync := tck.now }
        { d with tck, cvy, hlm := { d.hlm with kicked := tck.now } }.showOffset 0
      else
        let u := tickTimeSub at_ tarr
        let o : Int := if u < tickTimeMod / 2 then u else (u : Int) - tickTimeMod
        let d := d.showOffset o
        if d.rd CVY_STATUS.STATE = 2 ∧ 4000000 < o.natAbs then
          let d := { d with cvy := { d.cvy with stuck := true } }
          (d.wr CVY_STATUS.ALIGN_ERR 1).fault srcConvoy contained 0x0F
        else
          let good := if o.natAbs ≤ 8 then min 16 (d.cvy.good + 1) else 0
          let d := { d with cvy := { d.cvy with good, lastSync := d.tck.now } }
          if 32 < o.natAbs then d.cvyUnlock
          else if good = 16 ∧ ¬ d.on TCK_STATUS.LOCKED then d.cvyLock else d

/-- A locked device sends SYNC downstream at every sixteenth tick, its start block leaving at tick time `tdep`. -/
def Dev.syncSend (d : Dev) (tdep : Nat) : Dev :=
  if d.on TCK_STATUS.LOCKED && d.tck.running && d.tck.now % 16 = 0 then
    d.cvySend [1, 2] true 0x01 dstLocal 3 (beBytes 6 d.tck.now ++ beBytes 8 tdep)
  else d

/-- 64 ticks without a good SYNC. -/
def Dev.syncTimeout (d : Dev) : Dev :=
  if !d.isRoot && d.on TCK_STATUS.LOCKED && 64 ≤ tickSub d.tck.now d.cvy.lastSync then d.cvyUnlock else d

/-- A convoy port gains block lock. -/
def Dev.cvyBlockLock (d : Dev) (port : Nat) : Dev :=
  let d := d.wr (CVY_PORT_ST.LOCK port) 1
  if port = 0 ∧ d.isRoot then (d.wr CVY_STATUS.ROOT_ERR 1).fault srcConvoy contained 0x0F else d

/-- A convoy port loses block lock. -/
def Dev.cvyBlockLoss (d : Dev) (port : Nat) : Dev :=
  let d := d.wr (CVY_PORT_ST.LOCK port) 0
  if port = 0 ∧ ¬ d.isRoot then d.cvyUnlock else d

/-- Block lock is reacquired and the hop measured again (R345, Table 15.9). -/
def Dev.cvyRetrain (d : Dev) (port : Nat) : Dev :=
  let d := (d.cvyBlockLoss port).wr (CVY_PORT_ST.MEASURED port) 0
  if port = 0 then { d with cvy := { d.cvy with hops := [] } } else d

/-! ### The announce lead (R351) -/

/-- KMIN for a height and a largest hop in 0.25 ns: in units of 0.05 ns, 12.8 ns is 256 and a tick 7,680. -/
def kMin (height hopmax : Nat) : Nat := 3 + ceilDiv (2 * height * (5 * hopmax + 256) + 256) 7680

/-- The root forms the K in force, and announces it by KSET if it changed (R351). -/
def Dev.kUpdate (d : Dev) : Dev :=
  let km := min 4095 (kMin (d.rd CVY_TREE1.HEIGHT) (d.rd CVY_TREE1.HOPMAX))
  let kc := max 2 (d.rd CVY_CTRL.K)
  let k := max kc km
  let old := d.rd CVY_K.K
  let d := (d.wr CVY_K.K k).wr CVY_K.KMIN km
  let d := if kc < km then d.wr CVY_STATUS.K_RAISED 1 else d
  if k ≠ old then d.cvySend d.cvyUp false 0x06 dstAll 1 (beBytes 2 k) else d

/-- CVY_CTRL.K takes effect at a boundary (R351): only at a root that has its tree. -/
def Dev.kApply (d : Dev) : Dev := if d.isRoot && d.on CVY_STATUS.ENUM_DONE then d.kUpdate else d

/-- KSET: the K in force, shown and passed on. -/
def Dev.kset (d : Dev) (port src seq k : Nat) : Dev :=
  d.cvyRx port fun d => d.cvyCarry port 0x06 dstAll src seq (beBytes 2 k) fun d => d.wr CVY_K.K k

/-! ### Enumeration (R348, R349) -/

/-- ASSIGN acted on: the address, and the children's. -/
def Dev.assign (d : Dev) (addr k gen : Nat) : Dev :=
  let d := { d with cvy := { d.cvy with assigned := true } }.wrs [(CVY_ADDR.ADDR, addr), (CVY_ADDR.GEN, gen), (CVY_K.K, k), (CVY_STATUS.ENUM_DONE, 1)]
  let msg (d : Dev) (port a : Nat) : Dev := d.cvySend [port] false 0x05 dstLocal 2 (beBytes 2 a ++ beBytes 2 k ++ beBytes 1 gen)
  let c0 := (SMap.find d.cvy.kids 1).map Kid.count
  let d := if c0.isSome then msg d 1 (addr + 1) else d
  if (SMap.find d.cvy.kids 2).isSome then msg d 2 (addr + 1 + c0.getD 0) else d

/-- ASSIGN received on CVU. -/
def Dev.assignRx (d : Dev) (port src addr k gen : Nat) : Dev :=
  d.cvyRx port fun d => if port = 0 then { d with cvy := { d.cvy with parent := src } }.assign addr k gen else d

/-- A SIZE sent on CVU (Table 15.3). -/
def Dev.sizeSend (d : Dev) (count height hopmax : Nat) (late : Bool) : Dev :=
  d.cvySend [cvuPort] false 0x04 dstLocal 2 (beBytes 2 count ++ beBytes 2 height ++ beBytes 2 hopmax ++ beBytes 1 (b2n late) ++
    beBytes 2 (d.rd (CVY_PORT_HOP.HOP 0)))

/-- The end of the size phase: both ports answered or absent. -/
def Dev.sizeDone (d : Dev) : Dev :=
  let known (p : Nat) : Bool := (SMap.find d.cvy.kids p).isSome || d.cvy.absent.contains p
  if d.cvy.sizing.isSome && known 1 && known 2 then
    let ks := d.cvy.kids.map Prod.snd
    let count := min 0xFFFF (1 + (ks.map Kid.count).sum)
    let height := if ks.isEmpty then 0 else 1 + (ks.map Kid.height).foldl max 0
    let own := if d.isRoot then 0 else d.rd (CVY_PORT_HOP.HOP 0)
    let hopmax := max own ((ks.map Kid.hopmax).foldl max 0)
    let size (p : Nat) : Nat := ((SMap.find d.cvy.kids p).map Kid.count).getD 0
    let d := d.wrs [(CVY_TREE0.SIZE0, size 1), (CVY_TREE0.SIZE1, size 2), (CVY_TREE1.HEIGHT, height),
      (CVY_TREE1.HOPMAX, hopmax)]
    let d := { d with cvy := { d.cvy with sizing := none, sent := true } }
    if !d.isRoot then d.sizeSend count height hopmax false
    else if 65534 < count then d.wr CVY_STATUS.ENUM_ERR 1
    else let d := d.kUpdate
      d.assign 0x0001 (d.rd CVY_K.K) ((d.rd CVY_ADDR.GEN + 1) % 256)
  else d

/-- A SIZE from a downstream port, or a late joiner's. -/
def Dev.sizeRx (d : Dev) (port count height hopmax : Nat) (late : Bool) (hop : Nat) : Dev :=
  d.cvyRx port fun d =>
    if port = 0 then d
    else
      let d := (d.wr (CVY_PORT_HOP.HOP port) hop).wr (CVY_PORT_ST.PRESENT port) 1
      if late ∨ d.cvy.sent then
        let d := d.wr CVY_STATUS.LATE_JOIN 1
        if d.isRoot then d else d.sizeSend count height hopmax true
      else { d with cvy := { d.cvy with kids := SMap.ins d.cvy.kids port { count, height, hopmax } } }.sizeDone

/-- WAIT ticks without a SIZE on a downstream port. -/
def Dev.sizeExpire (d : Dev) (port : Nat) : Dev :=
  match d.cvy.sizing with
  | some t =>
    if (port = 1 ∨ port = 2) ∧ (SMap.find d.cvy.kids port).isNone ∧ d.rd CVY_CTRL.WAIT ≤ tickSub d.tck.now t then
      { d with cvy := { d.cvy with absent := d.cvy.absent ++ [port] } }.sizeDone
    else d
  | none => d

/-- RECOUNT received: passed on, and the size phase starts again. -/
def Dev.recount (d : Dev) (port src seq : Nat) : Dev :=
  d.cvyRx port fun d => d.cvyCarry port 0x07 dstAll src seq (beBytes 4 0) Dev.sizeStart

/-- CVY_CTRL.ENUM written at the root: RECOUNT broadcast; the root runs R348 again too. -/
def Dev.enum_ (d : Dev) : Dev :=
  if d.isRoot then (d.cvySend d.cvyUp false 0x07 dstAll 1 (beBytes 4 0)).sizeStart else d

/-! ### Actions and navigator messages (R350) -/

/-- The two copies of an ACTION that this device originates. -/
def Dev.actionSend (d : Dev) (acode s arg : Nat) : Dev :=
  let seq := d.cvy.seq
  let d := { d with cvy := { d.cvy with seq := (seq + 1) % 256 } }
  let payload := beBytes 1 acode ++ beBytes 6 s ++ beBytes 4 arg
  let once (d : Dev) : Dev := d.cvyUp.foldl (fun d p => d.cvyPut p true 0x08 dstAll d.cvyAddr seq 2 payload) d
  once (once d)

/-- An ACTION received: counted, forwarded, and taken if it is the first good copy. -/
def Dev.actionRx (d : Dev) (port src seq acode s arg : Nat) (take : Dev → Dev) : Dev :=
  d.cvyRx port fun d =>
    let payload := beBytes 1 acode ++ beBytes 6 s ++ beBytes 4 arg
    let d := (d.cvyUp.filter (· != port)).foldl (fun d p => d.cvyPut p true 0x08 dstAll src seq 2 payload) d
    let d := d.bump CVY_ACT_RX.COUNT
    if SMap.find d.cvy.taken src = some seq then d
    else
      let d := { d with cvy := { d.cvy with taken := SMap.ins d.cvy.taken src seq } }
      if acode = 0 ∨ 4 ≤ acode then d.bump CVY_MSG_BAD.COUNT else take d

/-- A CHART_SWAP that this device does not take (R103). -/
def Dev.swapMiss (d : Dev) : Dev := (d.wr CHT_STATUS.MISSED 1).fault srcConvoy contained 0x0F

/-- A member acts only on a receipt tick of at most S - 3 (R350). -/
def Dev.inTime (d : Dev) (s : Nat) : Bool := tickFuture s d.tck.now && 3 ≤ tickSub s d.tck.now

/-- CHART_SWAP received: held for its tick with its receipt tick, a duplicate, or past its tick (R103, Table 15.4). A command held
later than S - 3 is missed at S. -/
def Dev.takeSwap (d : Dev) (src seq s chartId : Nat) : Dev :=
  if d.cht.held.any (fun h => tickFuture h.target d.tck.now) then d.bump CVY_ACT_DUP.COUNT
  else if tickFuture s d.tck.now then
    { d with cht := { d.cht with held := some { src, seq, target := s, chartId, receipt := d.tck.now } } }
  else d.swapMiss

/-- NAV_EVENT taken: handed to navigator firmware for its tick. -/
def Dev.takeNavEvent (d : Dev) (s arg : Nat) : Dev :=
  if d.inTime s then d.emit (.firmware 2 s (beBytes 4 arg)) else d

/-- A NAV message, handed to navigator firmware where it is consumed. -/
def Dev.nav (d : Dev) (port dst src seq : Nat) (payload : List Byte) : Dev :=
  d.cvyRx port fun d => d.cvyCarry port 0x0B dst src seq payload fun d => d.emit (.firmware 1 d.tck.now payload)

end Sys2Proof.Machine
end

