-- ==== Sys2Proof/Machine/Hlm.lean ====
section
/-! DEFINITION. Helm pairs (chapter 16): the interlock lines (R360 to R362), helm states, claims and releases (R363 to R367),
health reports and the pair comparison (R30, R369, R370), return to the preferred unit (R372), twin navigator cores (R373) and
loss of the convoy (R374). -/

namespace Sys2Proof.Machine

abbrev hInit : Nat := 0
abbrev hStandby : Nat := 1
abbrev hClaiming : Nat := 2
abbrev hActive : Nat := 3
abbrev hBackoff : Nat := 4

/-- The helm's fault source (Table 17.1). -/
abbrev srcHelm : Nat := 0x330

def Dev.helmState (d : Dev) : Nat := d.rd HLM_STATUS.STATE
def Dev.setHelm (d : Dev) (st : Nat) : Dev := d.wr HLM_STATUS.STATE st

/-! ### Lines (R361) -/

/-- A pattern that is Asserted or Released. -/
def lineValid (p : Nat) : Bool := p == 1 || p == 2

/-- Tick time `b` is not before tick time `a` (R7). -/
def timeReached (a b : Nat) : Bool := tickTimeSub b a < tickTimeMod / 2

/-- The partner's lines change at an instant: a pattern that lasted under 20 ns is as if it had never been. -/
def Dev.helmIn (d : Dev) (pat at_ : Nat) : Dev :=
  let h := d.hlm
  let d := d.wr HLM_STATUS.LINE pat
  if pat = h.pat then d
  else if !timeReached (h.since + 80) at_ then
    if pat = h.old then { d with hlm := { h with pat, since := h.oldSince } }
    else { d with hlm := { h with pat, since := at_ } }
  else { d with hlm := { h with pat, since := at_, old := h.pat, oldSince := h.since } }

/-- The pattern that reads at an instant, and since when. -/
def Hlm.reading (h : Hlm) (t : Nat) : Nat × Nat := if !timeReached (h.since + 80) t then (h.old, h.oldSince) else (h.pat, h.since)

/-- The start of the tick in progress, in 0.25 ns. -/
def Dev.tickTime (d : Dev) : Nat := 1536 * d.tck.now

/-! ### Releases (R365, R366) -/

/-- The device holds or claims the helm: its lines are asserted (R362). -/
def Dev.holdsHelm (d : Dev) : Bool := d.helmState == hClaiming || d.helmState == hActive

/-- The transmitters are squelched at the present instant (R362, R365): a frame on the wire ends with a stomp, counted as R196 counts one;
what would start later does not. -/
def Dev.cutFrames (d : Dev) : Dev :=
  let now := d.instant
  let cut1 (d : Dev) (p : Nat × List (Nat × Nat)) : Dev :=
    let start (e : Nat × Nat) : Nat := (e.1 + instMod - wireTime (d.wanMode p.1) (e.2 + 24)) % instMod
    let left := p.2.filter fun e => !instReached e.1 now
    let d := if left.any fun e => instReached (start e) now then d.wanBump p.1 11 else d
    if left.isEmpty then d else d.emit (.cut p.1 now)
  let tx := d.wan.tx.map fun t => { t with quiet := t.quiet || !instReached t.start now }
  let d := d.wan.fifo.foldl cut1 { d with wan := { d.wan with tx } }
  d.emit (.fabStop now)

/-- The helm released with a cause (Table 16.3); `hold` is BACKOFF's time for the causes that end there. -/
def Dev.helmRelease (d : Dev) (cause hold : Nat) : Dev :=
  if !d.holdsHelm then d
  else
    let d := if d.helmState = hActive then d.cutFrames else d
    let d := (d.wrTick HLM_REL_TICK_LO.TICK HLM_REL_TICK_HI.TICK d.tck.now).wr HLM_REL_TICK_HI.CAUSE cause
    let d := (d.bump HLM_RELEASES.COUNT).emit (.helm false d.tck.now)
    if cause ≤ 4 then d.setHelm hInit
    else { d with hlm := { d.hlm with backoff := tickAdd d.tck.now hold } }.setHelm hBackoff

/-- Eligibility (R363). -/
def Dev.eligible (d : Dev) : Bool :=
  d.on GLB_BOOT_STATUS.READY && d.rd CHT_STATUS.ACT_EPOCH ≠ 0 && !d.fatalHeld && !d.on HLM_CTRL.HOLD && !d.hlm.expired

/-- A write of HLM_KICK (R366). -/
def Dev.helmKick (d : Dev) (key : Nat) : Dev :=
  if key = 0x5A1C then { d with hlm := { d.hlm with kicked := d.tck.now, expired := false } } else d

/-- The watchdog's time passes without a good kick. -/
def Dev.helmWatchdog (d : Dev) : Dev :=
  let t := d.rd HLM_WD.TICKS
  if t ≠ 0 ∧ ¬ d.hlm.expired ∧ t ≤ tickSub d.tck.now d.hlm.kicked then
    let d := { d with hlm := { d.hlm with expired := true } }
    ((d.wr HLM_STATUS.WD_EXP 1).fault srcHelm contained 0x0B).helmRelease 4 0
  else d

/-- A write of HLM_CTRL.RELEASE: the release waits for the next boundary. -/
def Dev.helmReleaseCmd (d : Dev) : Dev := { d with hlm := { d.hlm with relReq := true } }

/-- The end of BACKOFF's hold time. -/
def Dev.helmBackoffEnd (d : Dev) : Dev :=
  if d.helmState = hBackoff ∧ tickReached d.hlm.backoff d.tck.now then d.setHelm hStandby else d

/-! ### The boundary (R361, R363, R364, R367) -/

/-- An invalid pattern at two boundaries in a row. -/
def Dev.helmLines (d : Dev) : Dev :=
  let n := if lineValid (d.hlm.reading d.tickTime).1 then 0 else min 3 (d.hlm.invalid + 1)
  let d := { d with hlm := { d.hlm with invalid := n } }
  if n = 2 then (d.wr HLM_STATUS.LINE_ERR 1).fault srcHelm contained 0x06 else d

/-- The partner's latest report names this device's own PREF. -/
def Dev.samePref (d : Dev) : Bool :=
  match d.hlm.reports with
  | r :: _ => r.pref == d.on HLM_STATUS.PREF
  | [] => false

/-- A contest (R367): counted and logged; who keeps the lines. -/
def Dev.helmContest (d : Dev) : Dev :=
  let d := ((d.bump HLM_CONTESTS.COUNT).wr HLM_STATUS.CONTEST 1).fault srcHelm contained 0x0F
  if d.samePref then d.helmRelease 7 (2 + d.cvyAddr % 64)
  else if d.on HLM_STATUS.PREF then d else d.helmRelease 7 2

/-- The partner's lines have read Released for 768 ns at the tick in progress (R364). -/
def Dev.linesFree (d : Dev) : Bool :=
  let rd := d.hlm.reading d.tickTime
  rd.1 == 1 && timeReached (rd.2 + 3072) d.tickTime

/-- A claim (R364): the lines are asserted, and the state is CLAIMING. -/
def Dev.helmClaim (d : Dev) : Dev :=
  let d := d.wrTick HLM_CLAIM_TICK_LO.TICK HLM_CLAIM_TICK_HI.TICK d.tck.now
  ((d.bump HLM_CLAIMS.COUNT).emit (.helm true d.tck.now)).setHelm hClaiming

/-- A boundary in CLAIMING or ACTIVE; `rel` when software asks for a release. -/
def Dev.helmHold (d : Dev) (rel : Bool) : Dev :=
  if rel || !d.eligible then d.helmRelease 5 8
  else if (d.hlm.reading d.tickTime).1 ≠ 1 then d.helmContest
  else if d.helmState = hClaiming then (d.wr HLM_STATUS.SWITCHED 1).setHelm hActive else d

/-- The helm's changes at the start of the tick in progress. -/
def Dev.helmTick (d : Dev) : Dev :=
  let d := d.helmLines
  let rel := d.hlm.relReq
  let d := { d with hlm := { d.hlm with relReq := false } }
  match d.helmState with
  | 0 => if d.eligible then d.setHelm hStandby else d
  | 1 => if !d.eligible then d.setHelm hInit else if d.linesFree then d.helmClaim else d
  | 4 => d
  | _ => d.helmHold rel

/-! ### Blocks and reports (R30, R369, R370) -/

/-- The CRC-64 register after eight bytes of a digest. -/
def foldDigest (crc digest : Nat) : Nat := crcN 64 0x42F0E1EBA9EA3693 crc (beBytes 8 digest)

/-- Eligible and in STANDBY or ACTIVE (R370). -/
def Dev.helmSteady (d : Dev) : Bool := d.eligible && (d.helmState == hStandby || d.helmState == hActive)

/-- The end of a tick, before the helm's changes at the boundary: the block in progress stays steady or not. -/
def Dev.helmSample (d : Dev) : Dev := { d with hlm := { d.hlm with steady := d.hlm.steady && d.helmSteady } }

/-- At a boundary, after the helm's changes: the block in progress stays steady or not, and a block that has ended closes. -/
def Dev.helmBlock (d : Dev) : Dev :=
  let h := d.hlm
  let steady : Bool := d.helmSteady
  let stood : Bool := d.helmState == hStandby
  if d.tck.now % 256 = 0 then
    let ok := if h.stood then !h.failed else h.selfOk
    let closing := some (tickSub d.tck.now 256 / 256, h.steady, ok)
    { d with hlm := { h with closing := closing, selfOk := ok, steady := steady, stood := stood, failed := false } }
  else { d with hlm := { h with steady := h.steady && steady, stood := h.stood || stood } }

/-- The digests of a tick join its block's folds, with its exposure mask; the last tick of a block completes the account. -/
def Dev.helmFold (d : Dev) (tick adm out mask : Nat) : Dev :=
  let h := d.hlm
  let a := foldDigest h.adm adm
  let o := foldDigest h.out out
  let marked := if mask ≠ 0 then some tick else h.marked
  if tick % 256 ≠ 255 then { d with hlm := { h with adm := a, out := o, marked } }
  else
    let ones := 0xFFFFFFFFFFFFFFFF
    let first := tickSub tick 255
    let exposed := match marked with
      | some m => tickSub tick m ≤ 255 + d.rd TCK_PAIR_HOLDOFF.TICKS
      | none => false
    let on := d.on TCK_CTRL.DIGEST_EN
    let fin (x : Nat) : Nat := if on then x ^^^ ones else 0
    let steadyOk := match h.closing with
      | some (j, s, k) => if j = first / 256 then (s, k) else (false, false)
      | none => (false, false)
    let b : Blk := { j := first / 256, adm := fin a, out := fin o, exposed, steady := steadyOk.1, selfOk := steadyOk.2 }
    { d with hlm := { h with adm := ones, out := ones, marked, closing := none, blocks := (b :: h.blocks).take 4 } }

/-- The account of a block. -/
def Hlm.blk (h : Hlm) (j : Nat) : Option Blk := h.blocks.find? fun b => b.j = j

/-- The partner's report of a block. -/
def Hlm.rpt (h : Hlm) (block : Nat) : Option Rpt := h.reports.find? fun r => r.block = block

/-- The wait to restore after its terms may have changed (R372, R374): own and partner's latest reports clean, the preferred unit
STANDBY and its partner ACTIVE. -/
def Dev.wtrUpdate (d : Dev) : Dev :=
  let par := match d.hlm.reports with
    | r :: _ => r.clean && r.state == hActive
    | [] => false
  if d.on HLM_CTRL.REVERT && d.on HLM_STATUS.PREF && d.helmState == hStandby && d.on HLM_STATUS.CLEAN && par &&
      d.hlm.misses = 0 then
    { d with hlm := { d.hlm with wtr := d.hlm.wtr.or (some d.tck.now) } }
  else { d with hlm := { d.hlm with wtr := none } }.wr HLM_STATUS.RECLAIM 0

/-- The count that sets RECLAIM, in ticks. -/
def Dev.wtrTicks (d : Dev) : Nat := ceilDiv (max 1 (min 1800 (d.rd HLM_WTR.SEC)) * 7812500) 3

/-- The count reaches its limit. -/
def Dev.reclaimSet (d : Dev) : Dev :=
  let d := d.wtrUpdate
  match d.hlm.wtr with
  | some t => if d.wtrTicks ≤ tickSub d.tck.now t then d.wr HLM_STATUS.RECLAIM 1 else d
  | none => d

/-- Own CLEAN for a block (R370, Table 16.6). -/
def Dev.ownClean (d : Dev) (b : Blk) : Bool :=
  let conf := match d.hlm.rpt (256 * (b.j - 1)) with
    | some r => b.j ≠ 0 && r.chart == d.active.chartId && r.epoch == d.rd CHT_STATUS.ACT_EPOCH
    | none => false
  b.steady && d.on TCK_STATUS.LOCKED && b.selfOk && !d.faultN && !d.on TCK_STATUS.PAIR_DIVERGED && conf &&
    !d.on HLM_STATUS.PLOST

/-- The report of a block (Table 16.5). -/
def Dev.healthBytes (d : Dev) (b : Blk) (clean : Bool) : List Byte :=
  let role := d.helmState + 8 * d.rd HLM_STATUS.PREF + 16 * b2n clean + 32 * d.rd HLM_STATUS.RECLAIM + 64 * b2n b.selfOk +
    128 * d.rd TCK_STATUS.LOCKED
  let flags := d.rd GLB_BOOT_STATUS.READY + 2 * b2n b.exposed + 4 * b2n d.fatalHeld
  let links := (List.range 256).countP fun p => d.on (WAN_PORT_ST.LINK p)
  beBytes 1 0x10 ++ beBytes 1 role ++ beBytes 1 flags ++ beBytes 1 0 ++ beBytes 6 (256 * b.j) ++ beBytes 8 b.adm ++
    beBytes 8 b.out ++ beBytes 4 d.active.chartId ++ beBytes 1 (d.rd CHT_STATUS.ACT_EPOCH) ++ beBytes 1 0 ++
    beBytes 6 (d.rdPair HLM_HANDOVER_LO.TICK HLM_HANDOVER_HI.TICK) ++ beBytes 2 links ++ beBytes 4 0

/-- Whether the block that began `back` ticks ago was one of this count of ticks; the count starts at 0 and wraps. -/
def Dev.blockWas (d : Dev) (back : Nat) : Bool :=
  decide (back ≤ d.tck.now) || (d.hlm.blk (tickSub d.tck.now back / 256)).isSome

/-- At tick 256j + 264 the device reports block j. -/
def Dev.healthSend (d : Dev) : Dev :=
  let j := (tickSub d.tck.now 264) / 256
  let par := d.rd HLM_PARTNER.ADDR
  if d.tck.now % 256 ≠ 8 ∨ par = 0 ∨ (d.helmState = hInit ∧ ¬ d.on GLB_BOOT_STATUS.READY) ∨ d.blockWas 264 = false then d
  else
    let b : Blk := (d.hlm.blk j).getD { j, adm := 0, out := 0, exposed := false, steady := false, selfOk := false }
    let clean := d.ownClean b
    let d := (d.wr HLM_STATUS.CLEAN (b2n clean)).wtrUpdate
    let bs := d.healthBytes b clean
    let d := match d.cvyRoute par with
      | .out p => d.cvySend [p] false 0x09 par 6 bs
      | .here => d
      | .lost => d.bump CVY_UNROUTE.COUNT
    d.bump HLM_RPT_TX.COUNT

/-- No partner report of block j by tick 256j + 512. -/
def Dev.healthMiss (d : Dev) : Dev :=
  let block := tickSub d.tck.now 512
  if d.tck.now % 256 ≠ 0 ∨ d.rd HLM_PARTNER.ADDR = 0 ∨ (d.hlm.rpt block).isSome ∨ d.blockWas 512 = false then d
  else
    let d := d.bump HLM_RPT_MISS.COUNT
    let n := d.hlm.misses + 1
    let d := { d with hlm := { d.hlm with misses := n } }
    let d := if max 1 (d.rd HLM_CTRL.MISS) ≤ n ∧ ¬ d.on HLM_STATUS.PLOST then
        (d.wr HLM_STATUS.PLOST 1).fault srcHelm contained 0x05
      else d
    d.wtrUpdate

/-- The pair comparison of a block (R30): the partner's folds and its EXPOSED. -/
def Dev.pairCompare (d : Dev) (block adm out : Nat) (exposed : Bool) : Dev :=
  match d.hlm.blk (block / 256) with
  | none => d
  | some b =>
    if !d.on TCK_CTRL.PAIR_CMP_EN || !d.on TCK_CTRL.DIGEST_EN || (adm = 0 && out = 0) || tickFuture d.tck.now (block + 512) then d
    else if adm ≠ b.adm ∨ exposed ∨ b.exposed then d.bump TCK_PAIR_SKIP.COUNT
    else if out ≠ b.out then
      ((d.bump TCK_PAIR_MISMATCH.COUNT).wr TCK_STATUS.PAIR_DIVERGED 1).fault 0x1C1 contained 0x0F (256 * b.j * 2 ^ 48)
    else d

/-- The active unit answers RECLAIM (R372): it names the handover, or cancels one. -/
def Dev.handoverName (d : Dev) (reclaim : Bool) : Dev :=
  let x := d.rdPair HLM_HANDOVER_LO.TICK HLM_HANDOVER_HI.TICK
  if d.helmState ≠ hActive ∨ d.on HLM_STATUS.PREF ∨ ¬ d.on HLM_CTRL.REVERT then d
  else if reclaim then
    if (x = 0 ∨ ¬ tickFuture x d.tck.now) ∧ d.on HLM_STATUS.CLEAN then
      d.wrTick HLM_HANDOVER_LO.TICK HLM_HANDOVER_HI.TICK (256 * ceilDiv (d.tck.now + 512) 256 % tickMod)
    else d
  else if tickFuture x d.tck.now then d.wrTick HLM_HANDOVER_LO.TICK HLM_HANDOVER_HI.TICK 0 else d

/-- A partner's report accepted (R369, R370, R372, R374). -/
def Dev.healthTake (d : Dev) (p : List Byte) : Dev :=
  let fld (o n : Nat) : Nat := ofBe (sliceD 0#8 p o n)
  let role := fld 1 1
  let r : Rpt := { block := fld 4 6, clean := bit role 4, reclaim := bit role 5, pref := bit role 3, state := role % 8,
                   chart := fld 26 4, epoch := fld 30 1 }
  let d := { d with hlm := { d.hlm with reports := (r :: d.hlm.reports).take 4, misses := 0 } }
  let d := ((d.bump HLM_RPT_RX.COUNT).wr HLM_STATUS.PSTATE r.state).wr HLM_STATUS.PLOST 0
  let d := if d.samePref then d.wr HLM_STATUS.PREF_ERR 1 else d
  ((d.pairCompare r.block (fld 10 8) (fld 18 8) (bit (fld 2 1) 1)).wtrUpdate).handoverName r.reclaim

/-- A HEALTH message (R344, R369). -/
def Dev.health (d : Dev) (port dst src seq : Nat) (payload : List Byte) : Dev :=
  d.cvyRx port fun d => d.cvyCarry port 0x09 dst src seq payload fun d =>
    if src ≠ d.rd HLM_PARTNER.ADDR ∨ (payload.getD 0 0).toNat / 16 ≠ 1 then d.bump HLM_RPT_BAD.COUNT else d.healthTake payload

/-- At tick X the active, non-preferred unit releases (R372); the tick is then no longer named. -/
def Dev.plannedHandover (d : Dev) : Dev :=
  let x := d.rdPair HLM_HANDOVER_LO.TICK HLM_HANDOVER_HI.TICK
  if x ≠ 0 ∧ x = d.tck.now then
    (if d.helmState = hActive then d.helmRelease 6 8 else d).wrTick HLM_HANDOVER_LO.TICK HLM_HANDOVER_HI.TICK 0
  else d

/-- A self-test fails in STANDBY (R371). -/
def Dev.selfTestFail (d : Dev) : Dev :=
  if d.helmState = hStandby then
    let d := { d with hlm := { d.hlm with failed := true } }
    ((d.bump HLM_ST_FAIL.COUNT).wr HLM_STATUS.ST_FAIL 1).fault srcHelm contained 0x0E
  else d

/-! ### Twin navigator cores (R373) -/

/-- The driver bit of a die's pair: 0 Atkor, 1 Trelier. -/
def navDriver (die : Nat) : Field := if die = 0 then HLM_NAV_STATUS.DRIVER_A else HLM_NAV_STATUS.DRIVER_T

/-- Every 2^24 ticks the pairs swap roles, but for one being reloaded, and not while an update splits them (R425). -/
def Dev.navRoleSwap (d : Dev) : Dev :=
  if d.tck.now % 16777216 ≠ 0 || d.fwu.split then d
  else [0, 1].foldl (fun d die => if d.hlm.navSync.contains die then d else d.wr (navDriver die) (1 - d.rd (navDriver die))) d

/-- The cores of a pair disagree; which of the driver and the shadow report uncorrectable errors. -/
def Dev.navMismatch (d : Dev) (die : Nat) (ueDriver ueShadow : Bool) : Dev :=
  if ueDriver && ueShadow then d.fault (0x340 + die) fatal 0x04
  else
    let d := if ueDriver then d.wr (navDriver die) (1 - d.rd (navDriver die)) else d
    let d := { d with hlm := { d.hlm with navSync := die :: d.hlm.navSync.filter (· != die) } }
    ((d.wr HLM_NAV_STATUS.RESYNC 1).bump HLM_NAV_FAULT.COUNT).fault (0x340 + die) corrected 0x04

/-- A reloaded core rejoins lockstep. -/
def Dev.navResync (d : Dev) (die : Nat) : Dev :=
  if d.hlm.navSync.contains die then
    let l := d.hlm.navSync.filter (· != die)
    { d with hlm := { d.hlm with navSync := l } }.wr HLM_NAV_STATUS.RESYNC (b2n (!l.isEmpty))
  else d

end Sys2Proof.Machine
end

