-- ==== Sys2Proof/Machine/Snd.lean ====
section
/-! DEFINITION. Soundings and the sextant (chapter 18): selections and occupancies (R397), sweeps and snapshots (R400 to R403),
rings and records (R404 to R406), user pages (R407), and the sextant's corrections, offset and pins (R409 to R411). -/

namespace Sys2Proof.Machine

/-! ### Selections (R396, R397, R399) -/

/-- An occupancy code of a group (Table 18.2). -/
def occCode (g code : Nat) : Bool :=
  (g = 0x20 && code = 0x23) || (g = 0x21 && code = 0x22) || (g = 0x23 && (code = 0x23 || code = 0x24)) ||
  (g = 0x30 && code = 0x23) || (g = 0x31 && code = 0x24) || (g = 0x32 && code = 0x25)

/-- An event code of a group, from the group's own 0x10 or 0x20 up. -/
def evtCode (g code : Nat) : Bool :=
  code ≤ 4 ||
  (if g < 0x20 then 0x10 ≤ code && code ≤ 0x19
   else 0x20 ≤ code && (
     if g = 0x20 ∨ g = 0x22 ∨ g = 0x23 ∨ g = 0x24 ∨ g = 0x30 ∨ g = 0x33 then code ≤ 0x22
     else if g = 0x21 ∨ g = 0x26 ∨ g = 0x27 ∨ g = 0x34 then code ≤ 0x21
     else if g = 0x25 then code = 0x20
     else if g = 0x28 ∨ g = 0x31 then code ≤ 0x23
     else g = 0x32 && code ≤ 0x24))

/-- A selection that counts nothing and is reported (R397, R399); `odd` for an odd counter. -/
def selBad (g sel : Nat) (odd : Bool) : Bool :=
  let code := bits sel 0 8
  let mode := bits sel 8 2
  let bad := if mode = 0 then !evtCode g code else if mode = 3 then true else !occCode g code
  bad || (odd && bit sel 10)

/-- Queue entries of a stack's fullest pseudo-channel. -/
def Dev.hbmFullest (d : Dev) (s : Nat) : Nat :=
  ((d.yrd.hbm.filter fun p => p.1 / 64 = s).map fun p => p.2.writes.length).foldl max 0

/-- The occupancy a code of a group measures, for a SUB (Table 18.2). -/
def Dev.occupancy (d : Dev) (g code sub : Nat) : Nat :=
  if g = 0x20 then
    let mine (o : AsxOp) : Bool := sub == 0xFF || o.tbl == sub
    d.asx.queue.countP mine + (match d.asx.run with
      | some r => b2n (mine r.op)
      | none => 0)
  else if g = 0x21 then d.lku.queue.length + (if d.lku.run.isSome then 1 else 0)
  else if g = 0x23 then
    if code = 0x23 then d.lku.layby.length
    else (d.lku.layby.countP fun p => match p.2.st with
        | .walking w => sub = 0xFF || w.port = sub
        | .done _ _ => false) + d.lku.t2late.countP (fun w => sub = 0xFF || w.port = sub)
  else if g = 0x30 then d.rd DPT_FREE.COUNT / 256
  else if g = 0x31 then (d.que.q.map fun p => if sub = 0xFF ∨ d.groupOf p.1 = sub then p.2.depth else 0).sum / 256
  else if sub = 0xFF then ((List.range 8).map d.hbmFullest).foldl max 0 else d.hbmFullest sub

/-- Counters in MODE 1 at a slot cycle, or in MODE 2 at an enabled core cycle of their die (R397): of the groups from `lo` to `hi`. -/
def Dev.occCount (d : Dev) (mode lo hi : Nat) : Dev :=
  d.selections.foldl (fun d s =>
    let code := bits s.2.2 0 8
    if lo ≤ s.1 ∧ s.1 < hi ∧ bits s.2.2 8 2 = mode ∧ occCode s.1 code ∧ ¬ d.chainedHigh s.1 s.2.1 ∧
        d.rd (SND_G_THR.N s.1 s.2.1) < d.occupancy s.1 code (bits s.2.2 12 8) then
      d.countAdd s.1 s.2.1 1
    else d) d

/-- SEL, THR and CNT writes of a boundary (R400 step 3): `news` holds the addresses written, `old` the registers before. -/
def Dev.selApply (d : Dev) (old : Nat → BitVec 32) (news : List Nat) : Dev :=
  news.foldl (fun d a =>
    if 0x2C04000 ≤ a ∧ a < 0x2C08000 ∧ a % 256 / 32 = 1 then
      let g := (a - 0x2C04000) / 256
      let j := a % 32 / 4
      let v := (d.reg a).toNat
      let d := if selBad g v (j % 2 = 1) then d.wr SND_STATUS.SEL_ERR 1 else d
      let d := if bit v 11 then d.wr (SND_G_CNT.COUNT g j) 0 else d
      if j % 2 = 0 ∧ bit v 10 ≠ bit (old a).toNat 10 then
        (d.wr (SND_G_CNT.COUNT g j) 0).wr (SND_G_CNT.COUNT g (j + 1)) 0
      else d
    else d) d

/-! ### Rings (R404, R405) -/

/-- A ring's size in bytes: 1 the host ring, 2 the CXL ring. -/
def Dev.sndSize (d : Dev) (ring : Nat) : Nat :=
  let l := d.rd (if ring = 1 then SND_HRING_SIZE.SIZE_LOG2 else SND_CRING_SIZE.SIZE_LOG2)
  2 ^ (if 12 ≤ l ∧ l ≤ 30 then l else 12)

def sndWr (ring : Nat) : Field := if ring = 1 then SND_HRING_WR.WR else SND_CRING_WR.WR
def sndRd (ring : Nat) : Field := if ring = 1 then SND_HRING_RD.RD else SND_CRING_RD.RD

/-- A ring's base, aligned to its size; a CXL address has 42 bits. -/
def Dev.sndBase (d : Dev) (ring : Nat) : Nat :=
  let b := if ring = 1 then d.rdPair SND_HRING_BASE_LO.BASE SND_HRING_BASE_HI.BASE
    else d.rdPair SND_CRING_BASE_LO.BASE SND_CRING_BASE_HI.BASE % 2 ^ 42
  b / d.sndSize ring * d.sndSize ring

/-- Bytes between WR and RD. -/
def Dev.sndUsed (d : Dev) (ring : Nat) : Nat := (d.rd (sndWr ring) + 2 ^ 32 - d.rd (sndRd ring)) % 2 ^ 32

/-- The flags that follow from the offsets. -/
def Dev.sndHalf (d : Dev) : Dev :=
  (d.wr SND_STATUS.HRING_HALF (b2n (d.sndSize 1 / 2 < d.sndUsed 1))).wr SND_STATUS.CRING_HALF
    (b2n (d.sndSize 2 / 2 < d.sndUsed 2))

/-- Bytes written at a ring's WR, which advances. -/
def Dev.sndWrite (d : Dev) (ring : Nat) (bs : List Byte) : Dev :=
  let wr := d.rd (sndWr ring)
  let a := d.sndBase ring + wr % d.sndSize ring
  let d := d.wr (sndWr ring) (wr + bs.length)
  if ring = 1 then { d with snd := { d.snd with hwrote := true } }.hostWrite 0 a bs
  else if !d.cxlIn 1 a bs.length then d.bump CXL_RGN_VIOL.COUNT
  else match d.cxlPort a with
    | some p => if d.cxlUp p then d.emit (.cxlWrite p a bs) else d.bump CXL_RGN_VIOL.COUNT
    | none => d.bump CXL_RGN_VIOL.COUNT

/-- A record's header (Table 18.3). -/
def recHeader (type units flags mask seq tick cycle : Nat) : List Byte :=
  beBytes 1 type ++ beBytes 1 units ++ beBytes 1 flags ++ beBytes 1 mask ++ beBytes 4 seq ++ beBytes 6 tick ++ beBytes 2 cycle

/-- The drop counter of a stream: 0 counters, 1 samples, 2 digests. -/
def sndDrop (stream : Nat) : Field :=
  if stream = 0 then SND_DROP_CTR.COUNT else if stream = 1 then SND_DROP_SAMP.COUNT else SND_DROP_DIG.COUNT

/-- The next SEQ of a stream: from 1, never 0. -/
def Dev.sndSeq (d : Dev) (stream : Nat) : Nat × Dev :=
  let s := d.snd
  let n := nextSeq (if stream = 0 then s.seqC else if stream = 1 then s.seqS else s.seqD)
  (n, { d with snd := if stream = 0 then { s with seqC := n } else if stream = 1 then { s with seqS := n } else { s with seqD := n } })

/-- PAD to the end of the buffer: records of at most 255 units (Table 18.3). -/
def padBytes : Nat → Nat → List Byte
  | 0, _ => []
  | fuel + 1, n =>
    if n = 0 then []
    else
      let u := min 255 (n / 32)
      fitBytes (recHeader 0 u 0 0 0 0 0) (32 * u) ++ padBytes fuel (n - 32 * u)

/-- A record of a stream put on its ring (R404): dropped when it would leave less than 32 bytes free, behind a PAD when it would
run past the end. `body` follows the header. -/
def Dev.sndRecord (d : Dev) (stream type flags mask tick cycle : Nat) (body : List Byte) : Dev :=
  let route := d.rd (if stream = 0 then SND_ROUTE.CTR else if stream = 1 then SND_ROUTE.SAMP else SND_ROUTE.DIG)
  if route = 0 ∨ route = 3 then d
  else
    let s := d.sndSeq stream
    let d := s.2
    let units := ceilDiv (16 + body.length) 32
    let bs := fitBytes (recHeader type units flags mask s.1 tick cycle ++ body) (32 * units)
    let size := d.sndSize route
    let left := size - d.rd (sndWr route) % size
    let pad := if left < bs.length then left else 0
    if size < d.sndUsed route + pad + bs.length + 32 ∨ (route = 1 ∧ ¬ d.hst.pf0.masters) then
      (d.bump (sndDrop stream)).wr SND_STATUS.DROP 1
    else
      let d := if pad = 0 then d else d.sndWrite route (padBytes (pad / 32 + 1) pad)
      d.sndWrite route bs

/-- The write-back of the host ring's WR after a tick in which it was written. -/
def Dev.sndWriteback (d : Dev) : Dev :=
  if d.snd.hwrote then
    let a := d.rdPair SND_HRING_WB_LO.ADDR SND_HRING_WB_HI.ADDR / 4 * 4
    let d := { d with snd := { d.snd with hwrote := false } }
    if d.hst.pf0.masters then d.hostWrite 0 a (beBytes 4 (d.rd SND_HRING_WR.WR)) else d
  else d

/-- The DIGEST record of a tick (R406). -/
def Dev.sndDigest (d : Dev) (tick adm out mask : Nat) : Dev :=
  d.sndRecord 2 0x03 0 mask tick 0 (beBytes 8 adm ++ beBytes 8 out)

/-- A sample's 16 bytes (R406). -/
def sampleBytes (s : QSample) : List Byte :=
  beBytes 16 (s.queue % 2 ^ 18 * 2 ^ 110 + min s.bytes (2 ^ 40 - 1) * 2 ^ 70 + min s.pkts (2 ^ 28 - 1) * 2 ^ 42 +
    min s.resid (2 ^ 24 - 1) * 2 ^ 18)

/-- SAMPLES records of a round: at most 127 samples each, the last one flagged. -/
def Dev.sndSampleRecs (tick : Nat) : Nat → List QSample → Dev → Dev
  | 0, _, d => d
  | fuel + 1, ss, d =>
    if ss.isEmpty then d
    else
      let rest := ss.drop 127
      let d := d.sndRecord 1 0x02 (if rest.isEmpty then 4 else 0) 0 tick 0 ((ss.take 127).flatMap sampleBytes)
      Dev.sndSampleRecs tick fuel rest d

/-- The samples of the round just made (R406): a buffer of 16,384, the rest dropped and counted. -/
def Dev.sndSamples (d : Dev) : Dev :=
  let ss := d.que.samples
  let n := ss.length - 16384
  let d := { d with que := { d.que with samples := [] } }
  let d := if n = 0 then d else (d.bump SND_DROP_SAMP.COUNT n).wr SND_STATUS.DROP 1
  Dev.sndSampleRecs d.tck.now 130 (ss.take 16384) d

/-! ### Sweeps (R401 to R403) -/

/-- List entry `i`: group, counter, whether a pair. -/
def Dev.sndEntry (d : Dev) (i : Nat) : Nat × Nat × Bool :=
  let pair := d.on (SND_LIST.PAIR i)
  let c := d.rd (SND_LIST.CTR i)
  (d.rd (SND_LIST.GROUP i), if pair then c / 2 * 2 else c, pair)

/-- List entries used. -/
def Dev.sndLen (d : Dev) : Nat := min 512 (d.rd SND_SWEEP.LEN)

/-- A counter or its snapshot as the reader reads it: 0 in a reserved group. -/
def Dev.sndRead (d : Dev) (snap : Bool) (g j : Nat) : Nat :=
  if groupListed g then d.rd (if snap then SND_G_SNAP.COUNT g j else SND_G_CNT.COUNT g j) else 0

/-- The snapshot of a sweep due at the boundary (R400 step 2). -/
def Dev.snapshot (d : Dev) : Dev :=
  (List.range d.sndLen).foldl (fun d i =>
    let e := d.sndEntry i
    if !groupListed e.1 then d
    else
      let copy (d : Dev) (j : Nat) : Dev := d.wr (SND_G_SNAP.COUNT e.1 j) (d.rd (SND_G_CNT.COUNT e.1 j))
      let d := copy d e.2.1
      let d := if e.2.2 then copy d (e.2.1 + 1) else d
      { d with snd := { d.snd with snapTick := SMap.set 0 d.snd.snapTick e.1 d.tck.now } }) d

/-- A sweep begins at the tick in progress. -/
def Dev.sweepBegin (d : Dev) : Dev :=
  let s : Sweep := { tick := d.tck.now, snap := d.on SND_SWEEP.SNAP, cyc := none, len := d.sndLen, pos := 0, step := 0, h1 := 0,
                     low := 0, vals := [] }
  { d with snd := { d.snd with sweep := some s } }.wr SND_STATUS.BUSY 1

/-- The period of periodic sweeps. -/
def Dev.sweepPeriod (d : Dev) : Nat := 2 ^ max 2 (min 24 (d.rd SND_SWEEP.PLOG2))

/-- A periodic sweep is due at the tick in progress. -/
def Dev.sweepDue (d : Dev) : Bool := d.on SND_SWEEP.PERIODIC && d.tck.now % d.sweepPeriod = 0

/-- A sweep skipped (R403). -/
def Dev.sweepSkip (d : Dev) : Dev := (d.bump SND_SWEEP_SKIP.COUNT).wr SND_STATUS.SKIP 1

/-- The boundary's part in sweeps: a snapshot for any sweep due, and the start of one that START asked for. -/
def Dev.sweepBoundary (d : Dev) : Dev :=
  let full := d.variantOf d.tck.now = 0
  let idle := d.snd.sweep.isNone
  let d := if full ∧ idle ∧ d.on SND_SWEEP.SNAP ∧ (d.sweepDue ∨ d.snd.start ≠ 0) then d.snapshot else d
  if d.snd.start = 0 ∨ ¬ idle then d
  else if full then { d with snd := { d.snd with start := 0 } }.sweepBegin
  else if d.snd.start = 1 then { d with snd := { d.snd with start := 2 } }.sweepSkip else d

/-- SND_SWEEP.START written. -/
def Dev.sweepStart (d : Dev) : Dev :=
  if d.on SND_STATUS.BUSY then d.wr SND_STATUS.BUSY_ERR 1
  else { d with snd := { d.snd with start := max 1 d.snd.start } }

/-- A periodic sweep comes due: it runs or is skipped. -/
def Dev.sweepPeriodic (d : Dev) : Dev :=
  if !d.sweepDue then d
  else if d.variantOf d.tck.now ≠ 0 then d.sweepSkip
  else if d.snd.sweep.isNone then d.sweepBegin else d

/-- The reading R401 gives for H1, L and H2. -/
def pairRead (h1 low h2 : Nat) : Nat := (if h1 ≠ h2 ∧ low < 2 ^ 31 then h2 else h1) * 2 ^ 32 + low

/-- One counter read at an enabled edge (R402). -/
def Dev.sweepEdge (d : Dev) : Dev :=
  match d.snd.sweep with
  | none => d
  | some s =>
    if s.len ≤ s.pos then d
    else
      let e := d.sndEntry s.pos
      let rd (j : Nat) : Nat := d.sndRead s.snap e.1 j
      let s := { s with cyc := s.cyc.or (some d.coreCycle) }
      let s : Sweep := if !e.2.2 then { s with pos := s.pos + 1, vals := rd e.2.1 :: s.vals }
        else if s.step = 0 then { s with step := 1, h1 := rd (e.2.1 + 1) }
        else if s.step = 1 then { s with step := 2, low := rd e.2.1 }
        else { s with step := 0, pos := s.pos + 1, vals := pairRead s.h1 s.low (rd (e.2.1 + 1)) :: s.vals }
      { d with snd := { d.snd with sweep := some s } }

/-- A counter of the list wrapped since the previous sweep. -/
def Dev.sweepWrapped (d : Dev) (len : Nat) : Bool :=
  (List.range len).any fun i =>
    let e := d.sndEntry i
    d.snd.wrapped.contains (8 * e.1 + e.2.1) || (e.2.2 && d.snd.wrapped.contains (8 * e.1 + e.2.1 + 1))

/-- A sweep has finished its readings: its COUNTERS record (R405, R406). -/
def Dev.sweepDone (d : Dev) : Dev :=
  match d.snd.sweep with
  | none => d
  | some s =>
    if s.pos < s.len then d
    else
      let flags := b2n s.snap + 2 * b2n (d.sweepWrapped s.len)
      let d := { d with snd := { d.snd with sweep := none, wrapped := [] } }
      let d := (d.wr SND_STATUS.BUSY 0).bump SND_SWEEPS.COUNT
      d.sndRecord 0 0x01 flags 0 s.tick (if s.snap then 0 else s.cyc.getD 0) (s.vals.reverse.flatMap (beBytes 8))

/-! ### User pages (R407) -/

/-- Page `p` may be read. -/
def Dev.pageOpen (d : Dev) (p : Nat) : Bool :=
  (p < 32 && bit (d.rd SND_USER_OPEN0.BITS) p) || (32 ≤ p && p < 64 && bit (d.rd SND_USER_OPEN1.BITS) (p - 32)) ||
  (64 ≤ p && p < 66 && bit (d.rd SND_USER_OPEN2.BITS) (p - 64))

/-- Tick time at the start of the core cycle in progress, in 0.25 ns (R409). -/
def Dev.sxtTime (d : Dev) : Nat := d.tickTime + d.coreCycle * 8 / 3

/-- The 32-bit word at an offset of a page (Table 18.4). -/
def Dev.pageWord (d : Dev) (p off : Nat) : Nat :=
  if p < 64 then
    if !groupListed p then 0
    else if off < 0x20 then d.rd (SND_G_CNT.COUNT p (off / 4))
    else if off < 0x40 then d.rd (SND_G_SNAP.COUNT p ((off - 0x20) / 4))
    else if off < 0x60 then (d.regPend (SND_G_SEL.addr p ((off - 0x40) / 4))).toNat
    else if off < 0x68 then bits (SMap.get 0 d.snd.snapTick p) (8 * (off - 0x60)) 32
    else 0
  else if p = 64 then
    if off < 8 then bits d.tck.now (8 * off) 32
    else if off < 0x10 then bits d.sxtTime (8 * (off - 8)) 32
    else if off = 0x10 then d.rd SXT_OFS_ACT_SEC_LO.SEC else if off = 0x14 then d.rd SXT_OFS_ACT_SEC_HI.SEC
    else if off = 0x18 then (d.reg SXT_OFS_ACT_NS.addr).toNat else 0
  else
    [d.rd SND_HRING_WR.WR, d.rd SND_HRING_RD.RD, d.rd SND_CRING_WR.WR, d.rd SND_CRING_RD.RD, d.rd SND_DROP_CTR.COUNT,
      d.rd SND_DROP_SAMP.COUNT, d.rd SND_DROP_DIG.COUNT].getD (off / 4) 0

/-- A read of the user pages, from an offset of BAR2: zeros and a count for a closed or reserved page. -/
def Dev.pageRead (d : Dev) (off len : Nat) : Dev :=
  let p := (off - 0xE00000) / 4096
  let o := off % 4096
  if d.pageOpen p then
    let ws := (List.range (len / 4 + 2)).flatMap fun i => leBytes 4 (d.pageWord p (o / 4 * 4 + 4 * i))
    d.emit (.cpl 0 (sliceD 0#8 ws (o % 4) len))
  else ((d.bump SND_USER_DENY.COUNT).wr SND_STATUS.DENY 1).emit (.cpl 0 (List.replicate len 0#8))

/-- A write to a user page. -/
def Dev.pageWrite (d : Dev) : Dev := ((d.bump SND_USER_DENY.COUNT).wr SND_STATUS.DENY 1).emit (.aer 0)

/-! ### The sextant (R409 to R411) -/

/-- SXT_PHASE written at the root: the pending correction, held in 0.125 ns. -/
def Dev.phaseAdjust (d : Dev) (adj : Nat) : Dev :=
  if d.isRoot then
    let p := d.sxt.phase + 2 * sInt 32 adj
    { d with sxt := { d.sxt with phase := p } }.wr SXT_STATUS.PHASE_BUSY (b2n (p != 0))
  else d

/-- SXT_OFS_COMMIT.GO written. -/
def Dev.offsetCommit (d : Dev) : Dev := d.wr SXT_STATUS.OFS_PEND 1

/-- The sextant's part of a boundary: the phase correction slews by at most 0.125 ns, and a staged offset takes effect. -/
def Dev.sxtBoundary (d : Dev) : Dev :=
  let p := d.sxt.phase
  let p : Int := if 0 < p then p - 1 else if p < 0 then p + 1 else 0
  let d := { d with sxt := { d.sxt with phase := p } }.wr SXT_STATUS.PHASE_BUSY (b2n (p != 0))
  if !d.on SXT_STATUS.OFS_PEND then d
  else
    let d := d.wr SXT_STATUS.OFS_PEND 0
    if 1000000000 ≤ d.rd SXT_OFS_NS.NS then d.wr SXT_STATUS.CFG_ERR 1
    else
      (d.wrs [(SXT_OFS_ACT_SEC_LO.SEC, d.rd SXT_OFS_SEC_LO.SEC), (SXT_OFS_ACT_SEC_HI.SEC, d.rd SXT_OFS_SEC_HI.SEC),
        (SXT_OFS_ACT_NS.NS, d.rd SXT_OFS_NS.NS), (SXT_OFS_ACT_NS.QNS, d.rd SXT_OFS_NS.QNS)]).commit

/-- A PPS_IN edge at a tick time: rising or falling. -/
def Dev.ppsIn (d : Dev) (falling : Bool) (time : Nat) : Dev :=
  if d.on SXT_CTRL.PPS_IN_EN && d.on SXT_CTRL.PPS_IN_POL == falling then
    (d.wrTick SXT_PPS_CAP_LO.TIME SXT_PPS_CAP_HI.TIME time).wr SXT_STATUS.PPS_IN_SEEN 1
  else d

/-- A CLK10M_IN rising edge at a tick time. -/
def Dev.clk10m (d : Dev) (time : Nat) : Dev := if d.on SXT_CTRL.CLK10M_EN then d.wr SXT_10M_PHASE.PHASE (time % 400) else d

/-- Time of day at the start of the tick in progress, in 0.25 ns. -/
def Dev.todUnits (d : Dev) : Nat :=
  d.tickTime + 4000000000 * d.rdPair SXT_OFS_ACT_SEC_LO.SEC SXT_OFS_ACT_SEC_HI.SEC + 4 * d.rd SXT_OFS_ACT_NS.NS +
    d.rd SXT_OFS_ACT_NS.QNS

/-- Time of day reaches a whole second in the tick in progress: PPS_OUT rises. -/
def Dev.ppsRise (d : Dev) : Dev :=
  let a := d.todUnits
  if d.on SXT_CTRL.PPS_OUT_EN && ceilDiv a 4000000000 * 4000000000 < a + 1536 then
    { d with sxt := { d.sxt with rise := some d.tck.now } }.emit (.pps true d.tck.now)
  else d

/-- WIDTH ticks after it rose, PPS_OUT falls. -/
def Dev.ppsFall (d : Dev) : Dev :=
  match d.sxt.rise with
  | some t =>
    if max 1 (d.rd SXT_PPS_WIDTH.TICKS) ≤ tickSub d.tck.now t then
      { d with sxt := { d.sxt with rise := none } }.emit (.pps false d.tck.now)
    else d
  | none => d

end Sys2Proof.Machine
end

