-- ==== Sys2Proof/Machine/Fwu.lean ====
section
/-! DEFINITION. The update engine (chapter 19): images and their checks, the boot flash, staging, relay along the convoy, activation,
trial and confirmation. -/

namespace Sys2Proof.Machine

abbrev fIdle : Nat := 0
abbrev fHdrCheck : Nat := 1
abbrev fStaging : Nat := 2
abbrev fStaged : Nat := 3
abbrev fLoading : Nat := 4
abbrev fLoaded : Nat := 5
abbrev fHandover : Nat := 6
abbrev fResync : Nat := 7
abbrev fTrial : Nat := 8
abbrev fConfirming : Nat := 9

abbrev srcFwu : Nat := 0x370

def Dev.fState (d : Dev) : Nat := d.rd FWU_STATUS.STATE
def Dev.setFState (d : Dev) (s : Nat) : Dev := d.wr FWU_STATUS.STATE s

/-- A step failed: ERR and its code. -/
def Dev.fwuFail (d : Dev) (code : Nat) : Dev := (d.wr FWU_STATUS.ERR 1).wr FWU_STATUS.CODE code

/-- A refusal: a failure that counts (R416). -/
def Dev.fwuRefuse (d : Dev) (code : Nat) : Dev := (d.fwuFail code).bump FWU_REFUSED.COUNT

def Dev.fwuDone (d : Dev) : Dev := (d.wr FWU_STATUS.DONE 1).wr FWU_STATUS.CODE 0

/-! ### Images (R413 to R416) -/

/-- A big-endian field of a header. -/
def hfield (h : List Byte) (o n : Nat) : Nat := ofBe (sliceD 0#8 h o n)

def hdrImg (h : List Byte) : Img :=
  { version := hfield h 0x18 4, minPeer := hfield h 0x1C 4, proto := hfield h 0x20 2, setfProd := hfield h 0x22 2,
    setfLow := hfield h 0x24 2, setfHigh := hfield h 0x26 2, svn := hfield h 0x28 1, revoke := hfield h 0x2A 1,
    aLen := hfield h 0x2C 4, tLen := hfield h 0x30 4 }

def Img.payload (i : Img) : Nat := i.aLen + i.tLen

/-- A payload section's length is in range. -/
def lenOk (n : Nat) : Bool := n % 4096 = 0 && 4096 ≤ n && n ≤ 12582912

/-- Every byte that Table 19.1 does not name is 0. -/
def hdrZeros (h : List Byte) : Bool :=
  [(0x2B, 1), (0x34, 12), (0x840, 0x7C0), (0x1D2D, 0x2D3)].all fun p => (sliceD 0#8 h p.1 p.2).all (· == 0#8)

/-- Checks 1 to 9 of Table 19.2: the code of the first that fails, else 0. -/
def Dev.hdrCheckSig (d : Dev) (h : List Byte) : Nat :=
  let i := hdrImg h
  let slot := hfield h 0x29 1
  let unit := hfield h 0x08 16
  let ed := sliceD 0#8 h 0x80 32
  let ml := sliceD 0#8 h 0xA0 1952
  let msg := beBytes 64 (Config.sha512 (sliceD 0#8 h 0 4096)).toNat
  if hfield h 0 4 ≠ 0x46474E46 then 0x01
  else if hfield h 4 2 ≠ 1 then 0x02
  else if hfield h 6 2 ≠ 0x5120 then 0x03
  else if !hdrZeros h || !lenOk i.aLen || !lenOk i.tLen || 16 ≤ i.revoke || 64 ≤ i.svn || bit i.revoke slot || i.setfHigh < i.setfLow then 0x04
  else if unit ≠ 0 ∧ unit ≠ Config.unitId.toNat then 0x05
  else if 3 < slot ∨ bit d.fwu.revoked slot = true ∨ Config.sha512 (ed ++ ml) ≠ Config.keySlot slot then 0x06
  else if i.svn < d.fwu.svn then 0x07
  else if !Config.verifies 0 ed msg (sliceD 0#8 h 0x1000 64) then 0x08
  else if !Config.verifies 1 ml msg (sliceD 0#8 h 0x1040 3309) then 0x09
  else 0

/-- CVY_PROTO of an image against a neighbour's (R424). -/
def protoOk (a b : Nat) : Bool := a / 256 = b / 256 && a % 256 ≤ b % 256 + 1 && b % 256 ≤ a % 256 + 1

/-- Neighbour ports whose VERSION is known. -/
def Dev.nbrs (d : Dev) : List Nat := (List.range 3).filter fun n => d.on (FWU_NBR_INFO.VALID n)

/-- Check 13 of an image against a neighbour port. -/
def Dev.peerOk (d : Dev) (i : Img) (n : Nat) : Bool :=
  i.minPeer ≤ d.rd (FWU_NBR_VER.VERSION n) && SMap.get 0 d.fwu.nbrMin n ≤ i.version

/-- An image is compatible with a neighbour port (R424). -/
def Dev.nbrOk (d : Dev) (i : Img) (n : Nat) : Bool := protoOk i.proto (d.rd (FWU_NBR_INFO.PROTO n)) && d.peerOk i n

/-- Checks 11 to 13: the code of the first that fails, else 0. -/
def Dev.hdrCheckEnv (d : Dev) (i : Img) : Nat :=
  let setf : Bool := match d.fwu.run with
    | some r => decide (i.setfLow ≤ r.setfProd) && decide (r.setfProd ≤ i.setfHigh)
    | none => true
  if !setf then 0x0B
  else if !d.nbrs.all (fun n => protoOk i.proto (d.rd (FWU_NBR_INFO.PROTO n))) then 0x0C
  else if !d.nbrs.all (d.peerOk i) then 0x0D
  else 0

/-- The checks of a header before any payload moves (R416); a cold start leaves out checks 11 to 13. -/
def Dev.hdrCheck (d : Dev) (cold : Bool) (h : List Byte) : Nat :=
  let c := d.hdrCheckSig h
  if c ≠ 0 then c else if cold then 0 else d.hdrCheckEnv (hdrImg h)

/-- Check 10: a payload matches its header's DIGEST. -/
def digestOk (h payload : List Byte) : Bool := (Config.sha512 payload).toNat = hfield h 0x40 64

/-! ### Boot flash (R417, R418) -/

def bankBase (b : Nat) : Nat := 0x2000000 * b

/-- The primary bank (R417): bank B with BOOT_SRC 0b01. -/
def Dev.primary (d : Dev) : Nat := if d.pwr.bootSrc = 1 then 1 else 0
def Dev.secondary (d : Dev) : Nat := 1 - d.primary

def Fwu.flashGet (f : Fwu) (a : Nat) : Byte := SMap.get 0xFF#8 f.flash a

def Fwu.flashRead (f : Fwu) (a n : Nat) : List Byte := (List.range n).map fun i => f.flashGet (a + i)

/-- Erased bytes read 0xFF. -/
def Dev.flashErase (d : Dev) (a n : Nat) : Dev :=
  { d with fwu := { d.fwu with flash := d.fwu.flash.filter fun p => p.1 < a || a + n ≤ p.1 } }

/-- Programming clears bits. -/
def Dev.flashProgram (d : Dev) (a : Nat) (bs : List Byte) : Dev :=
  let r := bs.foldl (fun (p : Nat × SMap Byte) b => (p.1 + 1, SMap.set 0xFF#8 p.2 p.1 (SMap.get 0xFF#8 p.2 p.1 &&& b))) (a, d.fwu.flash)
  { d with fwu := { d.fwu with flash := r.2 } }

def Dev.bankHdr (d : Dev) (b : Nat) : List Byte := d.fwu.flashRead (bankBase b) 8192
def Dev.bankPayload (d : Dev) (b : Nat) : List Byte :=
  d.fwu.flashRead (bankBase b + 0x2000) (hdrImg (d.bankHdr b)).payload

/-- A bank that a cold start may boot (R418): its header passes checks 1 to 9 and its payload check 10. -/
def Dev.bankOk (d : Dev) (b : Nat) : Bool :=
  d.hdrCheck true (d.bankHdr b) == 0 && digestOk (d.bankHdr b) (d.bankPayload b)

/-- The code that refuses an erase or a program (R418): protected, or the engine is staging or copying. -/
def Dev.flashRefusal (d : Dev) (a : Nat) : Nat :=
  if a < 0x4000000 then 0x01
  else match d.fwu.held with
    | some s => if a / 0x100000 = 64 + s then 0x01
        else if d.fState == fStaging || d.fState == fConfirming then 0x03 else 0
    | none => if d.fState == fStaging || d.fState == fConfirming then 0x03 else 0

/-- FWU_FL_CMD starts a command: OP 1 read, 2 program, 3 erase. One that finds another in progress is refused with 0x03. -/
def Dev.flashCmd (d : Dev) (op : Nat) : Dev :=
  if d.on FWU_FL_STATUS.BUSY then (d.wr FWU_FL_STATUS.ERR 1).wr FWU_FL_STATUS.CODE 0x03
  else
    let a := d.rd FWU_FL_ADDR.ADDR
    let data := (List.range 64).flatMap fun n => beBytes 4 (d.rd (FWU_DATA.DATA n))
    let c : FlCmd := { op, addr := a, data, code := if op = 1 then 0 else d.flashRefusal a }
    { d with fwu := { d.fwu with fl := some c } }.wr FWU_FL_STATUS.BUSY 1

/-- Bytes shown in consecutive words of FWU_DATA, byte 4n in [31:24]. -/
def Dev.showData (d : Dev) (bs : List Byte) : Dev :=
  (List.range (ceilDiv bs.length 4)).foldl (fun d n => d.wr (FWU_DATA.DATA n) (ofBe (sliceD 0#8 bs (4 * n) 4))) d

/-- A flash command completes; `ok` is the device's own report. -/
def Dev.flashDone (d : Dev) (ok : Bool) : Dev :=
  match d.fwu.fl with
  | none => d
  | some c =>
    let d := { d with fwu := { d.fwu with fl := none } }.wr FWU_FL_STATUS.BUSY 0
    if c.code ≠ 0 then (d.wr FWU_FL_STATUS.ERR 1).wr FWU_FL_STATUS.CODE c.code
    else if !ok then (d.wr FWU_FL_STATUS.ERR 1).wr FWU_FL_STATUS.CODE 0x02
    else
      let d := if c.op = 1 then d.showData (d.fwu.flashRead c.addr 256)
        else if c.op = 2 then d.flashProgram c.addr c.data
        else d.flashErase (c.addr / 65536 * 65536) 65536
      (d.wr FWU_FL_STATUS.DONE 1).wr FWU_FL_STATUS.CODE 0

/-! ### FWR messages (R420) -/

/-- The payload of Table 19.4. -/
def fwrBytes (op code xid offset arg : Nat) (data : List Byte) : List Byte :=
  [BitVec.ofNat 8 op, BitVec.ofNat 8 code] ++ beBytes 2 xid ++ beBytes 4 offset ++ beBytes 4 arg ++ data

/-- An FWR message sent to an address. -/
def Dev.fwrSend (d : Dev) (dst op code xid offset arg : Nat) (data : List Byte) : Dev :=
  match d.cvyRoute dst with
  | .out p => d.cvySend [p] false 0x0A dst (2 + ceilDiv data.length 8) (fwrBytes op code xid offset arg data)
  | .here => d
  | .lost => d.bump CVY_UNROUTE.COUNT

/-- The neighbour port of an address (R422): the sender of this device's ASSIGN, or an address it assigned on CVD0 or CVD1. -/
def Dev.nbrPort (d : Dev) (a : Nat) : Option Nat :=
  let own := d.cvyAddr
  let c0 := ((SMap.find d.cvy.kids 1).map Kid.count).getD 0
  if a = 0 ∨ own = 0 then none
  else if a = d.cvy.parent then some 0
  else if (SMap.find d.cvy.kids 1).isSome ∧ a = own + 1 then some 1
  else if (SMap.find d.cvy.kids 2).isSome ∧ a = own + 1 + c0 then some 2
  else none

/-- Addresses of the neighbours. -/
def Dev.nbrAddrs (d : Dev) : List Nat :=
  let own := d.cvyAddr
  let c0 := ((SMap.find d.cvy.kids 1).map Kid.count).getD 0
  [d.cvy.parent, own + 1, own + 1 + c0].filter fun a => (d.nbrPort a).isSome

/-- VERSION to every neighbour (R423), from a device that runs an image. -/
def Dev.versionSend (d : Dev) : Dev :=
  match d.fwu.run with
  | none => d
  | some r => d.nbrAddrs.eraseDups.foldl (fun d a =>
      d.fwrSend a 0x01 0 0 0 r.version (beBytes 4 r.minPeer ++ beBytes 2 r.proto ++ beBytes 2 r.setfProd)) d

/-- An FWR message received: carried on, and consumed where it is for this device (R344, R420). -/
def Dev.fwrRx (d : Dev) (op : Nat) (m : FwrMsg) (f : Dev → Dev) : Dev :=
  d.cvyRx m.port fun d =>
    d.cvyCarry m.port 0x0A m.dst m.src m.seq (fwrBytes op m.code m.xid m.offset m.arg m.data) f

/-- A VERSION from a neighbour is kept; from another address it is ignored (R423, R424). -/
def Dev.fwrVersion (d : Dev) (m : FwrMsg) : Dev :=
  d.fwrRx 0x01 m fun d => match d.nbrPort m.src with
    | none => d
    | some n =>
      let d := d.wrs [(FWU_NBR_VER.VERSION n, m.arg), (FWU_NBR_INFO.PROTO n, ofBe (sliceD 0#8 m.data 4 2)), (FWU_NBR_INFO.VALID n, 1)]
      let d := { d with fwu := { d.fwu with nbrMin := SMap.set 0 d.fwu.nbrMin n (ofBe (sliceD 0#8 m.data 0 4)) } }
      match d.fwu.run with
      | none => d
      | some r => if d.nbrOk r n then d else (d.wr FWU_STATUS.NBR_ERR 1).fault srcFwu contained 0x0F

/-! ### Staging (R419) -/

/-- Whether the image in hand is the one a cold start waits for (R419, Table 15.7). -/
def Dev.bootWaits (d : Dev) : Bool := 2 ≤ d.pwr.bootSrc && !d.pwr.step3

/-- FWU_CTRL.GO_HDR. With SRC 2 an OFFER starts the staging. -/
def Dev.fwGoHdr (d : Dev) (src : Nat) : Dev :=
  if d.fState ≠ fIdle then d.fwuRefuse 0x0F
  else if src = 2 then d
  else
    let s := if src = 1 then 1 else 0
    let hdr := if s = 0 then (List.range 2048).flatMap fun n => beBytes 4 (d.rd (FWU_HDR.DATA n)) else []
    { d with fwu := { d.fwu with src := s, hdr, blocks := [], next := 0, reading := false, cxlErr := false, boot := d.bootWaits } }.setFState fHdrCheck

/-- CXL bytes the staging has still to ask for: the header, then the payload once the header has passed (R419). -/
def Dev.cxlWanted (d : Dev) : Option Nat :=
  if d.fwu.src ≠ 1 ∨ d.fwu.reading ∨ d.fwu.cxlErr then none
  else if d.fState = fHdrCheck ∧ d.fwu.hdr.length < 8192 then some d.fwu.hdr.length
  else if d.fState = fStaging ∧ d.fwu.next < (hdrImg d.fwu.hdr).payload then some (8192 + d.fwu.next)
  else none

/-- The next 4 KiB read of a CXL staging: outside region 2, or with no port, it is an error (Table 19.2, 0x0E). -/
def Dev.stageRead (d : Dev) : Dev :=
  match d.cxlWanted with
  | none => d
  | some o =>
    let a := d.rd FWU_CXL_LO.ADDR * 4096 + d.rd FWU_CXL_HI.ADDR * 2 ^ 32 + o
    let bad := { d with fwu := { d.fwu with cxlErr := true } }
    if !d.cxlIn 2 a 4096 then bad
    else match d.cxlPort a with
      | some p =>
        if d.cxlUp p then
          let r : CxlRd := { port := p, addr := a, len := 4096, tick := d.tck.now, who := 1 }
          { d with cxl := { d.cxl with reads := d.cxl.reads ++ [r] }, fwu := { d.fwu with reading := true } }.cxlIssue p a 4096
        else bad
      | none => bad

/-- Payload bytes moved: into the secondary bank, or for a cold start into navigator memory. -/
def Dev.putPayload (d : Dev) (o : Nat) (bs : List Byte) : Dev :=
  if d.fwu.boot then
    let r := bs.foldl (fun (p : Nat × SMap Byte) b => (p.1 + 1, SMap.set 0#8 p.2 p.1 b)) (o, d.fwu.mem)
    { d with fwu := { d.fwu with mem := r.2 } }
  else d.flashProgram (bankBase d.secondary + 0x2000 + o) bs

/-- A CXL staging read ends. -/
def Dev.stageReturn (d : Dev) (bs : List Byte) (err : Bool) : Dev :=
  let d := { d with fwu := { d.fwu with reading := false } }
  if err then { d with fwu := { d.fwu with cxlErr := true } }
  else if d.fState = fHdrCheck then { d with fwu := { d.fwu with hdr := d.fwu.hdr ++ fitBytes bs 4096 } }
  else if d.fState = fStaging then
    let d := d.putPayload d.fwu.next (fitBytes bs 4096)
    { d with fwu := { d.fwu with next := d.fwu.next + 4096 } }.wr FWU_PROGRESS.BLOCKS ((d.fwu.next + 4096) / 4096)
  else d

/-- The sender of the incoming transfer is told. -/
def Dev.rxTell (d : Dev) (op code : Nat) (arg : Nat := 0) : Dev :=
  match d.fwu.rx with
  | some r => d.fwrSend r.peer op code r.xid 0 arg []
  | none => d

/-- The incoming transfer ends. -/
def Dev.rxEnd (d : Dev) : Dev := { d with fwu := { d.fwu with rx := none } }

/-- The header checks complete (R416, R419). -/
def Dev.fwHdrDone (d : Dev) : Dev :=
  if d.fState ≠ fHdrCheck then d
  else
    let conv := d.fwu.src = 2
    let no (c : Nat) : Dev :=
      let d := (d.fwuRefuse c).setFState fIdle
      if conv then (d.rxTell 0x04 c).rxEnd else d
    if d.fwu.cxlErr then no 0x0E
    else if d.fwu.hdr.length < 8192 then d
    else
      let c := d.hdrCheck d.fwu.boot d.fwu.hdr
      if c ≠ 0 then no c
      else
        let d := ({ d with fwu := { d.fwu with blocks := [], next := 0, mem := [], memOk := false } }.setFState fStaging).wr FWU_PROGRESS.BLOCKS 0
        let d := if d.fwu.boot then d
          else (d.flashErase (bankBase d.secondary) 8192).flashErase (bankBase d.secondary + 0x2000)
            (ceilDiv (0x2000 + (hdrImg d.fwu.hdr).payload) 65536 * 65536 - 0x2000)
        if conv then d.rxTell 0x03 0 else d

/-- FWU_DATA_CMD.GO: the engine takes a block of a window staging. -/
def Dev.fwDataBlock (d : Dev) (block : Nat) : Dev :=
  if d.fState ≠ fStaging ∨ d.fwu.src ≠ 0 then d.fwuRefuse 0x0F
  else if (hdrImg d.fwu.hdr).payload ≤ 4096 * block then d
  else
    let bs := (List.range 1024).flatMap fun n => beBytes 4 (d.rd (FWU_DATA.DATA n))
    let d := d.putPayload (4096 * block) bs
    let blocks := block :: d.fwu.blocks.filter (· != block)
    { d with fwu := { d.fwu with blocks } }.wr FWU_PROGRESS.BLOCKS blocks.length

/-- All of the payload has moved. -/
def Dev.payloadIn (d : Dev) : Bool :=
  if d.fwu.src = 0 then (hdrImg d.fwu.hdr).payload ≤ 4096 * d.fwu.blocks.length else (hdrImg d.fwu.hdr).payload ≤ d.fwu.next

/-- The payload as moved. -/
def Dev.payloadMoved (d : Dev) : List Byte :=
  let n := (hdrImg d.fwu.hdr).payload
  if d.fwu.boot then (List.range n).map (SMap.get 0#8 d.fwu.mem) else d.fwu.flashRead (bankBase d.secondary + 0x2000) n

/-- A staging ends: the header is programmed last, and the state is STAGED (R419); a failure leaves the bank without header.
`flashOk` is what programming and read-back report. -/
def Dev.fwStagingDone (d : Dev) (flashOk : Bool) : Dev :=
  if d.fState ≠ fStaging then d
  else
    let conv := d.fwu.src = 2
    let no (c : Nat) : Dev :=
      let d := (if c = 0x0A then d.fwuRefuse c else d.fwuFail c).setFState fIdle
      if conv then (d.rxTell 0x07 c).rxEnd else d
    if d.fwu.cxlErr then no 0x0E
    else if !d.payloadIn then d
    else if !flashOk && !d.fwu.boot then no 0x0E
    else if !digestOk d.fwu.hdr d.payloadMoved then no 0x0A
    else
      let d := if conv then (d.rxTell 0x07 0).rxEnd else d
      if d.fwu.boot then ({ d with fwu := { d.fwu with memOk := true } }.setFState fIdle).fwuDone
      else
        ((d.flashProgram (bankBase d.secondary) d.fwu.hdr).setFState fStaged).fwuDone.wr FWU_STG_VER.VERSION (hdrImg d.fwu.hdr).version

/-! ### Relay (R421, R422) -/

def Dev.rto (d : Dev) : Nat := max 1 (d.rd FWU_RELAY.RTO)

/-- A chunk of an image in a bank: the header is 0 to 8,191. -/
def Dev.imageBytes (d : Dev) (bank o n : Nat) : List Byte := d.fwu.flashRead (bankBase bank + o) n

/-- The bytes that the message at an image offset carries: up to 112, within the header or the payload. -/
def chunkLen (len o : Nat) : Nat := if o < 8192 then min 112 (8192 - o) else min 112 (len - o)

/-- The sender may send its next message: every OFFER; DATA once accepted, at most 64 chunks beyond the last ACK; and the
transmit queue has a place. -/
def Dev.txMay (d : Dev) (x : TxXfer) : Bool :=
  let room := match d.cvyRoute x.peer with
    | .out p => ((SMap.get [] d.cvy.tx p).countP fun e => d.instant < e.1) < 60
    | _ => true
  room && x.next < x.len && (x.next < 8192 || (x.accepted && x.next < max 8192 x.acked + 64 * 112))

/-- The sender sends what it may, at most 74 messages at a time. -/
def Dev.txPump (d : Dev) : Nat → Dev
  | 0 => d
  | k + 1 => match d.fwu.tx with
    | none => d
    | some x =>
      if d.txMay x then
        let n := chunkLen x.len x.next
        let op := if x.next < 8192 then 0x02 else 0x05
        let arg := if x.next < 8192 then x.len else 0
        let d := d.fwrSend x.peer op 0 x.xid x.next arg (d.imageBytes x.bank x.next n)
        Dev.txPump { d with fwu := { d.fwu with tx := some { x with next := x.next + n } } } k
      else d

/-- An outgoing transfer starts: the image of a bank is offered to an address; a second one is refused. -/
def Dev.txStart (d : Dev) (peer bank : Nat) : Dev :=
  if d.fwu.tx.isSome then d.fwuRefuse 0x0F
  else
    let len := 8192 + (hdrImg (d.bankHdr bank)).payload
    let x : TxXfer := { peer, xid := d.fwu.xid, bank, len, next := 0, acked := 0, accepted := false, last := d.tck.now, tries := 0 }
    { d with fwu := { d.fwu with tx := some x, xid := (d.fwu.xid + 1) % 65536 } }.txPump 74

/-- FWU_CTRL.SEND (R422). -/
def Dev.fwSend (d : Dev) (dst sbank : Nat) : Dev := d.txStart dst (if sbank = 0 then d.primary else d.secondary)

/-- The outgoing transfer, when a message names it. -/
def Dev.txOf (d : Dev) (m : FwrMsg) : Option TxXfer := d.fwu.tx.filter fun x => x.peer == m.src && x.xid == m.xid
def Dev.rxOf (d : Dev) (m : FwrMsg) : Option RxXfer := d.fwu.rx.filter fun x => x.peer == m.src && x.xid == m.xid

/-- OFFER: from a neighbour, in offset order, the first one starting a staging; from another address, or to an engine that is
not free, refused with 0x0F. -/
def Dev.fwrOffer (d : Dev) (m : FwrMsg) : Dev :=
  d.fwrRx 0x02 m fun d =>
    match d.rxOf m with
    | some r =>
      if d.fState = fHdrCheck ∧ m.offset = d.fwu.hdr.length then
        { d with fwu := { d.fwu with hdr := d.fwu.hdr ++ m.data.take (8192 - m.offset), rx := some { r with last := d.tck.now } } }
      else { d with fwu := { d.fwu with rx := some { r with last := d.tck.now } } }
    | none =>
      if (d.nbrPort m.src).isNone || d.fwu.rx.isSome || d.fState ≠ fIdle then
        (d.bump FWU_REFUSED.COUNT).fwrSend m.src 0x04 0x0F m.xid 0 0 []
      else if m.offset ≠ 0 then d
      else
        let r : RxXfer := { peer := m.src, xid := m.xid, last := d.tck.now, chunks := 0 }
        { d with fwu := { d.fwu with src := 2, hdr := m.data, blocks := [], next := 0, reading := false, cxlErr := false,
                                      boot := d.bootWaits, rx := some r } }.setFState fHdrCheck

/-- ACCEPT: the first one lets DATA go. -/
def Dev.fwrAccept (d : Dev) (m : FwrMsg) : Dev :=
  d.fwrRx 0x03 m fun d => match d.txOf m with
    | some x => if x.accepted then d else { d with fwu := { d.fwu with tx := some { x with accepted := true, next := 8192, acked := 8192, last := d.tck.now, tries := 0 } } }.txPump 74
    | none => d

/-- The outgoing transfer ends with a code. -/
def Dev.txEnd (d : Dev) (code : Nat) : Dev :=
  let d := { d with fwu := { d.fwu with tx := none } }
  if code = 0 then d.fwuDone else d.fwuFail code

def Dev.fwrRefuse (d : Dev) (m : FwrMsg) : Dev :=
  d.fwrRx 0x04 m fun d => if (d.txOf m).isSome then d.txEnd m.code else d

/-- DATA: the next chunk is taken and any other ignored; ACK every 16 chunks and after the last byte. -/
def Dev.fwrData (d : Dev) (m : FwrMsg) : Dev :=
  d.fwrRx 0x05 m fun d => match d.rxOf m with
    | some r =>
      let p := (hdrImg d.fwu.hdr).payload
      if d.fState = fStaging ∧ d.fwu.src = 2 ∧ m.offset = 8192 + d.fwu.next ∧ d.fwu.next < p then
        let bs := m.data.take (p - d.fwu.next)
        let next := d.fwu.next + bs.length
        let d := d.putPayload d.fwu.next bs
        let ack : Bool := decide (r.chunks = 15) || decide (p ≤ next)
        let d := { d with fwu := { d.fwu with next, rx := some { r with last := d.tck.now, chunks := if ack then 0 else r.chunks + 1 } } }.wr
          FWU_PROGRESS.BLOCKS (next / 4096)
        if ack then d.rxTell 0x06 0 (8192 + next) else d
      else { d with fwu := { d.fwu with rx := some { r with last := d.tck.now } } }
    | none => d

/-- ACK: progress; one that arrives after a resend may name an offset beyond it. -/
def Dev.fwrAck (d : Dev) (m : FwrMsg) : Dev :=
  d.fwrRx 0x06 m fun d => match d.txOf m with
    | some x => if x.acked < m.arg ∧ m.arg ≤ x.len then
        { d with fwu := { d.fwu with tx := some { x with acked := m.arg, next := max x.next m.arg, last := d.tck.now, tries := 0 } } }.txPump 74
      else d
    | none => d

def Dev.fwrDone (d : Dev) (m : FwrMsg) : Dev :=
  d.fwrRx 0x07 m fun d => if (d.txOf m).isSome then d.txEnd m.code else d

/-- A staging in hand is given up: IDLE, and a code. -/
def Dev.stageAbort (d : Dev) (code : Nat) : Dev := (d.fwuFail code).setFState fIdle

def Dev.fwrAbort (d : Dev) (m : FwrMsg) : Dev :=
  d.fwrRx 0x08 m fun d =>
    let d := if (d.rxOf m).isSome then (d.stageAbort m.code).rxEnd else d
    if (d.txOf m).isSome then d.txEnd m.code else d

/-- REQUEST is served from the primary bank, if no transfer runs (R422). -/
def Dev.fwrRequest (d : Dev) (m : FwrMsg) : Dev :=
  d.fwrRx 0x09 m fun d => if d.fwu.tx.isSome then d else d.txStart m.src d.primary

/-- No ACK progress for RTO ticks: resend, or give up after RETRY resends (R421). -/
def Dev.fwRelayResend (d : Dev) : Dev :=
  match d.fwu.tx with
  | none => d
  | some x =>
    if tickSub d.tck.now x.last < d.rto then d
    else if x.tries < d.rd FWU_RELAY.RETRY then
      { d with fwu := { d.fwu with tx := some { x with next := x.acked, last := d.tck.now, tries := x.tries + 1 } } }.txPump 74
    else (d.fwrSend x.peer 0x08 0x15 x.xid 0 0 []).txEnd 0x15

/-- A receiver that receives nothing for (RETRY + 1) × RTO ticks (R421). -/
def Dev.fwRelayRxTimeout (d : Dev) : Dev :=
  match d.fwu.rx with
  | none => d
  | some r =>
    if tickSub d.tck.now r.last < (d.rd FWU_RELAY.RETRY + 1) * d.rto then d
    else ((d.rxTell 0x08 0x15).rxEnd).stageAbort 0x15

/-! ### Activation (R425 to R428) -/

/-- A load starts: the core of each pair that does not drive leaves lockstep. -/
def Dev.loadStart (d : Dev) (revert : Bool) : Dev :=
  ({ d with fwu := { d.fwu with revert, split := true, load := none, x := none } }.setFState fLoading).wr FWU_PROGRESS.BLOCKS 0

/-- FWU_CTRL.LOAD. -/
def Dev.fwLoad (d : Dev) : Dev := if d.fState = fStaged then d.loadStart false else d.fwuRefuse 0x0F

/-- The load or the activation ends without a switch: the loading cores are reloaded from their twins, and the state is STAGED. -/
def Dev.loadEnd (d : Dev) (code : Nat) : Dev :=
  ((d.fwuFail code).setFState fStaged).wrs [(FWU_STATUS.HO_REQ, 0), (FWU_HO.READY_A, 0), (FWU_HO.READY_T, 0)]
  |> fun d => { d with fwu := { d.fwu with split := false, load := none, revert := false, x := none } }

/-- The bank the load reads: the secondary, for a revert the primary (R431). -/
def Dev.loadBank (d : Dev) : Nat := if d.fwu.revert then d.primary else d.secondary

/-- The loading cores hold their sections, or one of them reports an error. -/
def Dev.fwLoadDone (d : Dev) (err : Bool) : Dev :=
  if d.fState ≠ fLoading then d
  else if err then d.loadEnd 0x10
  else
    let h := d.bankHdr d.loadBank
    if !digestOk h (d.bankPayload d.loadBank) then d.loadEnd 0x0A
    else
      let i := hdrImg h
      (({ d with fwu := { d.fwu with load := some i } }.setFState fLoaded).wr FWU_PROGRESS.BLOCKS (i.payload / 4096)).fwuDone

/-- FWU_HOLEAD.TICKS as it acts. -/
def Dev.holead (d : Dev) : Nat := max 16 (d.rd FWU_HOLEAD.TICKS)

/-- FWU_CTRL.ACTIVATE (R424, R426). -/
def Dev.fwActivate (d : Dev) : Dev :=
  match d.fwu.load with
  | some i =>
    if d.fState ≠ fLoaded then d.fwuRefuse 0x0F
    else
      let c := d.hdrCheckEnv i
      let x := d.rdPair FWU_ACT_TICK_LO.TICK FWU_ACT_TICK_HI.TICK
      if c ≠ 0 then d.fwuRefuse c
      else if !tickFuture x d.tck.now || tickSub x d.tck.now < d.holead + 2 then d.fwuRefuse 0x16
      else { d with fwu := { d.fwu with x := some x } }
  | none => d.fwuRefuse 0x0F

/-- An FW_ACTIVATE action of target S (R428), with the tick of receipt in progress. -/
def Dev.takeActivate (d : Dev) (s arg : Nat) : Dev :=
  if d.fState ≠ fStaged ∧ d.fState ≠ fLoaded ∧ d.fState ≠ fLoading then d
  else if d.rd FWU_STG_VER.VERSION ≠ arg then d
  else
    let ok : Bool := match d.fwu.load with
      | some i => d.fState == fLoaded && d.on FWU_CTRL.FOLLOW && d.hdrCheckEnv i == 0 && tickFuture s d.tck.now &&
          decide (d.holead ≤ tickSub s d.tck.now)
      | none => false
    if ok then { d with fwu := { d.fwu with x := some s } }
    else (d.wr FWU_STATUS.MISSED 1).wr FWU_STATUS.CODE 0x13

/-- FWU_CTRL.ABORT. -/
def Dev.fwAbort (d : Dev) : Dev :=
  if d.fState = fStaging then
    let d := if d.fwu.src = 2 then (d.rxTell 0x08 0x12).rxEnd else d
    d.stageAbort 0x12
  else if d.fState = fLoading ∨ d.fState = fLoaded ∨ d.fState = fHandover then d.loadEnd 0x12
  else d.fwuRefuse 0x0F

/-- FWU_CTRL.REVERT (R431). -/
def Dev.fwRevert (d : Dev) : Dev :=
  if d.fState ≠ fTrial then d.fwuRefuse 0x0F
  else match d.fwu.old, d.fwu.run with
    | some o, some r => if o.setfLow ≤ r.setfProd ∧ r.setfProd ≤ o.setfHigh then d.loadStart true else d.fwuRefuse 0x14
    | _, _ => d.fwuRefuse 0x14

/-- The boundary of tick X - HOLEAD (R426). -/
def Dev.fwHandoverStart (d : Dev) : Dev :=
  match d.fwu.x with
  | some x => if d.fState = fLoaded ∧ tickAdd d.tck.now d.holead = x then (d.setFState fHandover).wr FWU_STATUS.HO_REQ 1 else d
  | none => d

/-- A die's firmware has written its record into its handover area of 4 MiB and sets its READY (R426): 0 Atkor, 1 Trelier. -/
def Dev.fwHandoverReady (d : Dev) (die : Nat) (rec_ : List Byte) : Dev :=
  if d.fState ≠ fHandover then d
  else if die = 0 then { d with fwu := { d.fwu with hoA := rec_.take 4194304 } }.wr FWU_HO.READY_A 1
  else { d with fwu := { d.fwu with hoT := rec_.take 4194304 } }.wr FWU_HO.READY_T 1

/-- A settings slot's FORMAT and GEN, if it begins with MAGIC (R418). -/
def Dev.slotOf (d : Dev) (n : Nat) : Option (Nat × Nat) :=
  let h := d.fwu.flashRead (0x4000000 + 0x100000 * n) 12
  if hfield h 0 4 = 0x46474E53 then some (hfield h 4 2, hfield h 8 4) else none

/-- The slot held for an old image's SETF_PROD (R429): the higher GEN when both qualify. -/
def Dev.heldSlot (d : Dev) (prod : Nat) : Option Nat :=
  match (d.slotOf 0).filter (fun s => s.1 == prod), (d.slotOf 1).filter (fun s => s.1 == prod) with
  | some a, some b => if a.2 < b.2 then some 1 else some 0
  | some _, none => some 0
  | none, some _ => some 1
  | none, none => none

/-- The boundary of tick X (R427). -/
def Dev.fwSwitch (d : Dev) : Dev :=
  if d.fState ≠ fHandover ∨ d.fwu.x ≠ some d.tck.now then d
  else
    let ready := d.on FWU_HO.READY_A && d.on FWU_HO.READY_T
    let d := { d with fwu := { d.fwu with x := none } }.wrs [(FWU_STATUS.HO_REQ, 0), (FWU_HO.READY_A, 0), (FWU_HO.READY_T, 0)]
    match ready, d.fwu.load with
    | true, some i =>
      let held := if d.fwu.revert then d.fwu.held else (d.fwu.run.bind fun r => d.heldSlot r.setfProd)
      let d := { d with fwu := { d.fwu with old := d.fwu.run, run := some i, load := none, held } }
      let d := [0, 1].foldl (fun d die => d.wr (navDriver die) (1 - d.rd (navDriver die))) d
      ((d.wr FWU_RUN_VER.VERSION i.version).setFState fResync).versionSend
    | _, _ => (d.fwuFail 0x11).setFState fLoaded

/-- The old cores are reloaded and lockstep rejoins: TRIAL, or after a revert STAGED (R427, R431). -/
def Dev.fwResyncDone (d : Dev) : Dev :=
  if d.fState ≠ fResync then d
  else
    let rev := d.fwu.revert
    let d := { d with fwu := { d.fwu with split := false, revert := false, held := if rev then none else d.fwu.held } }
    (d.setFState (if rev then fStaged else fTrial)).fwuDone

/-- The cores of a pair disagree or report errors. While the pairs are split no comparison runs (R425): an uncorrectable error of
the driving core is FATAL, one of the loading core ends the load. -/
def Dev.navError (d : Dev) (die : Nat) (ueDriver ueShadow : Bool) : Dev :=
  if !d.fwu.split then d.navMismatch die ueDriver ueShadow
  else
    let d := if ueDriver then d.fault (0x340 + die) fatal 0x02 else d
    if ueShadow && (d.fState == fLoading || d.fState == fLoaded || d.fState == fHandover) then d.loadEnd 0x10 else d

/-! ### Confirmation (R430) -/

/-- FWU_CONFIRM with GO: fuses are blown, unless a blow fails, and the primary bank's header is erased. -/
def Dev.fwConfirm (d : Dev) (key : Nat) (blowOk : Bool) : Dev :=
  if key ≠ 0x7E3B then d
  else if d.fState = fTrial then
    let i := hdrImg (d.bankHdr d.secondary)
    let d := if blowOk then
        let svn := max d.fwu.svn i.svn
        let revoked := d.fwu.revoked ||| i.revoke
        { d with fwu := { d.fwu with svn, revoked } }.wrs [(FWU_FUSE.SVN, svn), (FWU_FUSE.REVOKED, revoked)]
      else d.fault srcFwu contained 0x0E
    (d.flashErase (bankBase d.primary) 8192).setFState fConfirming
  else if d.fState = fIdle ∧ d.on FWU_STATUS.PRIMARY_BAD then (d.flashErase (bankBase d.primary) 8192).setFState fConfirming
  else d.fwuRefuse 0x0F

/-- The secondary bank is copied, header last; the held slot is released. -/
def Dev.fwConfirmDone (d : Dev) : Dev :=
  if d.fState ≠ fConfirming then d
  else
    let h := d.bankHdr d.secondary
    let p := d.bankPayload d.secondary
    let base := bankBase d.primary
    let d := (d.flashErase (base + 0x2000) (ceilDiv (0x2000 + p.length) 65536 * 65536 - 0x2000)).flashProgram (base + 0x2000) p
    ({ d.flashProgram base h with fwu := { (d.flashProgram base h).fwu with held := none } }.setFState fIdle).fwuDone

/-- What a reset leaves of the engine (R431): flash, fuses and neighbours stay; a reset in LOADED, HANDOVER, RESYNC or TRIAL
sets FELLBACK. -/
def Fwu.afterReset (f : Fwu) : Fwu :=
  { Fwu.reset with flash := f.flash, svn := f.svn, revoked := f.revoked, nbrMin := f.nbrMin, xid := f.xid }

/-- The GEN of the settings slot that an image's navigator firmware starts from (R418): the highest whose FORMAT the image reads. -/
def Dev.settingsGen (d : Dev) (i : Img) : Option Nat :=
  let gens := ([0, 1].filterMap d.slotOf).filterMap fun s => if i.setfLow ≤ s.1 ∧ s.1 ≤ i.setfHigh then some s.2 else none
  gens.max?

/-- The image a start has loaded is entered: its bank, and STAGED when the secondary bank passes with another VERSION. -/
def Dev.fwBooted (d : Dev) (i : Img) (bank : Nat) : Dev :=
  let wan := { d.wan with settings := d.settingsGen i }
  let d := { d with fwu := { d.fwu with run := some i }, wan }.wrs [(FWU_RUN_VER.VERSION, i.version), (FWU_STATUS.RUN_BANK, bank)]
  let s := hdrImg (d.bankHdr d.secondary)
  if d.bankOk d.secondary ∧ s.version ≠ i.version then (d.setFState fStaged).wr FWU_STG_VER.VERSION s.version
  else d.setFState fIdle

end Sys2Proof.Machine
end

