-- ==== Sys2Proof/Machine/Swap.lean ====
section
/-! DEFINITION. Loading and swapping chart banks (R72 to R75, R96 to R103, R118), and the twin sequencers (R86, R87). -/

namespace Sys2Proof.Machine

/-! ### The chart load window -/

/-- The shadow bank refuses GO commands (R98). -/
def Dev.shadowBusy (d : Dev) : Bool := d.on CHT_STATUS.OLD_BUSY || d.on CHT_STATUS.CHECKING || d.on CHT_STATUS.ARMED

/-- A refused shadow write (R98). -/
def Dev.shadowRefuse (d : Dev) : Dev := (d.wr CHT_STATUS.REFUSED 1).bump CHT_REFUSED.COUNT

/-- CHT_LD_DATA0 to 7 as one entry. -/
def Dev.chtData (d : Dev) : BitVec 256 :=
  BitVec.ofNat 256 ((List.range 8).map fun n => d.rd (CHT_LD_DATA.DATA n) * 2 ^ (32 * n)).sum

/-- A write of CHT_LD_CMD (R72). -/
def Dev.chartCmd (d : Dev) (go rd : Bool) : Dev :=
  if d.on CHT_LD_STATUS.BUSY then d.wr CHT_LD_STATUS.OVERLAP 1
  else
    let c : LoadCmd := { go, rd, addr := d.reg CHT_LD_ADDR.addr, data := d.chtData }
    { d with cht := { d.cht with ld := some c } }.wr CHT_LD_STATUS.BUSY 1

/-- The outcome of a chart load command. -/
def Dev.chartResult (d : Dev) (code eslot : Nat) : Dev :=
  d.wrs [(CHT_LD_STATUS.CODE, code), (CHT_LD_STATUS.ESLOT, eslot), (CHT_LD_STATUS.ERR, if code = 0 then d.rd CHT_LD_STATUS.ERR else 1)]

/-- A row of the quads' replicas is written (R40, R72, R77): what was wrong there is gone, and injections armed for their pipelines fall. -/
def Dev.replicasWrote (d : Dev) (first k : Nat) : Dev :=
  let d := (List.range 16).foldl (fun (d : Dev) q => d.eccClear (first + 4 * q) .row k) d
  (List.range 64).foldl (fun (d : Dev) p => d.injectInto (first + p) (quadSrc (first + p)) .row k) d

/-- Every replica's row is written by a load. -/
def Dev.rowsWrote (d : Dev) (c : LoadCmd) : Dev :=
  let k := (1 - d.activeNo) * 65536 + 512 * ldStage c.addr + ldIndex c.addr
  if ldTgt c.addr = 0 then d.replicasWrote 0x040 k
  else if ldTgt c.addr = 1 then d.replicasWrote 0x080 k
  else d

/-- A chart load command completes (R72 to R75). -/
def Dev.chartDone (d : Dev) : Dev :=
  match d.cht.ld with
  | none => d
  | some c =>
    let d := { d with cht := { d.cht with ld := none } }.wrs [(CHT_LD_STATUS.BUSY, 0), (CHT_LD_STATUS.DONE, 1)]
    if c.go && c.rd then d.chartResult 0x13 7
    else if c.go then
      if d.shadowBusy then d.shadowRefuse.chartResult 0x01 7
      else match (checkTarget c.addr).or (checkData c.addr c.data) with
        | some e => d.chartResult e.1 e.2
        | none => ((d.setShadow (loadEntry d.shadow c.addr c.data)).rowsWrote c).chartResult 0 7
    else if c.rd then
      match checkTarget c.addr with
      | some e => d.chartResult e.1 7
      | none =>
        let v := (readEntry d.shadow c.addr).toNat
        ((List.range 8).foldl (fun d n => d.wr (CHT_LD_DATA.DATA n) (v / 2 ^ (32 * n))) d).chartResult 0 7
    else d.chartResult 0 7

/-! ### The parse graph load window (R118) -/

def Dev.prsData (d : Dev) : BitVec 256 :=
  BitVec.ofNat 256 ((List.range 4).map fun n => d.rd (PRS_LD_DATA.DATA n) * 2 ^ (32 * n)).sum

def Dev.prsCmd (d : Dev) (go rd : Bool) : Dev :=
  if d.on PRS_LD_STATUS.BUSY then d.wr PRS_LD_STATUS.OVERLAP 1
  else
    let c : LoadCmd := { go, rd, addr := d.reg PRS_LD_ADDR.addr, data := d.prsData }
    { d with cht := { d.cht with prsLd := some c } }.wr PRS_LD_STATUS.BUSY 1

def Dev.prsResult (d : Dev) (code : Nat) : Dev :=
  d.wrs [(PRS_LD_STATUS.CODE, code), (PRS_LD_STATUS.ERR, if code = 0 then d.rd PRS_LD_STATUS.ERR else 1)]

/-- The target and address checks of a graph entry. -/
def prsTarget (a : BitVec 32) : Nat :=
  let ix := prsIndex a
  if 3 ≤ prsTgt a then 0x02 else if (prsTgt a = 0 ∧ 256 ≤ ix) ∨ (prsTgt a = 2 ∧ 259 ≤ ix) then 0x03 else 0

/-- Every ingress pipeline's replica of a graph entry is written. -/
def Dev.graphWrote (d : Dev) (c : LoadCmd) : Dev :=
  let k := (1 - d.activeNo) * 65536 + prsIndex c.addr
  if prsTgt c.addr = 0 then (List.range 64).foldl (fun d p => d.wrote (0x040 + p) .pstate k) d
  else if prsTgt c.addr = 1 then (List.range 64).foldl (fun d p => d.wrote (0x040 + p) .ptrans k) d
  else d

def Dev.prsDone (d : Dev) : Dev :=
  match d.cht.prsLd with
  | none => d
  | some c =>
    let d := { d with cht := { d.cht with prsLd := none } }.wrs [(PRS_LD_STATUS.BUSY, 0), (PRS_LD_STATUS.DONE, 1)]
    let data := BitVec.ofNat 128 c.data.toNat
    if c.go && c.rd then d.prsResult 0x0A
    else if c.go then
      if d.shadowBusy then d.shadowRefuse.prsResult 0x01
      else
        let code := checkPrs c.addr data
        if code ≠ 0 then d.prsResult code
        else ((d.setShadow (loadGraph d.shadow c.addr data)).graphWrote c).prsResult 0
    else if c.rd then
      let code := prsTarget c.addr
      if code ≠ 0 then d.prsResult code
      else
        let v := readGraph d.shadow c.addr
        ((List.range 4).foldl (fun d n => d.wr (PRS_LD_DATA.DATA n) (v / 2 ^ (32 * n))) d).prsResult 0
    else d.prsResult 0

/-! ### Arming (R97, R102) -/

/-- A source code is allowed in a direction (Table 3.3). -/
def itinSrcOk (dir src : Nat) : Bool :=
  src = 0 || src = 6 || src = 7 || (dir = 0 && (src = 1 || src = 3 || src = 4 || src = 5)) || (dir = 1 && src = 2)

/-- GROUP and SUB lie within Table 3.3. -/
def itinFieldOk (pipe src group sub : Nat) : Bool :=
  (if src = 1 ∨ src = 2 then group = pipe else src = 3 || src = 4 || group = 0) &&
  (if src = 5 then decide (sub < 16) else if src = 6 then true else if src = 7 then decide (sub < 8) else decide (sub = 0))

/-- A LEAN variant's entry against the variant above it (R81). -/
def itinLeanOk (variant above e : Nat) : Bool :=
  e = above || (e = 0 && (variant = 3 || (variant = 1 && above / 4096 = 6) || (variant = 2 && above / 4096 = 3)))

/-- The first failing check of an entry: 0x07, 0x08, 0x09, and in a LEAN variant 0x0B; 0 when it passes. -/
def ChartBank.entryCheck (b : ChartBank) (dir pipe variant slot : Nat) : Nat :=
  let e := b.entry dir pipe variant slot
  let src := bits e 12 4
  if !itinSrcOk dir src then 0x07
  else if !itinFieldOk pipe src (bits e 6 6) (bits e 0 6) then 0x08
  else if (src = 3 ∨ src = 4) ∧ slot < 88 then 0x09
  else if variant ≠ 0 && !itinLeanOk variant (b.entry dir pipe (variant - 1) slot) e then 0x0B
  else 0

/-- Where a failure lies, as CHT_ARM_WHERE shows it. -/
def armWhere (dir pipe variant slot : Nat) : Nat := pipe + 64 * dir + 128 * variant + 512 * slot

/-- The scan of one variant of one itinerary: the first failure, with its code and its place. -/
def ChartBank.scanVariant (b : ChartBank) (dir pipe variant : Nat) : Option (Nat × Nat) :=
  match (List.range 512).find? fun s => b.entryCheck dir pipe variant s ≠ 0 with
  | some s => some (b.entryCheck dir pipe variant s, armWhere dir pipe variant s)
  | none =>
    if variant = 0 ∧ (List.range 512).countP (fun s => b.entry dir pipe 0 s / 4096 = 1 + dir) < 460 then some (0x0A, armWhere dir pipe 0 0)
    else none

/-- The scan of the shadow bank's itineraries in the order of R97. -/
def ChartBank.scan (b : ChartBank) : Option (Nat × Nat) :=
  (List.range 512).findSome? fun k => b.scanVariant (k / 256) (k / 4 % 64) (k % 4)

/-- An arm fails. -/
def Dev.armFail (d : Dev) (code place : Nat) : Dev :=
  (d.wrs [(CHT_STATUS.ARM_ERR, 1), (CHT_STATUS.ARM_CODE, code), (CHT_STATUS.CHECKING, 0)]).setReg CHT_ARM_WHERE.addr (BitVec.ofNat 32 place)

/-- CHT_SWAP_CTRL.DISARM (R102): a local arm before tick S - 1, a follower's before its command. -/
def Dev.disarm (d : Dev) : Dev :=
  let ok : Bool := d.on CHT_STATUS.ARMED &&
    (if d.cht.armScope = 0 then tickFuture d.cht.armTarget d.tck.now && decide (2 ≤ tickSub d.cht.armTarget d.tck.now)
     else decide (d.cht.armScope = 2) && d.cht.held.isNone)
  if ok then d.wr CHT_STATUS.ARMED 0 else d

/-- CHT_SWAP_CTRL.ARM with a SCOPE (R97): the checks that need no scan. A refusal with code 0x02 leaves what it finds. DESIGN CHOICE (log
entry 92): SCOPE and the target tick are those of this write; later writes of either do not change an arm. -/
def Dev.arm (d : Dev) (scope : Nat) : Dev :=
  let d := d.wr CHT_SWAP_CTRL.SCOPE scope
  let early (code : Nat) : Dev :=
    (d.wrs [(CHT_STATUS.ARM_ERR, 1), (CHT_STATUS.ARM_CODE, code)]).setReg CHT_ARM_WHERE.addr 0
  if d.on CHT_STATUS.OLD_BUSY then early 0x01
  else if d.on CHT_STATUS.ARMED || d.on CHT_STATUS.CHECKING then early 0x02
  else if scope % 4 = 3 then early 0x03
  else if scope % 4 ≠ 0 && !d.on TCK_STATUS.LOCKED then early 0x04
  else
    let target := d.rdPair CHT_SWAP_TICK_LO.TICK CHT_SWAP_TICK_HI.TICK
    { d with cht := { d.cht with armScope := scope % 4, armTarget := target } }.wr CHT_STATUS.CHECKING 1

/-- The scan completes (R97): the descriptor, the itineraries, the target tick. A lead then sends its command (R103). -/
def Dev.armChecked (d : Dev) : Dev :=
  if !d.on CHT_STATUS.CHECKING then d
  else
    let b := d.shadow
    let lead := d.cht.armScope = 1
    let least := if lead then d.rd CVY_K.K else 3
    if !b.valid then d.armFail 0x05 0
    else if b.epoch = d.active.epoch then d.armFail 0x06 0
    else match b.scan with
      | some e => d.armFail e.1 e.2
      | none =>
        let t := d.cht.armTarget
        if d.cht.armScope ≠ 2 && !(tickFuture t d.tck.now && decide (least ≤ tickSub t d.tck.now)) then d.armFail 0x0C 0
        else
          let d := (d.wrs [(CHT_STATUS.CHECKING, 0), (CHT_STATUS.ARMED, 1), (CHT_STATUS.ARM_CODE, 0)]).setReg CHT_ARM_WHERE.addr 0
          if lead then d.actionSend 0x01 t b.chartId else d

/-! ### The swap (R99, R293) -/

/-- The swap of the tick in progress. -/
def Dev.chartSwap (d : Dev) : Dev :=
  if !d.swapDue then d
  else
    let epoch := d.shadow.epoch
    let d := d.wrs [(CHT_STATUS.ACTIVE, 1 - d.activeNo), (CHT_STATUS.ACT_EPOCH, epoch), (CHT_STATUS.ARMED, 0), (CHT_STATUS.SWAPPED, 1),
      (CHT_STATUS.OLD_BUSY, 1)]
    let d := d.wrTick CHT_LAST_SWAP_LO.TICK CHT_LAST_SWAP_HI.TICK d.tck.now
    ({ d with cht := { d.cht with held := none } }).nrgApply

/-! ### Twin sequencers (R86, R87) -/

/-- The driver that CHT_SEQ_STATUS shows. DESIGN CHOICE (log entry 90): the pairs' drivers can differ after a mismatch, and pair 0's is
shown. -/
def Dev.seqShow (d : Dev) : Dev := d.wr CHT_SEQ_STATUS.DRIVER (b2n (d.cht.driverB.getD 0 false))

/-- A pair's twins swap roles. -/
def Dev.seqFlip (d : Dev) (pair : Nat) : Dev :=
  { d with cht := { d.cht with driverB := d.cht.driverB.set pair (!(d.cht.driverB.getD pair false)) } }.seqShow

/-- A pair is resynchronising. -/
def Dev.seqBusy (d : Dev) (pair : Nat) : Bool := d.cht.resync.any fun p => p.1 == pair

/-- Every 65,536 ticks all pairs swap roles, but for those resynchronising. DESIGN CHOICE (log entry 91): a swap withheld so is not made
later. -/
def Dev.seqRoleSwap (d : Dev) : Dev :=
  if d.tck.now % 65536 ≠ 0 then d
  else (List.range 32).foldl (fun (d : Dev) k => if d.seqBusy k then d else d.seqFlip k) d

/-- A pair's twins differ; `ueA` and `ueB` are their own uncorrectable errors. -/
def Dev.seqMismatch (d : Dev) (pair : Nat) (ueA ueB : Bool) : Dev :=
  let pair := pair % 32
  let d := (d.bump CHT_SEQ_FAULT.COUNT).wr CHT_SEQ_STATUS.LAST_PAIR pair
  if ueA && ueB then d.fault (0x010 + pair) fatal 0x04
  else
    let drvB := d.cht.driverB.getD pair false
    let faultyB := if ueA || ueB then ueB else !drvB
    let d := if faultyB == drvB then d.seqFlip pair else d
    let r := (pair, tickAdd d.tck.now 1) :: d.cht.resync.filter (fun p => p.1 != pair)
    { d with cht := { d.cht with resync := r } }.fault (0x010 + pair) corrected 0x04

/-- RESYNC shows a pair from its reload at a boundary. -/
def Dev.seqReload (d : Dev) : Dev :=
  if d.cht.resync.any fun p => p.2 = d.tck.now then d.wr CHT_SEQ_STATUS.RESYNC 1 else d

/-- A reloaded twin resumes lockstep 2 ticks after its reload. -/
def Dev.seqResync (d : Dev) (pair : Nat) : Dev :=
  if d.cht.resync.any (fun p => p.1 == pair && tickReached (tickAdd p.2 2) d.tck.now) then
    let l := d.cht.resync.filter fun p => p.1 != pair
    { d with cht := { d.cht with resync := l } }.wr CHT_SEQ_STATUS.RESYNC (b2n (l.any fun p => tickReached p.2 d.tck.now))
  else d

end Sys2Proof.Machine
end

