-- ==== Sys2Proof/Machine/Audit.lean ====
section
/-! DEFINITION. The depot auditor (R193, R194), and what a holder's revocation does (R135, R150, R166, R192, R205, R238, R320). -/

namespace Sys2Proof.Machine

/-! ### Who holds a chain -/

/-- The chain of a queued packet, if its carriages are held, and the holder that lists it. -/
def QPkt.ref (p : QPkt) : List (Nat × Nat) :=
  match p.loc with
  | .res c => [(0x0200, c)]
  | .spilling c w => [(0x0400 + wStack (w.wptrs.headD w.recPtr), c)]
  | .refill (some c) _ _ => [(0x0200, c)]
  | _ => []

/-- The chain of a punt's copy that a read port owes or carries. -/
def CarRead.puntRef (r : CarRead) : List (Nat × Nat) :=
  match r.why with
  | .punt ring _ => [(0x0300 + ring, r.chain)]
  | _ => []

/-- Every reference to a chain: the holder that lists it, and the chain (R190, R193). -/
def Dev.refs (d : Dev) : List (Nat × Nat) :=
  d.que.q.flatMap (fun e => e.2.pkts.flatMap QPkt.ref) ++
  d.que.batch.map (fun e => (0x0200, e.pkt.chain)) ++
  d.que.slots.map (fun e => (0x0140 + e.1 / 512 % 64, e.2.chain)) ++
  d.pipe.passes.map (fun p => (p.own, p.pkt.chain)) ++
  d.pipe.ended.map (fun e => (e.pass.own, e.pass.pkt.chain)) ++
  d.pipe.recirc.map (fun w => (w.own, w.pkt.chain)) ++
  d.lku.layby.map (fun e => (0x0210 + e.2.pipe / 4, e.2.pkt.chain)) ++
  d.hst.punts.map (fun p => (0x0300 + p.ring, p.chain)) ++
  (d.hst.recs.filter fun x => !x.done).map (fun x => (0x0300 + x.ring, x.chain)) ++
  d.dpt.readQ.flatMap CarRead.puntRef ++ d.dpt.reads.flatMap (fun x => x.rd.puntRef) ++
  d.wan.deps.map (fun x => (if x.fabric then 0x0410 else 0x0140 + x.pipe, x.chain)) ++
  d.wan.tx.map (fun t => (0x0140 + t.x.pipe, t.x.chain)) ++
  d.fab.tails.map (fun t => (0x0410, t.x.chain)) ++ d.fab.sent.map fun e => (0x0410, e.2.1)

/-- A chain that a holder which is not revoked names to the auditor (R193). -/
def Dev.namedChain (d : Dev) (c : Nat) : Bool := d.refs.any fun r => r.2 == c && !d.isRevoked r.1

/-! ### The phases -/

def Dev.audPhase (d : Dev) : Nat := d.rd DPT_AUD_STATUS.PHASE
def Dev.setAudPhase (d : Dev) (p : Nat) : Dev :=
  (d.wr DPT_AUD_STATUS.PHASE p).wr DPT_STATUS.AUD_BUSY (b2n (decide (p ≠ 0)))

/-- The start at a boundary: the colour flips. -/
def Dev.audStart (d : Dev) : Dev :=
  if d.dpt.audWanted ∧ d.audPhase = 0 ∧ d.tck.slot = 0 then
    let x := { d.dpt with audWanted := false, audPos := 0, audFound := [] }
    (({ d with dpt := x }).wr DPT_AUD_STATUS.COLOUR (1 - d.rd DPT_AUD_STATUS.COLOUR)).setAudPhase 1
  else d

/-- The carriages that holders name: those of the chains they list, and the reassembly pool. -/
def Dev.named (d : Dev) : List Nat :=
  ((d.dpt.chains.filter fun e => d.namedChain e.1).flatMap fun e => e.2.held) ++ (if d.isRevoked 0x0411 then [] else d.fab.pool)

/-- Named carriages still of the old colour. -/
def Dev.toMark (d : Dev) : List Nat :=
  let col := d.rd DPT_AUD_STATUS.COLOUR
  d.named.filter fun p => SMap.get 0 d.dpt.mark p ≠ col

/-- Held carriages of the old colour in a window of headers. -/
def Dev.oldHeld (d : Dev) (lo n : Nat) : List Nat :=
  let col := d.rd DPT_AUD_STATUS.COLOUR
  (d.dpt.chains.flatMap (fun e => e.2.held) ++ d.fab.pool ++ d.dpt.orphans.map Prod.fst).filter fun p =>
    lo ≤ p && p < lo + n && SMap.get 0 d.dpt.mark p ≠ col

/-- A slack cycle of the auditor: 128 headers marked, or 128 swept. -/
def Dev.audSlack (d : Dev) : Dev :=
  if d.audPhase = 1 then
    let now := d.toMark.take 128
    let col := d.rd DPT_AUD_STATUS.COLOUR
    let mark := now.foldl (fun m p => SMap.set 0 m p col) d.dpt.mark
    let e := { d with dpt := { d.dpt with mark } }
    if now.length < 128 then e.setAudPhase 2 else e
  else if d.audPhase = 2 then
    let found := d.dpt.audFound ++ d.oldHeld d.dpt.audPos 128
    let pos := d.dpt.audPos + 128
    let e := { d with dpt := { d.dpt with audFound := found, audPos := pos } }
    if 1048576 ≤ pos then e.setAudPhase 3 else e
  else d

/-- A reclaimed carriage goes onto its bank's free list and is counted; `credits` are what its depot gets back, `counted` when DPT_FREE
counts it already (R311). Its header keeps OWNER as found (DESIGN CHOICE, log entry 84). -/
def Dev.backFree (d : Dev) (p owner : Nat) (credits : List (Nat × Nat)) (counted : Bool) : Dev :=
  let d := { d with dpt := { d.dpt with own := SMap.set 0 d.dpt.own p owner }.push p }
  let d := if counted then d
    else (credits.foldl (fun (d : Dev) e => d.credit1 e.1 e.2) d).wr DPT_FREE.COUNT (d.rd DPT_FREE.COUNT + 1)
  d.bump DPT_AUD_RECLAIM.COUNT

/-- An orphan of a chain reclaimed: the chain goes with its last carriage, and with it the charge of what was never placed. -/
def Dev.reclaimOf (d : Dev) (p c : Nat) (v : Chain) : Dev :=
  let rest := v.held.filter (· != p)
  let x := d.dpt
  let l := v.lose (if rest.isEmpty then 1 + (v.ncar - v.ptrs.length) else 1)
  let y := if rest.isEmpty then
      { x with chains := SMap.erase x.chains c, dead := SMap.ins x.dead c (v.ptrs.headD p), place := x.place.filter (fun e => e.chain != c),
               readQ := x.readQ.filter (fun r => r.chain != c), paid := x.paid.erase c }
    else { x with chains := SMap.ins x.chains c { v with ptrs := v.ptrs.take v.gone ++ rest, shr := l.2 } }
  { d with dpt := y }.backFree p (if p = v.ptrs.headD p then v.owner else SMap.get 0 x.own p) l.1 (x.paid.contains c)

/-- An orphan reclaimed (R193): of a chain, of the reassembly pool, whose cell is lost, or of none. -/
def Dev.reclaim (d : Dev) (p : Nat) : Dev :=
  match d.dpt.holding p with
  | some (c, v, _) => d.reclaimOf p c v
  | none =>
    if d.fab.pool.contains p then
      let gathers := d.fab.gathers.map fun g => { g with cells := g.cells.filter fun c => c.ptr != p }
      let fab := { d.fab with pool := d.fab.pool.erase p, free := d.fab.free.erase p, gathers }
      { d with fab }.backFree p 0x0411 [(257, 1)] false
    else match SMap.find d.dpt.orphans p with
      | some w =>
        { d with dpt := { d.dpt with orphans := SMap.erase d.dpt.orphans p } }.backFree p (bits w 44 16) [(w0Csrc w, 1)] false
      | none => d

/-- The apply at a boundary (R193, R194). -/
def Dev.audApply (d : Dev) : Dev :=
  if d.audPhase ≠ 3 ∨ d.tck.slot ≠ 0 then d
  else
    let old := d.oldHeld 0 1048576
    let due := d.dpt.audFound.filter old.contains
    let d := due.foldl Dev.reclaim d
    let d := ({ d with dpt := { d.dpt with audFound := [] } }.wrTick DPT_AUD_LAST_LO.TICK DPT_AUD_LAST_HI.TICK d.tck.now).setAudPhase 0
    if due.isEmpty then d else d.markFault d.tck.now

/-- A periodic audit comes due (R193). -/
def Dev.audPeriodic (d : Dev) : Dev :=
  let p := d.rd DPT_AUD_PERIOD.TICKS
  if d.on DPT_AUD_CTRL.AUTO ∧ p ≠ 0 ∧ d.tck.now % p = 0 then { d with dpt := { d.dpt with audWanted := true } } else d

/-! ### Revocation -/

/-- A holder of Table 7.4. -/
def carHolder (h : Nat) : Bool :=
  (0x0100 ≤ h && h ≤ 0x017F) || h == 0x0200 || (0x0210 ≤ h && h ≤ 0x021F) || (0x0300 ≤ h && h ≤ 0x034F) ||
  (0x0400 ≤ h && h ≤ 0x0407) || h == 0x0410 || h == 0x0411

/-- A holder that can be granted (R391). -/
def grantable (h : Nat) : Bool := carHolder h || h == 0x0001 || h == 0x0010 || h == 0x0011

/-- The lay-by entries of a parking quad are dropped with 0x16 (R166). -/
def Dev.laybyRevoke (d : Dev) (h : Nat) : Dev :=
  if 0x0210 ≤ h ∧ h ≤ 0x021F then
    (d.lku.layby.filter fun e => 0x0210 + e.2.pipe / 4 == h).foldl (fun (d : Dev) e =>
      let m := e.2.pkt.m
      let late := match e.2.st with
        | .walking w => d.lku.t2late ++ [w]
        | .done _ _ => d.lku.t2late
      let d := { d with lku := { d.lku with layby := SMap.erase d.lku.layby e.1, t2late := late } }
      ((d.bump LKU_LAYBY_REVOKED.COUNT).recDrop d.tck.now e.2.pipe (mATICK m) (mASLOT m) 0 0x16).releaseFor e.2.pkt.chain h) d
  else d

/-- The holder's revocation in slot cycle v (R192, R391): counted and recorded, with the effects each chapter lays down. -/
def Dev.revoke (d : Dev) (h : Nat) (sw : Bool) : Dev :=
  let d := { d with flt := { d.flt with revoked := (h, sw) :: d.flt.revoked.filter (· != (h, sw)) } }
  let d := (d.bump FLT_REVOKES.COUNT).wrs [(FLT_REVOKE_LAST.HOLDER, h), (FLT_REVOKE_LAST.SW, b2n sw)]
  let d := ((((d.asxRevoke h).lkuRevoke h).queRevoke h).laybyRevoke h).ringRevoke h
  let d := if 0x0400 ≤ h ∧ h ≤ 0x0407 then d.yrdFlags else d
  if carHolder h then { d with dpt := { d.dpt with audWanted := true } } else d

/-- A block's recovery completes (R383, R388): its source is out of recovery and the holders revoked with it are granted again. -/
def Dev.recovered (d : Dev) (src : Nat) : Dev :=
  if d.flt.recov.any (·.1 == src) then
    let hs := srcHolders src
    { d with flt := { d.flt with recov := d.flt.recov.filter (·.1 != src),
                                 revoked := d.flt.revoked.filter fun p => p.2 || !hs.contains p.1 } }
  else d

/-- A software-revoked holder is granted again at the first boundary at which no audit runs (R391). -/
def Dev.regrant (d : Dev) : Dev :=
  if d.tck.slot = 0 ∧ d.audPhase = 0 ∧ ¬ d.dpt.audWanted then
    { d with flt := { d.flt with revoked := d.flt.revoked.filter fun p => !p.2 } }
  else d

/-- The quarantine that Table 17.1 names for a source (R141, R338). -/
def Dev.quarantine (d : Dev) (src : Nat) : Dev :=
  if 0x100 ≤ src ∧ src ≤ 0x17F then d.asxQuarantine (src - 0x100)
  else if 0x300 ≤ src ∧ src ≤ 0x303 then (d.cxlLose (src - 0x300) 0x0A).recovered src
  else d

/-- One reaction of a record just written. -/
def Dev.carryOut (d : Dev) (p : Pend) : Dev :=
  match p with
  | .revoke h sw => d.revoke h sw
  | .quarantine src => d.quarantine src
  | .releaseHelm cause => d.helmRelease cause 0

end Sys2Proof.Machine
end

