-- ==== Sys2Proof/Machine/Flt.lean ====
section
/-! DEFINITION. The fault collector's commands (chapter 17): detections, clearing, revocation, reactions, injection, the test token;
and block resets (R358, Table 15.9). -/

namespace Sys2Proof.Machine

/-! ### Detections (R377 to R383) -/

/-- A source, class and event that Tables 17.1, 17.2 and 17.4 allow in a record. -/
def faultOk (src cls event : Nat) : Bool :=
  srcListed src && 1 ≤ cls && cls ≤ 3 && 1 ≤ event && event ≤ 0x13

/-- An uncorrectable word in a log slot sets VALID to 0 there (R382). -/
def Dev.logLose (d : Dev) (die slot : Nat) : Dev :=
  if die = 0 then { d with flt := { d.flt with logA := SMap.erase d.flt.logA slot } }
  else { d with flt := { d.flt with logT := SMap.erase d.flt.logT slot } }

/-- What a transfer carried is lost (R22): a lost packet's chain stays held, listed by nobody, until an audit. -/
def Dev.lose (d : Dev) (x : D2dLoss) : Dev :=
  match x with
  | .enqueue i => { d with que := { d.que with batch := d.que.batch.eraseIdx i } }
  | .command i => { d with que := { d.que with ops := d.que.ops.eraseIdx i } }
  | .dequeue key => { d with que := { d.que with slots := SMap.erase d.que.slots key } }
  | .departure key => { d with wan := { d.wan with deps := d.wan.deps.filter fun x => !(x.fabric && x.key == key) } }
  | .counts tick => d.nrgLose tick

/-- What crosses toward a receiver of the link: 0x2C0 that of Atkor, 0x2C1 that of Trelier. -/
def D2dLoss.toward (src : Nat) : D2dLoss → Bool
  | .dequeue _ | .counts _ => src == 0x2C0
  | .enqueue _ | .command _ | .departure _ => src == 0x2C1

/-- A receiver of the die-to-die link finds an uncorrectable transfer, which carried a list of things (R22, R380): timing-exposed. -/
def Dev.d2dError (d : Dev) (src : Nat) (lost : List D2dLoss) : Dev :=
  if src ≠ 0x2C0 ∧ src ≠ 0x2C1 then d
  else
    let d := (lost.filter (D2dLoss.toward src)).foldl Dev.lose d
    ((d.fault src contained 0x13 (d.tck.now * 2 ^ 48)).mark d.tck.now 3).bump TCK_EXP_CNT_D2D.COUNT

/-- A detector reports. `alters`: the fault alters an output of the tick (R23). An uncorrectable die-to-die error is CONTAINED whatever
class is named, and has lost what `lost` names (R22, R380). Of an uncorrectable log word, `detail` names the slot (R382). -/
def Dev.detect (d : Dev) (src cls event detail : Nat) (alters : Bool) (lost : List D2dLoss) : Dev :=
  if !faultOk src cls event then d
  else if event = 0x13 then d.d2dError src lost
  else if event = 0x02 ∧ 0x3F0 ≤ src ∧ src ≤ 0x3F1 then (d.logLose (src - 0x3F0) (detail % 2048)).fault src cls event 0
  else
    let d := d.fault src cls event detail
    if alters then d.markFault d.tck.now else d

/-- HALT takes effect (R386): once a boundary has passed since the record, or at once in a device without ticks. -/
def Dev.haltNow (d : Dev) : Dev :=
  if d.flt.pendHalt = 2 ∨ (d.flt.pendHalt = 1 ∧ ¬ d.tck.running) then
    { d with flt := { d.flt with pendHalt := 0 } }.wr FLT_STATUS.HALTED 1
  else d

/-- What a boundary does to reactions that wait for it (R383). -/
def Dev.fltBoundary (d : Dev) : Dev :=
  { d with flt := { d.flt with pendHalt := if d.flt.pendHalt = 1 then 2 else d.flt.pendHalt,
                               dueReset := d.flt.dueReset ++ d.flt.pendReset, pendReset := [] } }

/-- Quench windows whose closing tick has begun are closed (R389). -/
def Dev.quenchClose (d : Dev) : Dev :=
  { d with flt := { d.flt with windows := d.flt.windows.filter fun w => tickFuture w.close d.tck.now } }

/-- A window of 65,536 ticks of CORRECTED counts starts (R379). -/
def Dev.ceWindow (d : Dev) : Dev :=
  if d.tck.now % 65536 = 0 then { d with flt := { d.flt with ceCount := [], stormed := [] } } else d

/-! ### Clearing (R385) -/

/-- Records of a half changed. -/
def Flt.mapHalf (f : Flt) (die : Nat) (g : FltRec → FltRec) : Flt :=
  if die = 0 then { f with logA := f.logA.map (fun p => (p.1, g p.2)), fatA := f.fatA.map g }
  else { f with logT := f.logT.map (fun p => (p.1, g p.2)), fatT := f.fatT.map g }

/-- FLT_CLEAR with ALL 0: the record of a half that FLT_CLEAR_SEQ names. -/
def Dev.clearOne (d : Dev) (die : Nat) : Dev :=
  let seq := d.rd FLT_CLEAR_SEQ.SEQ
  { d with flt := d.flt.mapHalf die fun r => if r.seq = seq then { r with cleared := true } else r }

/-- FLT_CLEAR with ALL 1: every record of the named classes; FATAL empties the half's FATAL store. -/
def Dev.clearAll (d : Dev) (die classes : Nat) : Dev :=
  let f := d.flt.mapHalf die fun r => if bit classes (r.cls - 1) then { r with cleared := true } else r
  let f := if bit classes 2 then (if die = 0 then { f with fatA := [] } else { f with fatT := [] }) else f
  { d with flt := f }

/-! ### Revocation and reactions (R387, R391) -/

/-- A write of FLT_REVOKE. -/
def Dev.softRevoke (d : Dev) (holder key : Nat) : Dev :=
  if key = 0xC3E1 ∧ grantable holder then { d with flt := { d.flt with todo := d.flt.todo ++ [.revoke holder true] } }
  else d.wr FLT_STATUS.CFG_ERR 1

/-- A reaction code that a source's entry may hold for CORRECTED and CONTAINED. -/
def reactOk (src code : Nat) : Bool := code ≤ 1 || (code = 2 && srcQuar src) || (code = 3 && srcReset src) || code = 4 || code = 5

/-- A write of FLT_REACTn. -/
def Dev.reactWrite (d : Dev) (src value : Nat) : Dev :=
  if !srcListed src then d
  else if reactOk src (bits value 0 3) && reactOk src (bits value 4 3) && (bits value 8 3 = 4 || bits value 8 3 = 5) then
    d.setReg (FLT_REACT.addr src) (BitVec.ofNat 32 (value &&& 0x1777))
  else d.wr FLT_STATUS.CFG_ERR 1

/-! ### Injection and the test token (R392 to R394) -/

/-- Injection is open: test mode with INJECT. -/
def Dev.injOpen (d : Dev) : Bool := d.on FLT_STATUS.TESTMODE && bit d.flt.perms 0

/-- FLT_INJ as a GO write leaves it. -/
def Dev.injShow (d : Dev) (src cls type event : Nat) : Dev :=
  d.wrs [(FLT_INJ.SRC, src), (FLT_INJ.CLASS, cls), (FLT_INJ.TYPE, type), (FLT_INJ.EVENT, event)]

/-- TYPE 0: a record of a class and event. -/
def Dev.injRecord (d : Dev) (src cls event : Nat) : Dev :=
  if !d.injOpen then d
  else
    let d := d.injShow src cls 0 event
    if faultOk src cls event then (d.bump FLT_INJECTED.COUNT).faultInj src cls event 0 true else d.wr FLT_STATUS.CFG_ERR 1

/-- Sources that own SECDED stores. -/
def srcStore (src : Nat) : Bool :=
  (0x010 ≤ src && src ≤ 0x02F) || (0x040 ≤ src && src ≤ 0x0BF) || (0x100 ≤ src && src ≤ 0x17F) || (0x180 ≤ src && src ≤ 0x182) ||
  src == 0x200 || src == 0x210 || (0x220 ≤ src && src ≤ 0x228) || src == 0x3F0 || src == 0x3F1

/-- TYPE 1 and 2: bits of the next word that the source's store writes. -/
def Dev.injBits (d : Dev) (src cls event type : Nat) : Dev :=
  if !d.injOpen then d
  else
    let d := d.injShow src cls type event
    if srcStore src then
      { d with flt := { d.flt with injArm := d.flt.injArm ++ [(src, type)] } }.bump FLT_INJECTED.COUNT
    else d.wr FLT_STATUS.CFG_ERR 1

/-- The token's bytes: FLT_TEST_DATA, byte 0 in bits 31:24 of DATA0. -/
def Dev.tokenBytes (d : Dev) : List Byte := (List.range 852).flatMap fun n => beBytes 4 (d.rd (FLT_TEST_DATA.DATA n))

/-- The outcome of the token's checks (Table 17.9). -/
def Dev.tokenCode (d : Dev) (t : List Byte) : Nat :=
  let msg := beBytes 64 (Config.sha512 (t.take 32)).toNat
  if 8 ≤ d.flt.tokenRefused then 0x07
  else if !d.flt.testStrap then 0x01
  else if ofBe (sliceD 0#8 t 24 4) / 2 ≠ 0 ∨ ofBe (sliceD 0#8 t 28 4) ≠ 0 then 0x06
  else if ofBe (sliceD 0#8 t 0 16) ≠ Config.unitId.toNat then 0x02
  else if ofBe (sliceD 0#8 t 16 8) ≠ d.rdPair FLT_TEST_NONCE_LO.NONCE FLT_TEST_NONCE_HI.NONCE then 0x03
  else if !Config.verifies 0 (Config.testKey 0) msg (sliceD 0#8 t 32 64) then 0x04
  else if !Config.verifies 1 (Config.testKey 1) msg (sliceD 0#8 t 96 3309) then 0x05
  else 0

/-- FLT_TEST_CMD.GO. A GO while a check runs changes nothing. -/
def Dev.tokenCheck (d : Dev) : Dev :=
  if d.flt.tokenBusy.isSome then d
  else
    let t := d.tokenBytes
    let v := d.tokenCode t + 256 * ofBe (sliceD 0#8 t 24 4)
    { d with flt := { d.flt with tokenBusy := some v } }.wr FLT_TEST_STATUS.BUSY 1

/-- The check completes (R392, R393). -/
def Dev.tokenDone (d : Dev) : Dev :=
  match d.flt.tokenBusy with
  | none => d
  | some v =>
    let code := v % 256
    let d := { d with flt := { d.flt with tokenBusy := none } }.wrs [(FLT_TEST_STATUS.BUSY, 0), (FLT_TEST_STATUS.DONE, 1), (FLT_TEST_STATUS.CODE, code)]
    if code = 0 then
      { d with flt := { d.flt with perms := v / 256 } }.wrs [(FLT_STATUS.TESTMODE, 1), (HLM_CTRL.HOLD, 1)]
    else
      { d with flt := { d.flt with tokenRefused := min 8 (d.flt.tokenRefused + 1) } }.wr FLT_TEST_STATUS.ERR 1

/-! ### Block resets (R358, Table 15.9) -/

/-- A stack is closed, its packets drop as they reach a middle's head, and it is trained and its lists rebuilt (R238, R244). One in
FAILED stays there (Table 9.5). -/
def Dev.stackReset (d : Dev) (s : Nat) : Dev := if d.stk s = stkFailed then d else (d.stkGo s stkTraining).yrdFlags

/-- The ports of a cage go down, and their PCS and FEC start over (R256). -/
def Dev.cageRestart (d : Dev) (c : Nat) : Dev :=
  let d := (List.range 8).foldl (fun (d : Dev) i =>
    let p := 8 * c + i
    let d := d.wr (WAN_LANE.LOCK p) 0
    let bad := d.wan.bad.filter fun x => x.1 / 4 != p
    let w := { d.wan with am := d.wan.am.filter (· != p), good := SMap.erase d.wan.good p, bad, dirty := SMap.ins d.wan.dirty p d.tck.now }
    let d := { d with wan := w }
    if d.on (WAN_PORT_ST.LINK p) then d.linkFall p else d) d
  (List.range 8).foldl (fun (d : Dev) i => if d.wanExists (8 * c + i) then d.linkNote (8 * c + i) else d) d

/-- One block restarts. -/
def Dev.blockRestart (d : Dev) (src : Nat) : Dev :=
  if 0x010 ≤ src ∧ src ≤ 0x02F then
    let r := (src - 0x010, d.tck.now) :: d.cht.resync.filter (fun p => p.1 != src - 0x010)
    { d with cht := { d.cht with resync := r } }.wr CHT_SEQ_STATUS.RESYNC 1
  else if 0x100 ≤ src ∧ src ≤ 0x17F then (d.asxQuarantine (src - 0x100)).asxBankReturn (src - 0x100)
  else if 0x220 ≤ src ∧ src ≤ 0x227 then d.stackReset (src - 0x220)
  else if 0x240 ≤ src ∧ src ≤ 0x25F then (d.cageRestart (src - 0x240)).recovered src
  else if 0x260 ≤ src ∧ src ≤ 0x29F then
    ((List.range 5).foldl (fun (d : Dev) i => d.fabLock (5 * (src - 0x260) + i) false) d).recovered src
  else if 0x300 ≤ src ∧ src ≤ 0x303 then (d.cxlLose (src - 0x300) 0x0A).recovered src
  else if src = 0x310 then d.hostReset false
  else if 0x320 ≤ src ∧ src ≤ 0x322 then d.cvyRetrain (src - 0x320)
  else if src = 0x340 ∨ src = 0x341 then
    let l := (src - 0x340) :: d.hlm.navSync.filter (· != src - 0x340)
    { d with hlm := { d.hlm with navSync := l } }.wr HLM_NAV_STATUS.RESYNC 1
  else d

/-- A block reset that a boundary has let start. -/
def Dev.blockReset (d : Dev) (src : Nat) : Dev :=
  if d.flt.dueReset.contains src ∨ (d.flt.pendReset.contains src ∧ ¬ d.tck.running) then
    let f := { d.flt with dueReset := d.flt.dueReset.filter (· != src), pendReset := d.flt.pendReset.filter (· != src) }
    { d with flt := f }.blockRestart src
  else d

end Sys2Proof.Machine
end

