-- ==== Sys2Proof/Machine/Pwr.lean ====
section
/-! DEFINITION. Resets, start-up and supplies (chapters 15 and 20): the cold start (R352), warm and brown-out resets (R355 to R357),
rails and clocks (R444, R445, R447), temperatures (R448) and voltage scaling (R442). -/

namespace Sys2Proof.Machine

/-! ### What a warm reset keeps (R357, R359, R395, R412, R453) -/

/-- The bits of a register that a warm reset keeps. -/
def keepMask (a : Nat) : Nat :=
  let all := 0xFFFFFFFF
  if (0x2600000 ≤ a ∧ a < 0x2700000) ∨ (0x3100000 ≤ a ∧ a < 0x3200000) then all
  else if 0x2800020 ≤ a ∧ a ≤ 0x2800050 then all
  else if a = FLT_TEST_NONCE_LO.addr ∨ a = FLT_TEST_NONCE_HI.addr ∨ a = FWU_FUSE.addr ∨ a = GLB_PWR_STATUS.addr then all
  else if a = FLT_STATUS.addr then 0x80
  else if a = GLB_BOOT_STATUS.addr then 0x1F00
  else if a = GLB_THERM.addr then 0x8FF
  else if a = TCK_STATUS.addr then 0x1
  else if a = HLM_STATUS.addr then 0x38
  else match regRow a with
    | some r => r.rws
    | none => 0

/-- The registers after a warm reset. -/
def warmRegs (regs : SMap (BitVec 32)) : SMap (BitVec 32) :=
  regs.filterMap fun p =>
    let m := BitVec.ofNat 32 (keepMask p.1)
    let v := (p.2 &&& m) ||| (regReset p.1 &&& ~~~m)
    if v = regReset p.1 then none else some (p.1, v)

/-- RWT writes that wait are lost with their blocks; those of VDD_AON blocks stay. -/
def warmRwt (rwt : SMap (BitVec 32)) : SMap (BitVec 32) :=
  rwt.filter fun p => (0x2600000 ≤ p.1 && p.1 < 0x2700000) || (0x3100000 ≤ p.1 && p.1 < 0x3200000)

/-- Everything on the core dies as their reset leaves it, and what is on the VDD_AON domain (R357). -/
def Dev.cleared (d : Dev) : Dev :=
  let f := d.flt
  let flt := { Flt.reset with
    logA := f.logA, logT := f.logT, fatA := f.fatA, fatT := f.fatT, ceCount := f.ceCount, stormed := f.stormed,
    ecc := f.ecc.filter (fun e => e.store == Store.logSlot), tokenRefused := f.tokenRefused, perms := f.perms,
    testStrap := f.testStrap, strapFault := f.strapFault }
  let tck := { Tck.reset with running := d.tck.running, now := d.tck.now, slot := d.tck.slot, cyc := d.tck.cyc, slack := d.tck.slack }
  let hlm := { Hlm.reset with pat := d.hlm.pat, since := d.hlm.since, old := d.hlm.old, oldSince := d.hlm.oldSince, kicked := d.tck.now }
  let hst := { Hst.reset with perst := d.hst.perst, training := !d.hst.perst && d.hst.cal, cal := d.hst.cal }
  let sag (s : Sag) (mv : Nat) : Sag := { Sag.reset mv with done := s.done }
  let nrg := { Nrg.reset with sagA := sag d.nrg.sagA d.pwr.mvA, sagT := sag d.nrg.sagT d.pwr.mvT }
  { d with
    regs := warmRegs d.regs, rwt := warmRwt d.rwt, tck, flt, cht := Cht.reset, asx := Asx.reset, lku := Lku.reset,
    pipe := Pipe.reset, dpt := Dpt.reset, nrg, cxl := Cxl.reset, que := Que.reset, yrd := Yrd.reset, wan := Wan.reset,
    fab := Fab.reset, hst, cge := Cge.reset, hlm, snd := Snd.reset, fwu := d.fwu.afterReset,
    pwr := { d.pwr with step3 := false, retrain := false } }

/-- The core dies are reset (R355, R357): everything on them returns to its reset, and the VDD_AON domain goes on. Stacks in FAILED
stay so, unless they are trained anew. `cause` goes to GLB_RST_CAUSE.LAST. -/
def Dev.coreReset (d : Dev) (cause : Nat) : Dev :=
  let fell : Bool := d.on FWU_STATUS.FELLBACK || (fLoaded ≤ d.fState && d.fState ≤ fTrial)
  let failed := if d.pwr.retrain then [] else (List.range 8).filter fun s => d.stk s = stkFailed
  let test := d.on FLT_STATUS.TESTMODE
  let d := d.cleared.wrs [(GLB_RST_CAUSE.LAST, cause), (GLB_BOOT_STATUS.STEP, 4), (FWU_STATUS.FELLBACK, b2n fell)]
  let d := d.bump GLB_RST_CAUSE.WARM_CNT
  let d := if test then d.wr HLM_CTRL.HOLD 1 else d
  failed.foldl (fun d s => d.wr (YRD_STK_STATUS.STATE s) stkFailed) d

/-- A warm reset (R355): the helm is released with cause 0x2. -/
def Dev.warmReset (d : Dev) : Dev := if d.held then d else (d.helmRelease 2 0).coreReset 1

/-- A write of GLB_RST_CTRL. -/
def Dev.warmCmd (d : Dev) (warm : Bool) (key : Nat) : Dev := if warm && key == 0xA5C3 then d.warmReset else d

/-! ### The cold start (R352, Table 15.5) -/

/-- The AVS registers of a die: 0 Atkor, 1 Trelier. -/
def avsSet (die : Nat) : Field := if die = 0 then GLB_AVS_A.SETPT else GLB_AVS_T.SETPT
def avsTrim (die : Nat) : Field := if die = 0 then GLB_AVS_A.TRIM else GLB_AVS_T.TRIM
def avsErr (die : Nat) : Field := if die = 0 then GLB_AVS_A.ERR else GLB_AVS_T.ERR
def Dev.mv (d : Dev) (die : Nat) : Nat := if die = 0 then d.pwr.mvA else d.pwr.mvT

/-- The setpoint stays within 0.700 V to 0.800 V. -/
def mvClamp (x : Int) : Nat := (max 700 (min 800 x)).toNat

/-- A setpoint command (R442): acknowledged, it is in force, and the sag levels follow a lower one at once (R303); not
acknowledged even when retried, the last one stays. -/
def Dev.avsCmd (d : Dev) (die mv : Nat) (ack : Bool) : Dev :=
  let d := d.emit (.avs die mv)
  if ack then
    let low := mv < d.mv die
    let pwr := if die = 0 then { d.pwr with mvA := mv } else { d.pwr with mvT := mv }
    let d := { d with pwr }.wr (avsSet die) mv
    if low then d.setSag die { d.sag die with base := mv } else d
  else ((d.emit (.avs die mv)).wr (avsErr die) 1).fault (0x350 + die) contained 0x05

/-- A cold reset: everything starts anew; flash, fuses, the free values' counter and the trace of outputs stay. A reserved MODE
keeps the device in cold reset (R2); a fuse error halts it. -/
def Dev.coldReset (d : Dev) (i : ColdIn) : Dev :=
  let keep := { Fwu.reset with flash := d.fwu.flash, svn := d.fwu.svn, revoked := d.fwu.revoked }
  let e := Dev.cold d.free d.out keep { Pwr.reset with bootSrc := i.bootSrc % 4 }
  let e := e.wrs [(GLB_BOOT_STATUS.MODE, i.mode), (GLB_BOOT_STATUS.ROOT, b2n i.root), (GLB_BOOT_STATUS.PREF, b2n i.pref),
    (CVY_STATUS.ROOT, b2n i.root), (HLM_STATUS.PREF, b2n i.pref), (HLM_STATUS.LINE, e.hlm.pat), (GLB_BOOT_STATUS.STEP, 1)]
  if i.mode % 4 = 3 then
    { e with flt := { e.flt with strapFault := true } }.wr GLB_BOOT_STATUS.STRAP_ERR 1
  else
    let r := e.draw
    let n := (Config.nonce r.1).toNat
    let e := r.2.wrs [(FLT_TEST_NONCE_LO.NONCE, n), (FLT_TEST_NONCE_HI.NONCE, n / 2 ^ 32)]
    let e := { e with flt := { e.flt with testStrap := i.testLow } }
    if !i.fuseOk then e.wr GLB_BOOT_STATUS.BOOT_ERR 1
    else
      let e := e.wrs [(FWU_FUSE.SVN, keep.svn), (FWU_FUSE.REVOKED, keep.revoked), (GLB_BOOT_STATUS.STEP, 4)]
      let e := e.avsCmd 0 (mvClamp (Config.voltTable 0 (ofInt 8 i.tjA))) i.ackA
      e.avsCmd 1 (mvClamp (Config.voltTable 1 (ofInt 8 i.tjT))) i.ackT

/-- The device does nothing: without its standby supply, or held in cold reset by a reserved MODE (R2, R444). -/
def Dev.dead (d : Dev) : Bool := !d.pwr.standby || d.flt.strapFault

/-- Step 2 completes: SerDes are calibrated, the tick or the provisional time base begins, and PCIe may train (R346, R352). -/
def Dev.serdesDone (d : Dev) : Dev :=
  if d.cvy.cal ∨ d.on GLB_BOOT_STATUS.BOOT_ERR then d
  else
    let d := (d.wr GLB_BOOT_STATUS.STEP (max 5 (d.rd GLB_BOOT_STATUS.STEP))).cvyCalibrated
    { d with hst := { d.hst with cal := true, training := !d.hst.perst } }

/-- Step 3 ends (R352, R418, R419): the first bank that passes boots, or the image that a host or the convoy gave; with neither
bank passing, BOOT_ERR and halt. -/
def Dev.bootImage (d : Dev) : Dev :=
  if d.pwr.step3 ∨ d.on GLB_BOOT_STATUS.BOOT_ERR ∨ d.held then d
  else if 2 ≤ d.pwr.bootSrc then
    if d.fwu.memOk then
      let e := { d with pwr := { d.pwr with step3 := true }, fwu := { d.fwu with boot := false } }
      (e.wr GLB_BOOT_STATUS.SRC d.pwr.bootSrc).fwBooted (hdrImg d.fwu.hdr) 0
    else d
  else
    let go (bank : Nat) : Dev :=
      let e := { d with pwr := { d.pwr with step3 := true } }
      let e := (e.wr GLB_BOOT_STATUS.SRC bank).wr FWU_STATUS.PRIMARY_BAD (b2n (decide (bank ≠ d.primary)))
      e.fwBooted (hdrImg (d.bankHdr bank)) bank
    if d.bankOk d.primary then go d.primary
    else if d.bankOk d.secondary then go d.secondary
    else d.wr GLB_BOOT_STATUS.BOOT_ERR 1

/-- Step 7 (R352): steps 3, 4 and 5 are done. VERSION goes out after every warm reset (R423). -/
def Dev.readyCheck (d : Dev) : Dev :=
  if d.on GLB_BOOT_STATUS.READY ∨ !d.pwr.step3 ∨ d.held ∨ !d.cvy.loaded then d
  else if (List.range 8).any (fun s => d.stk s = stkTraining) then d
  else
    let d := d.wrs [(GLB_BOOT_STATUS.READY, 1), (GLB_BOOT_STATUS.STEP, 7)]
    if d.rd GLB_RST_CAUSE.WARM_CNT = 0 then d else d.versionSend

/-! ### Brown-outs, rails, clocks and supplies -/

/-- The hold in warm reset ends, once nothing holds it (R356, R445, R447). -/
def Dev.holdEnd (d : Dev) : Dev := if d.held then d else d.coreReset d.pwr.cause

/-- A brown-out of a die (R302, R356): FATAL, the helm released with cause 0x3, the device held in warm reset. -/
def Dev.brownOut (d : Dev) (die : Nat) : Dev :=
  let d := (d.fault (0x352 + die) fatal 0x0D).helmRelease 3 0
  { d with pwr := { d.pwr with cause := 2 + die, retrain := d.pwr.retrain || die == 1 } }

/-- A core rail crosses the reset level. -/
def Dev.coreBrown (d : Dev) (die : Nat) : Dev :=
  if d.pwr.brown.contains die then d
  else
    let d := d.brownOut die
    { d with pwr := { d.pwr with brown := die :: d.pwr.brown } }

/-- Both core rails read above the warning level (R356). -/
def Dev.brownRecover (d : Dev) : Dev :=
  if d.pwr.brown.isEmpty then d else { d with pwr := { d.pwr with brown := [] } }.holdEnd

/-- The die a supervised rail feeds (R445), by its code in GLB_PWR_STATUS.RAIL. -/
def railDie (rail : Nat) : Nat := if rail = 1 ∨ rail = 3 then 0 else 1

/-- A supervised rail falls. -/
def Dev.railLoss (d : Dev) (rail : Nat) : Dev :=
  if rail = 0 ∨ 7 ≤ rail ∨ d.pwr.rails.contains rail then d
  else
    let d := (d.brownOut (railDie rail)).wrs [(GLB_PWR_STATUS.RAIL_LOST, 1), (GLB_PWR_STATUS.RAIL, rail)]
    { d with pwr := { d.pwr with rails := rail :: d.pwr.rails, retrain := d.pwr.retrain || decide (4 ≤ rail) } }

def Dev.railReturn (d : Dev) (rail : Nat) : Dev :=
  if d.pwr.rails.contains rail then { d with pwr := { d.pwr with rails := d.pwr.rails.filter (· != rail) } }.holdEnd else d

/-- REFCLK_CORE is lost (R447). -/
def Dev.refLoss (d : Dev) : Dev :=
  if d.pwr.refLost then d
  else
    let d := ((d.fault 0x1C0 fatal 0x05).wr GLB_PWR_STATUS.REFCLK_LOST 1).helmRelease 1 0
    let d := if d.isRoot ∨ !d.cvy.loaded then d else d.cvyUnlock
    { d with pwr := { d.pwr with refLost := true, cause := 1 } }

def Dev.refReturn (d : Dev) : Dev :=
  if d.pwr.refLost then { d with pwr := { d.pwr with refLost := false, cause := 1 } }.holdEnd else d

/-- The standby supply ends (R444): the helm lines are undriven. -/
def Dev.standbyLoss (d : Dev) : Dev :=
  let d := if d.holdsHelm then d.emit (.helm false d.tck.now) else d
  { d with pwr := { d.pwr with standby := false } }

/-! ### Temperatures and voltages -/

/-- One die's highest reading (R448, Table 20.7). -/
def Dev.dieTemp (d : Dev) (die : Nat) (t : Int) : Dev :=
  let src := 0x350 + die
  let hot : Bool := decide ((min 150 (d.rd GLB_THERM.WARN) : Nat) ≤ t)
  let high : Bool := decide (150 < t)
  let trip : Bool := decide (155 ≤ t)
  let upd (l : List Nat) (x : Bool) : List Nat := let r := l.filter (· != die); if x then die :: r else r
  let p := d.pwr
  let d := { d with pwr := { p with hot := upd p.hot hot, overs := upd p.overs high, tripped := upd p.tripped trip } }
  let d := if hot && !p.hot.contains die then
      (d.wr (if die = 0 then GLB_THERM.WARN_A else GLB_THERM.WARN_T) 1).fault src corrected 0x08
    else d
  let d := if high && !p.overs.contains die then (d.wr GLB_THERM.OVER 1).fault src contained 0x08 else d
  if trip && !p.tripped.contains die then (d.wr GLB_THERM.TRIP 1).fault src fatal 0x08 else d

/-- A reading of the junction sensors. -/
def Dev.junction (d : Dev) (tjA tjT : Int) : Dev :=
  (((d.wr GLB_TEMP.TJ_A (ofInt 8 tjA)).wr GLB_TEMP.TJ_T (ofInt 8 tjT)).dieTemp 0 tjA).dieTemp 1 tjT

/-- One die's step of the setpoint (R442). -/
def Dev.avsStep (d : Dev) (die : Nat) (ack : Bool) : Dev :=
  let tj := d.rd (if die = 0 then GLB_TEMP.TJ_A else GLB_TEMP.TJ_T)
  let trim := max (-4) (min 4 (sInt 4 (d.rd (avsTrim die))))
  let target := mvClamp (Config.voltTable die tj + 5 * trim)
  let now := d.mv die
  if target = now then d
  else d.avsCmd die (if now < target then min target (now + 5) else max target (now - 5)) ack

/-- The adjustment at every tick whose number is a multiple of 2^22 (R442). The lowest and highest sensor readings of each die, in µV, come
with the command, and the levels of a raised setpoint follow it when they allow it (R303; log entry 74). -/
def Dev.avsAdjust (d : Dev) (ackA ackT : Bool) (readA readT : Nat × Nat) : Dev :=
  let d := d.sagFollow 0 (d.mv 0) readA.1 readA.2
  let d := d.sagFollow 1 (d.mv 1) readT.1 readT.2
  if d.tck.now % 4194304 ≠ 0 then d else (d.avsStep 0 ackA).avsStep 1 ackT

end Sys2Proof.Machine
end

