-- ==== Sys2Proof/Machine/Pass.lean ====
section
/-! DEFINITION. Passes: the manifest at the start of a pass (R37), stages (R42, R56, R57, R59, R76), splices, copies and the
actions at the end of a pass (R63 to R65, R92 to R95, R116, R166, R187). -/

namespace Sys2Proof.Machine

/-! ### The start of a pass -/

/-- The fault source of a pass's pipeline (Table 17.1). -/
def pipeSrc (dir pipe : Nat) : Nat := (if dir = 0 then 0x040 else 0x080) + pipe

/-- The unit that folds a pipeline's records (R29). -/
def pipeUnit (dir pipe : Nat) : Nat := 64 * dir + pipe

/-- The frame of a packet as stored, or of a copy as the deparser left it; a copy keeps the first 256 × TRUNC bytes (R95). -/
def Dev.frameOf (d : Dev) (k : Pkt) : List Byte :=
  match d.chain k.chain with
  | none => []
  | some v =>
    let f := k.frame.getD v.bytes
    if k.trunc = 0 then f else f.take (256 * k.trunc)

/-- DISP, DARG, MSESS and SPLICE are zero at the start of a pass (Table 2.3). -/
def clearExit (m : Manifest) : Manifest := mset (mset m 0x1F8 4 0) 0x1FC 4 0

/-- The manifest of an admitted packet before its first pass: ATICK, ASRC, EPOCH, PASS, PORT and LEN (R37, R79). -/
def admitManifest (tick kind pipe slot epoch source len : Nat) (fcsBad : Bool) : Manifest :=
  let m : Manifest := mset 0 0x1E0 6 tick
  let m := mset m 0x1E6 3 (kind * 2 ^ 22 + pipe * 2 ^ 16 + slot)
  let m := mset m 0x1E9 1 epoch
  let m := mset m 0x1EA 1 (b2n fcsBad * 16)
  mset (mset m 0x1EC 2 source) 0x1EE 2 len

/-- PASS of a later ingress pass: index one up, the egress and EARLY bits cleared (Table 2.3). -/
def nextPass (m : Manifest) : Manifest := mset m 0x1EA 1 ((passIdx m + 1) % 4 * 64 + bits (mPASS m) 4 1 * 16)

/-- The manifest at the start of an egress pass (Table 2.3): scratch words 0 to 7 zero, PASS[5] set and PASS[3] cleared. -/
def egressManifest (m : Manifest) (frame : List Byte) : Manifest :=
  let m := loadWindow (mset m 0x180 64 0) frame
  clearExit (mset m 0x1EA 1 (bits (mPASS m) 6 2 * 64 + 32 + bits (mPASS m) 4 1 * 16))

/-- A word of a pipeline's parse graph replica is in error. -/
def Dev.graphUe (d : Dev) (pipe bank : Nat) (st : Store) (i : Nat) : Bool := d.ueAt (pipeSrc 0 pipe) st (bank * 65536 + i)

/-- Step `j` of a pass's parse (R114). An uncorrectable word of the graph ends it, is logged and marks the tick (R23, R111, R376). -/
def Dev.parseStep (d : Dev) (p : Pass) (j : Nat) (w : Walk) : Pass × Dev :=
  let m := p.pkt.m
  match walkStep (d.cht.bank p.bank) (d.graphUe p.pipe p.bank .pstate) (d.graphUe p.pipe p.bank .ptrans) { m, len := mLEN m } j w with
  | .inr v => ({ p with walk := some (v, none) }, d)
  | .inl (v, c) =>
    ({ p with walk := some (v, some c) }, if c = 0x07 then d.faultMark (pipeSrc 0 p.pipe) contained 0x02 else d)

/-- The record and EXC land (R113, R114). -/
def Dev.parseLand (d : Dev) (p : Pass) (w : Walk) (c : Nat) : Pass × Dev :=
  let m := p.pkt.m
  let set : Bool := c ≠ 0 && mEXC m == 0
  ({ p with pkt := { p.pkt with m := parseRecord m (w, c) }, walk := none, stop := if set then some (c, w.o % 512) else none },
    if set then d.quadEvt 0 p.pipe 0x15 else d)

/-- A pass enters its pipeline: its slot is charged to the tick (R288). -/
def Dev.enter (d : Dev) (p : Pass) : Dev :=
  let d := { d with pipe := { d.pipe with passes := d.pipe.passes ++ [p] } }
  (d.charge d.tck.now (8 + p.src) 1).quadEvt p.dir p.pipe 0x10

/-- The bank whose descriptor holds an EPOCH, the active one first (R88). -/
def Dev.bankOf (d : Dev) (epoch : Nat) : Nat := if d.chartNow.epoch = epoch then d.bankNow else 1 - d.bankNow

/-- An ingress pass of a packet issues in a slot (R37, R88, R114): the window is loaded, and the parse starts. `own` is the holder of its
chain. -/
def Dev.ingressPass (d : Dev) (pipe slot src bank own : Nat) (k : Pkt) : Dev :=
  let m := clearExit (loadWindow k.m (d.frameOf k))
  d.enter { dir := 0, pipe, slot, tick := d.tck.now, src, bank, own, pkt := { k with m }, pos := 0, row := k.row, exited := false,
            pend := [], req := none, bad := false, walk := some (walkStart (d.cht.bank bank) m, none), stop := none, queue := 0 }

/-- An egress pass of a packet issues in a slot on the active bank (R37, R88), for a queue. -/
def Dev.egressPass (d : Dev) (pipe slot src row queue : Nat) (k : Pkt) : Dev :=
  let m := egressManifest k.m (d.frameOf k)
  d.enter { dir := 1, pipe, slot, tick := d.tck.now, src, bank := d.bankNow, own := 0x0140 + pipe, pkt := { k with m }, pos := 0, row, exited := false,
            pend := [], req := none, bad := d.pipe.bad0.contains pipe, walk := none, stop := none, queue }

/-! ### Stages -/

/-- The stage that a pass executes at its position (Table 3.9), if any. -/
def Pass.stage (p : Pass) : Option Nat :=
  if p.dir = 0 then (if 32 ≤ p.pos ∧ p.pos < 80 then some (p.pos - 32) else none)
  else if p.pos < 32 then some p.pos else none

/-- Results due by the end of a stage land in a manifest, in order of issue (R42, R56). -/
def landAll (m : Manifest) (l : List PendLk) : Manifest :=
  (sortKey (fun x : PendLk => [x.issue]) l).foldl (fun m x => msetBytes m (0x180 + 8 * x.rdst) x.bytes) m

/-- The results of a pass that are due at the end of its stage land. -/
def Pass.land (p : Pass) : Pass :=
  match p.stage with
  | none => p
  | some k =>
    let due := p.pend.filter fun x => x.land ≤ k
    if due.isEmpty then p
    else { p with pkt := { p.pkt with m := landAll p.pkt.m due }, pend := p.pend.filter fun x => !decide (x.land ≤ k) }

/-- The results due at the end of the slot cycle in progress land (R56): on LOOKUP_RESULT, and before any later slot cycle begins. -/
def Dev.landDue (d : Dev) : Dev := { d with pipe := { d.pipe with passes := d.pipe.passes.map Pass.land } }

/-- The key of a stage row among a replica's words. -/
def rowKey (bank stage row : Nat) : Nat := bank * 65536 + 512 * stage + row

/-- A sequencer fetches a stage row from its quad's replica (R40, R77, R91): whether a word is uncorrectable, which is counted, logged and
marks the tick (R76). A corrected word is used and logged, and stays as it is until a scrub rewrites it. DESIGN CHOICE (log entry 64): an
uncorrectable row counts in CHT_ROW_UE alone, since Table 2.17 gives CHT_ROW_INVALID the empty rows. -/
def Dev.fetchRow (d : Dev) (dir pipe bank stage row : Nat) : Bool × Dev :=
  let by_ := pipeSrc dir pipe
  let key := rowKey bank stage row
  if d.ueAt (quadSrc by_) .row key then
    let e := (d.bump CHT_ROW_UE.COUNT).wordFault (quadSrc by_) .row key by_ contained 0x02
    (true, e.markFault e.tck.now)
  else if d.ceAt (quadSrc by_) .row key then (false, d.wordFault (quadSrc by_) .row key by_ corrected 0x01)
  else (false, d)

/-- The next stage's row of a pass is fetched in the slot cycle of the stage before it (R91). -/
def Dev.fetchNext (d : Dev) (p : Pass) (stage : Nat) : Pass × Dev :=
  let r := d.fetchRow p.dir p.pipe p.bank stage p.row
  ({ p with bad := r.1 }, r.2)

/-- The row a pass executes: its outcome, an empty or unreadable one counted (R76). -/
def Dev.execFetched (d : Dev) (p : Pass) (k : Nat) : RowOut × Dev :=
  if p.bad then (badRow p.pkt.m 0x02 0x81, d)
  else
    let b := d.cht.bank p.bank
    let row := if p.dir = 0 then b.rowI k p.row else b.rowE k p.row
    let pend := p.pend.flatMap fun x => (List.range (x.bytes.length / 8)).map (x.rdst + ·)
    (execRow b row p.row p.pkt.m pend, if rowValid row then d else d.bump CHT_ROW_INVALID.COUNT)

/-- A row's lookup is issued (R56, R59, R288): the pass with its result on the way, or with its tier-2 request recorded; a
second request sets EXC. `m0` is the manifest at the start of the stage. DESIGN CHOICE (log entry 65): the RDST words of a recorded TIER2
request are never pending in the pass that records it (R57), and a SETX of the row that makes a second request comes first, so that 0x84
finds EXC set (R59). -/
def Dev.issueLookup (d : Dev) (p : Pass) (k : Nat) (m0 : Manifest) (q : LkReq) : Pass × Dev :=
  if q.eng = 7 then
    match p.req with
    | none => ({ p with req := some { tbl := q.tbl, desc := if 4 ≤ q.tbl then none else SMap.find d.lku.t2Tbl q.tbl, ok := q.ok, key := q.key, rdst := q.rdst, words := q.words } }, d)
    | some _ => ({ p with pkt := { p.pkt with m := setExc p.pkt.m 0x84 } }, d)
  else
    let r := d.lookup p.dir p.pipe k m0 q
    let x : PendLk := { land := k + lkLatency q.eng - 1, issue := k, rdst := q.rdst, bytes := r.1, banks := r.2.1 }
    ({ p with pend := p.pend ++ [x] },
      ((r.2.2.charge p.tick (0x18 + q.eng) 1).quadEvt p.dir p.pipe 0x13).evt 0x21 0x20 (some q.eng))

/-- A position of the parser (R114): steps 1 to 20, then the record, with the fetch of the stage-0 row (R91). -/
def Dev.parsePos (d : Dev) (p : Pass) : Pass × Dev :=
  match p.walk with
  | none => (p, d)
  | some (w, some c) =>
    if p.pos = 31 then
      let r := d.parseLand p w c
      r.2.fetchNext r.1 0
    else (p, d)
  | some (w, none) => if 1 ≤ p.pos ∧ p.pos ≤ 20 then d.parseStep p p.pos w else (p, d)

/-- A stage of a pass (R42, R57, R61, R62, R69, R91): its row, unless an EXIT has been chosen, and the fetch of the next stage's row; results
due at the end of the stage land after it (`Dev.landDue`). -/
def Dev.runStage (d : Dev) (p : Pass) : Pass × Dev :=
  match p.stage with
  | none => d.parsePos p
  | some k =>
    if p.exited then (p, d)
    else
      let m0 := p.pkt.m
      let r := d.execFetched p k
      let o := r.1
      let d := (r.2.charge p.tick 0x3F ((r.2.cht.bank p.bank).cost o.eclass)).quadEvt p.dir p.pipe 0x12
      let d := if o.hit then d.quadEvt p.dir p.pipe 0x11 else d
      let d := if o.early = 0 then d else (d.bump CHT_EARLY_READ.COUNT o.early).quadEvt p.dir p.pipe 0x14 o.early
      let p := { p with pkt := { p.pkt with m := o.m }, bad := false }
      let p := match o.next with
        | .row n => { p with row := n }
        | .exit _ _ _ _ => { p with exited := true }
      let x := match o.lk with
        | some q => d.issueLookup p k m0 q
        | none => (p, d)
      if x.1.exited then x else x.2.fetchNext x.1 (k + 1)

/-! ### Edits (R63 to R65, R187) -/

/-- The disposition that the chart chose. -/
def Pass.disp (p : Pass) : Nat := bits (mDISP p.pkt.m) 5 3

/-- The exception action of a pass (R116, Table 4.6): 0 none, 1 punt, 2 drop, 3 queue. -/
def Dev.excAction (d : Dev) (p : Pass) : Nat :=
  match p.stop with
  | none => 0
  | some _ =>
    if d.rd GLB_BOOT_STATUS.MODE = 2 then
      let e := SMap.get 0 (d.cht.bank p.bank).srcs (srcEntryNo (bits (mASRC p.pkt.m) 22 2) (mPORT p.pkt.m))
      [1, 2, 3, 0].getD (srcAction e) 0
    else 1

/-- The disposition applies an edit to the stored frame (R64): not a drop, and not a frame that the deparser builds. -/
def Dev.edits (d : Dev) (p : Pass) : Bool :=
  d.excAction p == 0 && p.disp != 1 && !(p.dir == 1 && p.disp == 0) && spliceOk p.pkt.m

/-- The frame a pass leaves, when it differs from the stored one. -/
def Dev.newFrame (d : Dev) (p : Pass) : Option (List Byte) :=
  let f := d.frameOf p.pkt
  let n := spliceFrame p.pkt.m f
  if d.edits p && n != f then some n else none

/-- What the depot manager decides for a pass whose edit needs carriages (R184, R187): those that a longer frame adds, or for a coupled
chain a copy of the whole chain, with what the edit adds. `cow` asks for copies only. -/
def Dev.growStep (d : Dev) (cow : Bool) (e : Ended) : Ended × Dev :=
  match d.newFrame e.pass, d.chain e.pass.pkt.chain with
  | some n, some v =>
    let coupled : Bool := 1 < v.couple
    if coupled != cow then (e, d)
    else
      let need := if cow then max v.ncar (carriages n.length) else carriages n.length - v.ncar
      let r := d.growAlloc e.pass.own v.csrc need
      ({ e with grow := r.1, cow }, r.2)
  | _, _ => (e, d)

/-- One kind of decision for the passes that end in the slot cycle, by pipeline (R184). -/
def Dev.growAll (d : Dev) (cow : Bool) : List Ended → List Ended × Dev
  | [] => ([], d)
  | e :: r =>
    let x := d.growStep cow e
    let y := x.2.growAll cow r
    (x.1 :: y.1, y.2)

/-- A longer frame takes the place of a chain's: its further carriages wait at the write port (R175, R187). -/
def Dev.lengthen (d : Dev) (c pipe holder : Nat) (v : Chain) (new : List Byte) : Dev :=
  let k := carriages new.length - v.ncar
  let e : Place := { port := pipe, chain := c, by_ := holder, refill := false }
  let v := { v with bytes := new, shr := if v.csrc = 0x1FF then v.shr + k else v.shr }
  { d with dpt := { d.dpt with chains := SMap.ins d.dpt.chains c v, place := d.dpt.place ++ List.replicate k e } }

/-- A shorter frame takes the place of a chain's: the surplus carriages leave its tail (R187). The release of a revoked holder is ignored,
so that they stay held, and belong to no chain (R192). -/
def Dev.shorten (d : Dev) (c holder : Nat) (v : Chain) (new : List Byte) : Dev :=
  let n := carriages new.length
  let x := d.dpt
  let gone := v.ptrs.drop n
  if d.isRevoked holder then
    let orphans := gone.zipIdx.foldl (fun m p => SMap.ins m p.1 (x.word0 v (n + p.2))) x.orphans
    { d with dpt := { x with orphans, chains := SMap.ins x.chains c { v with bytes := new, ptrs := v.ptrs.take n } } }
  else
    let l := v.lose (v.ncar - n)
    let mine := (x.place.filter fun e => e.chain == c).take (n - v.ptrs.length)
    let own := gone.foldl (fun m p => SMap.set 0 m p holder) x.own
    let v' := { v with bytes := new, ptrs := v.ptrs.take n, shr := l.2 }
    let y := { x with chains := SMap.ins x.chains c v', own, place := x.place.filter (fun e => e.chain != c) ++ mine,
                      rejoin := x.rejoin ++ gone, credit := x.credit ++ l.1 }
    { d with dpt := y }.evt 0x30 0x21 none (v.ncar - n)

/-- A chain's bytes replaced in place (R187). -/
def Dev.rewrite (d : Dev) (c pipe holder : Nat) (v : Chain) (new : List Byte) : Dev :=
  if v.ncar ≤ carriages new.length then d.lengthen c pipe holder v new else d.shorten c holder v new

/-- A reference to a chain is given up by the copy of a copy-on-write (R187); a revoked holder's release is ignored (R192). -/
def Dev.uncouple (d : Dev) (c : Nat) (holder : Nat) : Dev :=
  match d.isRevoked holder, d.chain c with
  | false, some v => if v.couple ≤ 1 then d.freeChain c v holder else d.setChain c { v with couple := v.couple - 1 }
  | _, _ => d

/-- A copy-on-write (R187): the chain of the edited copy. Carriages of the copy beyond the edited frame's are released without being
placed, so that only their charge is given back (DESIGN CHOICE, log entry 85). -/
def Dev.copyEdited (d : Dev) (p : Pass) (v : Chain) (new : List Byte) : Nat × Dev :=
  let n := carriages new.length
  let r := d.newChain p.own v.csrc 0 p.pipe (if v.csrc = 0x1FF then n else 0) v.terr new
  let back := (if v.csrc = 0x1FF then 0x200 else v.csrc, v.ncar - n)
  let d := if v.ncar ≤ n then r.2 else { r.2 with dpt := { r.2.dpt with credit := r.2.dpt.credit ++ [back] } }
  (r.1, d.uncouple p.pkt.chain p.own)

/-- The edit of an ended pass is applied (R64, R187): its packet with the new length, on a chain of its own when it was coupled. -/
def Dev.applyEdit (d : Dev) (e : Ended) (new : List Byte) : Pkt × Dev :=
  let k := { e.pass.pkt with m := mset e.pass.pkt.m 0x1EE 2 new.length, trunc := 0, frame := none }
  match d.chain k.chain with
  | none => (e.pass.pkt, d)
  | some v =>
    if e.cow then
      let r := d.copyEdited e.pass v new
      ({ k with chain := r.1 }, r.2)
    else (k, d.rewrite k.chain e.pass.pipe e.pass.own v new)

/-! ### End of pass (R92 to R95, R116) -/

/-- A packet is dropped at the end of a pass (Table 3.10): recorded in the tick in progress, its chain released. -/
def Dev.passDrop (d : Dev) (p : Pass) (k : Pkt) (reason : Nat) : Dev :=
  ((d.recDrop d.tck.now (pipeUnit p.dir p.pipe) (mATICK k.m) (mASLOT k.m) 0 reason).quadEvt p.dir p.pipe 0x17).release k.chain p.own

/-- A packet is punted to a ring (Table 3.10, R311): the hand-off is due in tick T+2. -/
def Dev.passPunt (d : Dev) (p : Pass) (k : Pkt) (ring : Nat) : Dev :=
  let x : Punt := { ring, due := tickAdd p.tick 2, egress := p.dir == 1, pipe := p.pipe, m := k.m, bytes := d.frameOf k, chain := k.chain }
  let d := (d.handOff k.chain p.own (0x0300 + ring)).quadEvt p.dir p.pipe 0x18
  { d with hst := { d.hst with punts := d.hst.punts ++ [x] } }

/-- A packet joins the enqueue batch of tick T+1 for a queue (Table 3.10). -/
def Dev.passEnqueue (d : Dev) (p : Pass) (k : Pkt) (queue : Nat) : Dev :=
  let e : Enq := { tick := tickAdd p.tick 1, queue, pkt := { k with row := 0 } }
  let d := d.handOff k.chain p.own 0x0200
  { d with que := { d.que with batch := d.que.batch ++ [e] } }

/-- A packet as a deparsed frame leaves: its copy holds that frame and its length (R64, R95). -/
def Dev.deparsed (d : Dev) (k : Pkt) : Pkt :=
  let f := d.frameOf k
  let n := spliceFrame k.m f
  if n = f then k else { k with m := mset k.m 0x1EE 2 n.length, frame := some n }

/-- A mirror copy (R95, R189): not for a copy; none for an invalid session; refused above the coupling limit, and not made for a revoked
holder (R192). -/
def Dev.mirrorCopy (d : Dev) (p : Pass) (k : Pkt) : Dev :=
  let s := (d.cht.bank p.bank).mirror (mMSESS k.m)
  if k.copy || !bit (mDISP k.m) 4 then d
  else if !bit s 63 then d.bump CHT_MIRROR_INVALID.COUNT
  else
    let r := d.coupleUp k.chain p.own
    match r.1 with
    | none => r.2
    | some false => (r.2.recDrop d.tck.now (pipeUnit p.dir p.pipe) (mATICK k.m) (mASLOT k.m) 0 0x32).evt 0x30 0x22
    | some true =>
      let trunc := bits s 18 8
      let len := if trunc = 0 then mLEN k.m else min (mLEN k.m) (256 * trunc)
      let m := mset (mset k.m 0x1F4 4 (setBits (mFWD k.m) 0 18 (bits s 0 18))) 0x1EE 2 len
      let e : Enq := { tick := tickAdd p.tick 1, queue := bits s 0 18, pkt := { m, chain := k.chain, row := 0, copy := true, trunc, frame := k.frame } }
      { r.2 with que := { r.2.que with batch := r.2.que.batch ++ [e] } }

/-- The key under which an egress pass's head carriages are read (R196): that of its slot. -/
def Pass.readKey (p : Pass) : Nat := slotKey p.tick p.pipe p.slot

/-- Frame bytes of a packet that its chain stores. -/
def Dev.storedLen (d : Dev) (k : Pkt) : Nat :=
  let n := ((d.chain k.chain).map fun v => v.bytes.length).getD 0
  if k.trunc = 0 then n else min n (256 * k.trunc)

/-- A departure is handed over (Table 3.10, R24): the deparsed frame leaves in tick T+1 at its slot, by the port that the L0
node of its queue names. A probe's head carriages are read now, since no round has asked for them (R196). -/
def Dev.passDepart (d : Dev) (p : Pass) (k : Pkt) : Dev :=
  let n := d.l0Of p.queue
  let fabric : Bool := d.l0Kind n == 1
  let x : Depart := { pipe := p.pipe, key := p.readKey, tick := tickAdd p.tick 1, slot := p.slot, fabric, port := d.l0Port n, m := k.m,
                      bytes := spliceFrame k.m (d.frameOf k), stored := d.storedLen k, chain := k.chain }
  let d := if p.src = 6 then d.readChain p.pipe k.chain 0 2 (.depart p.readKey) fun _ => d.sc else d
  let d := if fabric then d.handOff k.chain p.own 0x0410 else d
  { d with wan := { d.wan with deps := d.wan.deps ++ [x] } }

/-- A packet joins a recirculation queue (R84, R85, Table 3.10): an egress pass sets EPOCH to its bank's. -/
def Dev.passRecirc (d : Dev) (p : Pass) (k : Pkt) : Dev :=
  let m := if p.dir = 1 then mset k.m 0x1E9 1 (d.cht.bank p.bank).epoch else k.m
  let d := if p.dir = 1 then d.handOff k.chain p.own (0x0100 + p.pipe) else d
  let own := if p.dir = 1 then 0x0100 + p.pipe else p.own
  let w : Waiter := { pipe := p.pipe, own, slot := p.slot, egress := p.dir == 1, owed := tickAdd p.tick 1,
                      pkt := { k with m, row := bits (mDARG m) 0 9 }, ret := none }
  { d with pipe := { d.pipe with recirc := d.pipe.recirc ++ [w] } }.quadEvt p.dir p.pipe 0x19

/-- A packet is parked with its request (R166, R167): the lowest free entry is taken, and the request dispatched. -/
def Dev.passPark (d : Dev) (p : Pass) (k : Pkt) (q : T2Req) : Dev :=
  match d.lku.laybyFree with
  | none => (d.bump LKU_LAYBY_FULL.COUNT).passDrop p k 0x15
  | some i =>
    let d := (d.handOff k.chain p.own (0x0210 + p.pipe / 4)).quadEvt 0 p.pipe 0x19
    let r := d.t2Dispatch q
    let d := r.2.evt 0x23 0x20
    let d := if r.1.tookRead then d.charge p.tick 0x1F 1 else d
    let x : Parked := { pkt := { k with row := bits (mDARG k.m) 0 9 }, pipe := p.pipe, slot := p.slot, tick := p.tick, at_ := d.sc,
                        req := q, st := r.1, landed := false, miss := false, ret := none }
    { d with lku := { d.lku with layby := SMap.ins d.lku.layby i x } }

/-- A disposition of Table 3.10, after the edit and the copy; the pass limit and the missing request first (R93, R94). DESIGN CHOICE (log
entry 86): a pass of index 3 that ends in LAYBY without a request meets both rules, and the pass limit's reason is the one kept. -/
def Dev.dispose (d : Dev) (p : Pass) (k : Pkt) : Dev :=
  let disp := p.disp
  if disp = 1 then d.passDrop p k (bits (mDARG k.m) 0 8)
  else if disp = 0 then (if p.dir = 0 then d.passEnqueue p k (bits (mFWD k.m) 0 18) else d.passDepart p k)
  else if disp = 2 then d.passPunt p k (bits (mDARG k.m) 0 6)
  else if passIdx k.m = 3 then (d.bump CHT_PASS_LIMIT.COUNT).passDrop p k 0x12
  else if disp = 3 then d.passRecirc p k
  else match p.req with
    | none => (d.bump CHT_LAYBY_NOREQ.COUNT).passDrop p k 0x13
    | some q => d.passPark p k q

/-- A parser exception is counted at the end of its pass (R119). -/
def Dev.countExc (d : Dev) (p : Pass) : Dev :=
  match p.stop with
  | none => d
  | some (code, off) =>
    let d := d.bump (if code < 0x40 then PRS_EXC_CNT.COUNT code else PRS_EXC_CNT_REJ.COUNT)
    { d with cht := { d.cht with stopTick := d.tck.now } }.wrs
      [(PRS_STOP_LAST.CODE, code), (PRS_STOP_LAST.OFFSET, off), (PRS_STOP_LAST.PIPE, p.pipe)]

/-- A token of the exception punt limiter is taken (R117). -/
def Dev.takeToken (d : Dev) : Bool × Dev :=
  if 1024 ≤ d.cht.tokens then (true, { d with cht := { d.cht with tokens := d.cht.tokens - 1024 } }) else (false, d)

/-- The exception action of Table 4.6: no splice, no copy, no request. -/
def Dev.exception (d : Dev) (p : Pass) (act : Nat) : Dev :=
  let k := p.pkt
  if act = 1 then
    let t := d.takeToken
    if t.1 then (t.2.bump PRS_EXC_PUNT.COUNT).passPunt p k (d.rd PRS_EXC_CTRL.RING)
    else (d.bump PRS_EXC_DROP.COUNT).passDrop p k 0x20
  else if act = 2 then (d.bump PRS_EXC_DROP.COUNT).passDrop p k 0x21
  else
    let e := SMap.get 0 (d.cht.bank p.bank).srcs (srcEntryNo (bits (mASRC k.m) 22 2) (mPORT k.m))
    (d.bump PRS_EXC_QUEUE.COUNT).passEnqueue p k (srcQueue e)

/-- The head carriages of an egress pass that does not depart need no reading any more (R196). -/
def Dev.forgetReads (d : Dev) (p : Pass) : Dev :=
  if p.dir = 0 then d
  else
    let w := ReadFor.depart p.readKey
    { d with dpt := { d.dpt with readQ := d.dpt.readQ.filter (fun r => r.why != w), hurt := d.dpt.hurt.filter (· != w) } }

/-- An egress pass departs: FORWARD with a splice in range. -/
def Pass.departs (p : Pass) : Bool := p.dir == 1 && p.disp == 0 && spliceOk p.pkt.m

/-- The actions at the end of a pass (R92): an exception action, or the check of the splice whatever the disposition (R65), the edit, the
copy and the disposition. -/
def Dev.endPass (d : Dev) (e : Ended) : Dev :=
  let p := e.pass
  let d := d.countExc p
  let d := if p.departs then d else d.forgetReads p
  let act := d.excAction p
  if act ≠ 0 then d.exception p act
  else if !spliceOk p.pkt.m then
    let k := { p.pkt with m := setExc p.pkt.m 0x83 }
    (d.mirrorCopy p k).passDrop p k 0x03
  else if e.grow = .fail ∨ e.grow = .failShort then
    (((d.mirrorCopy p p.pkt).bump DPT_DROP_GROW.COUNT).evt 0x30 0x22).passDrop p p.pkt 0x31
  else
    let r := match d.newFrame p with
      | some n => d.applyEdit e n
      | none => (p.pkt, d)
    (r.2.mirrorCopy p (if p.departs then r.2.deparsed r.1 else r.1)).dispose p r.1

/-- END_OF_PASS: the actions of the pass that ended first. -/
def Dev.endOfPass (d : Dev) : Dev :=
  match d.pipe.ended with
  | [] => d
  | e :: rest => { d with pipe := { d.pipe with ended := rest } }.endPass e

end Sys2Proof.Machine
end

