-- ==== Sys2Proof/Machine/Slot.lean ====
section
/-! DEFINITION. What an enabled core-clock edge does (R9, R10, R78, R83 to R85, R91, R146, R184): admissions, the issue of a
slot in every pipeline, stages, maintenance steps; and a slack cycle. -/

namespace Sys2Proof.Machine

/-- The variant in force in the tick in progress (R82). -/
def Dev.variantNow (d : Dev) : Nat := d.variantOf d.tck.now

/-- The itinerary entry in force for a slot of a pipeline (R78). -/
def Dev.slotEntry (d : Dev) (dir pipe slot : Nat) : Nat := d.chartNow.entry dir pipe d.variantNow slot

/-- An entry's fields (Table 3.2). -/
def entSrc (e : Nat) : Nat := bits e 12 4
def entGroup (e : Nat) : Nat := bits e 6 6
def entSub (e : Nat) : Nat := bits e 0 6

/-- The slots of the tick in progress whose entries name a source and a queue, in ascending slot order and then by pipeline, as
64 × slot + pipeline (R85). -/
def Dev.groupSlots (d : Dev) (src g : Nat) : List Nat :=
  (List.range (504 * 64)).filter fun i =>
    let e := d.slotEntry 0 (i % 64) (i / 64)
    entSrc e = src && entGroup e = g

/-! ### Admission in a slot (R17, R183, R408) -/

/-- The admission record's values that a punt record names (Table 13.5). -/
def Dev.noteHead (d : Dev) (m : Manifest) (h len : Nat) (fcsBad : Bool) : Dev :=
  { d with hst := { d.hst with heads := SMap.ins d.hst.heads (headKey m) { h, len, fcsBad } } }

/-- The packet of a frame admitted in a slot, on a new chain, or a drop with 0x30 (R183). `asrc` is the depot source, `kind` and
`source` those of the admission record, `row` the stage-0 row; `ue` when a word of the frame was uncorrectable where it waited. -/
def Dev.admitPkt (d : Dev) (dir pipe slot kind source h asrc row : Nat) (fcsBad ue : Bool) (bytes : List Byte) : Option Pkt × Dev :=
  let holder := (if dir = 0 then 0x0100 else 0x0140) + pipe
  let by_ := if kind = 1 ∧ source < 16 then 0x0340 + source else if kind = 2 then 0x0411 else holder
  let a := d.allocate by_ asrc bytes.length d.openWagons
  match a.1 with
  | none =>
    (none, ((a.2.recDrop d.tck.now (pipeUnit dir pipe) d.tck.now slot 0 0x30).quadEvt dir pipe 0x17).evt 0x30 0x22)
  | some (csrc, wagons) =>
    let r := a.2.newChain by_ csrc wagons pipe 0 fcsBad bytes
    let r := (r.1, if ue then r.2.setTerr r.1 else r.2)
    let r := (r.1, if by_ = holder then r.2 else r.2.handOff r.1 by_ holder)
    let m := admitManifest d.tck.now kind pipe slot d.chartNow.epoch source bytes.length fcsBad
    let d := if fcsBad then r.2.tailErr else r.2
    (some { m, chain := r.1, row, copy := false, trunc := 0, frame := none }, d.noteHead m h (bytes.length + 4) fcsBad)

/-- An admission record of the tick in progress (R18). -/
def Dev.addAdm (d : Dev) (pipe slot kind source h : Nat) (fcsBad : Bool) (bytes : List Byte) (len : Nat) : Dev :=
  { d with tck := { d.tck with adm := d.tck.adm ++
      [{ tick := d.tck.now, pipe, slot, kind, source, h, len, fcsBad, bytes }] } }

/-- The depot source of an admission (R182): WAN port, host inject, fabric reassembly, probe. -/
def depotSrc (kind source : Nat) : Nat := if kind = 0 then source % 256 else if kind = 1 then (if 0x8000 ≤ source then 258 else 256) else 257

/-- A slot that issues nothing. -/
def Dev.idleSlot (d : Dev) (dir pipe : Nat) : Dev := d.quadEvt dir pipe 0x16

/-- An admission waiting for its slot takes it (R16, R31, R282): a replay entry is consumed, the words of a fabric packet are read from the
reassembly pool, whose carriages are free again, and a frame dropped leaves the slot acting as IDLE (R183). -/
def Dev.takeArrival (d : Dev) (x : Arrival) : Dev :=
  let d := { d with pipe := { d.pipe with arrivals := d.pipe.arrivals.erase x } }
  let d := match x.ring with
    | some n => d.injConsume n
    | none => d
  let ue := x.pool.any fun p => d.ueAt 0x200 .carData p
  let d := x.pool.foldl Dev.carCheck d
  let row := if x.kind = 1 then d.chartNow.entryInj else d.chartNow.entryArrive
  let src := if x.kind = 1 then 5 else 1
  let r := d.admitPkt 0 x.pipe x.slot x.kind x.source x.h (depotSrc x.kind x.source) row x.fcsBad ue x.bytes
  let d := r.2.fabGive x.pool
  match r.1 with
  | none => d.idleSlot 0 x.pipe
  | some k =>
    let d := if x.pool.isEmpty then d else d.addAdm x.pipe x.slot x.kind x.source x.h x.fcsBad x.bytes (x.bytes.length + 4)
    d.ingressPass x.pipe x.slot src d.bankNow (0x0100 + x.pipe) k

/-- The next wholly staged frame of a normal inject ring is admitted in a slot (R17, R313 to R316). -/
def Dev.takeInject (d : Dev) (pipe slot ring : Nat) : Option Dev :=
  if 16 ≤ ring || d.on TCK_CTRL.REPLAY || d.on (HST_INJ_CFG.REPLAY ring) then none
  else (d.injHead ring).map fun x =>
    let bytes := x.2.1
    let d := (((d.injTake ring).injConsume ring).addAdm pipe slot 1 ring 0 false bytes (bytes.length + 4)).evt 0x26 0x21 (some (64 + ring))
    let r := d.admitPkt 0 pipe slot 1 ring 0 256 d.chartNow.entryInj false false bytes
    match r.1 with
    | some k => r.2.ingressPass pipe slot 5 d.bankNow (0x0100 + pipe) k
    | none => r.2.idleSlot 0 pipe

/-- The bytes of a probe template's frame (R408). -/
def Dev.probeFrame (d : Dev) (t : Nat) : List Byte :=
  let len := max 14 (min 256 (d.rd (SND_PRB_CTL.LEN t)))
  ((List.range 64).flatMap fun w => beBytes 4 (d.rd (SND_PRB_DATA.DATA t w))).take len

/-- A probe template is due in a tick (R408). -/
def Dev.probeDue (d : Dev) (n t : Nat) : Bool :=
  d.on (SND_PRB_CTL.EN t) && (tickSub n (d.rd (SND_PRB_PH.PHASE t))) % 2 ^ min 24 (d.rd (SND_PRB_CTL.PLOG2 t)) == 0

/-- A probe pass issues in a slot (R79, R408). -/
def Dev.takeProbe (d : Dev) (dir pipe slot t : Nat) : Dev :=
  let r := d.admitPkt dir pipe slot 1 (0x8000 + t) 0 258 d.chartNow.entryProbe false false (d.probeFrame t)
  match r.1 with
  | none => r.2.idleSlot dir pipe
  | some k =>
    if dir = 0 then r.2.ingressPass pipe slot 6 d.bankNow (0x0100 + pipe) k
    else
      let q := d.rd (SND_PRB_QUE.QUEUE t)
      r.2.egressPass pipe slot 6 k.row q { k with m := mset k.m 0x1F4 4 q }

/-! ### Returning packets (R83 to R85, R166, R168) -/

/-- A packet left without a slot, or shed, is dropped in its tick (R85, R29). -/
def Dev.waitDrop (d : Dev) (w : Waiter) (reason : Nat) : Dev :=
  let d := { d with pipe := { d.pipe with recirc := d.pipe.recirc.erase w } }
  ((d.recDrop d.tck.now w.pipe (mATICK w.pkt.m) (mASLOT w.pkt.m) 0 reason).quadEvt 0 w.pipe 0x17).release w.pkt.chain w.own

/-- The packets of one recirculation queue owed a slot in the tick in progress take the slots that draw from it (R83 to R85). -/
def Dev.assignRecirc (d : Dev) (g : Nat) : Dev :=
  let mine := sortKey (fun w : Waiter => [w.slot, b2n w.egress])
    (d.pipe.recirc.filter fun w => w.pipe = g && w.owed = d.tck.now && w.ret.isNone)
  if mine.isEmpty then d
  else
    let shed (w : Waiter) : Bool := 2 ≤ d.variantNow && 1 ≤ passIdx w.pkt.m
    let d := (mine.filter shed).foldl (fun (d : Dev) w => (d.bump CHT_RECIRC_SHED.COUNT).waitDrop w 0x11) d
    let kept := mine.filter fun w => !shed w
    let slots := if d.halted then [] else d.groupSlots 3 g
    let d := (kept.drop slots.length).foldl (fun (d : Dev) w => (d.bump CHT_RECIRC_OVF.COUNT).waitDrop w 0x10) d
    let go := kept.zip slots
    let recirc := d.pipe.recirc.map fun w => match go.find? fun p => p.1 = w with
      | some p => { w with ret := some p.2 }
      | none => w
    { d with pipe := { d.pipe with recirc } }

/-- A parked packet is dropped and its entry freed (R85, R12). -/
def Dev.parkDrop (d : Dev) (i : Nat) (x : Parked) (reason : Nat) : Dev :=
  let late := match x.st with
    | .walking w => d.lku.t2late ++ [w]
    | .done _ _ => d.lku.t2late
  let d := { d with lku := { d.lku with layby := SMap.erase d.lku.layby i, t2late := late } }
  ((d.recDrop d.tck.now x.pipe (mATICK x.pkt.m) (mASLOT x.pkt.m) 0 reason).quadEvt 0 x.pipe 0x17).releaseFor x.pkt.chain
    (0x0210 + x.pipe / 4)

/-- The packets of one lay-by return queue owed a slot in the tick that begins take theirs (R84, R85). -/
def Dev.assignLayby (d : Dev) (g : Nat) : Dev :=
  let mine := sortKey (fun e : Nat × Parked => [e.2.slot])
    (d.lku.layby.filter fun e => e.2.pipe = g && tickAdd e.2.tick 6 = d.tck.now && e.2.ret.isNone)
  if mine.isEmpty then d
  else
    let slots := if d.halted then [] else d.groupSlots 4 g
    let d := (mine.drop slots.length).foldl (fun (d : Dev) e => (d.bump CHT_LAYBY_OVF.COUNT).parkDrop e.1 e.2 0x14) d
    (mine.zip slots).foldl (fun (d : Dev) p =>
      { d with lku := { d.lku with layby := SMap.ins d.lku.layby p.1.1 { p.1.2 with ret := some p.2 } } }) d

/-- A recirculated packet's next pass issues (R83 to R85, R88); its holder stays (Table 7.5). -/
def Dev.takeRecirc (d : Dev) (pipe slot : Nat) (w : Waiter) : Dev :=
  let d := { d with pipe := { d.pipe with recirc := d.pipe.recirc.erase w } }
  d.ingressPass pipe slot 3 (d.bankOf (mEPOCH w.pkt.m)) w.own { w.pkt with m := nextPass w.pkt.m }

/-- A deadline miss is applied (R22, R168): marked in the tick of its return pass, counted and logged. -/
def Dev.t2Miss (d : Dev) : Dev :=
  (((d.mark d.tck.now 0).bump TCK_EXP_CNT_T2.COUNT).evt 0x23 0x22).fault 0x182 contained 0x10 (d.tck.now * 2 ^ 48)

/-- A parked packet's return pass issues and frees its entry (R166, R168). A result that T2_DEADLINE has not written lands now. -/
def Dev.takeLayby (d : Dev) (pipe slot i : Nat) (x : Parked) : Dev :=
  let d := if x.landed then d else d.t2Land i x
  let y := (SMap.find d.lku.layby i).getD x
  let d := { d with lku := { d.lku with layby := SMap.erase d.lku.layby i } }
  let d := d.handOff y.pkt.chain (0x0210 + y.pipe / 4) (0x0100 + pipe)
  let d := if y.miss then d.t2Miss else d
  d.ingressPass pipe slot 4 (d.bankOf (mEPOCH y.pkt.m)) (0x0100 + pipe) { y.pkt with m := nextPass y.pkt.m }

/-! ### The issue of a slot (R78) -/

/-- The slot of an ingress pipeline takes what its entry names; fabric admissions come later in the slot cycle (R184). -/
def Dev.issueIngress (d : Dev) (slot pipe : Nat) : Dev :=
  let e := d.slotEntry 0 pipe slot
  let here := 64 * slot + pipe
  match entSrc e with
  | 1 => match d.pipe.arrivals.find? fun x => x.pipe = pipe && x.slot = slot with
    | some x => if x.kind = 2 then d else d.takeArrival x
    | none => d.idleSlot 0 pipe
  | 3 => match d.pipe.recirc.find? fun w => w.ret = some here && w.owed = d.tck.now with
    | some w => d.takeRecirc pipe slot w
    | none => d.idleSlot 0 pipe
  | 4 => match d.lku.layby.find? fun x => x.2.ret = some here with
    | some x => d.takeLayby pipe slot x.1 x.2
    | none => d.idleSlot 0 pipe
  | 5 => match d.pipe.arrivals.find? fun x => x.pipe = pipe && x.slot = slot with
    | some x => d.takeArrival x
    | none => (d.takeInject pipe slot (entSub e)).getD (d.idleSlot 0 pipe)
  | 6 => if d.probeDue d.tck.now (entSub e) then d.takeProbe 0 pipe slot (entSub e) else d.idleSlot 0 pipe
  | 7 => d
  | _ => d.idleSlot 0 pipe

/-- The slot of an egress pipeline takes the dequeue that the scheduler assigned to it, or a probe. -/
def Dev.issueEgress (d : Dev) (slot pipe : Nat) : Dev :=
  let e := d.slotEntry 1 pipe slot
  match entSrc e with
  | 2 => match SMap.find d.que.slots (slotKey d.tck.now pipe slot) with
    | some k =>
      let d := { d with que := { d.que with slots := SMap.erase d.que.slots (slotKey d.tck.now pipe slot) } }
      d.egressPass pipe slot 2 d.chartNow.entryEgress (bits (mFWD k.m) 0 18) k
    | none => d.idleSlot 1 pipe
  | 6 => if d.probeDue d.tck.now (entSub e) then d.takeProbe 1 pipe slot (entSub e) else d.idleSlot 1 pipe
  | 7 => d
  | _ => d.idleSlot 1 pipe

/-- The fabric packets accepted in a slot (R282), replayed ones too, after every other allocation of the slot cycle (R184). -/
def Dev.issueFabric (d : Dev) (slot : Nat) : Dev :=
  let l := sortKey (fun x : Arrival => [x.pipe]) (d.pipe.arrivals.filter fun x => x.slot = slot && x.kind == 2)
  l.foldl Dev.takeArrival d

/-- A maintenance channel's slots (R146, R288): one of them applies a step, and those with nothing waiting act as IDLE (Table 3.3). -/
def Dev.maintSlot (d : Dev) (slot k : Nat) : Dev :=
  let pipes := d.chartNow.maintPipes d.variantNow slot k
  let r := d.chanSlot k pipes
  let idle := pipes.filter fun p => some p != r.2
  let e := match r.2 with
    | some _ => (r.1.charge d.tck.now 15 1).evt 0x24 0x22
    | none => r.1
  idle.foldl (fun (d : Dev) p => d.idleSlot (p / 64) (p % 64)) e

/-! ### Positions and stages (R91) -/

/-- A pass reaches the end of its positions (Table 3.9). -/
def Pass.atEnd (p : Pass) : Bool := p.pos == (if p.dir = 0 then 87 else 63)

/-- Every pass in flight advances by one position; those at their end wait for their end-of-pass actions, ingress pipelines first,
with the carriages that their edits need decided (R184). -/
def Dev.advance (d : Dev) : Dev :=
  { d with pipe := { d.pipe with passes := d.pipe.passes.map fun p => { p with pos := p.pos + 1 } } }

def Dev.finish (d : Dev) : Dev :=
  let ends := sortKey (fun p : Pass => [p.dir, p.pipe]) (d.pipe.passes.filter Pass.atEnd)
  let es := ends.map fun p => ({ pass := p, grow := .none_, cow := false } : Ended)
  let r := d.growAll false es
  let s := r.2.growAll true r.1
  let d := s.2
  { d with pipe := { d.pipe with passes := d.pipe.passes.filter (fun p => !p.atEnd), ended := d.pipe.ended ++ s.1 } }

/-- The stages of the passes in a list, in order. -/
def Dev.runStages (d : Dev) : List Pass → List Pass × Dev
  | [] => ([], d)
  | p :: r =>
    let x := d.runStage p
    let y := x.2.runStages r
    (x.1 :: y.1, y.2)

/-- Every pass executes its stage, ingress before egress and by pipeline (R162). -/
def Dev.stages (d : Dev) : Dev :=
  let r := d.runStages (sortKey (fun p : Pass => [p.dir, p.pipe]) d.pipe.passes)
  { r.2 with pipe := { r.2.pipe with passes := r.1 } }

/-- In slot cycle `s` the egress sequencers fetch the stage-0 rows of the passes that slot s + 1 is to issue (R88, R91, Table 3.9); in
slot cycle 503, those of slot 0 of the next tick, on the bank and variant that govern it. -/
def Dev.fetchEgress (d : Dev) (s : Nat) : Dev :=
  let t := if s = 503 then tickAdd d.tck.now 1 else d.tck.now
  let slot := (s + 1) % 504
  let bank := if s = 503 ∧ d.swapsAt t then 1 - d.bankNow else d.bankNow
  let b := d.cht.bank bank
  (List.range 64).foldl (fun (d : Dev) pipe =>
    let e := b.entry 1 pipe (d.variantOf t) slot
    let row := if entSrc e = 2 then (SMap.find d.que.slots (slotKey t pipe slot)).map fun _ => b.entryEgress
      else if entSrc e = 6 ∧ d.probeDue t (entSub e) then some b.entryProbe else none
    match row with
    | none => d
    | some r =>
      let x := d.fetchRow 1 pipe bank 0 r
      if x.1 then { x.2 with pipe := { x.2.pipe with bad0 := pipe :: x.2.pipe.bad0 } } else x.2)
    { d with pipe := { d.pipe with bad0 := [] } }

/-! ### Core-clock cycles (R9, R11, R301) -/

/-- One core-clock cycle of the device, and what a counter group counts in it (Table 18.2 codes 0x01 and 0x02, MODE 2): on an enabled edge
of the Atkor die the sounding reader reads too (R402). -/
def Dev.cycle (d : Dev) : Dev :=
  let onA := !d.nrg.sagA.gated
  let onT := !d.nrg.sagT.gated
  let d := d.gateCycle.evtAll 0x01 1
  let d := if onA then ((d.evtAll 0x02 1 0 0x30).occCount 2 0 0x30).sweepEdge else d
  if onT then (d.evtAll 0x02 1 0x30 0x40).occCount 2 0x30 0x40 else d

/-- Core-clock cycles pass, at most as many as are named, until both dies have reached `k` slot and slack cycles of the tick (R301). -/
def Dev.cyclesTo (d : Dev) (k : Nat) : Nat → Dev
  | 0 => d
  | n + 1 => if d.reached k then d else d.cycle.cyclesTo k n

/-! ### The end of a slot cycle -/

/-- What a carriage read that has returned was for: the rest of a departure, a punt's copy, a spill. -/
def Dev.readBack (d : Dev) (r : CarRead) : Dev :=
  match r.why with
  | .depart _ => d.txFinishAll.fabFinishAll
  | .punt ring id => d.puntRead ring id r.chain
  | .spill id => if d.reading (.spill id) then d else d.spillReturn r.chain id

/-- A read in flight returns, if it is due: 128 slot cycles after its issue (R176). -/
def Dev.readReturn (d : Dev) (x : InFlight) : Dev :=
  if d.dpt.reads.contains x && scReached ((x.at_ + 128) % scMod) d.sc then
    { d with dpt := { d.dpt with reads := d.dpt.reads.erase x } }.readBack x.rd
  else d

/-- The oldest read of a port returns. -/
def Dev.carReturn (d : Dev) (port : Nat) : Dev :=
  match d.dpt.reads.find? fun x => x.rd.port == port with
  | some x => d.readReturn x
  | none => d

/-- What falls due before the next cycle begins, if no command has made it happen: the swap of the tick (R99; log entry 121), results land
(R56), carriages are placed (R175), reads return (R176), and departures whose reads have ended go out. -/
def Dev.cycleEnd (d : Dev) : Dev :=
  let d := d.chartSwap.landDue.placeDue
  (d.dpt.reads.foldl Dev.readReturn d).txFinishAll.fabFinishAll

/-! ### The two kinds of cycle -/

/-- The slot of the slot cycle is issued in every pipeline (R9, R78). -/
def Dev.issueSlot (d : Dev) (s : Nat) : Dev :=
  let d := if s = 87 then (List.range 64).foldl Dev.assignRecirc d else d
  if d.halted then d.finish
  else
    let d := (List.range 64).foldl (fun (d : Dev) p => d.issueIngress s p) d
    let d := (List.range 64).foldl (fun (d : Dev) p => d.issueEgress s p) d
    d.finish.issueFabric s

/-- SLOT_CYCLE: the next slot of the tick issues and every pipeline advances by one position. `errs` are soft errors that strike,
`fails` self-tests that fail (R371). Released carriages rejoin their free lists every 252 slot cycles, or on FREE_LIST_REJOIN (R185). -/
def Dev.slotCycle (d : Dev) (errs : List EccErr) (fails : Nat) : Dev :=
  if d.dead || !d.tck.running || decide (504 ≤ d.tck.slot) then d
  else
    let s := d.tck.slot
    let d := (((d.cycleEnd.strike errs).cyclesTo (s + 1) 8).creditAll.asxFailAll).lkuCycle
    let d := if s % 252 = 0 then d.rejoinAll else d
    let d := { d with tck := { d.tck with slot := s + 1 }, dpt := { d.dpt with placed := [] } }.advance
    let d := ((d.readIssue.readTouch).issueSlot s).stages
    let d := if d.halted then d else ((List.range 8).foldl (fun (d : Dev) k => d.maintSlot s k) d).fetchEgress s
    let d := (List.range fails).foldl (fun (d : Dev) _ => d.selfTestFail) d
    (d.evtAll 0x03 1).occCount 1 0 0x40

/-- One word that a scrubber reaches: its source, store and index (R10, R40, R171, R195). -/
def Dev.scrubWord (d : Dev) (x : Nat × Store × Nat) : Dev :=
  match x.2.1 with
  | .row | .pstate | .ptrans | .queue | .logSlot =>
    let src := storeSrc x.1 x.2.1
    if d.flt.ecc.any fun e => e.at_ src x.2.1 x.2.2 && !e.dbl then
      (d.wordFault src x.2.1 x.2.2 x.1 corrected 0x01).eccFix src x.2.1 x.2.2
    else d
  | .lpm | .exact | .dir | .member | .t2dir | .ctx | .layby => d.lkuScrub x.2.1 x.2.2
  | .carData | .carHdr => d.carCheck x.2.2
  | .wagon | .wagRec | .asxArray | .asxShadow | .asxData => d

/-- SLACK_CYCLE: a cycle after slot 503 (R10): the words that scrubbers reach, the associative-search sweep, the auditor, and the patrol of
the stacks, whose words follow from their own positions (R138, R193, R245). -/
def Dev.slackCycle (d : Dev) (errs : List EccErr) (words : List (Nat × Store × Nat)) : Dev :=
  if d.dead || !d.tck.running || decide (d.tck.slot < 504) then d
  else
    let d := (d.cycleEnd.strike errs).cyclesTo (505 + d.tck.slack) 8
    let d := { d with tck := { d.tck with slack := d.tck.slack + 1 } }
    (words.foldl Dev.scrubWord d).asxScrub.audSlack.patrol

end Sys2Proof.Machine
end

