-- ==== Sys2Proof/Machine/Tick.lean ====
section
/-! DEFINITION. What the start of a tick does: an overrun of the tick that ends (R12), RWT writes (R6), admissions (R15, R16, R282,
R292, R31), the boundary actions of every block, the round and the plan, and the digest of an earlier tick (R29). -/

namespace Sys2Proof.Machine

/-! ### Overrun (R12, Table 1.2) -/

/-- A packet dropped in an abandoned slot; the spec gives its drop no reason code, which is a free value. -/
def Dev.ovrDrop (d : Dev) (dir pipe : Nat) (atick aslot : Nat) : Dev :=
  let r := d.draw
  ((r.2.recDrop d.tck.now (pipeUnit dir pipe) atick aslot 0 (Config.undef 2 r.1 % 256)).quadEvt dir pipe 0x17).bump TCK_OVR_DROP.COUNT

/-- An abandoned ARRIVE slot, whose frame is dropped and whose replay entry is consumed (R315), or a HOST_INJ slot of replay mode, whose
entry a later slot takes (504 waits for an ARRIVE slot, 505 for a HOST_INJ slot). -/
def Dev.ovrArrival (d : Dev) (x : Arrival) : Dev :=
  let d := { d with pipe := { d.pipe with arrivals := d.pipe.arrivals.erase x } }
  if x.kind = 1 then
    let y : Arrival := { x with slot := 505 }
    { d with pipe := { d.pipe with arrivals := d.pipe.arrivals ++ [y] } }
  else
    let d := match x.ring with
      | some n => d.injConsume n
      | none => d
    (d.fabGive x.pool).ovrDrop 0 x.pipe d.tck.now x.slot

/-- An abandoned EGRESS_ARRIVE slot. -/
def Dev.ovrEgress (d : Dev) (e : Nat × Pkt) : Dev :=
  let pipe := e.1 / 512 % 64
  let w := ReadFor.depart e.1
  let d := { d with que := { d.que with slots := SMap.erase d.que.slots e.1 },
                    dpt := { d.dpt with readQ := d.dpt.readQ.filter (fun r => r.why != w), hurt := d.dpt.hurt.filter (· != w) } }
  (d.ovrDrop 1 pipe (mATICK e.2.m) (mASLOT e.2.m)).release e.2.chain (0x0140 + pipe)

/-- An abandoned RECIRC slot. -/
def Dev.ovrRecirc (d : Dev) (w : Waiter) : Dev :=
  let d := { d with pipe := { d.pipe with recirc := d.pipe.recirc.erase w } }
  (d.ovrDrop 0 w.pipe (mATICK w.pkt.m) (mASLOT w.pkt.m)).release w.pkt.chain w.own

/-- An abandoned LAYBY_RET slot: the entry is freed. -/
def Dev.ovrLayby (d : Dev) (e : Nat × Parked) : Dev :=
  let x := e.2
  let late := match x.st with
    | .walking w => if x.landed then d.lku.t2late else d.lku.t2late ++ [w]
    | .done _ _ => d.lku.t2late
  let d := { d with lku := { d.lku with layby := SMap.erase d.lku.layby e.1, t2late := late } }
  (d.ovrDrop 0 x.pipe (mATICK x.pkt.m) (mASLOT x.pkt.m)).releaseFor x.pkt.chain (0x0210 + x.pipe / 4)

/-- A channel's step withheld at its first abandoned MAINT slot: the pipeline that is to apply it (R146). -/
def Dev.ovrMaint (d : Dev) (k : Nat) : Dev :=
  if (SMap.find d.lku.held k).isSome || !d.chanReady k then d
  else
    let slots := (List.range (504 - d.tck.slot)).map fun i => d.chartNow.maintPipes d.variantNow (d.tck.slot + i) k
    match slots.find? fun l => !l.isEmpty with
    | some (p :: _) => { d with lku := { d.lku with held := SMap.ins d.lku.held k (p, d.chanHead k) } }
    | _ => d

/-- The tick that ends has overrun: every unissued slot is abandoned, and the tick is marked, counted and logged (R12, R22). -/
def Dev.overrun (d : Dev) : Dev :=
  let t := d.tck.now
  let d := if d.tck.slot ≤ 87 then (List.range 64).foldl Dev.assignRecirc d else d
  let d := if d.halted then d else (List.range 8).foldl Dev.ovrMaint d
  let d := (d.pipe.arrivals.filter fun x => x.slot < 504).foldl Dev.ovrArrival d
  let d := (d.que.slots.filter fun e => e.1 / 32768 == t).foldl Dev.ovrEgress d
  let d := (d.pipe.recirc.filter fun w => w.owed == t && w.ret.isSome).foldl Dev.ovrRecirc d
  let d := (d.lku.layby.filter fun e => e.2.ret.isSome).foldl Dev.ovrLayby d
  let d := d.fetchEgress 503
  let d := ((d.wr TCK_STATUS.OVERRUN 1).mark t 2).bump TCK_EXP_CNT_OVR.COUNT
  (d.evt 0x24 0x20).fault 0x1C0 contained 0x12 (t * 2 ^ 48)

/-- The core-clock cycles that pass to the end of a tick in which nothing more issues: a cycle in which both dies would reach the next
slot does not, since its SLOT_CYCLE has not come. -/
def Dev.cyclesOut (d : Dev) : Nat → Dev
  | 0 => d
  | n + 1 =>
    let e := d.cycle
    if d.tck.slot < 504 ∧ e.reached (d.tck.slot + 1) then d else e.cyclesOut n

/-- The end of the tick in progress, which had `cycles` core-clock cycles: an overrun, its cycles, the codewords that each port's decoder
corrected and could not correct in it, and what its rings owe the host (R12, R32, R271, R312, R315, R404). -/
def Dev.tickEnd (d : Dev) (cycles : Nat) (fec : List (Nat × Nat × Nat)) : Dev :=
  let d := (d.cyclesOut (cycles - d.tck.cyc)).cycleEnd
  let d := if d.tck.slot < 504 then d.overrun else d
  let d := fec.foldl (fun (d : Dev) e => d.fecReport e.1 e.2.1 e.2.2) d
  let n := min 1023 d.tck.cyc
  let d := d.wrs [(TCK_CYC.LAST, n), (TCK_CYC.MIN, min n (d.rd TCK_CYC.MIN))]
  let d := if d.tck.cyc < 575 then d.wr TCK_STATUS.CYC_SHORT 1 else d
  let d := if d.nrg.stretched then d.evt 0x24 0x21 else d
  d.ringIrqs.sndWriteback

/-! ### RWT writes (R6, R20) -/

/-- The bits of a register that take effect at boundaries. -/
def rwtMask (a : Nat) : BitVec 32 :=
  match regRow a with
  | some r => BitVec.ofNat 32 r.rwt
  | none => 0#32

/-- The last RWT write to each register takes effect, and TCK_COMMIT records the tick. -/
def Dev.rwtApply (d : Dev) : Dev :=
  let l := d.rwt
  let d := l.foldl (fun (d : Dev) p => d.setReg p.1 ((d.reg p.1 &&& ~~~(rwtMask p.1)) ||| (p.2 &&& rwtMask p.1))) { d with rwt := [] }
  if l.isEmpty then d else d.commit

/-- Writes of a reserved cage mode are not applied, the first of the boundary being recorded (R248). -/
def Dev.cageCheck (d : Dev) : Dev :=
  let bad := (List.range 32).filter fun c => match SMap.find d.rwt (WAN_CAGE.addr c) with
    | some v => 5 ≤ bits v.toNat 0 3
    | none => false
  match bad with
  | [] => d
  | c :: _ => { d with rwt := bad.foldl (fun m c => SMap.erase m (WAN_CAGE.addr c)) d.rwt }.wanCfgErr c 1

/-- The RWT writes and what follows from them at once: descriptors, depots, ports, cages, queues, counters. -/
def Dev.configApply (d : Dev) : Dev :=
  let d := d.cageCheck.dptSizes
  let addrs := d.rwt.map Prod.fst
  let cages := (List.range 32).filter fun c => addrs.contains (WAN_CAGE.addr c)
  let olds := cages.map fun c => (c, d.rd (WAN_CAGE.MODE c))
  let before := d
  let d := d.rwtApply
  let d := (((d.selApply before.reg addrs).asxApply addrs).lkuApply addrs).dptShared addrs
  let d := (d.queApply (d.que.ops.length + 1) false).cxlApply addrs
  let d := olds.foldl (fun (d : Dev) p => d.cageMode p.1 p.2) d
  let d := if addrs.contains CVY_CTRL.addr then d.kApply else d
  d.winApply.sxtBoundary

/-! ### Admission at the boundary (R15, R16, R31, R282, R292) -/

/-- The slots of a pipeline in the tick in progress whose entries name a source, ascending; none while the device is halted. -/
def Dev.slotsOf (d : Dev) (pipe src : Nat) : List Nat :=
  if d.halted then [] else (List.range 504).filter fun s => entSrc (d.slotEntry 0 pipe s) = src

/-- The shed class of a source (R292). -/
def Dev.shedClass (d : Dev) (port : Nat) : Nat := bits (d.rd (NRG_SHED.CLASS (port / 16))) (2 * (port % 16)) 2

/-- The ranks that are shed of frames in the order of R16, when `n` frames are too many: lowest class first, latest first (R292). -/
def Dev.shedRanks (d : Dev) (fs : List RxFrame) (n : Nat) : List Nat :=
  ((sortKey (fun x : RxFrame × Nat => [d.shedClass x.1.port, fs.length - x.2]) fs.zipIdx).take n).map Prod.snd

/-- A frame shed before it takes a slot (R292). -/
def Dev.shed (d : Dev) (pipe k : Nat) : Dev :=
  (((d.bump NRG_SHED_DROP.COUNT).recDrop d.tck.now pipe d.tck.now 0x1FF k 0x18)).quadEvt 0 pipe 0x17

/-- A WAN frame takes its ARRIVE slot (R16): its admission record, and its arrival with the FCS taken off (R38). -/
def Dev.arrive (d : Dev) (pipe : Nat) (p : RxFrame × Nat) : Dev :=
  let f := p.1
  let d := (d.addAdm pipe p.2 0 f.port f.h f.fcsBad f.bytes f.bytes.length).evt 0x28 0x20 (some f.port)
  let x : Arrival := { pipe, slot := p.2, kind := 0, source := f.port, h := f.h, fcsBad := f.fcsBad,
                       bytes := f.bytes.take (f.bytes.length - 4), pool := [], ring := none }
  { d with pipe := { d.pipe with arrivals := d.pipe.arrivals ++ [x] } }

/-- Head-complete times in their order about the present tick (R7, R16). -/
def Dev.headOrder (d : Dev) (h : Nat) : Nat := tickTimeSub (h + tickTimeMod / 2) d.tickTime

/-- The frames of a boundary in the order of h, each with its pipeline: its port's group; of a 1.6T port, frame k of the port goes to
group 2c + (k mod 2) (R247, R249). -/
def Dev.framePipes (d : Dev) (fs : List RxFrame) : List (RxFrame × Nat) :=
  let l := sortKey (fun f : RxFrame => [d.headOrder f.h]) fs
  l.zipIdx.map fun x =>
    let k := (l.take x.2).countP fun g => g.port == x.1.port
    (x.1, if d.wanMode x.1.port = 1 then x.1.port / 4 + k % 2 else x.1.port / 4)

/-- The frames admitted to one pipeline at this boundary. -/
def Dev.admitPipe (d : Dev) (fs : List (RxFrame × Nat)) (pipe : Nat) : Dev :=
  let mine := sortKey (fun f : RxFrame => [d.headOrder f.h, f.port]) ((fs.filter fun x => x.2 == pipe).map Prod.fst)
  if mine.isEmpty then d
  else
    let slots := d.slotsOf pipe 1
    let gone := d.shedRanks mine (mine.length - slots.length)
    let d := ((List.range mine.length).filter gone.contains).foldl (fun (d : Dev) k => d.shed pipe k) d
    let kept := (mine.zipIdx.filter fun x => !gone.contains x.2).map Prod.fst
    (kept.zip slots).foldl (fun (d : Dev) p => d.arrive pipe p) d

/-- The frames whose heads completed in the window of the tick in progress (R15); in a halted device, and in replay mode, none. -/
def Dev.admitWan (d : Dev) : Dev :=
  let due (f : RxFrame) : Bool := timeReached (f.h + 384) d.tickTime
  let fs := d.tck.rx.filter due
  let d := { d with tck := { d.tck with rx := d.tck.rx.filter fun f => !due f } }
  if d.halted || d.on TCK_CTRL.REPLAY then d else (List.range 64).foldl (fun (d : Dev) p => d.admitPipe (d.framePipes fs) p) d

/-- The ARRIVE slots of a pipeline that nothing takes yet. -/
def Dev.freeSlots (d : Dev) (pipe src : Nat) : List Nat :=
  (d.slotsOf pipe src).filter fun s => !d.pipe.arrivals.any fun x => x.pipe == pipe && x.slot == s

/-- The fabric packets released to one pipeline (R282): they take the ARRIVE slots that are left, in order; in replay mode those take replay
entries alone (R316). -/
def Dev.admitFabric (d : Dev) (pipe : Nat) : Dev :=
  let mine := d.fab.released.filter fun p => p.dpipe == pipe
  if mine.isEmpty then d
  else
    let slots := if d.on TCK_CTRL.REPLAY then [] else d.freeSlots pipe 1
    let d := (mine.zip slots).foldl (fun (d : Dev) p =>
      let x : Arrival := { pipe, slot := p.2, kind := 2, source := p.1.sdev, h := 0, fcsBad := false, bytes := p.1.bytes,
                           pool := p.1.cells, ring := none }
      { d with pipe := { d.pipe with arrivals := d.pipe.arrivals ++ [x] } }) d
    (mine.drop slots.length).foldl (fun (d : Dev) p =>
      (d.fabGive p.cells).bump FAB_NOSLOT.COUNT) d

/-- A replay entry whose tick has come (R31, R316): in its slot, and waiting for an ARRIVE slot when it is late. The slot must be of the
right kind in its tick; of a tick that has passed, the variant is taken as FULL (DEDUCED, log entry 88). -/
def Dev.replayEntry (d : Dev) (n : Nat) (x : InjDesc) (bytes : List Byte) : Dev :=
  let late : Bool := x.tick ≠ d.tck.now
  let want := if x.kind = 1 then 5 else 1
  if entSrc (d.chartNow.entry 0 x.pipe (d.variantOf x.tick) x.slot) ≠ want then d.ringFail (64 + n) 0x05
  else
    let y : Arrival := { pipe := x.pipe, slot := if late then 504 else x.slot, kind := x.kind, source := x.source, h := x.h,
                         fcsBad := x.fcsBad, bytes, pool := [], ring := some n }
    { d with pipe := { d.pipe with arrivals := d.pipe.arrivals ++ [y] } }

/-- The staged entries of a replay ring whose ticks have come, in order. -/
def Dev.replayRing (d : Dev) (n : Nat) : Nat → Dev
  | 0 => d
  | k + 1 =>
    match d.injHead n with
    | some (x, bytes, _) =>
      if tickFuture x.tick d.tck.now then d else ((d.injTake n).replayEntry n x bytes).replayRing n k
    | none => d

/-- An entry that waits takes the first free slot of its kind in its pipeline; a late one marks the tick (R31). DESIGN CHOICE (log entry
89): one that finds none in the next tick waits for a later one. -/
def Dev.replayWait (d : Dev) (x : Arrival) : Dev :=
  match d.freeSlots x.pipe (if x.slot = 504 then 1 else 5) with
  | [] => d
  | s :: _ =>
    let d := if x.slot = 504 then d.mark d.tck.now 5 else d
    let y : Arrival := { x with slot := s }
    { d with pipe := { d.pipe with arrivals := d.pipe.arrivals.erase x ++ [y] } }

/-- Replay mode: the entries of the tick, their admission records, and frames without the FCS (R31); the record of a host or fabric
frame holds the bytes admitted, as it did when it was captured (R282, R314). -/
def Dev.replayTick (d : Dev) : Dev :=
  if !d.on TCK_CTRL.REPLAY || d.halted then d
  else
    let d := (List.range 16).foldl (fun (d : Dev) n =>
      if d.on (HST_INJ_CFG.REPLAY n) then d.replayRing n (SMap.get [] d.hst.inj n).length else d) d
    let d := (d.pipe.arrivals.filter fun x => 504 ≤ x.slot).foldl Dev.replayWait d
    let now := d.pipe.arrivals.filter fun x => x.slot < 504
    let stored (x : Arrival) : List Byte := x.bytes.take (x.bytes.length - 4)
    let d := now.foldl (fun (d : Dev) x =>
      d.addAdm x.pipe x.slot x.kind x.source x.h x.fcsBad (if x.kind = 0 then x.bytes else stored x) x.bytes.length) d
    let cut (x : Arrival) : Arrival := if x.slot < 504 then { x with bytes := stored x } else x
    { d with pipe := { d.pipe with arrivals := d.pipe.arrivals.map cut } }

/-! ### The digest of a tick (R29) -/

/-- An admission record as the digest serialises it: the frame bytes replaced by their CRC-32C. -/
def AdmRec.bytesOut (a : AdmRec) : List Byte :=
  beBytes 6 a.tick ++ beBytes 1 a.pipe ++ beBytes 2 a.slot ++ beBytes 1 a.kind ++ beBytes 2 a.source ++ beBytes 8 a.h ++
    beBytes 2 a.len ++ beBytes 1 (b2n a.fcsBad) ++ beBytes 4 (crc32c a.bytes)

/-- The admission digest of a tick. -/
def Dev.admDigest (d : Dev) (t : Nat) : Nat :=
  crc64 ((sortKey (fun a : AdmRec => [a.pipe, a.slot]) (d.tck.adm.filter fun a => a.tick == t)).flatMap AdmRec.bytesOut)

/-- The sub-digest of a unit: its records in their order. -/
def Dev.subDigest (d : Dev) (t u : Nat) : Nat :=
  crc64 ((sortKey (fun r : OutRec => [r.slot, r.rank, r.tickField, r.type, r.queue])
    (d.tck.recs.filter fun r => r.tick == t && r.unit == u)).flatMap OutRec.bytes)

/-- The output digest of a tick, over 130 sub-digests. -/
def Dev.outDigest (d : Dev) (t : Nat) : Nat := crc64 ((List.range 130).flatMap fun u => beBytes 8 (d.subDigest t u))

/-- The digest registers beside TCK_DIG_TICK_LO. -/
def digRegs : List Nat :=
  [TCK_DIG_TICK_HI.addr, TCK_DIG_ADM_LO.addr, TCK_DIG_ADM_HI.addr, TCK_DIG_OUT_LO.addr, TCK_DIG_OUT_HI.addr]

/-- A digest is shown (R32): while the set is latched, its other five registers wait. -/
def Dev.showDigest (d : Dev) (t adm out mask : Nat) : Dev :=
  let w (n : Nat) : BitVec 32 := BitVec.ofNat 32 n
  let vals := [w (t / 2 ^ 32 + mask * 2 ^ 16), w adm, w (adm / 2 ^ 32), w out, w (out / 2 ^ 32)]
  let d := d.wr TCK_DIG_TICK_LO.TICK t
  match d.tck.digLatch with
  | some _ => { d with tck := { d.tck with digLatch := some vals } }
  | none => (digRegs.zip vals).foldl (fun (d : Dev) p => d.setReg p.1 p.2) d

/-- The digest of a tick is made: its records leave, it joins its block's folds, and it is shown and recorded. -/
def Dev.digest (d : Dev) (t : Nat) : Dev :=
  let en := d.on TCK_CTRL.DIGEST_EN
  let adm := if en then d.admDigest t else 0
  let out := if en then d.outDigest t else 0
  let mask := SMap.get 0 d.tck.exp t
  let tck := { d.tck with adm := d.tck.adm.filter (fun a => tickFuture a.tick t), recs := d.tck.recs.filter (fun r => tickFuture r.tick t),
                          exp := d.tck.exp.filter fun e => tickFuture e.1 t }
  let d := { d with tck }.helmFold t adm out mask
  if en then (d.showDigest t adm out mask).sndDigest t adm out mask else d

/-! ### The boundary -/

/-- OLD_BUSY clears once no old-epoch packet has an ingress pass ahead of it or in flight (R100). -/
def Dev.oldBusy (d : Dev) : Dev :=
  if !d.on CHT_STATUS.OLD_BUSY then d
  else
    let e := d.shadow.epoch
    let old (k : Pkt) : Bool := mEPOCH k.m == e
    if d.pipe.passes.any (fun p => p.dir == 0 && old p.pkt) || d.pipe.ended.any (fun x => x.pass.dir == 0 && old x.pass.pkt) ||
        d.pipe.recirc.any (fun w => old w.pkt) || d.lku.layby.any (fun x => old x.2.pkt) then d
    else d.wr CHT_STATUS.OLD_BUSY 0

/-- A held swap command whose tick has come and which the device does not obey (R103). -/
def Dev.swapMissed (d : Dev) : Dev :=
  match d.cht.held with
  | some h =>
    if h.target = d.tck.now ∧ ¬ (d.cht.armScope = 2 ∧ d.swapsAt d.tck.now) then { d with cht := { d.cht with held := none } }.swapMiss
    else d
  | none => d

/-- The exception punt limiter gains its tokens (R117). -/
def Dev.refillTokens (d : Dev) : Dev :=
  let t := min (1024 * d.rd PRS_EXC_DEPTH.DEPTH) (d.cht.tokens + d.rd PRS_EXC_RATE.RATE)
  { d with cht := { d.cht with tokens := t } }

/-- The queues' steps of the tick start from none (R131, R147). -/
def Dev.stepsReset (d : Dev) : Dev :=
  let asx := { d.asx with stepped := 0 }
  let lku := { d.lku with stepped := 0 }
  { d with asx, lku }

/-- A die's gate at the start of a tick: no slot cycle done; a 3/4 stretch's edge count goes on (R11, R298). -/
def Sag.tickStart (s : Sag) : Sag := { s with done := 0, edges := if s.level = 2 then s.edges else 0 }

/-- The next tick begins: its number, slot and cycle counts. -/
def Dev.tickNext (d : Dev) (n : Nat) : Dev :=
  let tck := { d.tck with running := true, begun := min 3 (d.tck.begun + 1), now := n, slot := 0, cyc := 0, slack := 0 }
  { d with tck, nrg := { d.nrg with stretched := d.clkLevel != 0, sagA := d.nrg.sagA.tickStart, sagT := d.nrg.sagT.tickStart } }

/-- What the start of tick N does before anything is admitted: configuration, links, stores, faults, energy. -/
def Dev.boundaryBlocks (d : Dev) : Dev :=
  let d := (d.yardIssue.configApply).txOffsets.txFinishAll
  let c := d.cxlLosses
  let d := (List.range c.2).foldl (fun (d : Dev) _ => d.stageReturn [] true) c.1
  let d := d.cxlStates.fltBoundary.ceWindow.seqReload
  let d := ((d.asxBoundary.sidebandApply).linkLatch).steerBoundary
  let d := (d.fabBoundary.refillsDue.stkBoundary).thermMark
  let d := (d.nrgStart.stackChoice).reckon
  let v := d.variantNow
  ((d.wr CHT_STATUS.VARIANT v).evt 0x25 0x20 (some v)).evtAll 0x04 1

/-- Admissions and the slots of returning packets (R15, R16, R84, R282). -/
def Dev.boundaryAdmit (d : Dev) : Dev :=
  let d := (d.swapMissed.oldBusy.refillTokens).admitWan
  let d := if d.on TCK_CTRL.REPLAY then d.replayTick else d
  let d := (List.range 64).foldl Dev.admitFabric d
  let d := { d with fab := { d.fab with released := [] } }
  (List.range 64).foldl Dev.assignLayby d

/-- The round, the plan, and what follows at the boundary (R211, R228, R406). -/
def Dev.boundaryRound (d : Dev) : Dev :=
  let d := d.round.yardPlan
  let d := d.audPeriodic.helmSample.helmTick.helmBlock
  let d := if 3 ≤ d.tck.begun then d.digest (tickSub d.tck.now 2) else d
  d.sndSamples.txPump 74

/-- TICK_START: tick N begins (R8), after one of `cycles` core-clock cycles with the decoders' counts `fec`. Ticks run from the end of the root's calibration, or of a member's first load (R346, R352); while
the device is held in warm reset only the number and the sextant go on. -/
def Dev.tickStart (d : Dev) (cycles : Nat) (fec : List (Nat × Nat × Nat)) : Dev :=
  if d.dead || !d.cvy.loaded then d
  else
    let n := if d.tck.running then tickAdd d.tck.now 1 else if d.isRoot then d.tck.now else tickAdd d.tck.now 1
    let d := if d.tck.running && !d.held then d.tickEnd cycles fec else d
    let d := d.tickNext n
    if d.held then d.sxtBoundary else d.stepsReset.sweepBoundary.boundaryBlocks.boundaryAdmit.boundaryRound

end Sys2Proof.Machine
end

