-- ==== Sys2Proof/Machine/Settle.lean ====
section
/-! DEFINITION. What every command ends with: the reactions of records just written (R383), readiness (R352), what the device sends
on its own account, the flags that follow from the state, and PF0's interrupts (R307). -/

namespace Sys2Proof.Machine

/-- The reactions that wait are carried out in order; one may cause others. -/
def Dev.carryAll (d : Dev) : Nat → Dev
  | 0 => { d with flt := { d.flt with todo := [] } }
  | k + 1 =>
    match d.flt.todo with
    | [] => d
    | p :: r => ({ d with flt := { d.flt with todo := r } }.carryOut p).carryAll k

/-- After an ASSIGN was acted on: VERSION to the neighbours, and a REQUEST from a device that waits for an image (R419, R423). -/
def Dev.assignedSend (d : Dev) : Dev :=
  if !d.cvy.assigned then d
  else
    let d := { d with cvy := { d.cvy with assigned := false } }.versionSend
    if d.pwr.bootSrc = 3 ∧ ¬ d.on GLB_BOOT_STATUS.READY then d.fwrSend d.cvy.parent 0x09 0 0 0 0 [] else d

/-- The conditions of PF0's interrupt sources (Table 13.3). Source 0 is FLT_STATUS.NEW (DEDUCED, log entry 34). -/
def Dev.irqCond (d : Dev) (k : Nat) : Bool :=
  let any (l : List Field) : Bool := l.any d.on
  match k with
  | 0 => d.on FLT_STATUS.NEW
  | 1 => d.on CGE_STATUS.EVT
  | 2 => any [WAN_STATUS.LINK_CHG, WAN_STATUS.MS_EVT, WAN_STATUS.TS_OVF, WAN_STATUS.CFG_ERR]
  | 3 => any [CHT_STATUS.REFUSED, CHT_STATUS.ARM_ERR, CHT_STATUS.MISSED, CHT_STATUS.SWAPPED]
  | 4 => any [TCK_STATUS.OVERRUN, TCK_STATUS.CYC_SHORT, TCK_STATUS.PAIR_DIVERGED]
  | 5 => any [HST_STATUS.BME_HALT, HST_STATUS.FLR, HST_STATUS.LINK_LOSS, HST_STATUS.RING_ERR]
  | 6 => any [NRG_STATUS.NEG, NRG_STATUS.SAG_EVT]
  | 7 => any [ASX_OP_STATUS.DONE, LKU_WR_STATUS.DONE, QUE_CFG_STATUS.DONE, CHT_LD_STATUS.DONE, PRS_LD_STATUS.DONE]
  | 8 => (d.reg SND_STATUS.addr).toNat &&& d.rd SND_CTRL.IRQ_MASK ≠ 0
  | 9 => any [HLM_STATUS.LINE_ERR, HLM_STATUS.CONTEST, HLM_STATUS.ST_FAIL, HLM_STATUS.SWITCHED, HLM_STATUS.WD_EXP, HLM_STATUS.PREF_ERR]
  | 10 => any [CVY_STATUS.LATE_JOIN, CVY_STATUS.ENUM_ERR, CVY_STATUS.ALIGN_ERR, CVY_STATUS.ROOT_ERR, CVY_STATUS.K_RAISED]
  | 11 => any [FWU_STATUS.DONE, FWU_STATUS.ERR, FWU_STATUS.MISSED]
  | _ => false

/-- Each enabled source whose condition has become true sends its vector (R307). -/
def Dev.irqs (d : Dev) : Dev :=
  let l := (List.range 12).filter d.irqCond
  let go := l.filter fun k => !d.hst.irq.contains k && d.on (HST_IRQ_MAP.EN k)
  go.foldl (fun (d : Dev) k => d.sendVec 0 (d.rd (HST_IRQ_MAP.VEC k))) { d with hst := { d.hst with irq := l } }

/-- The two flags of FLT_STATUS that follow from the collector's state (R384, R389). -/
def Dev.faultViews (d : Dev) : Dev :=
  (d.wr FLT_STATUS.QUENCH (b2n (!d.flt.windows.isEmpty))).wr FLT_STATUS.FAULTN (b2n d.faultN)

/-- The end of a command. -/
def Dev.settle (d : Dev) : Dev :=
  let d := d.carryAll (64 + d.flt.todo.length)
  (((d.readyCheck.assignedSend.stageRead.cageEvt).lkuCount).sndHalf).faultViews.irqs

end Sys2Proof.Machine
end

