-- ==== Sys2Proof/Machine/RegWrite.lean ====
section
/-! DEFINITION. Accesses to the device's registers (R3 to R6, R32, R353, R426, R455, Table 21.2): who may make them, what a write
stores and a read returns by the access type of each bit, and what the command bits of a register start. The returns of CXL reads (R336)
and the actions of a convoy (Table 15.4). -/

namespace Sys2Proof.Machine

/-! ### Who may access (R3, R353, R419, R426, R455) -/

/-- The value that a written word gives a field. -/
def Field.of (f : Field) (v : Nat) : Nat := bits v f.low f.width

/-- An access completed with Unsupported Request and counted (R3): a write is reported through AER. -/
def Dev.badAccess (d : Dev) (write : Bool) : Dev := (d.bump HST_BAD_ACCESS.COUNT).emit (if write then .aer 0 else .cpl 1 [])

/-- A register of a block that the host may not reach: after a boot failure (R353), and while an image from the host is awaited (R419),
only GLB and FWU are served. -/
def Dev.barred (d : Dev) (a : Nat) : Bool :=
  (d.on GLB_BOOT_STATUS.BOOT_ERR || (d.pwr.bootSrc == 2 && !d.pwr.step3)) && !(a < 0x100000 || (0x3000000 ≤ a && a < 0x3100000))

/-- A die's navigator core may write nothing once its die is ready for handover (R426). -/
def Dev.hoBlocked (d : Dev) (holder : Nat) : Bool :=
  d.fState == fHandover && ((holder == 0x0010 && d.on FWU_HO.READY_A) || (holder == 0x0011 && d.on FWU_HO.READY_T))

/-- A command of an agent that writes a register: the host through PF0 (holder 0x0001) or a navigator core (0x0010, 0x0011). -/
def Dev.agent (d : Dev) (holder a : Nat) (f : Dev → Dev) : Dev :=
  if d.held then d
  else if d.hoBlocked holder then d.bump FWU_HO_BLOCKED.COUNT
  else if holder = 0x0001 ∧ d.barred a then d.badAccess true
  else f d

/-- A read by the host that the device acts on. -/
def Dev.hostGet (d : Dev) (a : Nat) (f : Dev → Dev) : Dev :=
  if d.held then d else if d.barred a then d.badAccess false else f d

/-- An event on the core dies, which do nothing while held in warm reset (R356, R445, R447). -/
def Dev.core (d : Dev) (f : Dev → Dev) : Dev := if d.held then d else f d

/-- A command of the host. -/
def Dev.host (d : Dev) (a : Nat) (f : Dev → Dev) : Dev := d.agent 0x0001 a f

/-! ### What a write stores (R4 to R6, Table 0.5) -/

/-- A register as a write leaves it: RW and RWS bits take the value, a 1 clears a W1C bit. -/
def RegRow.stored (r : RegRow) (old v : BitVec 32) : BitVec 32 :=
  let m := BitVec.ofNat 32 (r.rw ||| r.rws)
  ((old &&& ~~~m) ||| (v &&& m)) &&& ~~~(v &&& BitVec.ofNat 32 r.w1c)

/-- A write by access types. RWT bits wait for the next boundary, the last write before it counting; a reserved offset ignores it. -/
def Dev.regStore (d : Dev) (a v : Nat) : Dev :=
  match regRow a with
  | none => d
  | some r =>
    let w := BitVec.ofNat 32 v
    let m := BitVec.ofNat 32 r.rwt
    let d := d.setReg a (r.stored (d.reg a) w)
    if r.rwt = 0 then d else { d with rwt := SMap.ins d.rwt a ((d.regPend a &&& ~~~m) ||| (w &&& m)) }

/-! ### Command bits (the registers with rows of their own, and those the chapters give an effect) -/

/-- FLT_CLEAR (R385). -/
def Dev.clearWrite (d : Dev) (v : Nat) : Dev :=
  if FLT_CLEAR.GO.of v = 0 then d
  else if FLT_CLEAR.ALL.of v = 1 then d.clearAll (FLT_CLEAR.DIE.of v) (FLT_CLEAR.CLASSES.of v)
  else d.clearOne (FLT_CLEAR.DIE.of v)

/-- FLT_INJ (R394): ignored unless the mode and the token's permission allow it. -/
def Dev.injWrite (d : Dev) (v : Nat) : Dev :=
  let s := FLT_INJ.SRC.of v
  let c := FLT_INJ.CLASS.of v
  let t := FLT_INJ.TYPE.of v
  let e := FLT_INJ.EVENT.of v
  if !d.injOpen then d
  else if FLT_INJ.GO.of v = 0 then d.injShow s c t e
  else if t = 0 then d.injRecord s c e
  else d.injBits s c e t

/-- FWU_CTRL (R419, R422, R425, R426, R431). -/
def Dev.fwuCtrl (d : Dev) (v : Nat) : Dev :=
  let d := if FWU_CTRL.GO_HDR.of v = 1 then d.fwGoHdr (FWU_CTRL.SRC.of v) else d
  let d := if FWU_CTRL.LOAD.of v = 1 then d.fwLoad else d
  let d := if FWU_CTRL.ACTIVATE.of v = 1 then d.fwActivate else d
  let d := if FWU_CTRL.ABORT.of v = 1 then d.fwAbort else d
  let d := if FWU_CTRL.REVERT.of v = 1 then d.fwRevert else d
  if FWU_CTRL.SEND.of v = 1 then d.fwSend (d.rd FWU_RELAY.DST) (FWU_CTRL.SBANK.of v) else d

/-- The registers of an array that a block's command acts on: the index of an address, if the array holds it. -/
def idxOf (a base stride count : Nat) : Option Nat :=
  if base ≤ a ∧ (a - base) % stride = 0 ∧ (a - base) / stride < count then some ((a - base) / stride) else none

/-- TCK, CHT, PRS, ASX, LKU and QUE. -/
def Dev.cmdLow (d : Dev) (holder a v : Nat) : Dev :=
  if a = GLB_RST_CTRL.addr then d.warmCmd (GLB_RST_CTRL.WARM.of v == 1) (GLB_RST_CTRL.KEY.of v)
  else if a = TCK_CTRL.addr then (if TCK_CTRL.CYC_MIN_RST.of v = 1 then d.wr TCK_CYC.MIN 0x3FF else d)
  else if a = CHT_SWAP_CTRL.addr then
    let d := if CHT_SWAP_CTRL.DISARM.of v = 1 then d.disarm else d
    if CHT_SWAP_CTRL.ARM.of v = 1 then d.arm (CHT_SWAP_CTRL.SCOPE.of v) else d
  else if a = CHT_LD_CMD.addr then
    (if CHT_LD_CMD.GO.of v = 1 ∨ CHT_LD_CMD.RD.of v = 1 then d.chartCmd (CHT_LD_CMD.GO.of v == 1) (CHT_LD_CMD.RD.of v == 1) else d)
  else if a = PRS_LD_CMD.addr then
    (if PRS_LD_CMD.GO.of v = 1 ∨ PRS_LD_CMD.RD.of v = 1 then d.prsCmd (PRS_LD_CMD.GO.of v == 1) (PRS_LD_CMD.RD.of v == 1) else d)
  else if a = ASX_OP_CMD.addr then (if ASX_OP_CMD.GO.of v = 1 then d.asxGo holder else d)
  else if a = LKU_WR_CMD.addr then (if LKU_WR_CMD.GO.of v = 1 then d.lkuGo holder else d)
  else if a = QUE_CFG_CMD.addr then (if QUE_CFG_CMD.GO.of v = 1 then d.queGo holder else d)
  else match idxOf a (ASX_BANK.addr 0) 4 128 with
    | some n => if (ASX_BANK.RETURN n).of v = 1 then d.asxBankReturn n else d
    | none => d

/-- DPT, WAN, NRG, HST, CXL and CVY. -/
def Dev.cmdMid (d : Dev) (a v : Nat) : Dev :=
  if a = DPT_AUD_CTRL.addr then
    (if DPT_AUD_CTRL.START.of v = 1 then { d with dpt := { d.dpt with audWanted := true } } else d)
  else if a = WAN_CM_CMD.addr then d.cmGo (WAN_CM_CMD.RD.of v == 1) (WAN_CM_CMD.WR.of v == 1)
  else if a = NRG_COST_IDX.addr then d.nrgShow
  else if a = NRG_CAL_PEND.addr then d.wr NRG_STATUS.PEND 1
  else if a = HST_WIN_COMMIT.addr then (if HST_WIN_COMMIT.COMMIT.of v = 1 then d.wr HST_WIN_COMMIT.PENDING 1 else d)
  else if a = CVY_CTRL.addr then (if CVY_CTRL.ENUM.of v = 1 then d.enum_ else d)
  else match idxOf a (CXL_PORT_CTL.addr 0) 32 4 with
    | some n =>
      let d := if (CXL_PORT_CTL.RETRAIN n).of v = 1 then d.cxlRetrain n ((CXL_PORT_CTL.EN n).of v == 1) else d
      if (CXL_PORT_CTL.READY n).of v = 1 then d.cxlReady n else d
    | none => match idxOf a (CVY_PORT_CTL.addr 0) 32 3 with
      | some n => if (CVY_PORT_CTL.RETRAIN n).of v = 1 then d.cvyRetrain n else d
      | none => d

/-- HLM, FLT, SND, FWU and SXT. Whether the fuses blow that an FWU_CONFIRM write asks for is a free value. -/
def Dev.cmdHigh (d : Dev) (a v : Nat) : Dev :=
  if a = HLM_CTRL.addr then
    let d := if d.on FLT_STATUS.TESTMODE then d.wr HLM_CTRL.HOLD 1 else d
    if HLM_CTRL.RELEASE.of v = 1 then d.helmReleaseCmd else d
  else if a = HLM_KICK.addr then d.helmKick (HLM_KICK.KEY.of v)
  else if a = FLT_CLEAR.addr then d.clearWrite v
  else if a = FLT_REVOKE.addr then d.softRevoke (FLT_REVOKE.HOLDER.of v) (FLT_REVOKE.KEY.of v)
  else if a = FLT_TEST_CMD.addr then (if FLT_TEST_CMD.GO.of v = 1 then d.tokenCheck else d)
  else if a = SND_SWEEP.addr then (if SND_SWEEP.START.of v = 1 then d.sweepStart else d)
  else if a = FWU_CTRL.addr then d.fwuCtrl v
  else if a = FWU_CONFIRM.addr then
    if FWU_CONFIRM.GO.of v = 1 then
      let r := d.draw
      r.2.fwConfirm (FWU_CONFIRM.KEY.of v) (bit (Config.undef 3 r.1) 0)
    else d
  else if a = FWU_DATA_CMD.addr then (if FWU_DATA_CMD.GO.of v = 1 then d.fwDataBlock (FWU_DATA_CMD.BLOCK.of v) else d)
  else if a = FWU_FL_CMD.addr then (if FWU_FL_CMD.OP.of v = 0 then d else d.flashCmd (FWU_FL_CMD.OP.of v))
  else if a = SXT_PHASE.addr then d.phaseAdjust v
  else if a = SXT_OFS_COMMIT.addr then (if SXT_OFS_COMMIT.GO.of v = 1 then d.offsetCommit else d)
  else d

/-- A margin entry with a reserved field that is not 0 is not applied (Table 10.5): WAN_CFG_ERR takes code 0x02. The spec gives INDEX as a
cage or a port; what it shows for a margin entry is a free value. -/
def Dev.marginRefuse (d : Dev) : Dev :=
  let r := d.draw
  r.2.wanCfgErr (Config.undef 4 r.1) 2

/-- A write of a register: stored, and its command carried out. Some registers take more than their access types say: rings' CFG (Table
13.13), CGE_SLOTc_CTL (R326), NRG_COST_DATA (R288), WAN_MTp_e (Table 10.5), FLT_REACTn (R387), FLT_INJ (R394), FAB_DEVID (R271), the FAB block in
STANDALONE (R272), and FWU_STATUS.FELLBACK, which only a 0 changes. -/
def Dev.regWrite (d : Dev) (holder a v : Nat) : Dev :=
  let v := v % 2 ^ 32
  if 0x2100000 ≤ a ∧ a < 0x2200000 ∧ d.rd GLB_BOOT_STATUS.MODE = 0 ∧ ¬ (0x2100100 ≤ a ∧ a < 0x2100600) then d
  else if a = FAB_DEVID.addr ∧ d.on FAB_CTRL.EN then d
  else if a = NRG_COST_DATA.addr then d.nrgCostWrite v
  else if WAN_MT.addr 0 0 ≤ a ∧ a ≤ WAN_MT.addr 7 15 ∧ v &&& 0xF000F000 ≠ 0 then d.marginRefuse
  else if a = FLT_INJ.addr then d.injWrite v
  else if 0x2804000 ≤ a ∧ a < 0x2808000 then d.reactWrite ((a - 0x2804000) / 4) v
  else if a = FWU_STATUS.addr then d.regStore a (if d.on FWU_STATUS.FELLBACK then v else v % 512 + v / 1024 * 1024)
  else match idxOf a (HST_PUNT_CFG.addr 0) 32 64 with
    | some r => d.ringCfg r v
    | none => match idxOf a (HST_INJ_CFG.addr 0) 32 16 with
      | some r => d.ringCfg (64 + r) v
      | none => match idxOf a (CGE_SLOT_CTL.addr 0) 8 32 with
        | some c => d.slotControl c v
        | none =>
          let e := d.regStore a v
          if a < 0x1800000 then e.cmdLow holder a v else if a < 0x2700000 then e.cmdMid a v else e.cmdHigh a v

/-- A write through PF1's BAR0 (Table 13.2): a ring's doorbell, or its MSI-X table. -/
def Dev.pf1Write (d : Dev) (a v : Nat) : Dev :=
  if a < 0x50000 then (if a % 0x1000 = 0 then d.doorbell (a / 0x1000) (v % 65536) else d)
  else if 0x80000 ≤ a ∧ a < 0x84000 then d.msixWrite 1 ((a - 0x80000) / 16) ((a - 0x80000) / 4 % 4) v
  else d

/-- A 32-bit write at an address: `fn` 0 and 1 through BAR0 of PF0 and PF1, 2 and 3 by the navigator core of Atkor and of Trelier. -/
def Dev.access (d : Dev) (fn a v : Nat) : Dev :=
  if fn = 1 then
    if d.held then d
    else if a % 4 ≠ 0 ∨ d.barred 0x2300000 then d.badAccess true
    else d.pf1Write a (v % 2 ^ 32)
  else
    let holder := if fn = 2 then 0x0010 else if fn = 3 then 0x0011 else 0x0001
    d.agent holder a fun d =>
      if a % 4 ≠ 0 ∨ 0x3200000 ≤ a then d.badAccess true
      else if 0x2380000 ≤ a ∧ a < 0x2384000 then d.msixWrite 0 ((a - 0x2380000) / 16) ((a - 0x2380000) / 4 % 4) (v % 2 ^ 32)
      else d.regWrite holder a v

/-- An access that R3 refuses: misaligned, or not 32 bits wide (`kind` 0 a read, 1 a write). An AtomicOp (2) completes with Unsupported
Request as PCIe reports it and is not counted (R305). -/
def Dev.oddAccess (d : Dev) (kind a len : Nat) : Dev :=
  if d.held then d
  else if kind = 2 then d.emit (.cpl 1 [])
  else if a % 4 = 0 ∧ len = 4 then d
  else d.badAccess (kind == 1)

/-- A read of TCK_DIG_TICK_LO, or of TCK_DIG_OUT_HI, which ends the latch (R32). -/
def Dev.digestRead (d : Dev) (last : Bool) : Dev :=
  if last then
    match d.tck.digLatch with
    | none => d
    | some vals =>
      let d := { d with tck := { d.tck with digLatch := none } }
      (digRegs.zip vals).foldl (fun (d : Dev) p => d.setReg p.1 p.2) d
  else if d.tck.digLatch.isNone then { d with tck := { d.tck with digLatch := some [] } }
  else d

/-! ### What a read returns (R4, R5, R455) -/

/-- A word of a fault record (Table 17.4). -/
def FltRec.word (r : FltRec) (w : Nat) : Nat :=
  match w with
  | 0 => r.src <<< 20 ||| r.cls <<< 18 ||| r.react <<< 15 ||| b2n r.sec <<< 14 ||| b2n r.inj <<< 13 ||| b2n r.cleared <<< 12 |||
      r.pdie <<< 11 ||| 1 <<< 10 ||| r.event
  | 1 => r.seq
  | 2 => bits r.tick 0 32
  | 3 => bits r.tick 32 16 ||| r.cycle <<< 16
  | 4 => bits r.detail 64 32
  | 5 => bits r.detail 32 32
  | 6 => bits r.detail 0 32
  | _ => r.primary

/-- The word at an offset from the first log of the fault collector (R382): Atkor's slots, Trelier's, then the two FATAL stores. A slot
that holds no record reads 0. -/
def Flt.logWord (f : Flt) (o : Nat) : Nat :=
  let i := o % 0x10000 / 32
  let r := if o < 0x10000 then SMap.find f.logA i
    else if o < 0x20000 then SMap.find f.logT i
    else if o < 0x20200 then f.fatA[i]?
    else f.fatT[i - 16]?
  ((r.map fun r => r.word (o / 4 % 8)).getD 0)

/-- What a register holds: the tick (R8), tick time (R409) and the fault logs are views of state held elsewhere. -/
def Dev.regView (d : Dev) (a : Nat) : Nat :=
  if a = TCK_NOW_LO.addr then bits d.tck.now 0 32
  else if a = TCK_NOW_HI.addr then bits d.tck.now 32 16
  else if a = SXT_TIME_LO.addr then bits d.sxtTime 0 32
  else if a = SXT_TIME_HI.addr then bits d.sxtTime 32 32
  else if 0x2810000 ≤ a ∧ a < 0x2830400 then d.flt.logWord (a - 0x2810000)
  else (d.reg a).toNat

/-- What a read returns by access type (Table 0.5): WO and reserved bits 0, an RWT bit as last written, every other bit its value. An
offset that Table 21.2 does not list reads 0 (R455). -/
def Dev.regRead (d : Dev) (a : Nat) : Nat :=
  match regRow a with
  | none => 0
  | some r =>
    ((d.regPend a).toNat &&& r.rwt) ||| (d.regView a &&& (r.rw ||| r.w1c ||| r.rws ||| r.ro))

/-- What a read also does: the digest latch (R32) and the head of the two-step FIFO (R254). -/
def Dev.readEffect (d : Dev) (a : Nat) : Dev :=
  if a = TCK_DIG_TICK_LO.addr then d.digestRead false
  else if a = TCK_DIG_OUT_HI.addr then d.digestRead true
  else if a = WAN_TS_ENT3.addr then d.tsPop
  else d

/-- A word of a function's MSI-X table, or of its pending bits (R307). -/
def Func.msixWord (f : Func) (o : Nat) : Nat := bits (f.entry (o / 16)).toNat (32 * (o / 4 % 4)) 32
def Func.pbaWord (f : Func) (o : Nat) : Nat := ((List.range 32).map fun b => if f.pba.contains (8 * o + b) then 2 ^ b else 0).sum

/-- What a read through BAR0 of PF0 returns (Table 13.2). -/
def Dev.pf0Read (d : Dev) (a : Nat) : Nat :=
  if 0x2380000 ≤ a ∧ a < 0x2384000 then (d.func 0).msixWord (a - 0x2380000)
  else if 0x23C0000 ≤ a ∧ a < 0x23C0080 then (d.func 0).pbaWord (a - 0x23C0000)
  else d.regRead a

/-- What a read through BAR0 of PF1 returns (Table 13.2, R309). -/
def Dev.pf1Read (d : Dev) (a : Nat) : Nat :=
  if a < 0x50000 then d.doorbellRead a
  else if 0x80000 ≤ a ∧ a < 0x84000 then (d.func 1).msixWord (a - 0x80000)
  else if 0xC0000 ≤ a ∧ a < 0xC0080 then (d.func 1).pbaWord (a - 0xC0000)
  else 0

/-- An aligned access of the host that has no row of its own, through BAR0 of PF0 (`fn` 0) or PF1 (1): outside every block it is refused
(R455); a reserved offset reads 0 and ignores a write; a read completes with the word (R4), its least significant byte first. -/
def Dev.unmapped (d : Dev) (fn : Nat) (write : Bool) (a : Nat) : Dev :=
  if d.held ∨ a % 4 ≠ 0 then d
  else if fn = 1 then
    if d.barred 0x2300000 ∨ 0x100000 ≤ a then d.badAccess write
    else if write then d else d.emit (.cpl 0 (leBytes 4 (d.pf1Read a)))
  else if 0x3200000 ≤ a ∨ d.barred a then d.badAccess write
  else if write then d
  else (d.emit (.cpl 0 (leBytes 4 (d.pf0Read a)))).readEffect a

/-! ### CXL reads that end, and actions -/

/-- A CXL read of a host window (`who` 0) or of the staging engine (1) ends (R336, R419). -/
def Dev.cxlReadDone (d : Dev) (port who : Nat) (poison err : Bool) (ns : Nat) (data : List Byte) : Dev :=
  if who = 0 then d.winReturn port poison err ns data
  else match d.cxl.reads.find? fun r => r.port == port && r.who == 1 with
    | none => d
    | some r =>
      let d := { d with cxl := { d.cxl with reads := d.cxl.reads.erase r } }.cxlLat port ns
      let d := if poison || err then d.cxlError port else d
      d.stageReturn data (poison || err)

/-- A tier-2 read returns: to its walk, or late. -/
def Dev.t2Read (d : Dev) (who : T2Rd) (data : BitVec 64) (poison err : Bool) (ns : Nat) : Dev :=
  match who with
  | .walk entry => d.t2Return entry data poison err ns
  | .late port addr => d.t2LateReturn port addr

/-- Training of a stack ends: one that comes up awake has recovered (R389, R391). -/
def Dev.stkTrainEnd (d : Dev) (s : Nat) (ok : Bool) : Dev :=
  let d := d.stkTrained s ok
  if d.stk s = stkAwake then d.recovered (0x220 + s) else d

/-- The PCIe link trains: the endpoint has recovered. -/
def Dev.pcieUp (d : Dev) (speed width : Nat) (flit : Bool) : Dev :=
  let e := d.pcieTrained speed width flit
  if e.on HST_STATUS.LINK_UP then e.recovered 0x310 else e

/-- An ACTION (Table 15.4). -/
def Dev.action (d : Dev) (port src seq acode s arg : Nat) : Dev :=
  d.actionRx port src seq acode s arg fun d =>
    if acode = 1 then d.takeSwap src seq s arg
    else if acode = 2 then d.takeActivate s arg
    else d.takeNavEvent s arg

end Sys2Proof.Machine
end

