-- ==== Sys2Proof/WellFormed.lean ====
section
/-! DEFINITION. Which commands name things that the device has: every operand within the range the spec gives it (port, pipeline, table,
register offset, key). A command that does not reaches nothing of the device, and `exec` leaves the state as it is (log entry 3). -/

namespace Sys2Proof

/-- A command of the spec. -/
def Instr.wf : Instr → Bool
  | .coldReset cold => decide (cold.mode < 4 ∧ cold.bootSrc < 4)
  | .serdesCalibrationDone => true
  | .bootImageLoaded => true
  | .warmReset => true
  | .glbWarmResetCmd _ key => decide (key < 65536)
  | .brownOut die => decide (die < 2)
  | .brownOutRecovery => true
  | .railLoss rail => decide (1 ≤ rail ∧ rail < 7)
  | .standbySupplyLoss => true
  | .refclkLoss => true
  | .refclkReturn => true
  | .junctionTempRead tjA tjT => decide (-128 ≤ tjA ∧ tjA < 128 ∧ -128 ≤ tjT ∧ tjT < 128)
  | .avsAdjust _ _ _ _ => true
  | .blockReset src => decide (src < 4096)
  | .tickStart _ fec => decide (∀ x ∈ fec, x.1 < 256)
  | .slotCycle _ _ => true
  | .slackCycle _ _ => true
  | .frameReceive port _ _ _ => decide (port < 256)
  | .cycMinRst => true
  | .digestLatchRead _ => true
  | .lookupResult => true
  | .endOfPass => true
  | .chartLoadGo _ => true
  | .chartLoadRead => true
  | .chartLoadComplete => true
  | .parseLoadGo _ => true
  | .parseLoadRead => true
  | .parseLoadComplete => true
  | .swapArm scope _ => decide (scope < 4)
  | .swapArmChecked => true
  | .swapDisarm => true
  | .chartSwap => true
  | .seqRoleSwap => true
  | .seqMismatch pair _ _ => decide (pair < 32)
  | .seqResyncDone pair => decide (pair < 32)
  | .asxWrite _ tbl entry data => decide (tbl < 64 ∧ entry < 262144 ∧ data.length ≤ 25)
  | .asxClear _ tbl entry => decide (tbl < 64 ∧ entry < 262144)
  | .asxInsert _ tbl entry data => decide (tbl < 64 ∧ entry < 262144 ∧ data.length ≤ 25)
  | .asxMaskp _ tbl entry data => decide (tbl < 64 ∧ entry < 262144 ∧ data.length ≤ 25)
  | .asxRead _ tbl entry => decide (tbl < 64 ∧ entry < 262144)
  | .asxOpStart => true
  | .asxFailover bank => decide (bank < 128)
  | .asxBankReturn bank => decide (bank < 128)
  | .asxReturnComplete bank _ => decide (bank < 128)
  | .lpmAdd _ tbl index data => decide (tbl < 16 ∧ index < 8388608 ∧ data.length ≤ 16)
  | .lpmDel _ tbl index data => decide (tbl < 16 ∧ index < 8388608 ∧ data.length ≤ 16)
  | .exInsert _ tbl index data => decide (tbl < 16 ∧ index < 8388608 ∧ data.length ≤ 16)
  | .exUpdate _ tbl index data => decide (tbl < 16 ∧ index < 8388608 ∧ data.length ≤ 16)
  | .exDelete _ tbl index data => decide (tbl < 16 ∧ index < 8388608 ∧ data.length ≤ 16)
  | .exSlotclr _ tbl index => decide (tbl < 16 ∧ index < 8388608)
  | .dirWrite _ tbl index data => decide (tbl < 16 ∧ index < 8388608 ∧ data.length ≤ 16)
  | .memberWrite _ tbl index data => decide (tbl < 16 ∧ index < 8388608 ∧ data.length ≤ 16)
  | .ctxWrite _ tbl index data => decide (tbl < 16 ∧ index < 8388608 ∧ data.length ≤ 16)
  | .ctxRead _ tbl index => decide (tbl < 16 ∧ index < 8388608)
  | .ctxReadClr _ tbl index => decide (tbl < 16 ∧ index < 8388608)
  | .t2DirWrite _ tbl index data => decide (tbl < 16 ∧ index < 8388608 ∧ data.length ≤ 16)
  | .t2Write _ tbl index data => decide (tbl < 16 ∧ index < 8388608 ∧ data.length ≤ 16)
  | .lkuOpStart => true
  | .t2ReadComplete who _ _ _ _ => decide (who.wf = true)
  | .t2Deadline => true
  | .t2BufWriteIssue => true
  | .t2BufWriteComplete entry _ => decide (entry < 256)
  | .carriagePlace port => decide (port < 64)
  | .carriageReadReturn port => decide (port < 64)
  | .freeListRejoin => true
  | .dptAuditStartCmd => true
  | .auditStart => true
  | .auditApply => true
  | .queCfgWrite _ type index _ tick data => decide (type < 16 ∧ index < 262144 ∧ tick < 281474976710656 ∧ data.length ≤ 8)
  | .queCfgRead _ type index _ tick => decide (type < 16 ∧ index < 262144 ∧ tick < 281474976710656)
  | .queCfgReadClr _ type index _ tick => decide (type < 16 ∧ index < 262144 ∧ tick < 281474976710656)
  | .hbmCommandIssue stack pc => decide (stack < 8 ∧ pc < 64)
  | .hbmReadComplete stack pc => decide (stack < 8 ∧ pc < 64)
  | .hbmRefresh stack pc => decide (stack < 8 ∧ pc < 64)
  | .stackSrEntryDone stack => decide (stack < 8)
  | .stackSrExitDone stack => decide (stack < 8)
  | .stackTempRead stack temp => decide (stack < 8 ∧ -128 ≤ temp ∧ temp < 128)
  | .stackTrainingDone stack _ => decide (stack < 8)
  | .hbmCalibration stack pc => decide (stack < 8 ∧ pc < 64)
  | .wanDeparture pipe => decide (pipe < 64)
  | .tsFifoPop => true
  | .cmRead cage page offset len bank => decide (cage < 32 ∧ page < 256 ∧ offset < 256 ∧ 1 ≤ len ∧ len ≤ 128 ∧ bank < 256)
  | .cmWrite cage page offset len bank data => decide (cage < 32 ∧ page < 256 ∧ offset < 256 ∧ 1 ≤ len ∧ len ≤ 128 ∧ bank < 256 ∧ data.length ≤ 128)
  | .mgmtBusTransactionDone ctrl code _ => decide (ctrl < 8 ∧ code < 256)
  | .marginPoll port _ _ => decide (port < 256)
  | .wanBlockLock kind n => decide (kind < 3 ∧ n < 256)
  | .wanBlockLockLoss kind n => decide (kind < 3 ∧ n < 256)
  | .localOrRemoteFaultReceived port _ _ => decide (port < 256)
  | .bearingPropose port m _ gap => decide (port < 256 ∧ m.ring < 64 ∧ 8 ≤ gap)
  | .bearingAccept port m => decide (port < 256 ∧ m.ring < 64)
  | .bearingDrain port m => decide (port < 256 ∧ m.ring < 64)
  | .bearingSwitch port m => decide (port < 256 ∧ m.ring < 64)
  | .bearingConfirm port m => decide (port < 256 ∧ m.ring < 64)
  | .bearingRestore port m => decide (port < 256 ∧ m.ring < 64)
  | .bearingAbort port m => decide (port < 256 ∧ m.ring < 64)
  | .bearingResend port => decide (port < 256)
  | .adaptiveDrain port => decide (port < 256)
  | .adaptiveSwitch port => decide (port < 256)
  | .ceilingRestore port => decide (port < 256)
  | .cleanReceive port => decide (port < 256)
  | .retuneFifoDrained port => decide (port < 256)
  | .retuneApply port => decide (port < 256)
  | .retuneTimeout port => decide (port < 256)
  | .fabricDeparture pipe => decide (pipe < 64)
  | .fabricCodewordReceive lane _ hdr stream _ => decide (lane < 320 ∧ hdr < 1048576 ∧ stream.length = 640)
  | .fabricDataCell _ => true
  | .fabricXoff ddev => decide (ddev < 1024)
  | .fabricXon ddev => decide (ddev < 1024)
  | .fabricUnreach ddev => decide (ddev < 1024)
  | .fabricReach ddev => decide (ddev < 1024)
  | .fabricProbe lane _ _ => decide (lane < 320)
  | .fabricLstat lane _ => decide (lane < 320)
  | .fabricEnable => true
  | .fabricProbeDone => true
  | .fabricDisable => true
  | .fabricCodewordLock lane => decide (lane < 320)
  | .fabricCodewordLockLoss lane => decide (lane < 320)
  | .energyWindowLatch _ => true
  | .sagWarning die _ => decide (die < 2)
  | .sagDeep die _ => decide (die < 2)
  | .sagReturn die _ => decide (die < 2)
  | .puntHandoff => true
  | .puntWrite ring _ _ => decide (ring < 64)
  | .puntWaitExpire ring => decide (ring < 64)
  | .puntDoorbell ring tail => decide (ring < 64 ∧ tail < 65536)
  | .injectDoorbell ring tail => decide (ring < 16 ∧ tail < 65536)
  | .injectDescriptorFetched tag bytes => decide (tag < 16384 ∧ bytes.length = 32)
  | .injectFrameStaged tag _ => decide (tag < 16384)
  | .ringArm ring value => decide (ring < 80 ∧ value < 4294967296)
  | .ringArmComplete ring => decide (ring < 80)
  | .ringDisable ring value => decide (ring < 80 ∧ value < 4294967296)
  | .busMasterDisable => true
  | .hostReadCompletion tag _ => decide (tag < 16384)
  | .completionTimeout tag => decide (tag < 16384)
  | .windowRead off len => decide (off < 14680064 ∧ 1 ≤ len ∧ off % 4096 + len ≤ 4096)
  | .windowWrite off bytes => decide (off < 14680064 ∧ 1 ≤ bytes.length ∧ off % 4096 + bytes.length ≤ 4096)
  | .windowCommit => true
  | .flrPf0 => true
  | .flrPf1 => true
  | .hostReset _ => true
  | .pcieLinkLoss => true
  | .pcieConfigurationRequest q => decide (q.fn < 2)
  | .perstNDeassertion => true
  | .pcieLinkTrained speed width _ => decide (speed < 16 ∧ width < 16)
  | .tagWithholdExpire tag => decide (tag < 16384)
  | .supervisedRailReturn rail => decide (1 ≤ rail ∧ rail < 7)
  | .sidebandFrame _ => true
  | .sidebandInputApply => true
  | .slotControlWrite cage value => decide (cage < 32 ∧ value < 4294967296)
  | .hostBadAccess kind addr len => decide (kind < 3 ∧ (kind = 2 ∨ addr % 4 ≠ 0 ∨ len ≠ 4))
  | .unmappedAccess fn _ addr => decide (fn < 2 ∧ addr < 67108864)
  | .registerWrite fn addr value => decide (fn < 4 ∧ addr < 67108864 ∧ value < 4294967296)
  | .cxlRetrain port _ => decide (port < 4)
  | .cxlTrainingDone port _ _ _ speed width => decide (port < 4 ∧ speed < 16 ∧ width < 32)
  | .cxlTrainingTimeout port => decide (port < 4)
  | .cxlReady port => decide (port < 4)
  | .cxlReadComplete port who _ _ _ _ => decide (port < 4 ∧ who < 2)
  | .cxlWriteComplete port _ => decide (port < 4)
  | .cxlReadTimeout port => decide (port < 4)
  | .cxlLinkDown port => decide (port < 4)
  | .convoyBlockLock port => decide (port < 3)
  | .convoyBlockLockLoss port => decide (port < 3)
  | .convoyPortRetrain port => decide (port < 3)
  | .sync port _ _ => decide (port < 3)
  | .syncSend _ => true
  | .syncTimeout => true
  | .hopMeasure _ => true
  | .dreq port _ _ _ => decide (port < 3)
  | .dresp port _ _ _ _ => decide (port < 3)
  | .size port _ _ _ _ _ => decide (port < 3)
  | .sizeWaitExpire port => decide (port < 3)
  | .assign port _ _ _ _ => decide (port < 3)
  | .kset port _ _ _ => decide (port < 3)
  | .recount port _ _ => decide (port < 3)
  | .convoyEnum => true
  | .action port _ _ acode _ _ => decide (port < 3 ∧ acode < 256)
  | .nav port _ _ _ _ => decide (port < 3)
  | .convoyBadMessage port kind _ _ _ _ => decide (port < 3 ∧ kind < 3)
  | .health port _ _ _ _ => decide (port < 3)
  | .healthReportSend => true
  | .healthReportMiss => true
  | .helmInChange pat _ => decide (pat < 4)
  | .helmReleaseCmd => true
  | .helmKick key => decide (key < 65536)
  | .helmWatchdogExpire => true
  | .helmBackoffEnd => true
  | .reclaimSet => true
  | .plannedHandover => true
  | .navRoleSwap => true
  | .navMismatch die _ _ => decide (die < 2)
  | .navResyncDone die => decide (die < 2)
  | .faultDetect src cls event _ _ _ => decide (src < 4096 ∧ cls < 4 ∧ event < 256)
  | .faultHalt => true
  | .quenchWindowClose => true
  | .faultClearOne die => decide (die < 2)
  | .faultClearAll die classes => decide (die < 2 ∧ classes < 8)
  | .softwareRevoke holder key => decide (holder < 65536 ∧ key < 65536)
  | .holderRegrant => true
  | .reactionWrite src value => decide (src < 4096 ∧ value < 4294967296)
  | .faultInjectRecord src cls event => decide (src < 4096 ∧ cls < 4 ∧ event < 256)
  | .faultInjectSingleBit src cls event => decide (src < 4096 ∧ cls < 4 ∧ event < 256)
  | .faultInjectDoubleBit src cls event => decide (src < 4096 ∧ cls < 4 ∧ event < 256)
  | .testTokenCheck => true
  | .testTokenCheckDone => true
  | .sweepStart => true
  | .sweepPeriodic => true
  | .sweepDone => true
  | .userPageRead off len => decide (14680064 ≤ off ∧ off < 16777216 ∧ 1 ≤ len)
  | .userPageWrite => true
  | .phaseAdjust adj => decide (adj < 4294967296)
  | .offsetCommit => true
  | .ppsInEdge _ _ => true
  | .clk10mEdge _ => true
  | .ppsOutRise => true
  | .ppsOutFall => true
  | .fwGoHdr src => decide (src < 4)
  | .fwHeaderCheckDone => true
  | .fwDataBlock block => decide (block < 8192)
  | .fwStagingDone _ => true
  | .fwLoad => true
  | .fwLoadDone _ => true
  | .fwActivate => true
  | .fwAbort => true
  | .fwRevert => true
  | .fwSend dst sbank => decide (dst < 65536 ∧ sbank < 2)
  | .fwHandoverStart => true
  | .fwHandoverReady die record => decide (die < 2 ∧ record.length ≤ 4194304)
  | .fwSwitch => true
  | .fwResyncDone => true
  | .fwConfirm key _ => decide (key < 65536)
  | .fwConfirmDone => true
  | .flashRead addr => decide (addr < 268435456)
  | .flashProgram addr => decide (addr < 268435456)
  | .flashErase addr => decide (addr < 268435456)
  | .flashCmdDone _ => true
  | .fwrVersion m => decide (m.port < 3)
  | .fwrOffer m => decide (m.port < 3)
  | .fwrAccept m => decide (m.port < 3)
  | .fwrRefuse m => decide (m.port < 3)
  | .fwrData m => decide (m.port < 3)
  | .fwrAck m => decide (m.port < 3)
  | .fwrDone m => decide (m.port < 3)
  | .fwrAbort m => decide (m.port < 3)
  | .fwrRequest m => decide (m.port < 3)
  | .fwRelayResend => true
  | .fwRelayRxTimeout => true

end Sys2Proof
end

