-- ==== Sys2Proof/Machine/Act.lean ====
section
/-! DEFINITION. How a command acts: on a device that is alive, followed by what every command ends with. -/

namespace Sys2Proof.Machine

/-- The state after an effect on the device. Without its standby supply, or held in cold reset by a reserved MODE, the device does nothing
(R2, R444). -/
def State.run (s : State) (f : Dev → Dev) : State := { s with dev := if s.dev.dead then s.dev else (f s.dev).settle }

/-- The outcome of a command with an effect on the device. A command that names a thing the device does not have (`Instr.wf`) reaches
nothing, so the state stays as it is (DESIGN CHOICE: log entry 3). -/
def State.act (s : State) (c : Instr) (f : Dev → Dev) : Host.Outcome State Fault Refusal :=
  .next (if Instr.wf c then s.run f else s)

end Sys2Proof.Machine
end

