-- ==== Sys2Proof/Machine/DoAccess.lean ====
section
/-! DEFINITION. The meanings of the commands of one family. Accesses to registers. -/

namespace Sys2Proof.Machine

/-- HOST_BAD_ACCESS (R3). A misaligned or non-32-bit register access completes with Unsupported Request and counts in
HST_BAD_ACCESS. -/
def execHostBadAccess (kind addr len : Nat) (s : State) : Host.Outcome State Fault Refusal :=
  s.act (.hostBadAccess kind addr len) fun d => d.oddAccess kind addr len

/-- UNMAPPED_ACCESS (R455). An access outside every block completes with Unsupported Request; a reserved offset reads 0. -/
def execUnmappedAccess (fn : Nat) (write : Bool) (addr : Nat) (s : State) : Host.Outcome State Fault Refusal :=
  s.act (.unmappedAccess fn write addr) fun d => d.unmapped fn write addr

/-- REGISTER_WRITE (R4). A write to a register without a row of its own takes effect per its fields' access types. -/
def execRegisterWrite (fn addr value : Nat) (s : State) : Host.Outcome State Fault Refusal :=
  s.act (.registerWrite fn addr value) fun d => d.access fn addr value

end Sys2Proof.Machine
end

