-- ==== Sys2Proof/Machine/DoBearings.lean ====
section
/-! DEFINITION. The meanings of the commands of one family. Margin steering between the two ends of a WAN link. -/

namespace Sys2Proof.Machine

/-- BEARING_PROPOSE (R270). A PROPOSE bearing message is received and accepted, aborted or resolved by SYSID. -/
def execBearingPropose (port : Nat) (m : BrgMsg) (capable : Bool) (gap : Nat) (s : State) : Host.Outcome State Fault Refusal :=
  s.act (.bearingPropose port m capable gap) fun d => d.core fun d => d.bearingPropose port m capable gap

/-- BEARING_ACCEPT (R267). An ACCEPT bearing message is received by the proposer. -/
def execBearingAccept (port : Nat) (m : BrgMsg) (s : State) : Host.Outcome State Fault Refusal :=
  s.act (.bearingAccept port m) fun d => d.core fun d => d.bearingAccept port m

/-- BEARING_DRAIN (R268). A DRAIN bearing message is received, and in a retune the proposer drains and echoes it. -/
def execBearingDrain (port : Nat) (m : BrgMsg) (s : State) : Host.Outcome State Fault Refusal :=
  s.act (.bearingDrain port m) fun d => d.core fun d => d.bearingDrain port m

/-- BEARING_SWITCH (R267). A SWITCH bearing message is received and the proposer starts its clean-receive wait or schedules its
apply. -/
def execBearingSwitch (port : Nat) (m : BrgMsg) (s : State) : Host.Outcome State Fault Refusal :=
  s.act (.bearingSwitch port m) fun d => d.core fun d => d.bearingSwitch port m

/-- BEARING_CONFIRM (R267). A CONFIRM bearing message is received and the leader sets the new ceiling at admission + 3. -/
def execBearingConfirm (port : Nat) (m : BrgMsg) (s : State) : Host.Outcome State Fault Refusal :=
  s.act (.bearingConfirm port m) fun d => d.core fun d => d.bearingConfirm port m

/-- BEARING_RESTORE (R267). A RESTORE bearing message is received and the proposer takes the new entry. -/
def execBearingRestore (port : Nat) (m : BrgMsg) (s : State) : Host.Outcome State Fault Refusal :=
  s.act (.bearingRestore port m) fun d => d.core fun d => d.bearingRestore port m

/-- BEARING_ABORT (R269). An ABORT bearing message is received and the session ends with reversion. -/
def execBearingAbort (port : Nat) (m : BrgMsg) (s : State) : Host.Outcome State Fault Refusal :=
  s.act (.bearingAbort port m) fun d => d.core fun d => d.bearingAbort port m

/-- BEARING_RESEND (R269). An end waiting RTO ticks resends its last message, or aborts with 0x06 when retries are spent. -/
def execBearingResend (port : Nat) (s : State) : Host.Outcome State Fault Refusal :=
  s.act (.bearingResend port) fun d => d.core fun d => d.bearingResend port

/-- ADAPTIVE_DRAIN (R267). At Td the leader's ceilings fall to min(old, new) and DRAIN is sent. -/
def execAdaptiveDrain (port : Nat) (s : State) : Host.Outcome State Fault Refusal :=
  s.act (.adaptiveDrain port) fun d => d.core fun d => d.leaderDrain port

/-- ADAPTIVE_SWITCH (R267). At Ts the leader starts the ApplyImmediate write and sends SWITCH. -/
def execAdaptiveSwitch (port : Nat) (s : State) : Host.Outcome State Fault Refusal :=
  s.act (.adaptiveSwitch port) fun d => d.core fun d => d.leaderSwitch port

/-- CEILING_RESTORE (R267). Three ticks after admitting CONFIRM or RESTORE, the new ceiling takes effect and MASKED clears. -/
def execCeilingRestore (port : Nat) (s : State) : Host.Outcome State Fault Refusal :=
  s.act (.ceilingRestore port) fun d => d.core fun d => d.ceilingRestore port

/-- CLEAN_RECEIVE (R267). The receive side has been clean for CONFIRM ticks and CONFIRM is sent. -/
def execCleanReceive (port : Nat) (s : State) : Host.Outcome State Fault Refusal :=
  s.act (.cleanReceive port) fun d => d.core fun d => d.cleanReceive port

/-- RETUNE_FIFO_DRAINED (R268). The leader's transmit FIFO empties and it injects SWITCH with its apply delay. -/
def execRetuneFifoDrained (port : Nat) (s : State) : Host.Outcome State Fault Refusal :=
  s.act (.retuneFifoDrained port) fun d => d.core fun d => d.retuneDrained port

/-- RETUNE_APPLY (R268). At its apply tick an end applies ApplyDPInit for the staged application. -/
def execRetuneApply (port : Nat) (s : State) : Host.Outcome State Fault Refusal :=
  s.act (.retuneApply port) fun d => d.core fun d => d.retuneApply port

/-- RETUNE_TIMEOUT (R269). A retune whose link is not up within MAX ticks reverts to the old application. -/
def execRetuneTimeout (port : Nat) (s : State) : Host.Outcome State Fault Refusal :=
  s.act (.retuneTimeout port) fun d => d.core fun d => d.retuneTimeout port

end Sys2Proof.Machine
end

