-- ==== Sys2Proof/Machine/DoCages.lean ====
section
/-! DEFINITION. The meanings of the commands of one family. Cage slots. -/

namespace Sys2Proof.Machine

/-- SIDEBAND_FRAME (R324). Every 8 ticks a sideband frame shifts out cage outputs and captures inputs, ignoring frames with bad
markers. -/
def execSidebandFrame (inputs : List Nat) (s : State) : Host.Outcome State Fault Refusal :=
  s.act (.sidebandFrame inputs) fun d => d.core fun d => d.sidebandFrame inputs

/-- SIDEBAND_INPUT_APPLY (R327). The inputs of a frame take effect at the boundary of tick 8k + 6. -/
def execSidebandInputApply (s : State) : Host.Outcome State Fault Refusal :=
  s.act .sidebandInputApply fun d => d.core fun d => d.sidebandApply

/-- SLOT_CONTROL_WRITE (R326). A write to CGE_SLOTc_CTL changes cage outputs and sets CC once applied on the pins. -/
def execSlotControlWrite (cage value : Nat) (s : State) : Host.Outcome State Fault Refusal :=
  s.act (.slotControlWrite cage value) fun d => d.host (CGE_SLOT_CTL.addr cage) fun d => d.slotControl cage value

end Sys2Proof.Machine
end

