-- ==== Sys2Proof/Machine/DoCarriages.lean ====
section
/-! DEFINITION. The meanings of the commands of one family. Carriages, depots and the auditor. -/

namespace Sys2Proof.Machine

/-- CARRIAGE_PLACE (R175). A write port places a carriage in the first held bank whose free list is not empty. -/
def execCarriagePlace (port : Nat) (s : State) : Host.Outcome State Fault Refusal :=
  s.act (.carriagePlace port) fun d => d.core fun d => d.placeAt port

/-- CARRIAGE_READ_RETURN (R176). A carriage read returns its 256 bytes 128 slot cycles after issue. -/
def execCarriageReadReturn (port : Nat) (s : State) : Host.Outcome State Fault Refusal :=
  s.act (.carriageReadReturn port) fun d => d.core fun d => d.carReturn port

/-- FREE_LIST_REJOIN (R185). Released carriages rejoin their banks' free lists within 256 slot cycles. -/
def execFreeListRejoin (s : State) : Host.Outcome State Fault Refusal :=
  s.act .freeListRejoin fun d => d.core fun d => d.rejoinAll

/-- DPT_AUDIT_START_CMD (R193). A write of DPT_AUD_CTRL.START requests an audit at the next boundary at which none runs. -/
def execDptAuditStartCmd (s : State) : Host.Outcome State Fault Refusal :=
  s.act .dptAuditStartCmd fun d => d.host DPT_AUD_CTRL.addr fun d => { d with dpt := { d.dpt with audWanted := true } }

/-- AUDIT_START (R193). An audit starts at a tick boundary and flips the marking colour. -/
def execAuditStart (s : State) : Host.Outcome State Fault Refusal :=
  s.act .auditStart fun d => d.core fun d => d.audStart

/-- AUDIT_APPLY (R193). At the first boundary after the sweep, orphans are reclaimed and the tick may take FAULT. -/
def execAuditApply (s : State) : Host.Outcome State Fault Refusal :=
  s.act .auditApply fun d => d.core fun d => d.audApply

end Sys2Proof.Machine
end

