-- ==== Sys2Proof/Machine/DoCharts.lean ====
section
/-! DEFINITION. The meanings of the commands of one family. Chart and parse graph loads, chart swaps, twin sequencers. -/

namespace Sys2Proof.Machine

/-- CHART_LOAD_GO (R74). A CHT_LD_CMD GO command starts a checked write of CHT_LD_DATA to the shadow bank target. -/
def execChartLoadGo (rd : Bool) (s : State) : Host.Outcome State Fault Refusal :=
  s.act (.chartLoadGo rd) fun d => d.host CHT_LD_CMD.addr fun d => d.chartCmd true rd

/-- CHART_LOAD_READ (R75). A CHT_LD_CMD RD command starts a read-back of a shadow bank entry into CHT_LD_DATA. -/
def execChartLoadRead (s : State) : Host.Outcome State Fault Refusal :=
  s.act .chartLoadRead fun d => d.host CHT_LD_CMD.addr fun d => d.chartCmd false true

/-- CHART_LOAD_COMPLETE (R72). A chart load command completes 1 to 48 cycles later, writing every replica or refusing with a code.
-/
def execChartLoadComplete (s : State) : Host.Outcome State Fault Refusal :=
  s.act .chartLoadComplete fun d => d.core fun d => d.chartDone

/-- PARSE_LOAD_GO (R118). A PRS_LD_CMD GO command starts a checked write of a state, transition or source entry to the shadow graph.
-/
def execParseLoadGo (rd : Bool) (s : State) : Host.Outcome State Fault Refusal :=
  s.act (.parseLoadGo rd) fun d => d.host PRS_LD_CMD.addr fun d => d.prsCmd true rd

/-- PARSE_LOAD_READ (R118). A PRS_LD_CMD RD command starts a read-back of a shadow graph entry. -/
def execParseLoadRead (s : State) : Host.Outcome State Fault Refusal :=
  s.act .parseLoadRead fun d => d.host PRS_LD_CMD.addr fun d => d.prsCmd false true

/-- PARSE_LOAD_COMPLETE (R118). A parse graph load command completes, writing the entry or reporting a code from Table 4.8. -/
def execParseLoadComplete (s : State) : Host.Outcome State Fault Refusal :=
  s.act .parseLoadComplete fun d => d.core fun d => d.prsDone

/-- SWAP_ARM (R97). A write of CHT_SWAP_CTRL.ARM checks the scan-free conditions and starts the scan of the shadow bank. -/
def execSwapArm (scope : Nat) (dis : Bool) (s : State) : Host.Outcome State Fault Refusal :=
  s.act (.swapArm scope dis) fun d => d.host CHT_SWAP_CTRL.addr fun d => (if dis then d.disarm else d).arm scope

/-- SWAP_ARM_CHECKED (R97). The arm scan completes within 8 ticks, setting ARMED or ARM_ERR, and a lead sends its swap command. -/
def execSwapArmChecked (s : State) : Host.Outcome State Fault Refusal :=
  s.act .swapArmChecked fun d => d.core fun d => d.armChecked

/-- SWAP_DISARM (R102). A write of CHT_SWAP_CTRL.DISARM clears ARMED if it lands early enough, and is ignored otherwise. -/
def execSwapDisarm (s : State) : Host.Outcome State Fault Refusal :=
  s.act .swapDisarm fun d => d.host CHT_SWAP_CTRL.addr fun d => d.disarm

/-- CHART_SWAP (R99). At target tick S the armed bank becomes active for new admissions, egress passes and the itinerary. -/
def execChartSwap (s : State) : Host.Outcome State Fault Refusal :=
  s.act .chartSwap fun d => d.core fun d => d.chartSwap

/-- SEQ_ROLE_SWAP (R86). Every 65,536 ticks all twin sequencer pairs swap driver and shadow roles. -/
def execSeqRoleSwap (s : State) : Host.Outcome State Fault Refusal :=
  s.act .seqRoleSwap fun d => d.core fun d => d.seqRoleSwap

/-- SEQ_MISMATCH (R87). Twin sequencer decisions differ, the faulty twin is chosen and reset, and a CORRECTED or FATAL fault is
raised. -/
def execSeqMismatch (pair : Nat) (ueA ueB : Bool) (s : State) : Host.Outcome State Fault Refusal :=
  s.act (.seqMismatch pair ueA ueB) fun d => d.core fun d => d.seqMismatch pair ueA ueB

/-- SEQ_RESYNC_DONE (R87). A reloaded twin sequencer resumes lockstep 2 ticks after its reload and RESYNC clears. -/
def execSeqResyncDone (pair : Nat) (s : State) : Host.Outcome State Fault Refusal :=
  s.act (.seqResyncDone pair) fun d => d.core fun d => (d.seqResync pair).recovered (0x010 + pair)

end Sys2Proof.Machine
end

