-- ==== Sys2Proof/Machine/DoConvoy.lean ====
section
/-! DEFINITION. The meanings of the commands of one family. The convoy. -/

namespace Sys2Proof.Machine

/-- CONVOY_BLOCK_LOCK (R341). A convoy port acquires 64b/66b block lock, a root's CVU setting ROOT_ERR. -/
def execConvoyBlockLock (port : Nat) (s : State) : Host.Outcome State Fault Refusal :=
  s.act (.convoyBlockLock port) fun d => (d.cvyBlockLock port).recovered (0x320 + port)

/-- CONVOY_BLOCK_LOCK_LOSS (R346). A convoy port loses block lock, clearing LOCKED when it is CVU. -/
def execConvoyBlockLockLoss (port : Nat) (s : State) : Host.Outcome State Fault Refusal :=
  s.act (.convoyBlockLockLoss port) fun d => d.cvyBlockLoss port

/-- CONVOY_PORT_RETRAIN (R345). A write of CVY_PORTn_CTL.RETRAIN reacquires block lock and remeasures the hop. -/
def execConvoyPortRetrain (port : Nat) (s : State) : Host.Outcome State Fault Refusal :=
  s.act (.convoyPortRetrain port) fun d => d.host (CVY_PORT_CTL.addr port) fun d => d.cvyRetrain port

/-- SYNC (R346). A SYNC message loads or slews the tick time and may set or clear LOCKED. -/
def execSync (port tdep tarr : Nat) (s : State) : Host.Outcome State Fault Refusal :=
  s.act (.sync port tdep tarr) fun d => d.sync port tdep tarr

/-- SYNC_SEND (R346). A locked device sends SYNC downstream at every sixteenth tick. -/
def execSyncSend (tdep : Nat) (s : State) : Host.Outcome State Fault Refusal :=
  s.act (.syncSend tdep) fun d => d.syncSend tdep

/-- SYNC_TIMEOUT (R346). 64 ticks without a good SYNC clear LOCKED and start holdover. -/
def execSyncTimeout (s : State) : Host.Outcome State Fault Refusal :=
  s.act .syncTimeout fun d => d.syncTimeout

/-- HOP_MEASURE (R345). Every 256 ticks the device sends DREQ to measure its CVU hop. -/
def execHopMeasure (t1 : Nat) (s : State) : Host.Outcome State Fault Refusal :=
  s.act (.hopMeasure t1) fun d => d.hopMeasure t1

/-- DREQ (R345). A DREQ message on a downstream port is stamped and answered with DRESP. -/
def execDreq (port t1 t2 t3 : Nat) (s : State) : Host.Outcome State Fault Refusal :=
  s.act (.dreq port t1 t2 t3) fun d => d.dreq port t1 t2 t3

/-- DRESP (R345). A DRESP message gives a hop measurement averaged into CVY_PORT0_HOP. -/
def execDresp (port t1 t2 t3 t4 : Nat) (s : State) : Host.Outcome State Fault Refusal :=
  s.act (.dresp port t1 t2 t3 t4) fun d => d.dresp port t1 t2 t3 t4

/-- SIZE (R348). A SIZE message gives a subtree's count, height and hop, or marks a late joiner. -/
def execSize (port count height hopmax : Nat) (late : Bool) (hop : Nat) (s : State) : Host.Outcome State Fault Refusal :=
  s.act (.size port count height hopmax late hop) fun d => d.sizeRx port count height hopmax late hop

/-- SIZE_WAIT_EXPIRE (R348). A downstream port with no SIZE within WAIT ticks counts as absent and the member sends its SIZE. -/
def execSizeWaitExpire (port : Nat) (s : State) : Host.Outcome State Fault Refusal :=
  s.act (.sizeWaitExpire port) fun d => d.sizeExpire port

/-- ASSIGN (R348). An ASSIGN message sets the member's address, K and generation and is passed down. -/
def execAssign (port src addr k gen : Nat) (s : State) : Host.Outcome State Fault Refusal :=
  s.act (.assign port src addr k gen) fun d => d.assignRx port src addr k gen

/-- KSET (R351). A KSET message sets the announce lead K in force. -/
def execKset (port src seq k : Nat) (s : State) : Host.Outcome State Fault Refusal :=
  s.act (.kset port src seq k) fun d => d.kset port src seq k

/-- RECOUNT (R349). A RECOUNT message restarts the size phase of enumeration. -/
def execRecount (port src seq : Nat) (s : State) : Host.Outcome State Fault Refusal :=
  s.act (.recount port src seq) fun d => d.recount port src seq

/-- CONVOY_ENUM (R349). A write of CVY_CTRL.ENUM at the root broadcasts RECOUNT. -/
def execConvoyEnum (s : State) : Host.Outcome State Fault Refusal :=
  s.act .convoyEnum fun d => d.host CVY_CTRL.addr fun d => d.enum_

/-- ACTION (R350). An ACTION message is taken once if received by S − 3, holding a chart swap, firmware activation or navigator
event. -/
def execAction (port src seq acode target arg : Nat) (s : State) : Host.Outcome State Fault Refusal :=
  s.act (.action port src seq acode target arg) fun d => d.action port src seq acode target arg

/-- NAV (R343). A NAV message is handed to navigator firmware. -/
def execNav (port dst src seq : Nat) (payload : List Byte) (s : State) : Host.Outcome State Fault Refusal :=
  s.act (.nav port dst src seq payload) fun d => d.nav port dst src seq payload

/-- CONVOY_BAD_MESSAGE (R342). A convoy message arrives with a failed CRC, cut short, led by a reserved control block type, or with
a reserved MTYPE or a wrong LEN, and is discarded and counted. -/
def execConvoyBadMessage (port kind dst src seq : Nat) (payload : List Byte) (s : State) : Host.Outcome State Fault Refusal :=
  s.act (.convoyBadMessage port kind dst src seq payload) fun d => d.cvyBad port kind dst src seq payload

end Sys2Proof.Machine
end

