-- ==== Sys2Proof/Machine/DoEnergy.lean ====
section
/-! DEFINITION. The meanings of the commands of one family. Energy reckoning and supply sag. -/

namespace Sys2Proof.Machine

/-- ENERGY_WINDOW_LATCH (R294). Every 2^WIN_LOG2 ticks the measured and modelled energies of the window are latched. -/
def execEnergyWindowLatch (meas : Nat) (s : State) : Host.Outcome State Fault Refusal :=
  s.act (.energyWindowLatch meas) fun d => d.core fun d => d.energyLatch meas

/-- SAG_WARNING (R298). A sensor crossing the warning level stretches the die's clock to 7/8. -/
def execSagWarning (die low : Nat) (s : State) : Host.Outcome State Fault Refusal :=
  s.act (.sagWarning die low) fun d => d.core fun d => d.sagWarn die low

/-- SAG_DEEP (R298). A sensor crossing the deep level stretches the die's clock to 3/4. -/
def execSagDeep (die low : Nat) (s : State) : Host.Outcome State Fault Refusal :=
  s.act (.sagDeep die low) fun d => d.core fun d => d.sagDeep die low

/-- SAG_RETURN (R299). After 256 clean cycles the clock returns one level toward full. -/
def execSagReturn (die low : Nat) (s : State) : Host.Outcome State Fault Refusal :=
  s.act (.sagReturn die low) fun d => d.core fun d => d.sagReturn die low

end Sys2Proof.Machine
end

