-- ==== Sys2Proof/Machine/DoFabric.lean ====
section
/-! DEFINITION. The meanings of the commands of one family. The fabric interface. -/

namespace Sys2Proof.Machine

/-- FABRIC_DEPARTURE (R277). A fabric departure enters the group's transmit FIFO as cells spread over the transmit set. -/
def execFabricDeparture (pipe : Nat) (s : State) : Host.Outcome State Fault Refusal :=
  s.act (.fabricDeparture pipe) fun d => d.core fun d => d.fabricDeparture pipe

/-- FABRIC_CODEWORD_RECEIVE (R273). A fabric codeword is decoded, and an uncorrectable one discards every overlapping cell. -/
def execFabricCodewordReceive (lane : Nat) (good : Bool) (hdr : Nat) (stream : List Byte) (arrival : Nat) (s : State) : Host.Outcome State Fault Refusal :=
  s.act (.fabricCodewordReceive lane good hdr stream arrival) fun d => d.core fun d => d.fabDo fun d => d.codeword lane good hdr
    stream arrival

/-- FABRIC_DATA_CELL (R280). A DATA cell is checked and gathered into its packet's reassembly carriages. -/
def execFabricDataCell (bytes : List Byte) (s : State) : Host.Outcome State Fault Refusal :=
  s.act (.fabricDataCell bytes) fun d => d.core fun d => d.fabDo fun d => d.dataCell bytes

/-- FABRIC_XOFF (R278). An XOFF cell clears the grant bit of its device at the next boundary. -/
def execFabricXoff (ddev : Nat) (s : State) : Host.Outcome State Fault Refusal :=
  s.act (.fabricXoff ddev) fun d => d.core fun d => d.fabDo fun d => d.fabCtrl 1 ddev

/-- FABRIC_XON (R278). An XON cell sets the grant bit of its device at the next boundary. -/
def execFabricXon (ddev : Nat) (s : State) : Host.Outcome State Fault Refusal :=
  s.act (.fabricXon ddev) fun d => d.core fun d => d.fabDo fun d => d.fabCtrl 2 ddev

/-- FABRIC_UNREACH (R278). An UNREACH cell clears the reach bit of its device at the next boundary. -/
def execFabricUnreach (ddev : Nat) (s : State) : Host.Outcome State Fault Refusal :=
  s.act (.fabricUnreach ddev) fun d => d.core fun d => d.fabDo fun d => d.fabCtrl 3 ddev

/-- FABRIC_REACH (R278). A REACH cell sets the reach bit of its device at the next boundary. -/
def execFabricReach (ddev : Nat) (s : State) : Host.Outcome State Fault Refusal :=
  s.act (.fabricReach ddev) fun d => d.core fun d => d.fabDo fun d => d.fabCtrl 4 ddev

/-- FABRIC_PROBE (R284). A PROBE cell gives a propagation measurement for its lane. -/
def execFabricProbe (lane arrival arg : Nat) (s : State) : Host.Outcome State Fault Refusal :=
  s.act (.fabricProbe lane arrival arg) fun d => d.core fun d => d.fabDo fun d => d.fabProbe lane arrival arg

/-- FABRIC_LSTAT (R283). An LSTAT cell reports the far receiver's state of a lane. -/
def execFabricLstat (lane : Nat) (good : Bool) (s : State) : Host.Outcome State Fault Refusal :=
  s.act (.fabricLstat lane good) fun d => d.core fun d => d.fabDo fun d => d.fabLstat lane good

/-- FABRIC_ENABLE (R284). FAB_CTRL.EN = 1 takes effect, refusing without lock, and starts probing or takes FAB_HOP.TICKS. -/
def execFabricEnable (s : State) : Host.Outcome State Fault Refusal :=
  s.act .fabricEnable fun d => d.core fun d => d.fabEnable

/-- FABRIC_PROBE_DONE (R284). After 256 ticks of probing, L is computed and the interface starts or sets HOP_ERR. -/
def execFabricProbeDone (s : State) : Host.Outcome State Fault Refusal :=
  s.act .fabricProbeDone fun d => d.core fun d => d.fabDo fun d => d.fabProbeDone

/-- FABRIC_DISABLE (R286). FAB_CTRL.EN = 0 stops cells, discards gathered cells, releases the pool and takes FABRIC nodes down. -/
def execFabricDisable (s : State) : Host.Outcome State Fault Refusal :=
  s.act .fabricDisable fun d => d.core fun d => d.fabDisable

/-- FABRIC_CODEWORD_LOCK (R273). A fabric lane receiver locks to codewords by FEC decode and sets FAB_LANEn.RXLOCK, which starts its
transmit-set debounce. -/
def execFabricCodewordLock (lane : Nat) (s : State) : Host.Outcome State Fault Refusal :=
  s.act (.fabricCodewordLock lane) fun d => d.core fun d => d.fabDo fun d => d.fabLock lane true

/-- FABRIC_CODEWORD_LOCK_LOSS (R283). A fabric lane receiver loses FEC lock, clearing RXLOCK, so the lane leaves its transmit set at
the next boundary. -/
def execFabricCodewordLockLoss (lane : Nat) (s : State) : Host.Outcome State Fault Refusal :=
  s.act (.fabricCodewordLockLoss lane) fun d => d.core fun d => d.fabDo fun d => d.fabLock lane false

end Sys2Proof.Machine
end

