-- ==== Sys2Proof/Machine/DoFaults.lean ====
section
/-! DEFINITION. The meanings of the commands of one family. The fault collector. -/

namespace Sys2Proof.Machine

/-- FAULT_DETECT (R383). A detector reports, the collector writes a record, drives FAULT_N and applies the source's reaction. -/
def execFaultDetect (src cls event detail : Nat) (alters : Bool) (lost : List D2dLoss) (s : State) : Host.Outcome State Fault Refusal :=
  s.act (.faultDetect src cls event detail alters lost) fun d => d.detect src cls event detail alters lost

/-- FAULT_HALT (R386). From the next boundary every slot acts as IDLE, transmitters send idle and HALTED is set. -/
def execFaultHalt (s : State) : Host.Outcome State Fault Refusal :=
  s.act .faultHalt fun d => d.haltNow

/-- QUENCH_WINDOW_CLOSE (R389). A primary's quench window closes at tick N + TICKS + 1. -/
def execQuenchWindowClose (s : State) : Host.Outcome State Fault Refusal :=
  s.act .quenchWindowClose fun d => d.quenchClose

/-- FAULT_CLEAR_ONE (R385). FLT_CLEAR GO with ALL 0 sets CLEARED in the record named by FLT_CLEAR_SEQ. -/
def execFaultClearOne (die : Nat) (s : State) : Host.Outcome State Fault Refusal :=
  s.act (.faultClearOne die) fun d => d.host FLT_CLEAR.addr fun d => d.clearOne die

/-- FAULT_CLEAR_ALL (R385). FLT_CLEAR GO with ALL 1 clears every record of the named classes and may empty the FATAL store. -/
def execFaultClearAll (die classes : Nat) (s : State) : Host.Outcome State Fault Refusal :=
  s.act (.faultClearAll die classes) fun d => d.host FLT_CLEAR.addr fun d => d.clearAll die classes

/-- SOFTWARE_REVOKE (R391). A write of FLT_REVOKE with KEY 0xC3E1 revokes a grantable holder. -/
def execSoftwareRevoke (holder key : Nat) (s : State) : Host.Outcome State Fault Refusal :=
  s.act (.softwareRevoke holder key) fun d => d.host FLT_REVOKE.addr fun d => d.softRevoke holder key

/-- HOLDER_REGRANT (R391). A software-revoked holder is granted again at the first boundary with no audit running. -/
def execHolderRegrant (s : State) : Host.Outcome State Fault Refusal :=
  s.act .holderRegrant fun d => d.core fun d => d.regrant

/-- REACTION_WRITE (R387). A write of FLT_REACTn is applied only if each code is allowed for its source and class. -/
def execReactionWrite (src value : Nat) (s : State) : Host.Outcome State Fault Refusal :=
  s.act (.reactionWrite src value) fun d => d.host (FLT_REACT.addr 0) fun d => d.reactWrite src value

/-- FAULT_INJECT_RECORD (R394). FLT_INJ TYPE 0 writes an injected record and applies its reaction. -/
def execFaultInjectRecord (src cls event : Nat) (s : State) : Host.Outcome State Fault Refusal :=
  s.act (.faultInjectRecord src cls event) fun d => d.host FLT_INJ.addr fun d => d.injRecord src cls event

/-- FAULT_INJECT_SINGLE_BIT (R394). FLT_INJ TYPE 1 flips one check bit of the next word the source's store writes. -/
def execFaultInjectSingleBit (src cls event : Nat) (s : State) : Host.Outcome State Fault Refusal :=
  s.act (.faultInjectSingleBit src cls event) fun d => d.host FLT_INJ.addr fun d => d.injBits src cls event 1

/-- FAULT_INJECT_DOUBLE_BIT (R394). FLT_INJ TYPE 2 flips two data bits of the next word the source's store writes. -/
def execFaultInjectDoubleBit (src cls event : Nat) (s : State) : Host.Outcome State Fault Refusal :=
  s.act (.faultInjectDoubleBit src cls event) fun d => d.host FLT_INJ.addr fun d => d.injBits src cls event 2

/-- TEST_TOKEN_CHECK (R392). A write of FLT_TEST_CMD.GO starts checking a factory test token. -/
def execTestTokenCheck (s : State) : Host.Outcome State Fault Refusal :=
  s.act .testTokenCheck fun d => d.host FLT_TEST_CMD.addr fun d => d.tokenCheck

/-- TEST_TOKEN_CHECK_DONE (R393). The token check completes, entering factory test mode or refusing with a code. -/
def execTestTokenCheckDone (s : State) : Host.Outcome State Fault Refusal :=
  s.act .testTokenCheckDone fun d => d.core fun d => d.tokenDone

end Sys2Proof.Machine
end

