-- ==== Sys2Proof/Machine/DoHelm.lean ====
section
/-! DEFINITION. The meanings of the commands of one family. The helm and the navigator cores. -/

namespace Sys2Proof.Machine

/-- HEALTH (R369). A HEALTH report from the partner is checked and used for comparison, reclaim and handover. -/
def execHealth (port dst src seq : Nat) (payload : List Byte) (s : State) : Host.Outcome State Fault Refusal :=
  s.act (.health port dst src seq payload) fun d => d.health port dst src seq payload

/-- HEALTH_REPORT_SEND (R369). At tick 256j + 264 the device sends its health report for block j. -/
def execHealthReportSend (s : State) : Host.Outcome State Fault Refusal :=
  s.act .healthReportSend fun d => d.core fun d => d.healthSend

/-- HEALTH_REPORT_MISS (R369). No partner report by 256j + 512 counts a miss, and MISS misses set PLOST. -/
def execHealthReportMiss (s : State) : Host.Outcome State Fault Refusal :=
  s.act .healthReportMiss fun d => d.core fun d => d.healthMiss

/-- HELM_IN_CHANGE (R364). The partner's HELM_IN and HELM_IN_N pattern changes, subject to the 20 ns glitch filter, fixing the
instant from which the line reads Released, Asserted or Invalid. -/
def execHelmInChange (pat at_ : Nat) (s : State) : Host.Outcome State Fault Refusal :=
  s.act (.helmInChange pat at_) fun d => d.helmIn pat at_

/-- HELM_RELEASE_CMD (R365). A write of HLM_CTRL.RELEASE releases the helm at the next boundary with cause 0x5. -/
def execHelmReleaseCmd (s : State) : Host.Outcome State Fault Refusal :=
  s.act .helmReleaseCmd fun d => d.host HLM_CTRL.addr fun d => d.helmReleaseCmd

/-- HELM_KICK (R366). A write of HLM_KICK with KEY 0x5A1C restarts the helm watchdog. -/
def execHelmKick (key : Nat) (s : State) : Host.Outcome State Fault Refusal :=
  s.act (.helmKick key) fun d => d.host HLM_KICK.addr fun d => d.helmKick key

/-- HELM_WATCHDOG_EXPIRE (R366). The helm watchdog expires, releasing the helm and making the device ineligible. -/
def execHelmWatchdogExpire (s : State) : Host.Outcome State Fault Refusal :=
  s.act .helmWatchdogExpire fun d => d.core fun d => d.helmWatchdog

/-- HELM_BACKOFF_END (R363). BACKOFF's hold time ends and the device returns to STANDBY. -/
def execHelmBackoffEnd (s : State) : Host.Outcome State Fault Refusal :=
  s.act .helmBackoffEnd fun d => d.core fun d => d.helmBackoffEnd

/-- RECLAIM_SET (R372). The wait-to-restore count reaches its limit and the preferred unit sets RECLAIM. -/
def execReclaimSet (s : State) : Host.Outcome State Fault Refusal :=
  s.act .reclaimSet fun d => d.core fun d => d.reclaimSet

/-- PLANNED_HANDOVER (R372). At tick X the active non-preferred unit releases with cause 0x6. -/
def execPlannedHandover (s : State) : Host.Outcome State Fault Refusal :=
  s.act .plannedHandover fun d => d.core fun d => d.plannedHandover

/-- NAV_ROLE_SWAP (R373). Every 2^24 ticks each navigator pair swaps roles. -/
def execNavRoleSwap (s : State) : Host.Outcome State Fault Refusal :=
  s.act .navRoleSwap fun d => d.core fun d => d.navRoleSwap

/-- NAV_MISMATCH (R373). Twin navigator cores disagree and the faulty core is reloaded. -/
def execNavMismatch (die : Nat) (ueDriver ueShadow : Bool) (s : State) : Host.Outcome State Fault Refusal :=
  s.act (.navMismatch die ueDriver ueShadow) fun d => d.core fun d => d.navError die ueDriver ueShadow

/-- NAV_RESYNC_DONE (R373). A reloaded navigator core rejoins lockstep and RESYNC clears. -/
def execNavResyncDone (die : Nat) (s : State) : Host.Outcome State Fault Refusal :=
  s.act (.navResyncDone die) fun d => d.core fun d => (d.navResync die).recovered (0x340 + die)

end Sys2Proof.Machine
end

