-- ==== Sys2Proof/Machine/DoHost.lean ====
section
/-! DEFINITION. The meanings of the commands of one family. The host endpoint. -/

namespace Sys2Proof.Machine

/-- BUS_MASTER_DISABLE (R318). Clearing PF1 Bus Master Enable stops requests and puts running rings in HALT_BME. -/
def execBusMasterDisable (s : State) : Host.Outcome State Fault Refusal :=
  s.act .busMasterDisable fun d => d.core fun d => d.busMasterOff

/-- HOST_READ_COMPLETION (R319). A completion for a host read arrives, and errors or unknown tags put the ring in ERROR or are
discarded. -/
def execHostReadCompletion (tag status : Nat) (s : State) : Host.Outcome State Fault Refusal :=
  s.act (.hostReadCompletion tag status) fun d => d.core fun d => d.hostCompletion tag status

/-- COMPLETION_TIMEOUT (R319). A host read times out, putting its ring in ERROR and withholding its tag. -/
def execCompletionTimeout (tag : Nat) (s : State) : Host.Outcome State Fault Refusal :=
  s.act (.completionTimeout tag) fun d => d.core fun d => d.hostTimeout tag

/-- WINDOW_READ (R321). A read TLP through a BAR2 window returns CXL data or Unsupported Request. -/
def execWindowRead (off len : Nat) (s : State) : Host.Outcome State Fault Refusal :=
  s.act (.windowRead off len) fun d => d.hostGet 0x2300000 fun d => d.winRead off len

/-- WINDOW_WRITE (R321). A write TLP through a BAR2 window is applied to CXL memory or discarded. -/
def execWindowWrite (off : Nat) (bytes : List Byte) (s : State) : Host.Outcome State Fault Refusal :=
  s.act (.windowWrite off bytes) fun d => d.host 0x2300000 fun d => d.winWrite off bytes

/-- WINDOW_COMMIT (R321). A write of HST_WIN_COMMIT.COMMIT schedules the NEXT window copies for the next boundary. -/
def execWindowCommit (s : State) : Host.Outcome State Fault Refusal :=
  s.act .windowCommit fun d => d.host HST_WIN_COMMIT.addr fun d => d.wr HST_WIN_COMMIT.PENDING 1

/-- FLR_PF0 (R322). A Function Level Reset of PF0 clears its configuration, MSI-X, interrupt maps and windows. -/
def execFlrPf0 (s : State) : Host.Outcome State Fault Refusal :=
  s.act .flrPf0 fun d => d.core fun d => d.flr0

/-- FLR_PF1 (R322). A Function Level Reset of PF1 disables every ring and clears its MSI-X table. -/
def execFlrPf1 (s : State) : Host.Outcome State Fault Refusal :=
  s.act .flrPf1 fun d => d.core fun d => d.flr1

/-- HOST_RESET (R323). A hot reset or PERST_N assertion applies both FLRs and retrains the link. -/
def execHostReset (perst : Bool) (s : State) : Host.Outcome State Fault Refusal :=
  s.act (.hostReset perst) fun d => d.hostReset perst

/-- PCIE_LINK_LOSS (R323). DL_Down applies both FLRs, retrains, sets LINK_LOSS and logs a fault. -/
def execPcieLinkLoss (s : State) : Host.Outcome State Fault Refusal :=
  s.act .pcieLinkLoss fun d => d.core fun d => d.pcieLost

/-- PCIE_CONFIGURATION_REQUEST (R353). A PCIe configuration request arrives, answered with Request Retry Status before boot
completes and otherwise applied, including Bus Master Enable of PF0, D3hot entry and Device Control 2. -/
def execPcieConfigurationRequest (q : CfgReq) (s : State) : Host.Outcome State Fault Refusal :=
  s.act (.pcieConfigurationRequest q) fun d => d.core fun d => d.configReq q

/-- PERST_N_DEASSERTION (R353). PERST_N is deasserted and the endpoint starts link training once step 2 has calibrated its lanes. -/
def execPerstNDeassertion (s : State) : Host.Outcome State Fault Refusal :=
  s.act .perstNDeassertion fun d => d.perstOff

/-- PCIE_LINK_TRAINED (R305). PCIe link training completes, setting HST_STATUS.LINK_UP, SPEED, WIDTH and FLIT. -/
def execPcieLinkTrained (speed width : Nat) (flit : Bool) (s : State) : Host.Outcome State Fault Refusal :=
  s.act (.pcieLinkTrained speed width flit) fun d => d.core fun d => d.pcieUp speed width flit

/-- TAG_WITHHOLD_EXPIRE (R319). A read tag withheld after a completion timeout becomes usable again after twice the timeout value,
and at least 1 s. -/
def execTagWithholdExpire (tag : Nat) (s : State) : Host.Outcome State Fault Refusal :=
  s.act (.tagWithholdExpire tag) fun d => d.core fun d => d.tagBack tag

/-- SUPERVISED_RAIL_RETURN (R445). A supervised SerDes or HBM rail that caused a brown-out returns within tolerance, ending the
device's hold in warm reset. -/
def execSupervisedRailReturn (rail : Nat) (s : State) : Host.Outcome State Fault Refusal :=
  s.act (.supervisedRailReturn rail) fun d => d.railReturn rail

end Sys2Proof.Machine
end

