-- ==== Sys2Proof/Machine/DoLookup.lean ====
section
/-! DEFINITION. The meanings of the commands of one family. Operations on the lookup engines, flow contexts and tier 2. -/

namespace Sys2Proof.Machine

/-- LPM_ADD (R151). An LPM_ADD operation is submitted to add or replace a prefix. -/
def execLpmAdd (holder tbl index : Nat) (data : List (BitVec 32)) (s : State) : Host.Outcome State Fault Refusal :=
  s.act (.lpmAdd holder tbl index data) fun d => d.agent holder LKU_WR_CMD.addr fun d => d.lkuSubmit holder 1 tbl index data

/-- LPM_DEL (R151). An LPM_DEL operation is submitted to remove a prefix. -/
def execLpmDel (holder tbl index : Nat) (data : List (BitVec 32)) (s : State) : Host.Outcome State Fault Refusal :=
  s.act (.lpmDel holder tbl index data) fun d => d.agent holder LKU_WR_CMD.addr fun d => d.lkuSubmit holder 2 tbl index data

/-- EX_INSERT (R156). An EX_INSERT operation is submitted to insert a key with cuckoo displacement. -/
def execExInsert (holder tbl index : Nat) (data : List (BitVec 32)) (s : State) : Host.Outcome State Fault Refusal :=
  s.act (.exInsert holder tbl index data) fun d => d.agent holder LKU_WR_CMD.addr fun d => d.lkuSubmit holder 3 tbl index data

/-- EX_UPDATE (R149). An EX_UPDATE operation is submitted to replace the data of a present key. -/
def execExUpdate (holder tbl index : Nat) (data : List (BitVec 32)) (s : State) : Host.Outcome State Fault Refusal :=
  s.act (.exUpdate holder tbl index data) fun d => d.agent holder LKU_WR_CMD.addr fun d => d.lkuSubmit holder 4 tbl index data

/-- EX_DELETE (R155). An EX_DELETE operation is submitted to clear every slot holding the key. -/
def execExDelete (holder tbl index : Nat) (data : List (BitVec 32)) (s : State) : Host.Outcome State Fault Refusal :=
  s.act (.exDelete holder tbl index data) fun d => d.agent holder LKU_WR_CMD.addr fun d => d.lkuSubmit holder 5 tbl index data

/-- EX_SLOTCLR (R154). An EX_SLOTCLR operation is submitted to clear one EXACT slot. -/
def execExSlotclr (holder tbl index : Nat) (s : State) : Host.Outcome State Fault Refusal :=
  s.act (.exSlotclr holder tbl index) fun d => d.agent holder LKU_WR_CMD.addr fun d => d.lkuSubmit holder 0xD tbl index []

/-- DIR_WRITE (R149). A DIR_WRITE operation is submitted to write one direct table entry. -/
def execDirWrite (holder tbl index : Nat) (data : List (BitVec 32)) (s : State) : Host.Outcome State Fault Refusal :=
  s.act (.dirWrite holder tbl index data) fun d => d.agent holder LKU_WR_CMD.addr fun d => d.lkuSubmit holder 6 tbl index data

/-- MEMBER_WRITE (R158). A MEMBER_WRITE operation is submitted to write one ECMP pool member. -/
def execMemberWrite (holder tbl index : Nat) (data : List (BitVec 32)) (s : State) : Host.Outcome State Fault Refusal :=
  s.act (.memberWrite holder tbl index data) fun d => d.agent holder LKU_WR_CMD.addr fun d => d.lkuSubmit holder 7 tbl index data

/-- CTX_WRITE (R161). A CTX_WRITE operation is submitted to write a flow context. -/
def execCtxWrite (holder tbl index : Nat) (data : List (BitVec 32)) (s : State) : Host.Outcome State Fault Refusal :=
  s.act (.ctxWrite holder tbl index data) fun d => d.agent holder LKU_WR_CMD.addr fun d => d.lkuSubmit holder 8 tbl index data

/-- CTX_READ (R165). A CTX_READ operation is submitted to return a flow context's 64 bytes. -/
def execCtxRead (holder tbl index : Nat) (s : State) : Host.Outcome State Fault Refusal :=
  s.act (.ctxRead holder tbl index) fun d => d.agent holder LKU_WR_CMD.addr fun d => d.lkuSubmit holder 9 tbl index []

/-- CTX_READ_CLR (R165). A CTX_READ_CLR operation is submitted to return a context and zero its counters. -/
def execCtxReadClr (holder tbl index : Nat) (s : State) : Host.Outcome State Fault Refusal :=
  s.act (.ctxReadClr holder tbl index) fun d => d.agent holder LKU_WR_CMD.addr fun d => d.lkuSubmit holder 0xA tbl index []

/-- T2_DIR_WRITE (R167). A T2_DIR_WRITE operation is submitted to write a tier-2 directory entry. -/
def execT2DirWrite (holder tbl index : Nat) (data : List (BitVec 32)) (s : State) : Host.Outcome State Fault Refusal :=
  s.act (.t2DirWrite holder tbl index data) fun d => d.agent holder LKU_WR_CMD.addr fun d => d.lkuSubmit holder 0xB tbl index data

/-- T2_WRITE (R169). A T2_WRITE operation is submitted to write a tier-2 node entry through the write buffer. -/
def execT2Write (holder tbl index : Nat) (data : List (BitVec 32)) (s : State) : Host.Outcome State Fault Refusal :=
  s.act (.t2Write holder tbl index data) fun d => d.agent holder LKU_WR_CMD.addr fun d => d.lkuSubmit holder 0xC tbl index data

/-- LKU_OP_START (R149). An LKU operation reaches the queue head, is checked against the descriptors and starts its steps. -/
def execLkuOpStart (s : State) : Host.Outcome State Fault Refusal :=
  s.act .lkuOpStart fun d => d.core fun d => d.lkuOpStart

/-- T2_READ_COMPLETE (R167). A tier-2 CXL read returns and the walk continues, ends, or the late data is discarded. -/
def execT2ReadComplete (who : T2Rd) (data : BitVec 64) (poison err : Bool) (ns : Nat) (s : State) : Host.Outcome State Fault Refusal :=
  s.act (.t2ReadComplete who data poison err ns) fun d => d.core fun d => d.t2Read who data poison err ns

/-- T2_DEADLINE (R168). At tick T+6 the lay-by writes each result, or a DEADLINE miss, over the parked RDST words. -/
def execT2Deadline (s : State) : Host.Outcome State Fault Refusal :=
  s.act .t2Deadline fun d => d.core fun d => d.t2Deadline

/-- T2_BUF_WRITE_ISSUE (R169). A buffered T2_WRITE issues its CXL write once every earlier request has completed or passed its
deadline. -/
def execT2BufWriteIssue (s : State) : Host.Outcome State Fault Refusal :=
  s.act .t2BufWriteIssue fun d => d.core fun d => d.t2BufIssue

/-- T2_BUF_WRITE_COMPLETE (R169). A buffered CXL write completes and frees its write-buffer entry. -/
def execT2BufWriteComplete (entry : Nat) (err : Bool) (s : State) : Host.Outcome State Fault Refusal :=
  s.act (.t2BufWriteComplete entry err) fun d => d.core fun d => d.t2BufDone entry err

end Sys2Proof.Machine
end

