-- ==== Sys2Proof/Machine/DoMemory.lean ====
section
/-! DEFINITION. The meanings of the commands of one family. CXL memory ports. -/

namespace Sys2Proof.Machine

/-- CXL_RETRAIN (R331). A write of CXL_PORTn_CTL.RETRAIN with EN 1 starts training the port. -/
def execCxlRetrain (port : Nat) (en : Bool) (s : State) : Host.Outcome State Fault Refusal :=
  s.act (.cxlRetrain port en) fun d => d.host (CXL_PORT_CTL.addr port) fun d => d.cxlRetrain port en

/-- CXL_TRAINING_DONE (R331). The port's link comes up with CXL.mem and the port enters CONFIG. -/
def execCxlTrainingDone (port : Nat) (mem allowed flit : Bool) (speed width : Nat) (s : State) : Host.Outcome State Fault Refusal :=
  s.act (.cxlTrainingDone port mem allowed flit speed width) fun d => d.core fun d => d.cxlTrained port mem allowed flit speed width

/-- CXL_TRAINING_TIMEOUT (R331). Training not complete within 1 s returns the port to DOWN. -/
def execCxlTrainingTimeout (port : Nat) (s : State) : Host.Outcome State Fault Refusal :=
  s.act (.cxlTrainingTimeout port) fun d => d.core fun d => d.cxlTrainTimeout port

/-- CXL_READY (R331). A write of CXL_PORTn_CTL.READY moves the port from CONFIG to UP. -/
def execCxlReady (port : Nat) (s : State) : Host.Outcome State Fault Refusal :=
  s.act (.cxlReady port) fun d => d.host (CXL_PORT_CTL.addr port) fun d => d.cxlReady port

/-- CXL_READ_COMPLETE (R336). A CXL read completes, with poison or errors counted and passed to the reader. -/
def execCxlReadComplete (port who : Nat) (poison err : Bool) (ns : Nat) (data : List Byte) (s : State) : Host.Outcome State Fault Refusal :=
  s.act (.cxlReadComplete port who poison err ns data) fun d => d.core fun d => d.cxlReadDone port who poison err ns data

/-- CXL_WRITE_COMPLETE (R336). A CXL write completes, an error being counted and logged. -/
def execCxlWriteComplete (port : Nat) (err : Bool) (s : State) : Host.Outcome State Fault Refusal :=
  s.act (.cxlWriteComplete port err) fun d => d.core fun d => d.cxlWritten port err

/-- CXL_READ_TIMEOUT (R337). A CXL read outstanding for CXL_TIMEOUT ticks times out and isolates the port. -/
def execCxlReadTimeout (port : Nat) (s : State) : Host.Outcome State Fault Refusal :=
  s.act (.cxlReadTimeout port) fun d => d.core fun d => d.cxlTimedOut port

/-- CXL_LINK_DOWN (R338). DL_Down or a forbidden device is found on a CXL port. -/
def execCxlLinkDown (port : Nat) (s : State) : Host.Outcome State Fault Refusal :=
  s.act (.cxlLinkDown port) fun d => d.core fun d => d.cxlLose port 0x0A

end Sys2Proof.Machine
end

