-- ==== Sys2Proof/Machine/DoPorts.lean ====
section
/-! DEFINITION. The meanings of the commands of one family. WAN ports, module management and link state. -/

namespace Sys2Proof.Machine

/-- WAN_DEPARTURE (R251). A departure enters the port's transmit FIFO and starts on the wire at d + C_tx or later. -/
def execWanDeparture (pipe : Nat) (s : State) : Host.Outcome State Fault Refusal :=
  s.act (.wanDeparture pipe) fun d => d.core fun d => d.wanDeparture pipe

/-- TS_FIFO_POP (R254). A read of WAN_TS_ENT3 pops the head record of the two-step FIFO. -/
def execTsFifoPop (s : State) : Host.Outcome State Fault Refusal :=
  s.act .tsFifoPop fun d => d.hostGet WAN_TS_ENT3.addr fun d => d.tsPop

/-- CM_READ (R260). A WAN_CM_CMD RD command queues a host read transaction on a cage's management bus. -/
def execCmRead (cage page offset len bank : Nat) (s : State) : Host.Outcome State Fault Refusal :=
  s.act (.cmRead cage page offset len bank) fun d => d.host WAN_CM_CMD.addr fun d => d.cmSubmit false cage page offset len bank []

/-- CM_WRITE (R260). A WAN_CM_CMD WR command queues a host write transaction, refused for page 10h under margin steering. -/
def execCmWrite (cage page offset len bank : Nat) (data : List Byte) (s : State) : Host.Outcome State Fault Refusal :=
  s.act (.cmWrite cage page offset len bank data) fun d => d.host WAN_CM_CMD.addr fun d => d.cmSubmit true cage page offset len bank
    data

/-- MGMT_BUS_TRANSACTION_DONE (R258). A two-wire transaction ends and the next one on that controller may start. -/
def execMgmtBusTransactionDone (ctrl code : Nat) (data : List Byte) (s : State) : Host.Outcome State Fault Refusal :=
  s.act (.mgmtBusTransactionDone ctrl code data) fun d => d.core fun d => d.busDone ctrl code data

/-- MARGIN_POLL (R261). Every 2^POLL_LOG2 ticks firmware reads a module's eSNR and updates the filtered mean. -/
def execMarginPoll (port : Nat) (reading : Option Int) (immediate : Bool) (s : State) : Host.Outcome State Fault Refusal :=
  s.act (.marginPoll port reading immediate) fun d => d.core fun d => d.marginPoll port reading immediate

/-- WAN_BLOCK_LOCK (R256). A WAN lane gains block lock, or a port gains alignment-marker or RS-FEC lock, which starts the
up-debounce of its link state. -/
def execWanBlockLock (kind n : Nat) (s : State) : Host.Outcome State Fault Refusal :=
  s.act (.wanBlockLock kind n) fun d => d.core fun d => d.wanLock kind n true

/-- WAN_BLOCK_LOCK_LOSS (R256). A WAN lane loses block lock, or its port loses alignment-marker or RS-FEC lock, for instance after
an SX_REFCLK loss, which breaks the up-debounce and starts the down-debounce. -/
def execWanBlockLockLoss (kind n : Nat) (s : State) : Host.Outcome State Fault Refusal :=
  s.act (.wanBlockLockLoss kind n) fun d => d.core fun d => d.wanLock kind n false

/-- LOCAL_OR_REMOTE_FAULT_RECEIVED (R250). Local or remote fault ordered sets begin or cease to be received on a WAN port, which
bars or allows the link-up condition of R256. -/
def execLocalOrRemoteFaultReceived (port : Nat) (remote present : Bool) (s : State) : Host.Outcome State Fault Refusal :=
  s.act (.localOrRemoteFaultReceived port remote present) fun d => d.core fun d => d.wanFault port remote present

end Sys2Proof.Machine
end

