-- ==== Sys2Proof/Machine/DoQueues.lean ====
section
/-! DEFINITION. The meanings of the commands of one family. Operations on the queues. -/

namespace Sys2Proof.Machine

/-- QUE_CFG_WRITE (R204). A QUE WRITE operation is submitted to set an entity descriptor at a tick boundary. -/
def execQueCfgWrite (holder type index : Nat) (timed : Bool) (tick : Nat) (data : List (BitVec 32)) (s : State) : Host.Outcome State Fault Refusal :=
  s.act (.queCfgWrite holder type index timed tick data) fun d => d.agent holder QUE_CFG_CMD.addr fun d => d.queSubmit holder 1 type
    index timed tick data

/-- QUE_CFG_READ (R222). A QUE READ operation is submitted to return a descriptor or queue state at a boundary. -/
def execQueCfgRead (holder type index : Nat) (timed : Bool) (tick : Nat) (s : State) : Host.Outcome State Fault Refusal :=
  s.act (.queCfgRead holder type index timed tick) fun d => d.agent holder QUE_CFG_CMD.addr fun d => d.queSubmit holder 2 type index
    timed tick []

/-- QUE_CFG_READ_CLR (R222). A QUE READ_CLR operation is submitted to return queue state and zero its high-water mark and counts. -/
def execQueCfgReadClr (holder type index : Nat) (timed : Bool) (tick : Nat) (s : State) : Host.Outcome State Fault Refusal :=
  s.act (.queCfgReadClr holder type index timed tick) fun d => d.agent holder QUE_CFG_CMD.addr fun d => d.queSubmit holder 3 type
    index timed tick []

end Sys2Proof.Machine
end

