-- ==== Sys2Proof/Machine/DoRelay.lean ====
section
/-! DEFINITION. The meanings of the commands of one family. Firmware images over the convoy. -/

namespace Sys2Proof.Machine

/-- FWR_VERSION (R423). A VERSION relay message from a neighbour is recorded and checked for compatibility. -/
def execFwrVersion (m : FwrMsg) (s : State) : Host.Outcome State Fault Refusal :=
  s.act (.fwrVersion m) fun d => d.fwrVersion m

/-- FWR_OFFER (R421). An OFFER relay message carries header bytes from a neighbour, or is refused from a non-neighbour. -/
def execFwrOffer (m : FwrMsg) (s : State) : Host.Outcome State Fault Refusal :=
  s.act (.fwrOffer m) fun d => d.fwrOffer m

/-- FWR_ACCEPT (R421). An ACCEPT relay message lets the sender start sending DATA. -/
def execFwrAccept (m : FwrMsg) (s : State) : Host.Outcome State Fault Refusal :=
  s.act (.fwrAccept m) fun d => d.fwrAccept m

/-- FWR_REFUSE (R421). A REFUSE relay message ends the sender's transfer with its code. -/
def execFwrRefuse (m : FwrMsg) (s : State) : Host.Outcome State Fault Refusal :=
  s.act (.fwrRefuse m) fun d => d.fwrRefuse m

/-- FWR_DATA (R421). A DATA relay message carries a payload chunk taken in offset order. -/
def execFwrData (m : FwrMsg) (s : State) : Host.Outcome State Fault Refusal :=
  s.act (.fwrData m) fun d => d.fwrData m

/-- FWR_ACK (R421). An ACK relay message advances the sender's window. -/
def execFwrAck (m : FwrMsg) (s : State) : Host.Outcome State Fault Refusal :=
  s.act (.fwrAck m) fun d => d.fwrAck m

/-- FWR_DONE (R421). A DONE relay message reports the receiver staged or failed. -/
def execFwrDone (m : FwrMsg) (s : State) : Host.Outcome State Fault Refusal :=
  s.act (.fwrDone m) fun d => d.fwrDone m

/-- FWR_ABORT (R421). An ABORT relay message ends the transfer. -/
def execFwrAbort (m : FwrMsg) (s : State) : Host.Outcome State Fault Refusal :=
  s.act (.fwrAbort m) fun d => d.fwrAbort m

/-- FWR_REQUEST (R422). A REQUEST relay message is served by offering the primary bank's image. -/
def execFwrRequest (m : FwrMsg) (s : State) : Host.Outcome State Fault Refusal :=
  s.act (.fwrRequest m) fun d => d.fwrRequest m

/-- FW_RELAY_RESEND (R421). No ACK progress for RTO ticks resends from the last ACK, or aborts with 0x15. -/
def execFwRelayResend (s : State) : Host.Outcome State Fault Refusal :=
  s.act .fwRelayResend fun d => d.core fun d => d.fwRelayResend

/-- FW_RELAY_RX_TIMEOUT (R421). A receiver idle for (RETRY + 1) × RTO ticks aborts the transfer. -/
def execFwRelayRxTimeout (s : State) : Host.Outcome State Fault Refusal :=
  s.act .fwRelayRxTimeout fun d => d.core fun d => d.fwRelayRxTimeout

end Sys2Proof.Machine
end

