-- ==== Sys2Proof/Machine/DoRings.lean ====
section
/-! DEFINITION. The meanings of the commands of one family. Punt and inject rings. -/

namespace Sys2Proof.Machine

/-- PUNT_HANDOFF (R311). A punt record is handed to the DMA engine in tick T+2 and its carriages copied into the punt buffer. -/
def execPuntHandoff (s : State) : Host.Outcome State Fault Refusal :=
  s.act .puntHandoff fun d => d.core fun d => d.puntHandoff

/-- PUNT_WRITE (R310). A queued punt record and frame are written to a posted buffer with descriptor and head write-back. -/
def execPuntWrite (ring addr ctl : Nat) (s : State) : Host.Outcome State Fault Refusal :=
  s.act (.puntWrite ring addr ctl) fun d => d.core fun d => d.puntWrite ring addr ctl

/-- PUNT_WAIT_EXPIRE (R311). A record outwaiting PUNT_WAIT is dropped and counted. -/
def execPuntWaitExpire (ring : Nat) (s : State) : Host.Outcome State Fault Refusal :=
  s.act (.puntWaitExpire ring) fun d => d.core fun d => d.puntExpire ring

/-- PUNT_DOORBELL (R309). A TAIL write to a punt ring doorbell posts buffers, or puts the ring in ERROR when out of range. -/
def execPuntDoorbell (ring tail : Nat) (s : State) : Host.Outcome State Fault Refusal :=
  s.act (.puntDoorbell ring tail) fun d => d.host 0x2300000 fun d => d.doorbell ring tail

/-- INJECT_DOORBELL (R313). A TAIL write to an inject ring doorbell posts descriptors for fetching. -/
def execInjectDoorbell (ring tail : Nat) (s : State) : Host.Outcome State Fault Refusal :=
  s.act (.injectDoorbell ring tail) fun d => d.host 0x2300000 fun d => d.doorbell (64 + ring) tail

/-- INJECT_DESCRIPTOR_FETCHED (R313). An inject or replay descriptor arrives and is checked, a bad one setting ERROR with 0x05. -/
def execInjectDescriptorFetched (tag : Nat) (bytes : List Byte) (s : State) : Host.Outcome State Fault Refusal :=
  s.act (.injectDescriptorFetched tag bytes) fun d => d.core fun d => d.injDescriptor tag bytes

/-- INJECT_FRAME_STAGED (R313). An inject frame's bytes have all arrived in the inject buffer. -/
def execInjectFrameStaged (tag : Nat) (bytes : List Byte) (s : State) : Host.Outcome State Fault Refusal :=
  s.act (.injectFrameStaged tag bytes) fun d => d.core fun d => d.injFrame tag bytes

/-- RING_ARM (R317). A write of CFG.ARM discards the ring's staged work and waits for its outstanding reads. -/
def execRingArm (ring value : Nat) (s : State) : Host.Outcome State Fault Refusal :=
  s.act (.ringArm ring value) fun d => d.host (HST_PUNT_CFG.addr 0) fun d => d.ringCfg ring (value ||| 2)

/-- RING_ARM_COMPLETE (R317). With no read outstanding, HEAD, TAIL and PHASE reset and the ring enters RUN or DISABLED. -/
def execRingArmComplete (ring : Nat) (s : State) : Host.Outcome State Fault Refusal :=
  s.act (.ringArmComplete ring) fun d => d.core fun d => d.ringArmDone ring

/-- RING_DISABLE (R317). A write of CFG.EN = 0 disables the ring with the discards of an arm. -/
def execRingDisable (ring value : Nat) (s : State) : Host.Outcome State Fault Refusal :=
  s.act (.ringDisable ring value) fun d => d.host (HST_PUNT_CFG.addr 0) fun d => d.ringCfg ring (value / 4 * 4)

end Sys2Proof.Machine
end

