-- ==== Sys2Proof/Machine/DoSearch.lean ====
section
/-! DEFINITION. The meanings of the commands of one family. Operations on the associative search banks. -/

namespace Sys2Proof.Machine

/-- ASX_WRITE (R129). An ASX WRITE operation is submitted to write one entry of a table. -/
def execAsxWrite (holder tbl entry : Nat) (data : List (BitVec 32)) (s : State) : Host.Outcome State Fault Refusal :=
  s.act (.asxWrite holder tbl entry data) fun d => d.agent holder ASX_OP_CMD.addr fun d => d.asxSubmit holder 1 tbl entry data

/-- ASX_CLEAR (R132). An ASX CLEAR operation is submitted to free one entry of a table. -/
def execAsxClear (holder tbl entry : Nat) (s : State) : Host.Outcome State Fault Refusal :=
  s.act (.asxClear holder tbl entry) fun d => d.agent holder ASX_OP_CMD.addr fun d => d.asxSubmit holder 2 tbl entry []

/-- ASX_INSERT (R133). An ASX INSERT operation is submitted to place an entry in order, moving neighbours as needed. -/
def execAsxInsert (holder tbl entry : Nat) (data : List (BitVec 32)) (s : State) : Host.Outcome State Fault Refusal :=
  s.act (.asxInsert holder tbl entry data) fun d => d.agent holder ASX_OP_CMD.addr fun d => d.asxSubmit holder 3 tbl entry data

/-- ASX_MASKP (R129). An ASX MASKP operation is submitted to write one global mask profile. -/
def execAsxMaskp (holder tbl entry : Nat) (data : List (BitVec 32)) (s : State) : Host.Outcome State Fault Refusal :=
  s.act (.asxMaskp holder tbl entry data) fun d => d.agent holder ASX_OP_CMD.addr fun d => d.asxSubmit holder 4 tbl entry data

/-- ASX_READ (R129). An ASX READ operation is submitted to copy an entry from copy 0's shadow into the data registers. -/
def execAsxRead (holder tbl entry : Nat) (s : State) : Host.Outcome State Fault Refusal :=
  s.act (.asxRead holder tbl entry) fun d => d.agent holder ASX_OP_CMD.addr fun d => d.asxSubmit holder 5 tbl entry []

/-- ASX_OP_START (R130). An ASX operation reaches the queue head and is checked against the table and started. -/
def execAsxOpStart (s : State) : Host.Outcome State Fault Refusal :=
  s.act .asxOpStart fun d => d.core fun d => d.asxOpStart

/-- ASX_FAILOVER (R141). At the first boundary after a quarantine, the copy fails over to the table's spare. -/
def execAsxFailover (bank : Nat) (s : State) : Host.Outcome State Fault Refusal :=
  s.act (.asxFailover bank) fun d => d.core fun d => d.asxFailover bank

/-- ASX_BANK_RETURN (R142). A write of ASX_BANKn.RETURN starts reloading the quarantined bank from its shadow, or is refused. -/
def execAsxBankReturn (bank : Nat) (s : State) : Host.Outcome State Fault Refusal :=
  s.act (.asxBankReturn bank) fun d => d.host (ASX_BANK.addr bank) fun d => d.asxBankReturn bank

/-- ASX_RETURN_COMPLETE (R142). When every row reads back correctly, the quarantine clears at the next boundary and the spare is
freed. -/
def execAsxReturnComplete (bank : Nat) (readOk : Bool) (s : State) : Host.Outcome State Fault Refusal :=
  s.act (.asxReturnComplete bank readOk) fun d => d.core fun d => d.asxReturnComplete bank readOk

end Sys2Proof.Machine
end

