-- ==== Sys2Proof/Machine/DoSlots.lean ====
section
/-! DEFINITION. The meanings of the commands of one family. The tick, its slots and their passes. -/

namespace Sys2Proof.Machine

/-- TICK_START (R8). Tick N begins when the sextant's tick time reaches N × 384 ns, and the tick's boundary actions run. -/
def execTickStart (cycles : Nat) (fec : List (Nat × Nat × Nat)) (s : State) : Host.Outcome State Fault Refusal :=
  s.act (.tickStart cycles fec) fun d => d.tickStart cycles fec

/-- SLOT_CYCLE (R91). An enabled core-clock edge issues the next itinerary slot and advances every pipeline by one position. -/
def execSlotCycle (errs : List EccErr) (fails : Nat) (s : State) : Host.Outcome State Fault Refusal :=
  s.act (.slotCycle errs fails) fun d => d.core fun d => d.slotCycle errs fails

/-- SLACK_CYCLE (R10). A cycle after slot 503 carries scrubbing, shadow checks, audit marking and sweeping, and calibration steps.
-/
def execSlackCycle (errs : List EccErr) (words : List (Nat × Store × Nat)) (s : State) : Host.Outcome State Fault Refusal :=
  s.act (.slackCycle errs words) fun d => d.core fun d => d.slackCycle errs words

/-- FRAME_RECEIVE (R250). A WAN frame is received, runts and over-long frames are discarded and counted, and the head-complete time
h is taken. -/
def execFrameReceive (port h : Nat) (fcsBad : Bool) (bytes : List Byte) (s : State) : Host.Outcome State Fault Refusal :=
  s.act (.frameReceive port h fcsBad bytes) fun d => d.core fun d => d.frameReceive port h fcsBad bytes

/-- CYC_MIN_RST (R32). Writing TCK_CTRL.CYC_MIN_RST sets TCK_CYC.MIN to 0x3FF. -/
def execCycMinRst (s : State) : Host.Outcome State Fault Refusal :=
  s.act .cycMinRst fun d => d.host TCK_CTRL.addr fun d => d.wr TCK_CYC.MIN 0x3FF

/-- DIGEST_LATCH_READ (R32). A read of TCK_DIG_TICK_LO latches the other five digest registers until TCK_DIG_OUT_HI is read. -/
def execDigestLatchRead (last : Bool) (s : State) : Host.Outcome State Fault Refusal :=
  s.act (.digestLatchRead last) fun d => d.hostGet TCK_DIG_TICK_LO.addr fun d => d.digestRead last

/-- LOOKUP_RESULT (R56). A lookup result lands in its RDST words at the end of stage k+L−1. -/
def execLookupResult (s : State) : Host.Outcome State Fault Refusal :=
  s.act .lookupResult fun d => d.core fun d => d.landDue

/-- END_OF_PASS (R92). At the end of a pass the device carries out the disposition the pass chose, per Table 3.10. -/
def execEndOfPass (s : State) : Host.Outcome State Fault Refusal :=
  s.act .endOfPass fun d => d.core fun d => d.endOfPass

end Sys2Proof.Machine
end

