-- ==== Sys2Proof/Machine/DoSoundings.lean ====
section
/-! DEFINITION. The meanings of the commands of one family. Soundings, user pages and the sextant's outputs. -/

namespace Sys2Proof.Machine

/-- SWEEP_START (R403). A write of SND_SWEEP.START requests a sweep at the next FULL boundary. -/
def execSweepStart (s : State) : Host.Outcome State Fault Refusal :=
  s.act .sweepStart fun d => d.host SND_SWEEP.addr fun d => d.sweepStart

/-- SWEEP_PERIODIC (R403). A periodic sweep comes due every 2^PLOG2 ticks and runs or is skipped. -/
def execSweepPeriodic (s : State) : Host.Outcome State Fault Refusal :=
  s.act .sweepPeriodic fun d => d.core fun d => d.sweepPeriodic

/-- SWEEP_DONE (R406). A sweep finishes its readings and its COUNTERS record joins the ring or is dropped. -/
def execSweepDone (s : State) : Host.Outcome State Fault Refusal :=
  s.act .sweepDone fun d => d.core fun d => d.sweepDone

/-- USER_PAGE_READ (R407). A read of a BAR2 user page returns consistent values, or zeros counted when closed. -/
def execUserPageRead (off len : Nat) (s : State) : Host.Outcome State Fault Refusal :=
  s.act (.userPageRead off len) fun d => d.hostGet 0x2C00000 fun d => d.pageRead off len

/-- USER_PAGE_WRITE (R407). A write to a user page is discarded, counted and reported as Unsupported Request. -/
def execUserPageWrite (s : State) : Host.Outcome State Fault Refusal :=
  s.act .userPageWrite fun d => d.host 0x2C00000 fun d => d.pageWrite

/-- PHASE_ADJUST (R409). A write of SXT_PHASE adds to the pending phase correction slewed out at the root. -/
def execPhaseAdjust (adj : Nat) (s : State) : Host.Outcome State Fault Refusal :=
  s.act (.phaseAdjust adj) fun d => d.host SXT_PHASE.addr fun d => d.phaseAdjust adj

/-- OFFSET_COMMIT (R410). A write of SXT_OFS_COMMIT.GO applies the staged time-of-day offset at the next boundary. -/
def execOffsetCommit (s : State) : Host.Outcome State Fault Refusal :=
  s.act .offsetCommit fun d => d.host SXT_OFS_COMMIT.addr fun d => d.offsetCommit

/-- PPS_IN_EDGE (R411). A PPS_IN edge is captured in tick time. -/
def execPpsInEdge (falling : Bool) (time : Nat) (s : State) : Host.Outcome State Fault Refusal :=
  s.act (.ppsInEdge falling time) fun d => d.ppsIn falling time

/-- CLK10M_EDGE (R411). A CLK10M_IN rising edge updates its measured phase. -/
def execClk10mEdge (time : Nat) (s : State) : Host.Outcome State Fault Refusal :=
  s.act (.clk10mEdge time) fun d => d.clk10m time

/-- PPS_OUT_RISE (R411). PPS_OUT rises as time of day reaches a whole second. -/
def execPpsOutRise (s : State) : Host.Outcome State Fault Refusal :=
  s.act .ppsOutRise fun d => d.ppsRise

/-- PPS_OUT_FALL (R411). PPS_OUT falls WIDTH ticks after it rose. -/
def execPpsOutFall (s : State) : Host.Outcome State Fault Refusal :=
  s.act .ppsOutFall fun d => d.ppsFall

end Sys2Proof.Machine
end

