-- ==== Sys2Proof/Machine/DoStacks.lean ====
section
/-! DEFINITION. The meanings of the commands of one family. The HBM4 stacks. -/

namespace Sys2Proof.Machine

/-- HBM_COMMAND_ISSUE (R239). A pseudo-channel issues its next ready read or write under the open-row, age and drain rules. -/
def execHbmCommandIssue (stack pc : Nat) (s : State) : Host.Outcome State Fault Refusal :=
  s.act (.hbmCommandIssue stack pc) fun d => d.core fun d => d.hbmIssue stack pc

/-- HBM_READ_COMPLETE (R238). An HBM read completes, with uncorrectable words setting TERR or dropping the packet with 0x33. -/
def execHbmReadComplete (stack pc : Nat) (s : State) : Host.Outcome State Fault Refusal :=
  s.act (.hbmReadComplete stack pc) fun d => d.core fun d => d.hbmReadDone stack pc

/-- HBM_REFRESH (R241). A per-bank refresh comes due, is postponed or issued, splitting a burst at full credit. -/
def execHbmRefresh (stack pc : Nat) (s : State) : Host.Outcome State Fault Refusal :=
  s.act (.hbmRefresh stack pc) fun d => d.core fun d => d.hbmRefresh stack pc

/-- STACK_SR_ENTRY_DONE (R242). After 2 ticks in ENTERING, the stack goes to ASLEEP or EXITING. -/
def execStackSrEntryDone (stack : Nat) (s : State) : Host.Outcome State Fault Refusal :=
  s.act (.stackSrEntryDone stack) fun d => d.core fun d => d.srEntered stack

/-- STACK_SR_EXIT_DONE (R242). After 1 tick in EXITING, the stack becomes AWAKE. -/
def execStackSrExitDone (stack : Nat) (s : State) : Host.Outcome State Fault Refusal :=
  s.act (.stackSrExitDone stack) fun d => d.core fun d => d.srExited stack

/-- STACK_TEMP_READ (R243). Every 256 ticks a stack temperature is read and refresh doubling and thermal closure are set or cleared.
-/
def execStackTempRead (stack : Nat) (temp : Int) (s : State) : Host.Outcome State Fault Refusal :=
  s.act (.stackTempRead stack temp) fun d => d.core fun d => d.stkTemp stack temp

/-- STACK_TRAINING_DONE (R244). Stack training completes, building its free lists, or the stack enters FAILED. -/
def execStackTrainingDone (stack : Nat) (ok : Bool) (s : State) : Host.Outcome State Fault Refusal :=
  s.act (.stackTrainingDone stack ok) fun d => d.core fun d => d.stkTrainEnd stack ok

/-- HBM_CALIBRATION (R245). A periodic calibration step runs on a pseudo-channel every YRD_CAL.PERIOD ticks. -/
def execHbmCalibration (stack pc : Nat) (s : State) : Host.Outcome State Fault Refusal :=
  s.act (.hbmCalibration stack pc) fun d => d.core fun d => d.hbmCal stack pc

end Sys2Proof.Machine
end

