-- ==== Sys2Proof/Machine/DoStart.lean ====
section
/-! DEFINITION. The meanings of the commands of one family. The cold start, resets, supplies, clocks and temperatures. -/

namespace Sys2Proof.Machine

/-- COLD_RESET (R352). The first release of SYS_RESET_N after VDD_AON comes up starts the cold start sequence of Table 15.5. -/
def execColdReset (cold : ColdIn) (s : State) : Host.Outcome State Fault Refusal :=
  .next (if Instr.wf (.coldReset cold) then { s with dev := (s.dev.coldReset cold).settle } else s)

/-- SERDES_CALIBRATION_DONE (R352). Step 2 of the cold start completes, and the root begins tick 0 while a member starts its
provisional time base. -/
def execSerdesCalibrationDone (s : State) : Host.Outcome State Fault Refusal :=
  s.act .serdesCalibrationDone fun d => d.serdesDone

/-- BOOT_IMAGE_LOADED (R352). Step 3 of the cold start completes with an image checked and loaded, or fails over to the other bank
or halts with BOOT_ERR. -/
def execBootImageLoaded (s : State) : Host.Outcome State Fault Refusal :=
  s.act .bootImageLoaded fun d => d.bootImage

/-- WARM_RESET (R355). Assertion of SYS_RESET_N after a cold reset resets the core dies and reruns boot, stack free-list rebuild and
ready. -/
def execWarmReset (s : State) : Host.Outcome State Fault Refusal :=
  s.act .warmReset fun d => d.warmReset

/-- GLB_WARM_RESET_CMD (R355). A write of GLB_RST_CTRL.WARM with KEY 0xA5C3 starts a warm reset. -/
def execGlbWarmResetCmd (warm : Bool) (key : Nat) (s : State) : Host.Outcome State Fault Refusal :=
  s.act (.glbWarmResetCmd warm key) fun d => d.host GLB_RST_CTRL.addr fun d => d.warmCmd warm key

/-- BROWN_OUT (R302). A core rail crossing the reset level resets its die, logs a FATAL fault and releases the helm. -/
def execBrownOut (die : Nat) (s : State) : Host.Outcome State Fault Refusal :=
  s.act (.brownOut die) fun d => d.coreBrown die

/-- BROWN_OUT_RECOVERY (R356). Once both core rails are above the warning level, the device performs the warm reset, retraining
stacks after a Trelier brown-out. -/
def execBrownOutRecovery (s : State) : Host.Outcome State Fault Refusal :=
  s.act .brownOutRecovery fun d => d.brownRecover

/-- RAIL_LOSS (R445). A supervised SerDes or HBM rail more than 10 % low for 1 µs causes a brown-out of the die it feeds and records
the rail. -/
def execRailLoss (rail : Nat) (s : State) : Host.Outcome State Fault Refusal :=
  s.act (.railLoss rail) fun d => d.railLoss rail

/-- STANDBY_SUPPLY_LOSS (R444). VDD_AON or VDD_IO falling below 90 % ends the standby supply, and the next rise of both is a cold
reset. -/
def execStandbySupplyLoss (s : State) : Host.Outcome State Fault Refusal :=
  s.act .standbySupplyLoss fun d => d.standbyLoss

/-- REFCLK_LOSS (R447). REFCLK_CORE is declared lost, a FATAL fault is logged, and both core dies are held in warm reset. -/
def execRefclkLoss (s : State) : Host.Outcome State Fault Refusal :=
  s.act .refclkLoss fun d => d.refLoss

/-- REFCLK_RETURN (R447). After REFCLK_CORE has been within ±50 ppm for 10 ms, the device performs a warm reset. -/
def execRefclkReturn (s : State) : Host.Outcome State Fault Refusal :=
  s.act .refclkReturn fun d => d.refReturn

/-- JUNCTION_TEMP_READ (R448). Every 256 ticks the junction sensors are read and warning, over-temperature or trip thresholds are
acted on. -/
def execJunctionTempRead (tjA tjT : Int) (s : State) : Host.Outcome State Fault Refusal :=
  s.act (.junctionTempRead tjA tjT) fun d => d.junction tjA tjT

/-- AVS_ADJUST (R442). Every 2^22 ticks the AVS target is recomputed and the setpoint moves at most one 5 mV step, with retry and
error on no acknowledge. -/
def execAvsAdjust (ackA ackT : Bool) (readA readT : Nat × Nat) (s : State) : Host.Outcome State Fault Refusal :=
  s.act (.avsAdjust ackA ackT readA readT) fun d => d.avsAdjust ackA ackT readA readT

/-- BLOCK_RESET (R358). At the first tick boundary after revocation, the fault collector restarts one block as Table 15.9 lays down.
-/
def execBlockReset (src : Nat) (s : State) : Host.Outcome State Fault Refusal :=
  s.act (.blockReset src) fun d => d.blockReset src

end Sys2Proof.Machine
end

