-- ==== Sys2Proof/Machine/DoUpdate.lean ====
section
/-! DEFINITION. The meanings of the commands of one family. Firmware images, activation and flash. -/

namespace Sys2Proof.Machine

/-- FW_GO_HDR (R419). A write of FWU_CTRL.GO_HDR starts staging an image from the window or CXL. -/
def execFwGoHdr (src : Nat) (s : State) : Host.Outcome State Fault Refusal :=
  s.act (.fwGoHdr src) fun d => d.host FWU_CTRL.addr fun d => (d.wr FWU_CTRL.SRC src).fwGoHdr src

/-- FW_HEADER_CHECK_DONE (R416). The image header checks complete, starting staging or refusing with a code. -/
def execFwHeaderCheckDone (s : State) : Host.Outcome State Fault Refusal :=
  s.act .fwHeaderCheckDone fun d => d.core fun d => d.fwHdrDone

/-- FW_DATA_BLOCK (R419). A write of FWU_DATA_CMD.GO hands a 4 KiB payload block to the engine. -/
def execFwDataBlock (block : Nat) (s : State) : Host.Outcome State Fault Refusal :=
  s.act (.fwDataBlock block) fun d => d.host FWU_DATA_CMD.addr fun d => (d.wr FWU_DATA_CMD.BLOCK block).fwDataBlock block

/-- FW_STAGING_DONE (R419). The payload is programmed, verified and the header written last, entering STAGED. -/
def execFwStagingDone (flashOk : Bool) (s : State) : Host.Outcome State Fault Refusal :=
  s.act (.fwStagingDone flashOk) fun d => d.core fun d => d.fwStagingDone flashOk

/-- FW_LOAD (R425). A write of FWU_CTRL.LOAD splits each navigator pair and loads the non-driving core. -/
def execFwLoad (s : State) : Host.Outcome State Fault Refusal :=
  s.act .fwLoad fun d => d.host FWU_CTRL.addr fun d => d.fwLoad

/-- FW_LOAD_DONE (R425). The loading cores hold the checked new image and the engine enters LOADED. -/
def execFwLoadDone (err : Bool) (s : State) : Host.Outcome State Fault Refusal :=
  s.act (.fwLoadDone err) fun d => d.core fun d => d.fwLoadDone err

/-- FW_ACTIVATE (R426). A write of FWU_CTRL.ACTIVATE names tick X for the switch. -/
def execFwActivate (s : State) : Host.Outcome State Fault Refusal :=
  s.act .fwActivate fun d => d.host FWU_CTRL.addr fun d => d.fwActivate

/-- FW_ABORT (R425). A write of FWU_CTRL.ABORT ends staging or a load with code 0x12. -/
def execFwAbort (s : State) : Host.Outcome State Fault Refusal :=
  s.act .fwAbort fun d => d.host FWU_CTRL.addr fun d => d.fwAbort

/-- FW_REVERT (R431). A write of FWU_CTRL.REVERT in TRIAL reloads and activates the old image, or is refused. -/
def execFwRevert (s : State) : Host.Outcome State Fault Refusal :=
  s.act .fwRevert fun d => d.host FWU_CTRL.addr fun d => d.fwRevert

/-- FW_SEND (R422). A write of FWU_CTRL.SEND offers a bank's image to a convoy neighbour. -/
def execFwSend (dst sbank : Nat) (s : State) : Host.Outcome State Fault Refusal :=
  s.act (.fwSend dst sbank) fun d => d.host FWU_CTRL.addr fun d => ((d.wr FWU_RELAY.DST dst).wr FWU_CTRL.SBANK sbank).fwSend dst
    sbank

/-- FW_HANDOVER_START (R426). At X − HOLEAD the engine enters HANDOVER and sets HO_REQ. -/
def execFwHandoverStart (s : State) : Host.Outcome State Fault Refusal :=
  s.act .fwHandoverStart fun d => d.core fun d => d.fwHandoverStart

/-- FW_HANDOVER_READY (R426). Firmware sets FWU_HO.READY and its die's writes and messages are refused. -/
def execFwHandoverReady (die : Nat) (record : List Byte) (s : State) : Host.Outcome State Fault Refusal :=
  s.act (.fwHandoverReady die record) fun d => d.core fun d => d.fwHandoverReady die record

/-- FW_SWITCH (R427). At tick X the loaded cores start if both dies are ready, or the activation fails with 0x11. -/
def execFwSwitch (s : State) : Host.Outcome State Fault Refusal :=
  s.act .fwSwitch fun d => d.core fun d => d.fwSwitch

/-- FW_RESYNC_DONE (R427). The old cores are reloaded from the new, lockstep rejoins and the engine enters TRIAL. -/
def execFwResyncDone (s : State) : Host.Outcome State Fault Refusal :=
  s.act .fwResyncDone fun d => d.core fun d => d.fwResyncDone

/-- FW_CONFIRM (R430). A write of FWU_CONFIRM with KEY in TRIAL starts confirmation. -/
def execFwConfirm (key : Nat) (blowOk : Bool) (s : State) : Host.Outcome State Fault Refusal :=
  s.act (.fwConfirm key blowOk) fun d => d.host FWU_CONFIRM.addr fun d => d.fwConfirm key blowOk

/-- FW_CONFIRM_DONE (R430). The secondary bank is copied to the primary, the held slot released and the engine idle. -/
def execFwConfirmDone (s : State) : Host.Outcome State Fault Refusal :=
  s.act .fwConfirmDone fun d => d.core fun d => d.fwConfirmDone

/-- FLASH_READ (R418). FWU_FL_CMD OP 0x1 reads 256 bytes of flash into FWU_DATA. -/
def execFlashRead (addr : Nat) (s : State) : Host.Outcome State Fault Refusal :=
  s.act (.flashRead addr) fun d => d.host FWU_FL_CMD.addr fun d => (d.wr FWU_FL_ADDR.ADDR addr).flashCmd 1

/-- FLASH_PROGRAM (R418). FWU_FL_CMD OP 0x2 programs 256 bytes, refused in banks, held slots or while busy. -/
def execFlashProgram (addr : Nat) (s : State) : Host.Outcome State Fault Refusal :=
  s.act (.flashProgram addr) fun d => d.host FWU_FL_CMD.addr fun d => (d.wr FWU_FL_ADDR.ADDR addr).flashCmd 2

/-- FLASH_ERASE (R418). FWU_FL_CMD OP 0x3 erases 64 KiB, refused in banks, held slots or while busy. -/
def execFlashErase (addr : Nat) (s : State) : Host.Outcome State Fault Refusal :=
  s.act (.flashErase addr) fun d => d.host FWU_FL_CMD.addr fun d => (d.wr FWU_FL_ADDR.ADDR addr).flashCmd 3

/-- FLASH_CMD_DONE (R418). A flash command completes and reports its code. -/
def execFlashCmdDone (ok : Bool) (s : State) : Host.Outcome State Fault Refusal :=
  s.act (.flashCmdDone ok) fun d => d.core fun d => d.flashDone ok

end Sys2Proof.Machine
end

