-- ==== Sys2Proof/Machine/Dispatch.lean ====
section
/-! DEFINITION. One arm for each command: a direct call of its meaning. -/

namespace Sys2Proof.Machine

/-- The effect of a command on everything but the queue. -/
def exec (i : Instr) (s : State) : Host.Outcome State Fault Refusal :=
  match i with
  | .coldReset cold => Sys2Proof.Machine.execColdReset cold s
  | .serdesCalibrationDone => Sys2Proof.Machine.execSerdesCalibrationDone s
  | .bootImageLoaded => Sys2Proof.Machine.execBootImageLoaded s
  | .warmReset => Sys2Proof.Machine.execWarmReset s
  | .glbWarmResetCmd warm key => Sys2Proof.Machine.execGlbWarmResetCmd warm key s
  | .brownOut die => Sys2Proof.Machine.execBrownOut die s
  | .brownOutRecovery => Sys2Proof.Machine.execBrownOutRecovery s
  | .railLoss rail => Sys2Proof.Machine.execRailLoss rail s
  | .standbySupplyLoss => Sys2Proof.Machine.execStandbySupplyLoss s
  | .refclkLoss => Sys2Proof.Machine.execRefclkLoss s
  | .refclkReturn => Sys2Proof.Machine.execRefclkReturn s
  | .junctionTempRead tjA tjT => Sys2Proof.Machine.execJunctionTempRead tjA tjT s
  | .avsAdjust ackA ackT readA readT => Sys2Proof.Machine.execAvsAdjust ackA ackT readA readT s
  | .blockReset src => Sys2Proof.Machine.execBlockReset src s
  | .tickStart cycles fec => Sys2Proof.Machine.execTickStart cycles fec s
  | .slotCycle errs fails => Sys2Proof.Machine.execSlotCycle errs fails s
  | .slackCycle errs words => Sys2Proof.Machine.execSlackCycle errs words s
  | .frameReceive port h fcsBad bytes => Sys2Proof.Machine.execFrameReceive port h fcsBad bytes s
  | .cycMinRst => Sys2Proof.Machine.execCycMinRst s
  | .digestLatchRead last => Sys2Proof.Machine.execDigestLatchRead last s
  | .lookupResult => Sys2Proof.Machine.execLookupResult s
  | .endOfPass => Sys2Proof.Machine.execEndOfPass s
  | .chartLoadGo rd => Sys2Proof.Machine.execChartLoadGo rd s
  | .chartLoadRead => Sys2Proof.Machine.execChartLoadRead s
  | .chartLoadComplete => Sys2Proof.Machine.execChartLoadComplete s
  | .parseLoadGo rd => Sys2Proof.Machine.execParseLoadGo rd s
  | .parseLoadRead => Sys2Proof.Machine.execParseLoadRead s
  | .parseLoadComplete => Sys2Proof.Machine.execParseLoadComplete s
  | .swapArm scope dis => Sys2Proof.Machine.execSwapArm scope dis s
  | .swapArmChecked => Sys2Proof.Machine.execSwapArmChecked s
  | .swapDisarm => Sys2Proof.Machine.execSwapDisarm s
  | .chartSwap => Sys2Proof.Machine.execChartSwap s
  | .seqRoleSwap => Sys2Proof.Machine.execSeqRoleSwap s
  | .seqMismatch pair ueA ueB => Sys2Proof.Machine.execSeqMismatch pair ueA ueB s
  | .seqResyncDone pair => Sys2Proof.Machine.execSeqResyncDone pair s
  | .asxWrite holder tbl entry data => Sys2Proof.Machine.execAsxWrite holder tbl entry data s
  | .asxClear holder tbl entry => Sys2Proof.Machine.execAsxClear holder tbl entry s
  | .asxInsert holder tbl entry data => Sys2Proof.Machine.execAsxInsert holder tbl entry data s
  | .asxMaskp holder tbl entry data => Sys2Proof.Machine.execAsxMaskp holder tbl entry data s
  | .asxRead holder tbl entry => Sys2Proof.Machine.execAsxRead holder tbl entry s
  | .asxOpStart => Sys2Proof.Machine.execAsxOpStart s
  | .asxFailover bank => Sys2Proof.Machine.execAsxFailover bank s
  | .asxBankReturn bank => Sys2Proof.Machine.execAsxBankReturn bank s
  | .asxReturnComplete bank readOk => Sys2Proof.Machine.execAsxReturnComplete bank readOk s
  | .lpmAdd holder tbl index data => Sys2Proof.Machine.execLpmAdd holder tbl index data s
  | .lpmDel holder tbl index data => Sys2Proof.Machine.execLpmDel holder tbl index data s
  | .exInsert holder tbl index data => Sys2Proof.Machine.execExInsert holder tbl index data s
  | .exUpdate holder tbl index data => Sys2Proof.Machine.execExUpdate holder tbl index data s
  | .exDelete holder tbl index data => Sys2Proof.Machine.execExDelete holder tbl index data s
  | .exSlotclr holder tbl index => Sys2Proof.Machine.execExSlotclr holder tbl index s
  | .dirWrite holder tbl index data => Sys2Proof.Machine.execDirWrite holder tbl index data s
  | .memberWrite holder tbl index data => Sys2Proof.Machine.execMemberWrite holder tbl index data s
  | .ctxWrite holder tbl index data => Sys2Proof.Machine.execCtxWrite holder tbl index data s
  | .ctxRead holder tbl index => Sys2Proof.Machine.execCtxRead holder tbl index s
  | .ctxReadClr holder tbl index => Sys2Proof.Machine.execCtxReadClr holder tbl index s
  | .t2DirWrite holder tbl index data => Sys2Proof.Machine.execT2DirWrite holder tbl index data s
  | .t2Write holder tbl index data => Sys2Proof.Machine.execT2Write holder tbl index data s
  | .lkuOpStart => Sys2Proof.Machine.execLkuOpStart s
  | .t2ReadComplete who data poison err ns => Sys2Proof.Machine.execT2ReadComplete who data poison err ns s
  | .t2Deadline => Sys2Proof.Machine.execT2Deadline s
  | .t2BufWriteIssue => Sys2Proof.Machine.execT2BufWriteIssue s
  | .t2BufWriteComplete entry err => Sys2Proof.Machine.execT2BufWriteComplete entry err s
  | .carriagePlace port => Sys2Proof.Machine.execCarriagePlace port s
  | .carriageReadReturn port => Sys2Proof.Machine.execCarriageReadReturn port s
  | .freeListRejoin => Sys2Proof.Machine.execFreeListRejoin s
  | .dptAuditStartCmd => Sys2Proof.Machine.execDptAuditStartCmd s
  | .auditStart => Sys2Proof.Machine.execAuditStart s
  | .auditApply => Sys2Proof.Machine.execAuditApply s
  | .queCfgWrite holder type index timed tick data => Sys2Proof.Machine.execQueCfgWrite holder type index timed tick data s
  | .queCfgRead holder type index timed tick => Sys2Proof.Machine.execQueCfgRead holder type index timed tick s
  | .queCfgReadClr holder type index timed tick => Sys2Proof.Machine.execQueCfgReadClr holder type index timed tick s
  | .hbmCommandIssue stack pc => Sys2Proof.Machine.execHbmCommandIssue stack pc s
  | .hbmReadComplete stack pc => Sys2Proof.Machine.execHbmReadComplete stack pc s
  | .hbmRefresh stack pc => Sys2Proof.Machine.execHbmRefresh stack pc s
  | .stackSrEntryDone stack => Sys2Proof.Machine.execStackSrEntryDone stack s
  | .stackSrExitDone stack => Sys2Proof.Machine.execStackSrExitDone stack s
  | .stackTempRead stack temp => Sys2Proof.Machine.execStackTempRead stack temp s
  | .stackTrainingDone stack ok => Sys2Proof.Machine.execStackTrainingDone stack ok s
  | .hbmCalibration stack pc => Sys2Proof.Machine.execHbmCalibration stack pc s
  | .wanDeparture pipe => Sys2Proof.Machine.execWanDeparture pipe s
  | .tsFifoPop => Sys2Proof.Machine.execTsFifoPop s
  | .cmRead cage page offset len bank => Sys2Proof.Machine.execCmRead cage page offset len bank s
  | .cmWrite cage page offset len bank data => Sys2Proof.Machine.execCmWrite cage page offset len bank data s
  | .mgmtBusTransactionDone ctrl code data => Sys2Proof.Machine.execMgmtBusTransactionDone ctrl code data s
  | .marginPoll port reading immediate => Sys2Proof.Machine.execMarginPoll port reading immediate s
  | .wanBlockLock kind n => Sys2Proof.Machine.execWanBlockLock kind n s
  | .wanBlockLockLoss kind n => Sys2Proof.Machine.execWanBlockLockLoss kind n s
  | .localOrRemoteFaultReceived port remote present => Sys2Proof.Machine.execLocalOrRemoteFaultReceived port remote present s
  | .bearingPropose port m capable gap => Sys2Proof.Machine.execBearingPropose port m capable gap s
  | .bearingAccept port m => Sys2Proof.Machine.execBearingAccept port m s
  | .bearingDrain port m => Sys2Proof.Machine.execBearingDrain port m s
  | .bearingSwitch port m => Sys2Proof.Machine.execBearingSwitch port m s
  | .bearingConfirm port m => Sys2Proof.Machine.execBearingConfirm port m s
  | .bearingRestore port m => Sys2Proof.Machine.execBearingRestore port m s
  | .bearingAbort port m => Sys2Proof.Machine.execBearingAbort port m s
  | .bearingResend port => Sys2Proof.Machine.execBearingResend port s
  | .adaptiveDrain port => Sys2Proof.Machine.execAdaptiveDrain port s
  | .adaptiveSwitch port => Sys2Proof.Machine.execAdaptiveSwitch port s
  | .ceilingRestore port => Sys2Proof.Machine.execCeilingRestore port s
  | .cleanReceive port => Sys2Proof.Machine.execCleanReceive port s
  | .retuneFifoDrained port => Sys2Proof.Machine.execRetuneFifoDrained port s
  | .retuneApply port => Sys2Proof.Machine.execRetuneApply port s
  | .retuneTimeout port => Sys2Proof.Machine.execRetuneTimeout port s
  | .fabricDeparture pipe => Sys2Proof.Machine.execFabricDeparture pipe s
  | .fabricCodewordReceive lane good hdr stream arrival => Sys2Proof.Machine.execFabricCodewordReceive lane good hdr stream arrival s
  | .fabricDataCell bytes => Sys2Proof.Machine.execFabricDataCell bytes s
  | .fabricXoff ddev => Sys2Proof.Machine.execFabricXoff ddev s
  | .fabricXon ddev => Sys2Proof.Machine.execFabricXon ddev s
  | .fabricUnreach ddev => Sys2Proof.Machine.execFabricUnreach ddev s
  | .fabricReach ddev => Sys2Proof.Machine.execFabricReach ddev s
  | .fabricProbe lane arrival arg => Sys2Proof.Machine.execFabricProbe lane arrival arg s
  | .fabricLstat lane good => Sys2Proof.Machine.execFabricLstat lane good s
  | .fabricEnable => Sys2Proof.Machine.execFabricEnable s
  | .fabricProbeDone => Sys2Proof.Machine.execFabricProbeDone s
  | .fabricDisable => Sys2Proof.Machine.execFabricDisable s
  | .fabricCodewordLock lane => Sys2Proof.Machine.execFabricCodewordLock lane s
  | .fabricCodewordLockLoss lane => Sys2Proof.Machine.execFabricCodewordLockLoss lane s
  | .energyWindowLatch meas => Sys2Proof.Machine.execEnergyWindowLatch meas s
  | .sagWarning die low => Sys2Proof.Machine.execSagWarning die low s
  | .sagDeep die low => Sys2Proof.Machine.execSagDeep die low s
  | .sagReturn die low => Sys2Proof.Machine.execSagReturn die low s
  | .puntHandoff => Sys2Proof.Machine.execPuntHandoff s
  | .puntWrite ring addr ctl => Sys2Proof.Machine.execPuntWrite ring addr ctl s
  | .puntWaitExpire ring => Sys2Proof.Machine.execPuntWaitExpire ring s
  | .puntDoorbell ring tail => Sys2Proof.Machine.execPuntDoorbell ring tail s
  | .injectDoorbell ring tail => Sys2Proof.Machine.execInjectDoorbell ring tail s
  | .injectDescriptorFetched tag bytes => Sys2Proof.Machine.execInjectDescriptorFetched tag bytes s
  | .injectFrameStaged tag bytes => Sys2Proof.Machine.execInjectFrameStaged tag bytes s
  | .ringArm ring value => Sys2Proof.Machine.execRingArm ring value s
  | .ringArmComplete ring => Sys2Proof.Machine.execRingArmComplete ring s
  | .ringDisable ring value => Sys2Proof.Machine.execRingDisable ring value s
  | .busMasterDisable => Sys2Proof.Machine.execBusMasterDisable s
  | .hostReadCompletion tag status => Sys2Proof.Machine.execHostReadCompletion tag status s
  | .completionTimeout tag => Sys2Proof.Machine.execCompletionTimeout tag s
  | .windowRead off len => Sys2Proof.Machine.execWindowRead off len s
  | .windowWrite off bytes => Sys2Proof.Machine.execWindowWrite off bytes s
  | .windowCommit => Sys2Proof.Machine.execWindowCommit s
  | .flrPf0 => Sys2Proof.Machine.execFlrPf0 s
  | .flrPf1 => Sys2Proof.Machine.execFlrPf1 s
  | .hostReset perst => Sys2Proof.Machine.execHostReset perst s
  | .pcieLinkLoss => Sys2Proof.Machine.execPcieLinkLoss s
  | .pcieConfigurationRequest q => Sys2Proof.Machine.execPcieConfigurationRequest q s
  | .perstNDeassertion => Sys2Proof.Machine.execPerstNDeassertion s
  | .pcieLinkTrained speed width flit => Sys2Proof.Machine.execPcieLinkTrained speed width flit s
  | .tagWithholdExpire tag => Sys2Proof.Machine.execTagWithholdExpire tag s
  | .supervisedRailReturn rail => Sys2Proof.Machine.execSupervisedRailReturn rail s
  | .sidebandFrame inputs => Sys2Proof.Machine.execSidebandFrame inputs s
  | .sidebandInputApply => Sys2Proof.Machine.execSidebandInputApply s
  | .slotControlWrite cage value => Sys2Proof.Machine.execSlotControlWrite cage value s
  | .hostBadAccess kind addr len => Sys2Proof.Machine.execHostBadAccess kind addr len s
  | .unmappedAccess fn write addr => Sys2Proof.Machine.execUnmappedAccess fn write addr s
  | .registerWrite fn addr value => Sys2Proof.Machine.execRegisterWrite fn addr value s
  | .cxlRetrain port en => Sys2Proof.Machine.execCxlRetrain port en s
  | .cxlTrainingDone port mem allowed flit speed width => Sys2Proof.Machine.execCxlTrainingDone port mem allowed flit speed width s
  | .cxlTrainingTimeout port => Sys2Proof.Machine.execCxlTrainingTimeout port s
  | .cxlReady port => Sys2Proof.Machine.execCxlReady port s
  | .cxlReadComplete port who poison err ns data => Sys2Proof.Machine.execCxlReadComplete port who poison err ns data s
  | .cxlWriteComplete port err => Sys2Proof.Machine.execCxlWriteComplete port err s
  | .cxlReadTimeout port => Sys2Proof.Machine.execCxlReadTimeout port s
  | .cxlLinkDown port => Sys2Proof.Machine.execCxlLinkDown port s
  | .convoyBlockLock port => Sys2Proof.Machine.execConvoyBlockLock port s
  | .convoyBlockLockLoss port => Sys2Proof.Machine.execConvoyBlockLockLoss port s
  | .convoyPortRetrain port => Sys2Proof.Machine.execConvoyPortRetrain port s
  | .sync port tdep tarr => Sys2Proof.Machine.execSync port tdep tarr s
  | .syncSend tdep => Sys2Proof.Machine.execSyncSend tdep s
  | .syncTimeout => Sys2Proof.Machine.execSyncTimeout s
  | .hopMeasure t1 => Sys2Proof.Machine.execHopMeasure t1 s
  | .dreq port t1 t2 t3 => Sys2Proof.Machine.execDreq port t1 t2 t3 s
  | .dresp port t1 t2 t3 t4 => Sys2Proof.Machine.execDresp port t1 t2 t3 t4 s
  | .size port count height hopmax late hop => Sys2Proof.Machine.execSize port count height hopmax late hop s
  | .sizeWaitExpire port => Sys2Proof.Machine.execSizeWaitExpire port s
  | .assign port src addr k gen => Sys2Proof.Machine.execAssign port src addr k gen s
  | .kset port src seq k => Sys2Proof.Machine.execKset port src seq k s
  | .recount port src seq => Sys2Proof.Machine.execRecount port src seq s
  | .convoyEnum => Sys2Proof.Machine.execConvoyEnum s
  | .action port src seq acode target arg => Sys2Proof.Machine.execAction port src seq acode target arg s
  | .nav port dst src seq payload => Sys2Proof.Machine.execNav port dst src seq payload s
  | .convoyBadMessage port kind dst src seq payload => Sys2Proof.Machine.execConvoyBadMessage port kind dst src seq payload s
  | .health port dst src seq payload => Sys2Proof.Machine.execHealth port dst src seq payload s
  | .healthReportSend => Sys2Proof.Machine.execHealthReportSend s
  | .healthReportMiss => Sys2Proof.Machine.execHealthReportMiss s
  | .helmInChange pat at_ => Sys2Proof.Machine.execHelmInChange pat at_ s
  | .helmReleaseCmd => Sys2Proof.Machine.execHelmReleaseCmd s
  | .helmKick key => Sys2Proof.Machine.execHelmKick key s
  | .helmWatchdogExpire => Sys2Proof.Machine.execHelmWatchdogExpire s
  | .helmBackoffEnd => Sys2Proof.Machine.execHelmBackoffEnd s
  | .reclaimSet => Sys2Proof.Machine.execReclaimSet s
  | .plannedHandover => Sys2Proof.Machine.execPlannedHandover s
  | .navRoleSwap => Sys2Proof.Machine.execNavRoleSwap s
  | .navMismatch die ueDriver ueShadow => Sys2Proof.Machine.execNavMismatch die ueDriver ueShadow s
  | .navResyncDone die => Sys2Proof.Machine.execNavResyncDone die s
  | .faultDetect src cls event detail alters lost => Sys2Proof.Machine.execFaultDetect src cls event detail alters lost s
  | .faultHalt => Sys2Proof.Machine.execFaultHalt s
  | .quenchWindowClose => Sys2Proof.Machine.execQuenchWindowClose s
  | .faultClearOne die => Sys2Proof.Machine.execFaultClearOne die s
  | .faultClearAll die classes => Sys2Proof.Machine.execFaultClearAll die classes s
  | .softwareRevoke holder key => Sys2Proof.Machine.execSoftwareRevoke holder key s
  | .holderRegrant => Sys2Proof.Machine.execHolderRegrant s
  | .reactionWrite src value => Sys2Proof.Machine.execReactionWrite src value s
  | .faultInjectRecord src cls event => Sys2Proof.Machine.execFaultInjectRecord src cls event s
  | .faultInjectSingleBit src cls event => Sys2Proof.Machine.execFaultInjectSingleBit src cls event s
  | .faultInjectDoubleBit src cls event => Sys2Proof.Machine.execFaultInjectDoubleBit src cls event s
  | .testTokenCheck => Sys2Proof.Machine.execTestTokenCheck s
  | .testTokenCheckDone => Sys2Proof.Machine.execTestTokenCheckDone s
  | .sweepStart => Sys2Proof.Machine.execSweepStart s
  | .sweepPeriodic => Sys2Proof.Machine.execSweepPeriodic s
  | .sweepDone => Sys2Proof.Machine.execSweepDone s
  | .userPageRead off len => Sys2Proof.Machine.execUserPageRead off len s
  | .userPageWrite => Sys2Proof.Machine.execUserPageWrite s
  | .phaseAdjust adj => Sys2Proof.Machine.execPhaseAdjust adj s
  | .offsetCommit => Sys2Proof.Machine.execOffsetCommit s
  | .ppsInEdge falling time => Sys2Proof.Machine.execPpsInEdge falling time s
  | .clk10mEdge time => Sys2Proof.Machine.execClk10mEdge time s
  | .ppsOutRise => Sys2Proof.Machine.execPpsOutRise s
  | .ppsOutFall => Sys2Proof.Machine.execPpsOutFall s
  | .fwGoHdr src => Sys2Proof.Machine.execFwGoHdr src s
  | .fwHeaderCheckDone => Sys2Proof.Machine.execFwHeaderCheckDone s
  | .fwDataBlock block => Sys2Proof.Machine.execFwDataBlock block s
  | .fwStagingDone flashOk => Sys2Proof.Machine.execFwStagingDone flashOk s
  | .fwLoad => Sys2Proof.Machine.execFwLoad s
  | .fwLoadDone err => Sys2Proof.Machine.execFwLoadDone err s
  | .fwActivate => Sys2Proof.Machine.execFwActivate s
  | .fwAbort => Sys2Proof.Machine.execFwAbort s
  | .fwRevert => Sys2Proof.Machine.execFwRevert s
  | .fwSend dst sbank => Sys2Proof.Machine.execFwSend dst sbank s
  | .fwHandoverStart => Sys2Proof.Machine.execFwHandoverStart s
  | .fwHandoverReady die record => Sys2Proof.Machine.execFwHandoverReady die record s
  | .fwSwitch => Sys2Proof.Machine.execFwSwitch s
  | .fwResyncDone => Sys2Proof.Machine.execFwResyncDone s
  | .fwConfirm key blowOk => Sys2Proof.Machine.execFwConfirm key blowOk s
  | .fwConfirmDone => Sys2Proof.Machine.execFwConfirmDone s
  | .flashRead addr => Sys2Proof.Machine.execFlashRead addr s
  | .flashProgram addr => Sys2Proof.Machine.execFlashProgram addr s
  | .flashErase addr => Sys2Proof.Machine.execFlashErase addr s
  | .flashCmdDone ok => Sys2Proof.Machine.execFlashCmdDone ok s
  | .fwrVersion m => Sys2Proof.Machine.execFwrVersion m s
  | .fwrOffer m => Sys2Proof.Machine.execFwrOffer m s
  | .fwrAccept m => Sys2Proof.Machine.execFwrAccept m s
  | .fwrRefuse m => Sys2Proof.Machine.execFwrRefuse m s
  | .fwrData m => Sys2Proof.Machine.execFwrData m s
  | .fwrAck m => Sys2Proof.Machine.execFwrAck m s
  | .fwrDone m => Sys2Proof.Machine.execFwrDone m s
  | .fwrAbort m => Sys2Proof.Machine.execFwrAbort m s
  | .fwrRequest m => Sys2Proof.Machine.execFwrRequest m s
  | .fwRelayResend => Sys2Proof.Machine.execFwRelayResend s
  | .fwRelayRxTimeout => Sys2Proof.Machine.execFwRelayRxTimeout s

end Sys2Proof.Machine
end

