-- ==== Sys2Proof/Safety.lean ====
section
/-! DEFINITION. What claims about the block take for granted of a state, in the machine's own terms: whether the device takes commands,
and the flags that must agree with what they stand for. -/

namespace Sys2Proof.Machine

/-- The device is alive, its core dies are not held in warm reset, and no reaction waits: what every command finds between commands. -/
abbrev State.Ready (s : State) : Prop := s.dev.dead = false ∧ s.dev.held = false ∧ s.dev.flt.todo = []

/-- Ready, and no boot failure or missing image keeps the host from any block (R353, R419). -/
abbrev State.Open (s : State) : Prop :=
  s.Ready ∧ s.dev.on GLB_BOOT_STATUS.BOOT_ERR = false ∧ ¬ (s.dev.pwr.bootSrc = 2 ∧ s.dev.pwr.step3 = false)

/-- The holder may write registers: it is not a navigator core whose die is ready for handover (R426). -/
abbrev State.Agent (s : State) (holder : Nat) : Prop := s.dev.hoBlocked holder = false

/-- The flags that the collector drives agree with what they stand for: FLT_STATUS.QUENCH with the open windows (R389), FLT_STATUS.FAULTN
with the records that drive FAULT_N (R384); and no reaction waits (R383). A device without standby supply, or held in cold reset by a
reserved MODE, keeps the flags it had. -/
abbrev State.Settled (s : State) : Prop :=
  s.dev.dead = true ∨
    (s.dev.flt.todo = [] ∧ s.dev.rd FLT_STATUS.QUENCH = b2n (!s.dev.flt.windows.isEmpty) ∧ s.dev.rd FLT_STATUS.FAULTN = b2n s.dev.faultN)

/-- `e` is `d` in every unit that a warm reset of the core dies clears: what may not change while they are held (R356). -/
def Dev.CoreSame (d e : Dev) : Prop :=
  e.rwt = d.rwt ∧ e.tck = d.tck ∧ e.flt = d.flt ∧ e.cht = d.cht ∧ e.asx = d.asx ∧ e.lku = d.lku ∧ e.pipe = d.pipe ∧ e.dpt = d.dpt ∧
  e.nrg = d.nrg ∧ e.que = d.que ∧ e.yrd = d.yrd ∧ e.wan = d.wan ∧ e.fab = d.fab ∧ e.cge = d.cge ∧ e.hlm = d.hlm ∧ e.sxt = d.sxt ∧
  e.pwr = d.pwr

/-- `e` is what a warm reset of the core dies leaves of `d`, its cause shown in GLB_RST_CAUSE.LAST (R355, R357): every unit of the core
dies empty, the time, the sextant, the logs and FATAL stores, the flash, the fuses and the tokens refused as they were. -/
def Dev.Warm (d e : Dev) (cause : Nat) : Prop :=
  e.rd GLB_RST_CAUSE.LAST = cause ∧ e.held = false ∧
  e.cht = Cht.reset ∧ e.asx = Asx.reset ∧ e.lku = Lku.reset ∧ e.pipe = Pipe.reset ∧ e.dpt = Dpt.reset ∧ e.que = Que.reset ∧
  e.yrd = Yrd.reset ∧ e.wan = Wan.reset ∧ e.fab = Fab.reset ∧ e.cge = Cge.reset ∧
  e.tck.adm = [] ∧ e.tck.rx = [] ∧ e.tck.recs = [] ∧ e.flt.windows = [] ∧ e.flt.revoked = [] ∧ e.flt.todo = [] ∧
  e.tck.running = d.tck.running ∧ e.tck.now = d.tck.now ∧ e.sxt = d.sxt ∧
  e.flt.logA = d.flt.logA ∧ e.flt.logT = d.flt.logT ∧ e.flt.fatA = d.flt.fatA ∧ e.flt.fatT = d.flt.fatT ∧
  e.flt.tokenRefused = d.flt.tokenRefused ∧ e.fwu.flash = d.fwu.flash ∧ e.fwu.svn = d.fwu.svn ∧ e.fwu.revoked = d.fwu.revoked

/-- A convoy message is looked at: its port is in use, and is not the CVU port of a root (R347). -/
def Dev.hears (d : Dev) (port : Nat) : Bool := d.on (CVY_PORT_CTL.EN port) && !(port == cvuPort && d.isRoot)

/-- A convoy message that is looked at counts at its port. -/
def Dev.heard (d : Dev) (port : Nat) : Dev := (d.bump (CVY_PORT_RX.COUNT port)).evt 0x34 0x21 (some port)

/-- Two fields share no bit. -/
def Field.apart (f g : Field) : Prop := g.addr ≠ f.addr ∨ f.low + f.width ≤ g.low ∨ g.low + g.width ≤ f.low

/-- The fields that the end of a command writes: flags and counts that follow from the state, and counters of what it sends. -/
def settleFields : List Field :=
  [GLB_BOOT_STATUS.READY, GLB_BOOT_STATUS.STEP, CGE_STATUS.EVT, LKU_WR_STATUS.PENDING, LKU_WR_STATUS.BUSY, LKU_LPM_USED.UNITS,
   LKU_EX_USED.SLOTS, LKU_LAYBY_USED.ENTRIES, LKU_T2_BUF.ENTRIES, LKU_STATUS.T2_BUF_FULL, FLT_STATUS.QUENCH, FLT_STATUS.FAULTN,
   CVY_UNROUTE.COUNT, CVY_PORT_DROP.COUNT 0, CVY_PORT_DROP.COUNT 1, CVY_PORT_DROP.COUNT 2, CVY_PORT_TX.COUNT 0,
   CVY_PORT_TX.COUNT 1, CVY_PORT_TX.COUNT 2, CXL_PORT_RD.COUNT 0, CXL_PORT_RD.COUNT 1, CXL_PORT_RD.COUNT 2, CXL_PORT_RD.COUNT 3,
   SND_STATUS.OVF, SND_STATUS.HRING_HALF, SND_STATUS.CRING_HALF]

/-- A field that the end of a command may write: one of those, or one of the event counter groups. -/
def settleField (f : Field) : Prop :=
  f ∈ settleFields ∨ (0x2C04000 ≤ f.addr ∧ f.addr < 0x2C08000 ∧ f.low + f.width ≤ 32)

/-- Whether the end of a command leaves a field as it is. -/
def Field.calm (g : Field) : Bool :=
  (settleFields.all fun f => g.addr != f.addr || decide (f.low + f.width ≤ g.low) || decide (g.low + g.width ≤ f.low)) &&
    (decide (g.addr < 0x2C04000) || decide (0x2C08000 ≤ g.addr))

/-- `e` is `d` but for what the end of every command may change: the fields of `settleFields` and the event counters; the interrupt
conditions last seen and the pending bits of PF0's vectors; the convoy messages queued with their sequence number, and the ASSIGN that
waits to be answered; CXL reads of the staging engine and its own flags; the counters that wrapped; and what it sends (`out` only grows).
Every other register field and every other unit is as it was. -/
structure Calm (d e : Dev) : Prop where
  rds : ∀ g : Field, (∀ f, settleField f → f.apart g) → e.rd g = d.rd g
  regs : ∀ a, (∀ f, settleField f → a ≠ f.addr) → e.reg a = d.reg a
  rwt : e.rwt = d.rwt
  tck : e.tck = d.tck
  flt : e.flt = d.flt
  cht : e.cht = d.cht
  asx : e.asx = d.asx
  lku : e.lku = d.lku
  pipe : e.pipe = d.pipe
  dpt : e.dpt = d.dpt
  nrg : e.nrg = d.nrg
  cxl : ∃ l, e.cxl = { d.cxl with reads := d.cxl.reads ++ l }
  que : e.que = d.que
  yrd : e.yrd = d.yrd
  wan : e.wan = d.wan
  fab : e.fab = d.fab
  hst : ∃ irq pba, e.hst = { d.hst with irq, pf0 := { d.hst.pf0 with pba } }
  cge : e.cge = d.cge
  cvy : ∃ seq tx pri assigned, e.cvy = { d.cvy with seq, tx, pri, assigned }
  hlm : e.hlm = d.hlm
  snd : ∃ wrapped, e.snd = { d.snd with wrapped }
  sxt : e.sxt = d.sxt
  fwu : ∃ cxlErr reading, e.fwu = { d.fwu with cxlErr, reading }
  pwr : e.pwr = d.pwr
  free : e.free = d.free
  out : ∃ l, e.out = d.out ++ l

/-- The command is answered with a next state: the queue is kept, and the device is `e` but for what ends every command. -/
def State.Does (s : State) (c : Instr) (e : Dev) : Prop := ∃ t, exec c s = .next t ∧ t.pending = s.pending ∧ Calm e t.dev

/-- The command is answered with the state in which the device is `e` after what ends every command: the reactions of faults just logged,
if any, and what `Calm` names. -/
def State.Runs (s : State) (c : Instr) (e : Dev) : Prop := exec c s = .next { s with dev := e.settle }

/-- The command is answered with a next state that keeps the queue and whose device meets `p`. -/
def State.Gets (s : State) (c : Instr) (p : Dev → Prop) : Prop := ∃ t, exec c s = .next t ∧ t.pending = s.pending ∧ p t.dev

end Sys2Proof.Machine
end

