-- ==== Sys2Proof/Certificates/Slice0/Obligations.lean ====
section
/-! DEFINITION. The statements about the block, for the provers. `s.Does c e` says that command `c` is answered with a state whose
device is `e` but for what every command's end writes (`Calm`); `s.Runs c e`, that it is `e` after that end; `s.Gets c p`, that the device
then meets `p` (Sys2Proof/Safety.lean). -/

open Sys2Proof Sys2Proof.Machine

/-- A step of a state with command `c` at the front of its queue is `exec` of `c` on that state with the queue's rest, for every command
and every state; on an empty queue the block idles (the model's own convention, log entry 2). -/
def Obligations.StepRunsFront : Prop :=
  (∀ (s : State) (c : Instr) (r : List Instr), s.pending = c :: r → step s = exec c { s with pending := r }) ∧
  (∀ s : State, s.pending = [] → step s = .next s)

/-- Every command is answered with a next state that keeps the queue, whatever the state; one whose operands name things that the device
does not have leaves the state as it is (log entry 3, the model's choice: the spec has no such command). -/
def Obligations.EveryCommandAnswers : Prop :=
  (∀ (c : Instr) (s : State), ∃ t, exec c s = .next t ∧ t.pending = s.pending) ∧
  (∀ (c : Instr) (s : State), Instr.wf c = false → exec c s = .next s)

/-- In a device without its standby supply, or held in cold reset by a reserved MODE, every command but COLD_RESET leaves the whole device
as it is (R2, R444: only a cold reset brings it back). -/
def Obligations.DeadDeviceIgnores : Prop :=
  ∀ (c : Instr) (s : State), Instr.wf c = true → s.dev.dead = true → (∀ cold, c ≠ .coldReset cold) → exec c s = .next s

/-- While the device is held in warm reset (R356, R445, R447), a command that reaches the core dies only through the host's or a
navigator's accesses, the pipelines, the stores, the queues, the WAN, fabric, charts, cages, helm or sextant leaves every unit of the core
dies as it was: what such commands do, they do through `Dev.core`, `Dev.host`, `Dev.agent` and `Dev.hostGet`, and each of those lets
nothing through. The commands named are one of each unit. -/
def Obligations.HeldCoreUnchanged : Prop :=
  ∀ (c : Instr) (s : State), s.dev.held = true → s.dev.flt.todo = [] → Instr.wf c = true →
    (c ∈ [.lookupResult, .endOfPass, .chartLoadComplete, .parseLoadComplete, .swapArmChecked, .chartSwap, .seqRoleSwap, .asxOpStart,
          .lkuOpStart, .t2Deadline, .t2BufWriteIssue, .freeListRejoin, .auditStart, .auditApply, .fabricEnable, .fabricProbeDone,
          .fabricDisable, .puntHandoff, .busMasterDisable, .flrPf0, .flrPf1, .sidebandInputApply, .healthReportSend, .healthReportMiss,
          .helmWatchdogExpire, .helmBackoffEnd, .reclaimSet, .plannedHandover, .navRoleSwap, .holderRegrant, .testTokenCheckDone,
          .sweepPeriodic, .sweepDone, .fwSwitch, .fwResyncDone, .fwConfirmDone, .windowCommit, .dptAuditStartCmd, .convoyEnum,
          .helmReleaseCmd, .testTokenCheck, .sweepStart, .offsetCommit, .fwLoad, .fwActivate, .fwAbort, .fwRevert, .userPageWrite,
          .cycMinRst, .chartLoadRead, .parseLoadRead, .swapDisarm, .tsFifoPop] ∨
      (∃ errs fails, c = .slotCycle errs fails) ∨ (∃ errs words, c = .slackCycle errs words) ∨
      (∃ port h bad bytes, c = .frameReceive port h bad bytes) ∨ (∃ a v, c = .registerWrite 0 a v)) →
    ∃ t, exec c s = .next t ∧ t.pending = s.pending ∧ Dev.CoreSame s.dev t.dev

/-- An invariant that every step keeps: FLT_STATUS.FAULTN agrees with the records that drive FAULT_N (R384), FLT_STATUS.QUENCH with the
open quench windows (R389), and no reaction of a record waits to be carried out (R383). It holds of every state that a command of a
thing the device has leaves in a device with its supply, so every command restores it, whatever it did to the log, the windows or the masks. -/
def Obligations.NoReactionWaits : Prop :=
  (∀ s t : State, s.Settled → step s = .next t → t.Settled) ∧
  (∀ (c : Instr) (s t : State), Instr.wf c = true → s.dev.dead = false → exec c s = .next t → t.Settled)

/-- The invariant of `NoReactionWaits` holds at `State.reset`, whose queue is empty, which is alive, held by nothing, and ready for
commands. -/
def Obligations.SettledAtReset : Prop :=
  State.reset.Settled ∧ State.reset.pending = [] ∧ State.reset.Open

/-- COLD_RESET, from any state. With a MODE of Table 0.3 and good fuses, and regulators that acknowledge, GLB_BOOT_STATUS shows the
straps, every unit is at its reset, the setpoints are the voltage table's values for the dies' readings, the flash, the security counter
and the revocations are what they were, and the device is ready for commands. A fuse error sets BOOT_ERR (R352). A reserved MODE sets
STRAP_ERR, drives FAULT_N, and holds the device in cold reset (R2). -/
def Obligations.ColdStart : Prop :=
  (∀ (s : State) (i : ColdIn), i.mode < 3 → i.bootSrc < 4 → i.fuseOk = true → i.ackA = true → i.ackT = true →
    s.Gets (.coldReset i) fun e =>
      e.rd GLB_BOOT_STATUS.MODE = i.mode ∧ e.rd GLB_BOOT_STATUS.ROOT = b2n i.root ∧ e.rd GLB_BOOT_STATUS.PREF = b2n i.pref ∧
      e.rd HLM_STATUS.PREF = b2n i.pref ∧
      e.pwr.bootSrc = i.bootSrc ∧ e.flt.testStrap = i.testLow ∧ e.dead = false ∧ e.held = false ∧ e.flt.todo = [] ∧
      e.rd GLB_AVS_A.SETPT = mvClamp (Config.voltTable 0 (ofInt 8 i.tjA)) ∧
      e.rd GLB_AVS_T.SETPT = mvClamp (Config.voltTable 1 (ofInt 8 i.tjT)) ∧
      e.rwt = [] ∧ e.tck = Tck.reset ∧ e.cht = Cht.reset ∧ e.asx = Asx.reset ∧ e.lku = Lku.reset ∧ e.pipe = Pipe.reset ∧
      e.dpt = Dpt.reset ∧ e.que = Que.reset ∧ e.yrd = Yrd.reset ∧ e.wan = Wan.reset ∧ e.fab = Fab.reset ∧ e.cge = Cge.reset ∧
      e.hlm = Hlm.reset ∧ e.sxt = Sxt.reset ∧
      e.fwu.flash = s.dev.fwu.flash ∧ e.fwu.svn = s.dev.fwu.svn ∧ e.fwu.revoked = s.dev.fwu.revoked) ∧
  (∀ (s : State) (i : ColdIn), i.mode < 3 → i.bootSrc < 4 → i.fuseOk = false →
    s.Gets (.coldReset i) fun e => e.rd GLB_BOOT_STATUS.BOOT_ERR = 1 ∧ e.dead = false ∧ e.halted = true) ∧
  (∀ (s : State) (i : ColdIn), i.mode = 3 → i.bootSrc < 4 →
    s.Gets (.coldReset i) fun e => e.rd GLB_BOOT_STATUS.STRAP_ERR = 1 ∧ e.rd FLT_STATUS.FAULTN = 1 ∧ e.dead = true)

/-- SERDES_CALIBRATION_DONE, once and without BOOT_ERR: step 2 is done; the root is locked (`Dev.cvyLock`) and its ticks may run, a member goes on with
its provisional time base, and PCIe may train unless PERST_N is asserted (R346, R352, R353). BOOT_IMAGE_LOADED: an image that the host or
the convoy gave and that passed is run; with BOOT_SRC a bank and neither bank passing, BOOT_ERR is set (R352, R418). -/
def Obligations.StartSteps : Prop :=
  (∀ s : State, s.dev.dead = false → s.dev.flt.todo = [] → s.dev.cvy.cal = false → s.dev.on GLB_BOOT_STATUS.BOOT_ERR = false →
    s.dev.isRoot = false →
    s.Does .serdesCalibrationDone { s.dev.wr GLB_BOOT_STATUS.STEP (max 5 (s.dev.rd GLB_BOOT_STATUS.STEP)) with
      cvy := { s.dev.cvy with cal := true }, hst := { s.dev.hst with cal := true, training := !s.dev.hst.perst } }) ∧
  (∀ s : State, s.dev.dead = false → s.dev.cvy.cal = false → s.dev.on GLB_BOOT_STATUS.BOOT_ERR = false → s.dev.isRoot = true →
    s.Runs .serdesCalibrationDone { ({ s.dev.wr GLB_BOOT_STATUS.STEP (max 5 (s.dev.rd GLB_BOOT_STATUS.STEP)) with
        cvy := { s.dev.cvy with cal := true, loaded := true } } : Dev).cvyLock with
      hst := { s.dev.hst with cal := true, training := !s.dev.hst.perst } }) ∧
  (∀ s : State, s.Ready → s.dev.pwr.step3 = false → s.dev.on GLB_BOOT_STATUS.BOOT_ERR = false → 2 ≤ s.dev.pwr.bootSrc →
    s.dev.fwu.memOk = true →
    s.Runs .bootImageLoaded ((({ s.dev with
      pwr := { s.dev.pwr with step3 := true }, fwu := { s.dev.fwu with boot := false } } : Dev).wr
      GLB_BOOT_STATUS.SRC s.dev.pwr.bootSrc).fwBooted (hdrImg s.dev.fwu.hdr) 0)) ∧
  (∀ s : State, s.Ready → s.dev.pwr.step3 = false → s.dev.on GLB_BOOT_STATUS.BOOT_ERR = false → s.dev.pwr.bootSrc < 2 →
    s.dev.bankOk s.dev.primary = false → s.dev.bankOk s.dev.secondary = false →
    s.Does .bootImageLoaded (s.dev.wr GLB_BOOT_STATUS.BOOT_ERR 1))

/-- WARM_RESET, and a write of GLB_RST_CTRL.WARM with KEY 0xA5C3 (R355): every unit of the core dies is empty and the VDD_AON domain goes
on. A write without WARM or with another KEY does nothing. The end of a brown-out (R356), the return of a supervised rail (R445) and of
REFCLK_CORE (R447) perform a warm reset with the cause that the hold recorded, if nothing else holds the device; if something does, they
only end their own hold. -/
def Obligations.WarmResets : Prop :=
  (∀ s : State, s.dev.dead = false → s.dev.held = false → s.Gets .warmReset fun e => s.dev.Warm e 1) ∧
  (∀ s : State, s.Open → s.Gets (.glbWarmResetCmd true 0xA5C3) fun e => s.dev.Warm e 1) ∧
  (∀ (s : State) (warm : Bool) (key : Nat), s.Open → key < 65536 → ¬ (warm = true ∧ key = 0xA5C3) →
    s.Does (.glbWarmResetCmd warm key) s.dev) ∧
  (∀ s : State, s.dev.dead = false → s.dev.pwr.brown ≠ [] → s.dev.pwr.rails = [] → s.dev.pwr.refLost = false →
    s.Gets .brownOutRecovery fun e => s.dev.Warm e (s.dev.pwr.cause % 8)) ∧
  (∀ (s : State) (rail : Nat), s.dev.dead = false → s.dev.flt.todo = [] → 1 ≤ rail → rail < 7 → s.dev.pwr.rails.contains rail = true →
    s.dev.pwr.brown ≠ [] →
    s.Does (.supervisedRailReturn rail) { s.dev with pwr := { s.dev.pwr with rails := s.dev.pwr.rails.filter (· != rail) } }) ∧
  (∀ (s : State) (rail : Nat), s.dev.dead = false → 1 ≤ rail → rail < 7 → s.dev.pwr.rails = [rail] → s.dev.pwr.brown = [] →
    s.dev.pwr.refLost = false → s.Gets (.supervisedRailReturn rail) fun e => s.dev.Warm e (s.dev.pwr.cause % 8)) ∧
  (∀ s : State, s.dev.dead = false → s.dev.pwr.refLost = true → s.dev.pwr.brown = [] → s.dev.pwr.rails = [] →
    s.Gets .refclkReturn fun e => s.dev.Warm e 1)

/-- BROWN_OUT of a die not yet in brown-out, and RAIL_LOSS of a rail within tolerance (R302, R356, R445): a FATAL fault, the helm released
with cause 0x3, the hold with its cause, and, of the Trelier rails, stacks to be trained anew. REFCLK_LOSS at the root (R447): a FATAL
fault, the helm released with cause 0x1, REFCLK_LOST. Each leaves the device held. STANDBY_SUPPLY_LOSS (R444): the device is dead, and
drives no helm line. -/
def Obligations.SupplyLosses : Prop :=
  (∀ (s : State) (die : Nat), s.dev.dead = false → die < 2 → s.dev.pwr.brown.contains die = false →
    s.Runs (.brownOut die) { (s.dev.fault (0x352 + die) fatal 0x0D).helmRelease 3 0 with
      pwr := { s.dev.pwr with cause := 2 + die, retrain := s.dev.pwr.retrain || die == 1, brown := die :: s.dev.pwr.brown } }) ∧
  (∀ (s : State) (die : Nat), s.dev.dead = false → die < 2 → s.dev.pwr.brown.contains die = false → s.dev.flt.todo = [] →
    s.dev.reactCode (0x352 + die) fatal = 4 ∨ s.dev.reactCode (0x352 + die) fatal = 5 →
    s.Gets (.brownOut die) fun e => e.held = true ∧ e.pwr.brown = die :: s.dev.pwr.brown ∧ e.pwr.cause = 2 + die) ∧
  (∀ (s : State) (rail : Nat), s.dev.dead = false → 1 ≤ rail → rail < 7 → s.dev.pwr.rails.contains rail = false →
    s.Runs (.railLoss rail) { ((s.dev.fault (0x352 + railDie rail) fatal 0x0D).helmRelease 3 0).wrs
        [(GLB_PWR_STATUS.RAIL_LOST, 1), (GLB_PWR_STATUS.RAIL, rail)] with
      pwr := { s.dev.pwr with cause := 2 + railDie rail, retrain := s.dev.pwr.retrain || railDie rail == 1 || decide (4 ≤ rail),
                              rails := rail :: s.dev.pwr.rails } }) ∧
  (∀ s : State, s.dev.dead = false → s.dev.pwr.refLost = false → s.dev.isRoot = true →
    s.Runs .refclkLoss { ((s.dev.fault 0x1C0 fatal 0x05).wr GLB_PWR_STATUS.REFCLK_LOST 1).helmRelease 1 0 with
      pwr := { s.dev.pwr with refLost := true, cause := 1 } }) ∧
  (∀ s : State, s.dev.dead = false → s.dev.flt.todo = [] → s.dev.holdsHelm = false →
    s.Does .standbySupplyLoss { s.dev with pwr := { s.dev.pwr with standby := false } }) ∧
  (∀ s : State, s.dev.dead = false → s.dev.flt.todo = [] → s.dev.holdsHelm = true →
    s.Does .standbySupplyLoss { s.dev.emit (.helm false s.dev.tck.now) with pwr := { s.dev.pwr with standby := false } })

/-- JUNCTION_TEMP_READ (R448, Table 20.7): readings below WARN are shown and change nothing else; a Trelier reading at or above WARN, and
at most 150 degrees, for the first time sets WARN_T and logs CORRECTED event 0x08. AVS_ADJUST (R442): at a tick whose number is a multiple
of 2^22 a setpoint at its target stays and one below it rises by at most 5 mV; at another tick no setpoint moves. The levels of a raised
setpoint follow it once every sensor of the die reads within 1.0 % of it, and not before the command says so (R303; log entry 74). -/
def Obligations.TemperatureAndVoltage : Prop :=
  (∀ (s : State) (a t : Int), s.dev.dead = false → s.dev.flt.todo = [] → -128 ≤ a → a < 128 → -128 ≤ t → t < 128 →
    a < (min 150 (s.dev.rd GLB_THERM.WARN) : Nat) → t < (min 150 (s.dev.rd GLB_THERM.WARN) : Nat) →
    s.Does (.junctionTempRead a t) { (s.dev.wr GLB_TEMP.TJ_A (ofInt 8 a)).wr GLB_TEMP.TJ_T (ofInt 8 t) with
      pwr := { s.dev.pwr with hot := (s.dev.pwr.hot.filter (· != 0)).filter (· != 1),
                              overs := (s.dev.pwr.overs.filter (· != 0)).filter (· != 1),
                              tripped := (s.dev.pwr.tripped.filter (· != 0)).filter (· != 1) } }) ∧
  (∀ (s : State) (a t : Int), s.dev.dead = false → -128 ≤ a → a < 128 → t < 128 →
    a < (min 150 (s.dev.rd GLB_THERM.WARN) : Nat) → (min 150 (s.dev.rd GLB_THERM.WARN) : Nat) ≤ t → t ≤ 150 →
    s.dev.pwr.hot = [] → s.dev.pwr.overs = [] → s.dev.pwr.tripped = [] →
    s.Runs (.junctionTempRead a t)
      (({ (s.dev.wr GLB_TEMP.TJ_A (ofInt 8 a)).wr GLB_TEMP.TJ_T (ofInt 8 t) with pwr := { s.dev.pwr with hot := [1] } }.wr
        GLB_THERM.WARN_T 1).fault 0x351 corrected 0x08)) ∧
  (∀ (s : State) (a t : Bool) (x y : Nat × Nat), s.dev.dead = false → s.dev.flt.todo = [] → s.dev.tck.now % 4194304 ≠ 0 →
    (s.dev.sag 0).base = s.dev.pwr.mvA → (s.dev.sag 1).base = s.dev.pwr.mvT → s.Does (.avsAdjust a t x y) s.dev) ∧
  (∀ (s : State) (a t : Bool) (x y : Nat × Nat), s.dev.dead = false → s.dev.flt.todo = [] → s.dev.tck.now % 4194304 ≠ 0 →
    (s.dev.sag 0).base < s.dev.pwr.mvA → 990 * s.dev.pwr.mvA ≤ x.1 → x.2 ≤ 1010 * s.dev.pwr.mvA →
    (s.dev.sag 1).base = s.dev.pwr.mvT →
    s.Does (.avsAdjust a t x y) (s.dev.setSag 0 { s.dev.sag 0 with base := s.dev.pwr.mvA })) ∧
  (∀ (s : State) (a t : Bool) (x y : Nat × Nat), s.dev.dead = false → s.dev.flt.todo = [] → s.dev.tck.now % 4194304 = 0 →
    (s.dev.sag 0).base = s.dev.pwr.mvA → (s.dev.sag 1).base = s.dev.pwr.mvT →
    mvClamp (Config.voltTable 0 (s.dev.rd GLB_TEMP.TJ_A) + 5 * max (-4) (min 4 (sInt 4 (s.dev.rd GLB_AVS_A.TRIM)))) = s.dev.pwr.mvA →
    mvClamp (Config.voltTable 1 (s.dev.rd GLB_TEMP.TJ_T) + 5 * max (-4) (min 4 (sInt 4 (s.dev.rd GLB_AVS_T.TRIM)))) = s.dev.pwr.mvT →
    s.Does (.avsAdjust a t x y) s.dev) ∧
  (∀ (s : State) (t : Bool) (x y : Nat × Nat) (v : Nat), s.dev.dead = false → s.dev.flt.todo = [] → s.dev.tck.now % 4194304 = 0 →
    (s.dev.sag 0).base = s.dev.pwr.mvA → (s.dev.sag 1).base = s.dev.pwr.mvT →
    mvClamp (Config.voltTable 0 (s.dev.rd GLB_TEMP.TJ_A) + 5 * max (-4) (min 4 (sInt 4 (s.dev.rd GLB_AVS_A.TRIM)))) = v →
    s.dev.pwr.mvA < v →
    mvClamp (Config.voltTable 1 (s.dev.rd GLB_TEMP.TJ_T) + 5 * max (-4) (min 4 (sInt 4 (s.dev.rd GLB_AVS_T.TRIM)))) = s.dev.pwr.mvT →
    s.Does (.avsAdjust true t x y) ({ s.dev.emit (.avs 0 (min v (s.dev.pwr.mvA + 5))) with
      pwr := { s.dev.pwr with mvA := min v (s.dev.pwr.mvA + 5) } }.wr GLB_AVS_A.SETPT (min v (s.dev.pwr.mvA + 5))))

/-- BLOCK_RESET of a source whose reset a boundary has let start (R358, Table 15.9): a sequencer pair (0x010 to 0x02F) or a navigator pair
(0x340, 0x341) goes into RESYNC and its reset waits no longer. Of a source with no reset waiting, nothing happens. -/
def Obligations.BlockResets : Prop :=
  (∀ (s : State) (src : Nat), s.dev.dead = false → s.dev.flt.todo = [] → 0x010 ≤ src → src ≤ 0x02F →
    s.dev.flt.dueReset.contains src = true →
    s.Does (.blockReset src) ({ s.dev with
      flt := { s.dev.flt with dueReset := s.dev.flt.dueReset.filter (· != src), pendReset := s.dev.flt.pendReset.filter (· != src) },
      cht := { s.dev.cht with resync := (src - 0x010, s.dev.tck.now) :: s.dev.cht.resync.filter fun p => p.1 != src - 0x010 } }.wr
      CHT_SEQ_STATUS.RESYNC 1)) ∧
  (∀ (s : State) (src : Nat), s.dev.dead = false → s.dev.flt.todo = [] → src = 0x340 ∨ src = 0x341 →
    s.dev.flt.dueReset.contains src = true →
    s.Does (.blockReset src) ({ s.dev with
      flt := { s.dev.flt with dueReset := s.dev.flt.dueReset.filter (· != src), pendReset := s.dev.flt.pendReset.filter (· != src) },
      hlm := { s.dev.hlm with navSync := (src - 0x340) :: s.dev.hlm.navSync.filter (· != src - 0x340) } }.wr HLM_NAV_STATUS.RESYNC 1)) ∧
  (∀ (s : State) (src : Nat), s.dev.dead = false → s.dev.flt.todo = [] → src < 4096 → s.dev.flt.dueReset.contains src = false →
    s.dev.flt.pendReset.contains src = false → s.Does (.blockReset src) s.dev)

/-- TICK_START. While the device is held in warm reset only the number, from slot 0, and the sextant go on (R356, R412). Before the first load of the time a
member starts no tick (R346). Otherwise the tick in progress ends with its overrun, cycles and ring write-backs (R12), the number goes on
by one modulo 2^48 (R7), and the boundary applies configuration and the blocks' boundary actions, then admits, then makes the round and
the digest (R6, R15, R211, R29). The root's first tick is the number it holds, and a member's first the one after its load. -/
def Obligations.TickStarts : Prop :=
  (∀ s : State, s.dev.dead = false → s.dev.flt.todo = [] → s.dev.cvy.loaded = false → s.Does (.tickStart 576 []) s.dev) ∧
  (∀ (s : State) (n : Nat), s.dev.dead = false → s.dev.flt.todo = [] → s.dev.cvy.loaded = true → s.dev.held = true → s.dev.tck.running = true →
    s.Runs (.tickStart n []) ({ s.dev with
      tck := { s.dev.tck with begun := min 3 (s.dev.tck.begun + 1), now := tickAdd s.dev.tck.now 1, slot := 0, cyc := 0, slack := 0 },
      nrg := { s.dev.nrg with stretched := s.dev.clkLevel != 0, sagA := s.dev.nrg.sagA.tickStart,
                              sagT := s.dev.nrg.sagT.tickStart } } : Dev).sxtBoundary) ∧
  (∀ (s : State) (n : Nat) (fec : List (Nat × Nat × Nat)), s.Ready → (∀ x ∈ fec, x.1 < 256) → s.dev.cvy.loaded = true →
    s.dev.tck.running = true → (s.dev.tickEnd n fec).held = false →
    s.Runs (.tickStart n fec)
      ((s.dev.tickEnd n fec).tickNext (tickAdd s.dev.tck.now 1)).stepsReset.sweepBoundary.boundaryBlocks.boundaryAdmit.boundaryRound) ∧
  (∀ (s : State) (n : Nat), s.Ready → s.dev.cvy.loaded = true → s.dev.tck.running = false →
    s.Runs (.tickStart n [])
      (s.dev.tickNext (if s.dev.isRoot then s.dev.tck.now else tickAdd s.dev.tck.now 1)).stepsReset.sweepBoundary.boundaryBlocks.boundaryAdmit.boundaryRound)

/-- SLOT_CYCLE takes its steps in order: what falls due at the end of the cycle before happens, soft errors strike, core cycles pass until
both dies reach the slot (R301), credits and failovers take effect, the slot number and every pass's position go on by one (R9, R91),
carriage reads issue, the slot issues in every pipeline, every pass runs its stage, the maintenance channels take their steps, and the
egress pipelines fetch their stage-0 rows. In a halted device without anything in flight, counters or a sweep, the slot's number and the
cycles of the two dies are all that changes. With slot 503 issued, a slack cycle runs (R10), and a slot cycle does nothing; before, a slack
cycle does nothing. -/
def Obligations.CyclesAdvance : Prop :=
  (∀ (s : State) (errs : List EccErr), s.Ready → s.dev.tck.running = true → s.dev.tck.slot < 504 →
    s.dev.tck.slot % 252 ≠ 0 →
    let d := (((s.dev.cycleEnd.strike errs).cyclesTo (s.dev.tck.slot + 1) 8).creditAll.asxFailAll).lkuCycle
    let e := (({ d with tck := { d.tck with slot := s.dev.tck.slot + 1 }, dpt := { d.dpt with placed := [] } }.advance).readIssue.readTouch.issueSlot
      s.dev.tck.slot).stages
    let m := if e.halted then e
      else ((List.range 8).foldl (fun (d : Dev) k => d.maintSlot s.dev.tck.slot k) e).fetchEgress s.dev.tck.slot
    s.Runs (.slotCycle errs 0) ((m.evtAll 0x03 1).occCount 1 0 0x40)) ∧
  (∀ s : State, s.Ready → s.dev.tck.running = true → s.dev.tck.slot < 504 → s.dev.tck.slot ≠ 87 → s.dev.tck.slot % 252 ≠ 0 →
    s.dev.on FLT_STATUS.HALTED = true → s.dev.on CHT_STATUS.ARMED = false → s.dev.nrg.sagA.level = 0 → s.dev.nrg.sagT.level = 0 → s.dev.nrg.sagA.done = s.dev.tck.slot →
    s.dev.nrg.sagT.done = s.dev.tck.slot → s.dev.pipe.passes = [] → s.dev.dpt.credit = [] → s.dev.dpt.place = [] →
    s.dev.dpt.placed = [] → s.dev.dpt.reads = [] → s.dev.dpt.readQ = [] → s.dev.wan.tx = [] → s.dev.fab.tails = [] →
    s.dev.fab.sent = [] → s.dev.lku.t2old = [] → s.dev.selections = [] → s.dev.snd.sweep = none →
    s.Does (.slotCycle [] 0) { s.dev with
      tck := { s.dev.tck with slot := s.dev.tck.slot + 1, cyc := s.dev.tck.cyc + 1 },
      nrg := { s.dev.nrg with sagA := s.dev.nrg.sagA.cycle, sagT := s.dev.nrg.sagT.cycle } }) ∧
  (∀ (s : State) (errs : List EccErr) (fails : Nat), s.Ready → s.dev.tck.running = true → 504 ≤ s.dev.tck.slot →
    s.Does (.slotCycle errs fails) s.dev) ∧
  (∀ (s : State) (errs : List EccErr) (words : List (Nat × Store × Nat)), s.Ready → s.dev.tck.running = true → 504 ≤ s.dev.tck.slot →
    let d := (s.dev.cycleEnd.strike errs).cyclesTo (505 + s.dev.tck.slack) 8
    s.Runs (.slackCycle errs words)
      (words.foldl Dev.scrubWord { d with tck := { d.tck with slack := d.tck.slack + 1 } }).asxScrub.audSlack.patrol) ∧
  (∀ (s : State) (errs : List EccErr), s.Ready → s.dev.tck.slot < 504 → s.Does (.slackCycle errs []) s.dev)

/-- FRAME_RECEIVE on a port that exists (R250): a good frame counts and waits for the boundary after its head; a runt and an over-long
frame count and go no further; on a port that does not exist, and on one of a cage in loopback, nothing happens. LOOKUP_RESULT: in every pass in flight the results that are
due land (R56). END_OF_PASS: the oldest pass that has ended is disposed of, once (R92); with none, nothing happens. -/
def Obligations.FramesAndResults : Prop :=
  (∀ (s : State) (port h : Nat) (bytes : List Byte), s.Ready → port < 256 → s.dev.wanExists port = true →
    64 ≤ bytes.length → bytes.length ≤ min 16000 (s.dev.rd (WAN_PORT_CFG.MAXF port)) → s.dev.on TCK_CTRL.REPLAY = false →
    s.dev.on (WAN_CAGE.LOOP (port / 8)) = false →
    s.Does (.frameReceive port h false bytes) { (s.dev.wanAdd port 0 1).wanAdd port 2 bytes.length with
      tck := { s.dev.tck with rx := s.dev.tck.rx ++ [{ port, h, fcsBad := false, bytes }] } }) ∧
  (∀ (s : State) (port h : Nat) (bytes : List Byte), s.Ready → port < 256 → s.dev.wanExists port = true → bytes.length < 64 →
    s.dev.on (WAN_CAGE.LOOP (port / 8)) = false →
    s.Does (.frameReceive port h false bytes) (((s.dev.wanAdd port 0 1).wanAdd port 2 bytes.length).bump (WAN_CNT.COUNT port 10))) ∧
  (∀ (s : State) (port h : Nat) (bad : Bool) (bytes : List Byte), s.Ready → port < 256 → s.dev.wanExists port = false →
    s.Does (.frameReceive port h bad bytes) s.dev) ∧
  (∀ (s : State) (port h : Nat) (bad : Bool) (bytes : List Byte), s.Ready → port < 256 → s.dev.on (WAN_CAGE.LOOP (port / 8)) = true →
    s.Does (.frameReceive port h bad bytes) s.dev) ∧
  (∀ s : State, s.Ready →
    s.Does .lookupResult { s.dev with pipe := { s.dev.pipe with passes := s.dev.pipe.passes.map Pass.land } }) ∧
  (∀ s : State, s.Ready → s.dev.pipe.ended = [] → s.Does .endOfPass s.dev) ∧
  (∀ (s : State) (e : Ended) (r : List Ended), s.Ready → s.dev.pipe.ended = e :: r →
    s.Runs .endOfPass ({ s.dev with pipe := { s.dev.pipe with ended := r } }.endPass e))

/-- CYC_MIN_RST sets TCK_CYC.MIN to 0x3FF. DIGEST_LATCH_READ (R32): a read of TCK_DIG_TICK_LO latches the other five registers, once; the
read of TCK_DIG_OUT_HI ends the latch and lets the values held in, and does nothing when no latch holds. -/
def Obligations.CyclesAndDigestReads : Prop :=
  (∀ s : State, s.Open → s.Does .cycMinRst (s.dev.wr TCK_CYC.MIN 0x3FF)) ∧
  (∀ s : State, s.Open → s.dev.tck.digLatch = none →
    s.Does (.digestLatchRead false) { s.dev with tck := { s.dev.tck with digLatch := some [] } }) ∧
  (∀ (s : State) (l : List (BitVec 32)), s.Open → s.dev.tck.digLatch = some l → s.Does (.digestLatchRead false) s.dev) ∧
  (∀ s : State, s.Open → s.dev.tck.digLatch = none → s.Does (.digestLatchRead true) s.dev) ∧
  (∀ (s : State) (a b c d e : BitVec 32), s.Open → s.dev.tck.digLatch = some [a, b, c, d, e] →
    s.Does (.digestLatchRead true) (((((({ s.dev with tck := { s.dev.tck with digLatch := none } } : Dev).setReg TCK_DIG_TICK_HI.addr
      a).setReg TCK_DIG_ADM_LO.addr b).setReg TCK_DIG_ADM_HI.addr c).setReg TCK_DIG_OUT_LO.addr d).setReg TCK_DIG_OUT_HI.addr e))

/-- CHART_LOAD_GO, CHART_LOAD_READ, PARSE_LOAD_GO, PARSE_LOAD_READ (R72, R118): with the window idle the command is captured and BUSY set;
with one in progress OVERLAP is set and nothing else. CHART_LOAD_COMPLETE and PARSE_LOAD_COMPLETE: a checked write of an open shadow bank
is made and shows code 0; an entry that fails a check changes no bank and shows its code; a shadow bank that is closed (R98) counts in
CHT_REFUSED with code 0x01; a read gives the entry in the data registers; with no command in progress nothing happens. -/
def Obligations.ChartLoads : Prop :=
  (∀ (s : State) (rd : Bool), s.Open → s.dev.on CHT_LD_STATUS.BUSY = false →
    s.Does (.chartLoadGo rd) ({ s.dev with cht := { s.dev.cht with
      ld := some { go := true, rd, addr := s.dev.reg CHT_LD_ADDR.addr, data := s.dev.chtData } } }.wr CHT_LD_STATUS.BUSY 1)) ∧
  (∀ s : State, s.Open → s.dev.on CHT_LD_STATUS.BUSY = false →
    s.Does .chartLoadRead ({ s.dev with cht := { s.dev.cht with
      ld := some { go := false, rd := true, addr := s.dev.reg CHT_LD_ADDR.addr, data := s.dev.chtData } } }.wr CHT_LD_STATUS.BUSY 1)) ∧
  (∀ (s : State) (rd : Bool), s.Open → s.dev.on CHT_LD_STATUS.BUSY = true →
    s.Does (.chartLoadGo rd) (s.dev.wr CHT_LD_STATUS.OVERLAP 1) ∧ s.Does .chartLoadRead (s.dev.wr CHT_LD_STATUS.OVERLAP 1)) ∧
  (∀ (s : State) (rd : Bool), s.Open → s.dev.on PRS_LD_STATUS.BUSY = false →
    s.Does (.parseLoadGo rd) ({ s.dev with cht := { s.dev.cht with
      prsLd := some { go := true, rd, addr := s.dev.reg PRS_LD_ADDR.addr, data := s.dev.prsData } } }.wr PRS_LD_STATUS.BUSY 1)) ∧
  (∀ s : State, s.Open → s.dev.on PRS_LD_STATUS.BUSY = false →
    s.Does .parseLoadRead ({ s.dev with cht := { s.dev.cht with
      prsLd := some { go := false, rd := true, addr := s.dev.reg PRS_LD_ADDR.addr, data := s.dev.prsData } } }.wr PRS_LD_STATUS.BUSY 1)) ∧
  (∀ (s : State) (rd : Bool), s.Open → s.dev.on PRS_LD_STATUS.BUSY = true →
    s.Does (.parseLoadGo rd) (s.dev.wr PRS_LD_STATUS.OVERLAP 1) ∧ s.Does .parseLoadRead (s.dev.wr PRS_LD_STATUS.OVERLAP 1)) ∧
  (∀ (s : State) (c : LoadCmd), s.Ready → s.dev.cht.ld = some c → c.go = true → c.rd = false → s.dev.shadowBusy = false →
    checkTarget c.addr = none → checkData c.addr c.data = none →
    let e := { s.dev with cht := { s.dev.cht with ld := none } }.wrs [(CHT_LD_STATUS.BUSY, 0), (CHT_LD_STATUS.DONE, 1)]
    s.Runs .chartLoadComplete (((e.setShadow (loadEntry e.shadow c.addr c.data)).rowsWrote c).chartResult 0 7)) ∧
  (∀ (s : State) (c : LoadCmd) (f : Nat × Nat), s.Ready → s.dev.cht.ld = some c → c.go = true → c.rd = false →
    s.dev.shadowBusy = false → (checkTarget c.addr).or (checkData c.addr c.data) = some f →
    s.Does .chartLoadComplete (({ s.dev with cht := { s.dev.cht with ld := none } }.wrs
      [(CHT_LD_STATUS.BUSY, 0), (CHT_LD_STATUS.DONE, 1)]).chartResult f.1 f.2)) ∧
  (∀ (s : State) (c : LoadCmd), s.Ready → s.dev.cht.ld = some c → c.go = true → c.rd = false → s.dev.shadowBusy = true →
    s.Does .chartLoadComplete ((((({ s.dev with cht := { s.dev.cht with ld := none } }.wrs
      [(CHT_LD_STATUS.BUSY, 0), (CHT_LD_STATUS.DONE, 1)]).wr CHT_STATUS.REFUSED 1).bump CHT_REFUSED.COUNT).chartResult 0x01 7))) ∧
  (∀ s : State, s.Ready → s.dev.cht.ld = none → s.Does .chartLoadComplete s.dev) ∧
  (∀ (s : State) (c : LoadCmd), s.Ready → s.dev.cht.prsLd = some c → c.go = true → c.rd = false → s.dev.shadowBusy = false →
    checkPrs c.addr (BitVec.ofNat 128 c.data.toNat) = 0 →
    let e := { s.dev with cht := { s.dev.cht with prsLd := none } }.wrs [(PRS_LD_STATUS.BUSY, 0), (PRS_LD_STATUS.DONE, 1)]
    s.Runs .parseLoadComplete
      (((e.setShadow (loadGraph e.shadow c.addr (BitVec.ofNat 128 c.data.toNat))).graphWrote c).prsResult 0)) ∧
  (∀ (s : State) (c : LoadCmd), s.Ready → s.dev.cht.prsLd = some c → c.go = true → c.rd = false → s.dev.shadowBusy = false →
    checkPrs c.addr (BitVec.ofNat 128 c.data.toNat) ≠ 0 →
    s.Does .parseLoadComplete (({ s.dev with cht := { s.dev.cht with prsLd := none } }.wrs
      [(PRS_LD_STATUS.BUSY, 0), (PRS_LD_STATUS.DONE, 1)]).prsResult (checkPrs c.addr (BitVec.ofNat 128 c.data.toNat)))) ∧
  (∀ s : State, s.Ready → s.dev.cht.prsLd = none → s.Does .parseLoadComplete s.dev)

/-- SWAP_ARM (R97): with no old epoch busy, nothing armed and nothing being checked, an own-tick arm (SCOPE 0) keeps its target tick and
CHECKING is set; while one is armed, code 0x02 and nothing else changes but SCOPE as written. SWAP_DISARM (R102): an own-tick arm is
cleared at least two ticks before its target, and with nothing armed nothing happens. SWAP_ARM_CHECKED: a shadow bank without a valid
descriptor fails with 0x05, one that passes and whose own-tick target is at least three ticks away is ARMED; with nothing being checked
nothing happens. CHART_SWAP (R99): at the tick of the swap the banks change places with their epoch, OLD_BUSY is set and the tick kept;
otherwise nothing happens. -/
def Obligations.ChartSwaps : Prop :=
  (∀ s : State, s.Open → s.dev.on CHT_STATUS.OLD_BUSY = false → s.dev.on CHT_STATUS.ARMED = false →
    s.dev.on CHT_STATUS.CHECKING = false →
    s.Does (.swapArm 0 false) ({ s.dev.wr CHT_SWAP_CTRL.SCOPE 0 with
      cht := { s.dev.cht with armScope := 0, armTarget := s.dev.rdPair CHT_SWAP_TICK_LO.TICK CHT_SWAP_TICK_HI.TICK } }.wr
      CHT_STATUS.CHECKING 1)) ∧
  (∀ (s : State) (scope : Nat), s.Open → scope < 4 → s.dev.on CHT_STATUS.OLD_BUSY = false → s.dev.on CHT_STATUS.ARMED = true →
    s.Does (.swapArm scope false) (((s.dev.wr CHT_SWAP_CTRL.SCOPE scope).wrs
      [(CHT_STATUS.ARM_ERR, 1), (CHT_STATUS.ARM_CODE, 0x02)]).setReg CHT_ARM_WHERE.addr 0)) ∧
  (∀ s : State, s.Open → s.dev.on CHT_STATUS.ARMED = false → s.Does .swapDisarm s.dev) ∧
  (∀ s : State, s.Open → s.dev.on CHT_STATUS.ARMED = true → s.dev.cht.armScope = 0 →
    tickFuture s.dev.cht.armTarget s.dev.tck.now = true → 2 ≤ tickSub s.dev.cht.armTarget s.dev.tck.now →
    s.Does .swapDisarm (s.dev.wr CHT_STATUS.ARMED 0)) ∧
  (∀ s : State, s.Ready → s.dev.on CHT_STATUS.CHECKING = false → s.Does .swapArmChecked s.dev) ∧
  (∀ s : State, s.Ready → s.dev.on CHT_STATUS.CHECKING = true → s.dev.shadow.valid = false →
    s.Does .swapArmChecked (s.dev.armFail 0x05 0)) ∧
  (∀ s : State, s.Ready → s.dev.on CHT_STATUS.CHECKING = true → s.dev.shadow.valid = true → s.dev.shadow.epoch ≠ s.dev.active.epoch →
    s.dev.shadow.scan = none → s.dev.cht.armScope = 0 → tickFuture s.dev.cht.armTarget s.dev.tck.now = true →
    3 ≤ tickSub s.dev.cht.armTarget s.dev.tck.now →
    s.Does .swapArmChecked ((s.dev.wrs [(CHT_STATUS.CHECKING, 0), (CHT_STATUS.ARMED, 1), (CHT_STATUS.ARM_CODE, 0)]).setReg
      CHT_ARM_WHERE.addr 0)) ∧
  (∀ s : State, s.Ready → s.dev.swapDue = false → s.Does .chartSwap s.dev) ∧
  (∀ s : State, s.Ready → s.dev.swapDue = true →
    s.Runs .chartSwap ({ (s.dev.wrs [(CHT_STATUS.ACTIVE, 1 - s.dev.activeNo), (CHT_STATUS.ACT_EPOCH, s.dev.shadow.epoch),
        (CHT_STATUS.ARMED, 0), (CHT_STATUS.SWAPPED, 1), (CHT_STATUS.OLD_BUSY, 1)]).wrTick CHT_LAST_SWAP_LO.TICK
        CHT_LAST_SWAP_HI.TICK s.dev.tck.now with cht := { s.dev.cht with held := none } } : Dev).nrgApply)

/-- SEQ_ROLE_SWAP does nothing at a tick that is no multiple of 65,536 (R86), and at one each pair that is not resynchronising changes its
driver. SEQ_MISMATCH (R87): without uncorrectable words the shadow of the pair is the faulty twin; it is counted, its reload comes at the
next tick, and CORRECTED event 0x04 is logged; with both twins uncorrectable the fault is FATAL. SEQ_RESYNC_DONE: two ticks after the
reload the pair rejoins and, with no other pair reloading, RESYNC clears; a pair that is not reloading does nothing. -/
def Obligations.Sequencers : Prop :=
  (∀ s : State, s.Ready → s.dev.tck.now % 65536 ≠ 0 → s.Does .seqRoleSwap s.dev) ∧
  (∀ s : State, s.Ready → s.dev.tck.now % 65536 = 0 → s.dev.cht.resync = [] →
    s.Runs .seqRoleSwap ((List.range 32).foldl Dev.seqFlip s.dev)) ∧
  (∀ (s : State) (pair : Nat), s.Ready → pair < 32 → s.dev.cht.driverB.getD pair false = false →
    s.Runs (.seqMismatch pair false false)
      (({ (s.dev.bump CHT_SEQ_FAULT.COUNT).wr CHT_SEQ_STATUS.LAST_PAIR pair with
        cht := { s.dev.cht with
          resync := (pair, tickAdd s.dev.tck.now 1) :: s.dev.cht.resync.filter fun p => p.1 != pair } } : Dev).fault
        (0x010 + pair) corrected 0x04)) ∧
  (∀ (s : State) (pair : Nat), s.Ready → pair < 32 →
    s.Runs (.seqMismatch pair true true)
      (((s.dev.bump CHT_SEQ_FAULT.COUNT).wr CHT_SEQ_STATUS.LAST_PAIR pair).fault (0x010 + pair) fatal 0x04)) ∧
  (∀ (s : State) (pair t : Nat), s.Ready → pair < 32 → s.dev.cht.resync = [(pair, t)] →
    tickReached (tickAdd t 2) s.dev.tck.now = true → s.dev.flt.recov = [] →
    s.Does (.seqResyncDone pair) ({ s.dev with cht := { s.dev.cht with resync := [] } }.wr CHT_SEQ_STATUS.RESYNC 0)) ∧
  (∀ (s : State) (pair : Nat), s.Ready → pair < 32 → s.dev.cht.resync = [] → s.dev.flt.recov = [] →
    s.Does (.seqResyncDone pair) s.dev)

/-- ASX_WRITE, ASX_CLEAR, ASX_INSERT, ASX_MASKP and ASX_READ (R129): the registers are written; an operation that passes the checks at GO
joins the end of the queue, with its holder, its operation code, its table and its entry, and PENDING and BUSY count it; one that does
not leaves the queue as it is and shows ERR and the code. A revoked holder's is refused with 0x07. -/
def Obligations.SearchSubmissions : Prop :=
  ∀ (s : State) (holder tbl entry : Nat) (data : List (BitVec 32)), s.Open → s.Agent holder → tbl < 64 → entry < 262144 →
    data.length ≤ 25 →
    ∀ p ∈ [(Instr.asxWrite holder tbl entry data, 1, data), (.asxClear holder tbl entry, 2, []), (.asxInsert holder tbl entry data, 3, data),
           (.asxMaskp holder tbl entry data, 4, data), (.asxRead holder tbl entry, 5, [])],
      let d := s.dev.asxLoad p.2.1 tbl entry p.2.2
      let o := d.asxOpOf holder
      (d.asxGoCheck o = 0 → s.Does p.1 { d with asx := { s.dev.asx with queue := s.dev.asx.queue ++ [o] } }.asxCount) ∧
      (d.asxGoCheck o ≠ 0 → s.Does p.1 ((d.wr ASX_OP_STATUS.ERR 1).wr ASX_OP_STATUS.CODE (d.asxGoCheck o))) ∧
      (o.holder = holder ∧ o.op = p.2.1 ∧ o.tbl = tbl ∧ o.entry = entry) ∧
      (s.dev.isRevoked holder = true → d.asxGoCheck o = 0x07)

/-- The thirteen submissions of Table 6.6 (R149): the registers are written; an operation of a holder that is not revoked, with fewer than
256 pending, joins the end of the queue with its holder, its operation code, its table and its index, and is counted; a revoked holder's is
refused with 0x0A and a full queue's with 0x01. -/
def Obligations.LookupSubmissions : Prop :=
  ∀ (s : State) (holder tbl index : Nat) (data : List (BitVec 32)), s.Open → s.Agent holder → tbl < 16 → index < 8388608 →
    data.length ≤ 16 →
    ∀ p ∈ [(Instr.lpmAdd holder tbl index data, 0x1, data), (.lpmDel holder tbl index data, 0x2, data),
           (.exInsert holder tbl index data, 0x3, data), (.exUpdate holder tbl index data, 0x4, data),
           (.exDelete holder tbl index data, 0x5, data), (.dirWrite holder tbl index data, 0x6, data),
           (.memberWrite holder tbl index data, 0x7, data), (.ctxWrite holder tbl index data, 0x8, data),
           (.ctxRead holder tbl index, 0x9, []), (.ctxReadClr holder tbl index, 0xA, []),
           (.t2DirWrite holder tbl index data, 0xB, data), (.t2Write holder tbl index data, 0xC, data),
           (.exSlotclr holder tbl index, 0xD, [])],
      let d := s.dev.lkuLoad p.2.1 tbl index p.2.2
      let o := d.lkuOpOf holder
      (s.dev.isRevoked holder = false → s.dev.rd LKU_WR_STATUS.PENDING < 256 →
        s.Does p.1 { d with lku := { s.dev.lku with queue := s.dev.lku.queue ++ [o] } }.lkuCount) ∧
      (s.dev.isRevoked holder = true → s.Does p.1 ((d.wr LKU_WR_STATUS.ERR 1).wr LKU_WR_STATUS.CODE 0x0A)) ∧
      (s.dev.isRevoked holder = false → 256 ≤ s.dev.rd LKU_WR_STATUS.PENDING →
        s.Does p.1 ((d.wr LKU_WR_STATUS.ERR 1).wr LKU_WR_STATUS.CODE 0x01)) ∧
      (o.holder = holder ∧ o.op = p.2.1 ∧ o.tbl = tbl ∧ o.index = index)

/-- QUE_CFG_WRITE, QUE_CFG_READ and QUE_CFG_READ_CLR (R203): the registers are written; an operation that passes the checks at GO joins the
end of the pending operations, with its holder, operation, entity and tick; one that does not shows ERR and the code, and is not queued.
With 256 pending the code is 0x01. -/
def Obligations.QueueSubmissions : Prop :=
  ∀ (s : State) (holder type index tick : Nat) (timed : Bool) (data : List (BitVec 32)), s.Open → s.Agent holder → type < 16 →
    index < 262144 → tick < 2 ^ 48 → data.length ≤ 8 →
    ∀ p ∈ [(Instr.queCfgWrite holder type index timed tick data, 1, data), (.queCfgRead holder type index timed tick, 2, []),
           (.queCfgReadClr holder type index timed tick, 3, [])],
      let d := s.dev.queLoad p.2.1 type index timed tick p.2.2
      let o := d.queOpOf holder
      (d.queGoCheck o = 0 → s.Does p.1 { d with que := { s.dev.que with ops := s.dev.que.ops ++ [o] } }.queCount) ∧
      (d.queGoCheck o ≠ 0 → s.Does p.1 (d.wrs [(QUE_CFG_STATUS.ERR, 1), (QUE_CFG_STATUS.CODE, d.queGoCheck o)])) ∧
      (o.holder = holder ∧ o.op = p.2.1 ∧ o.type = type ∧ o.index = index ∧ o.timed = timed ∧ o.tick = tick) ∧
      (256 ≤ s.dev.que.ops.length → d.queGoCheck o = 0x01)

/-- ASX_OP_START (R129 to R133): with none running, the operation at the queue's head leaves it; a MASKP, WRITE or CLEAR that the table
allows runs with its one step, a READ gives the entry, one on an invalid table ends with 0x03 and one beyond the table's capacity with
0x04; with RATE 0, one running, or an empty queue, nothing happens. ASX_FAILOVER (R141), at the boundary that the bank's quarantine waits for: the
bank's copy goes to the table's free spare; of a bank whose quarantine waits for no boundary, nothing happens. ASX_BANK_RETURN (R142): a quarantined bank without a shadow error starts to reload, any other
is refused with 0x09. ASX_RETURN_COMPLETE: a bank that reads back correctly has its errors gone and leaves quarantine at the next
boundary; one that does not logs CONTAINED event 0x0E; a bank that is not returning does nothing. -/
def Obligations.SearchOperations : Prop :=
  (∀ (s : State) (o : AsxOp) (r : List AsxOp), s.Ready → s.dev.rd ASX_OP_CTRL.RATE ≠ 0 → s.dev.asx.run = none → s.dev.asx.queue = o :: r → o.op = 4 →
    s.Does .asxOpStart ({ s.dev with asx := { s.dev.asx with
      queue := r, run := some { op := o, steps := [.maskp o.entry o.prof], moved := none } } }.asxCount)) ∧
  (∀ (s : State) (o : AsxOp) (r : List AsxOp), s.Ready → s.dev.rd ASX_OP_CTRL.RATE ≠ 0 → s.dev.asx.run = none → s.dev.asx.queue = o :: r → o.op = 2 →
    (s.dev.asx.tbl o.tbl).valid = true → o.entry < s.dev.asx.capacity o.tbl →
    s.Does .asxOpStart ({ s.dev with asx := { s.dev.asx with
      queue := r, run := some { op := o, steps := [.write o.entry AsxEntry.free], moved := none } } }.asxCount)) ∧
  (∀ (s : State) (o : AsxOp) (r : List AsxOp), s.Ready → s.dev.rd ASX_OP_CTRL.RATE ≠ 0 → s.dev.asx.run = none → s.dev.asx.queue = o :: r → o.op ≠ 4 →
    (s.dev.asx.tbl o.tbl).valid = false →
    s.Does .asxOpStart (({ s.dev with asx := { s.dev.asx with queue := r } }.asxDone 0x03).asxCount)) ∧
  (∀ (s : State) (o : AsxOp) (r : List AsxOp), s.Ready → s.dev.rd ASX_OP_CTRL.RATE ≠ 0 → s.dev.asx.run = none → s.dev.asx.queue = o :: r → o.op ≠ 4 →
    (s.dev.asx.tbl o.tbl).valid = true → s.dev.asx.capacity o.tbl ≤ o.entry →
    s.Does .asxOpStart (({ s.dev with asx := { s.dev.asx with queue := r } }.asxDone 0x04).asxCount)) ∧
  (∀ s : State, s.Ready → s.dev.rd ASX_OP_CTRL.RATE = 0 ∨ s.dev.asx.run ≠ none ∨ s.dev.asx.queue = [] → s.Does .asxOpStart s.dev) ∧
  (∀ (s : State) (bank t c : Nat), s.Ready → bank < 128 → s.dev.asx.owner bank = some t → (s.dev.asx.tbl t).copyOf bank = some c →
    s.dev.on (ASX_BANK.QUAR bank) = true → (s.dev.asx.tbl t).spareEn = true → s.dev.on (ASX_TBL_B.SPARE_USED t) = false →
    s.dev.asxQuarIn (s.dev.asx.tbl t).spareBank (s.dev.asx.tbl t).span = false → s.dev.tck.slot = 0 →
    s.dev.asx.quarDue.contains bank = true →
    s.Does (.asxFailover bank) (((({ s.dev with
      asx := { s.dev.asx with quarDue := s.dev.asx.quarDue.filter (· != bank) } } : Dev).wr (ASX_TBL_B.SPARE_USED t) 1).wr (ASX_TBL_B.SPARE_COPY t) c).wr ASX_STATUS.SPARE_ACTIVE 1)) ∧
  (∀ (s : State) (bank : Nat), s.Ready → bank < 128 → s.dev.asx.quarDue.contains bank = false → s.Does (.asxFailover bank) s.dev) ∧
  (∀ (s : State) (bank : Nat), s.Open → bank < 128 → s.dev.on (ASX_BANK.SHADOW_UE bank) = false → s.dev.on (ASX_BANK.QUAR bank) = true →
    s.Does (.asxBankReturn bank) { s.dev with asx := { s.dev.asx with returning := bank :: s.dev.asx.returning.erase bank } }) ∧
  (∀ (s : State) (bank : Nat), s.Open → bank < 128 → s.dev.on (ASX_BANK.SHADOW_UE bank) = true ∨ s.dev.on (ASX_BANK.QUAR bank) = false →
    s.Does (.asxBankReturn bank) (s.dev.asxCfgErr false 0 true bank 0x09)) ∧
  (∀ (s : State) (bank : Nat), s.Ready → bank < 128 → s.dev.asx.returning.contains bank = true →
    s.Does (.asxReturnComplete bank true) { s.dev with
      asx := { s.dev.asx with returned := bank :: s.dev.asx.returned.erase bank },
      flt := { s.dev.flt with
        ecc := s.dev.flt.ecc.filter (fun (e : EccErr) => !(e.src == 0x100 + bank && e.store == Store.asxArray)) } }) ∧
  (∀ (s : State) (bank : Nat), s.Ready → bank < 128 → s.dev.asx.returning.contains bank = true →
    s.Runs (.asxReturnComplete bank false)
      ({ s.dev with asx := { s.dev.asx with returning := s.dev.asx.returning.erase bank } }.fault (0x100 + bank) contained 0x0E)) ∧
  (∀ (s : State) (bank : Nat) (ok : Bool), s.Ready → bank < 128 → s.dev.asx.returning.contains bank = false →
    s.Does (.asxReturnComplete bank ok) s.dev)

/-- LKU_OP_START (R149): with none running, the operation at the queue's head leaves it; one that fails its check ends with its code, and
one that passes runs with its steps; with one running, or none waiting, nothing happens. T2_READ_COMPLETE (R167): the eight bytes of a good read are the walk's next node, and one
that is a leaf ends the walk with a HIT and its result; of an entry that parks no walk nothing happens; a poisoned read ends the walk with an error, counted at its port; a late read that is known is dropped and counted.
T2_DEADLINE (R168): results of tick T + 6 are written over the parked words, a walk that is not done being a miss; with none due nothing
happens. T2_BUF_WRITE_ISSUE and T2_BUF_WRITE_COMPLETE (R169): the oldest write not yet issued goes to its port once no earlier request
stands, and a completed one frees its entry. -/
def Obligations.LookupOperations : Prop :=
  (∀ (s : State) (o : LkuOp) (r : List LkuOp) (c : Nat), s.Ready → s.dev.rd LKU_WR_CTRL.RATE ≠ 0 → s.dev.lku.run = none → s.dev.lku.queue = o :: r →
    s.dev.lkuCheck o = .inl c →
    s.Does .lkuOpStart (({ s.dev with lku := { s.dev.lku with queue := r }, free := s.dev.free + 1 }.lkuDone c).lkuCount)) ∧
  (∀ (s : State) (o : LkuOp) (r : List LkuOp) (st : List LkuStep), s.Ready → s.dev.rd LKU_WR_CTRL.RATE ≠ 0 → s.dev.lku.run = none → s.dev.lku.queue = o :: r →
    s.dev.lkuCheck o = .inr st →
    s.Does .lkuOpStart ({ s.dev with
      lku := { s.dev.lku with queue := r, run := some { op := o, steps := st } }, free := s.dev.free + 1 }.lkuCount)) ∧
  (∀ s : State, s.Ready → s.dev.rd LKU_WR_CTRL.RATE = 0 ∨ s.dev.lku.run ≠ none ∨ s.dev.lku.queue = [] → s.Does .lkuOpStart s.dev) ∧
  (∀ (s : State) (o : LkuOp), o.op = 7 → o.tbl = 0 → o.index < 2097152 → o.rest 2 = false →
    s.dev.lkuCheck o = .inr [.member o.index (BitVec.ofNat 64 (o.num 0 2))]) ∧
  (∀ (s : State) (o : LkuOp), o.op = 9 → o.tbl ≠ 0 → s.dev.lkuCheck o = .inl 0x03) ∧
  (∀ (s : State) (entry ns : Nat) (data : BitVec 64) (poison err : Bool), s.Ready → entry < 4096 →
    SMap.find s.dev.lku.layby entry = none → s.Does (.t2ReadComplete (.walk entry) data poison err ns) s.dev) ∧
  (∀ (s : State) (entry ns : Nat) (data : BitVec 64) (p : Parked) (w : T2Walk), s.Ready → entry < 4096 →
    SMap.find s.dev.lku.layby entry = some p → p.st = .walking w → bits data.toNat 62 2 = 1 →
    let d := s.dev.cxlLat w.port ns
    s.Runs (.t2ReadComplete (.walk entry) data false false ns)
      { d with lku := { d.lku with layby := SMap.ins d.lku.layby entry { p with st := .done (t2Hit p.req.words data.toNat) none } } }) ∧
  (∀ (s : State) (entry ns : Nat) (data : BitVec 64) (p : Parked) (w : T2Walk), s.Ready → entry < 4096 →
    SMap.find s.dev.lku.layby entry = some p → p.st = .walking w →
    let r := (s.dev.cxlLat w.port ns).t2Go p.at_ w.v6 p.req.words w.addr 4 w.used w.reads data.toNat
    s.Runs (.t2ReadComplete (.walk entry) data false false ns)
      { r.2 with lku := { r.2.lku with layby := SMap.ins r.2.lku.layby entry { p with st := r.1 } } }) ∧
  (∀ (s : State) (entry ns : Nat) (data : BitVec 64) (err : Bool) (p : Parked) (w : T2Walk), s.Ready → entry < 4096 →
    SMap.find s.dev.lku.layby entry = some p → p.st = .walking w →
    let d := (s.dev.cxlLat w.port ns).cxlError w.port
    s.Runs (.t2ReadComplete (.walk entry) data true err ns)
      { d with lku := { d.lku with layby := SMap.ins d.lku.layby entry { p with st := t2Err p.req.words 0x02 } } }) ∧
  (∀ (s : State) (port addr ns : Nat) (data : BitVec 64) (poison err : Bool) (w : T2Walk), s.Ready →
    Instr.wf (.t2ReadComplete (.late port addr) data poison err ns) = true →
    s.dev.lku.t2late.find? (fun w => w.port == port && w.rdAddr == addr) = some w →
    s.Does (.t2ReadComplete (.late port addr) data poison err ns)
      ({ s.dev with lku := { s.dev.lku with t2late := s.dev.lku.t2late.erase w } }.bump LKU_T2_LATE.COUNT)) ∧
  (∀ s : State, s.Ready → s.dev.lku.layby = [] → s.Does .t2Deadline s.dev) ∧
  (∀ (s : State) (i : Nat) (p : Parked), s.Ready → s.dev.lku.layby = [(i, p)] → p.landed = false →
    tickReached (tickAdd p.tick 6) s.dev.tck.now = true → s.Runs .t2Deadline (s.dev.t2Land i p)) ∧
  (∀ s : State, s.Ready → s.dev.lku.t2buf = [] → s.Does .t2BufWriteIssue s.dev ∧ s.Does (.t2BufWriteComplete 0 false) s.dev) ∧
  (∀ (s : State) (b : T2Buf) (p : Nat), s.Ready → s.dev.lku.t2buf = [b] → b.issued = false → s.dev.lku.layby = [] →
    s.dev.cxlPort b.addr = some p → s.dev.cxlUp p = true →
    s.Does .t2BufWriteIssue ({ s.dev with lku := { s.dev.lku with t2buf := [{ b with issued := true }] } }.emit
      (.cxlWrite p b.addr (beBytes 8 b.data.toNat)))) ∧
  (∀ (s : State) (b : T2Buf), s.Ready → s.dev.lku.t2buf = [b] → b.issued = true →
    s.dev.cxlPort b.addr = none →
    s.Does (.t2BufWriteComplete 0 false) ({ s.dev with lku := { s.dev.lku with t2buf := [] } }.lkuCount)) ∧
  (∀ (s : State) (b : T2Buf) (p : Nat), s.Ready → s.dev.lku.t2buf = [b] → b.issued = true → s.dev.cxlPort b.addr = some p →
    s.Runs (.t2BufWriteComplete 0 false) ((({ s.dev with lku := { s.dev.lku with t2buf := [] } } : Dev).cxlWritten p false).lkuCount))

/-- CARRIAGE_PLACE (R174, R175): a port with nothing to place, or that has placed in this slot cycle, does nothing; one whose bank has a
free carriage puts it at the end of its chain, at the marking colour, under the pipeline that allocates it, its words freshly written, one
fewer carriage free and one access charged to the running tick. CARRIAGE_READ_RETURN (R176): nothing happens at a port with no read in
flight; one 128 slot cycles old leaves the list and has what asked for it go on (`Dev.readBack`), which is nothing more while a spill has
other reads to wait for. FREE_LIST_REJOIN (R185): every released carriage goes onto its bank's list and into DPT_FREE.
DPT_AUDIT_START_CMD (R193) asks for an audit. AUDIT_START: at a boundary, an audit asked for with none running starts, the colour flipped;
else nothing. AUDIT_APPLY: at a boundary with the sweep done, the headers found and still of the old colour are reclaimed, the tick of the
apply is shown and the phase ends, the tick marked FAULT if any was reclaimed; else nothing. -/
def Obligations.CarriagesAndAudit : Prop :=
  (∀ (s : State) (port : Nat), s.Ready → port < 64 → s.dev.dpt.nextPlace port = none ∨ s.dev.dpt.placed.contains port = true →
    s.Does (.carriagePlace port) s.dev) ∧
  (∀ (s : State) (port row : Nat) (e : Place) (x : Dpt) (c : Chain), s.Ready → port < 64 → s.dev.dpt.nextPlace port = some e →
    s.dev.dpt.placed.contains port = false → s.dev.dpt.pop (writeBank port s.dev.sc) = some (row, x) → s.dev.chain e.chain = some c →
    c.ptrs.length < c.ncar →
    let ptr := row * 128 + writeBank port s.dev.sc
    let y : Dpt := { x with
      place := x.place.erase e, placed := port :: x.placed, mark := SMap.set 0 x.mark ptr (s.dev.rd DPT_AUD_STATUS.COLOUR),
      own := SMap.set 0 x.own ptr e.by_, chains := SMap.ins x.chains e.chain { c with ptrs := c.ptrs ++ [ptr] } }
    let d := ({ s.dev with dpt := y }.wrote 0x200 .carData ptr).wrote 0x200 .carHdr ptr
    s.Runs (.carriagePlace port) ((d.wr DPT_FREE.COUNT (d.rd DPT_FREE.COUNT - 1)).charge d.tck.now 0x20 1)) ∧
  (∀ (s : State) (port : Nat), s.Ready → port < 64 →
    s.dev.dpt.reads.find? (fun x => x.rd.port == port) = none → s.Does (.carriageReadReturn port) s.dev) ∧
  (∀ (s : State) (port : Nat) (x : InFlight), s.Ready → port < 64 → s.dev.dpt.reads.find? (fun x => x.rd.port == port) = some x →
    scReached ((x.at_ + 128) % scMod) s.dev.sc = true →
    s.Runs (.carriageReadReturn port) (({ s.dev with dpt := { s.dev.dpt with reads := s.dev.dpt.reads.erase x } } : Dev).readBack x.rd)) ∧
  (∀ (s : State) (port id : Nat) (x : InFlight), s.Ready → port < 64 → s.dev.dpt.reads.find? (fun x => x.rd.port == port) = some x →
    scReached ((x.at_ + 128) % scMod) s.dev.sc = true → x.rd.why = .spill id →
    ({ s.dev with dpt := { s.dev.dpt with reads := s.dev.dpt.reads.erase x } } : Dev).reading (.spill id) = true →
    s.Does (.carriageReadReturn port) { s.dev with dpt := { s.dev.dpt with reads := s.dev.dpt.reads.erase x } }) ∧
  (∀ s : State, s.Ready → s.Does .freeListRejoin
    ({ s.dev with dpt := { (s.dev.dpt.rejoin ++ s.dev.dpt.rejoinPaid).foldl Dpt.push s.dev.dpt with rejoin := [], rejoinPaid := [] } }.wr
      DPT_FREE.COUNT (s.dev.rd DPT_FREE.COUNT + s.dev.dpt.rejoin.length))) ∧
  (∀ s : State, s.Open → s.Does .dptAuditStartCmd { s.dev with dpt := { s.dev.dpt with audWanted := true } }) ∧
  (∀ s : State, s.Ready → s.dev.dpt.audWanted = true → s.dev.rd DPT_AUD_STATUS.PHASE = 0 → s.dev.tck.slot = 0 →
    s.Does .auditStart ((({ s.dev with dpt := { s.dev.dpt with audWanted := false, audPos := 0, audFound := [] } }.wr
      DPT_AUD_STATUS.COLOUR (1 - s.dev.rd DPT_AUD_STATUS.COLOUR)).wr DPT_AUD_STATUS.PHASE 1).wr DPT_STATUS.AUD_BUSY 1)) ∧
  (∀ s : State, s.Ready → s.dev.dpt.audWanted = false ∨ s.dev.rd DPT_AUD_STATUS.PHASE ≠ 0 ∨ s.dev.tck.slot ≠ 0 →
    s.Does .auditStart s.dev) ∧
  (∀ s : State, s.Ready → s.dev.rd DPT_AUD_STATUS.PHASE ≠ 3 ∨ s.dev.tck.slot ≠ 0 → s.Does .auditApply s.dev) ∧
  (∀ s : State, s.Ready → s.dev.rd DPT_AUD_STATUS.PHASE = 3 → s.dev.tck.slot = 0 →
    let due := s.dev.dpt.audFound.filter (s.dev.oldHeld 0 1048576).contains
    let d := due.foldl Dev.reclaim s.dev
    let e := ((({ d with dpt := { d.dpt with audFound := [] } }.wrTick DPT_AUD_LAST_LO.TICK DPT_AUD_LAST_HI.TICK d.tck.now).wr
      DPT_AUD_STATUS.PHASE 0).wr DPT_STATUS.AUD_BUSY 0)
    s.Runs .auditApply (if due.isEmpty then e else e.markFault e.tck.now))

/-- HBM_COMMAND_ISSUE (R239): nothing issues in a stack that is not AWAKE or has no request that may go; a read's column issues as the
controller chooses it and is counted. HBM_READ_COMPLETE: with no read returning, nothing happens; the oldest returning read leaves its
queue (`Dev.hbmGone`), a pointer wagon's being then done, a record's putting it in the store without an error (R237), and a data wagon's
handing its columns to the refill (R233). HBM_REFRESH (R241): a refresh that falls in a burst of its bank is postponed up to eight, then
splits the burst at its next 256-byte boundary; with no burst, the bank and those postponed are refreshed.
STACK_SR_ENTRY_DONE (R242): after two ticks ENTERING, a stack goes to EXITING if asked for, else to ASLEEP; STACK_SR_EXIT_DONE: after one
tick EXITING it is AWAKE; in any other state neither does anything. STACK_TEMP_READ (R243): a reading of 84 °C to 85 °C, below the warning
threshold, of a stack neither warm nor closed only shows. STACK_TRAINING_DONE (R244): a stack that does not train is left; one that trains
is AWAKE with all its wagons free, or FAILED with none, logging CONTAINED event 0x0E. HBM_CALIBRATION (R245): in the slack cycles, a
pseudo-channel of an AWAKE stack whose period is over is calibrated. -/
def Obligations.Stacks : Prop :=
  (∀ (s : State) (k pc : Nat), s.Ready → k < 8 → pc < 64 → s.dev.rd (YRD_STK_STATUS.STATE k) ≠ stkAwake ∨
    ((s.dev.hbm (64 * k + pc)).split = none ∧ (s.dev.hbm (64 * k + pc)).next = none) → s.Does (.hbmCommandIssue k pc) s.dev) ∧
  (∀ (s : State) (k pc : Nat) (r : HReq), s.Ready → k < 8 → pc < 64 → s.dev.rd (YRD_STK_STATUS.STATE k) = stkAwake →
    (s.dev.hbm (64 * k + pc)).split = none → (s.dev.hbm (64 * k + pc)).next = some r → r.what ≠ .write →
    s.Runs (.hbmCommandIssue k pc) ((s.dev.setHbm (64 * k + pc) ((s.dev.hbm (64 * k + pc)).issue r)).evt 0x32 0x22 (some k))) ∧
  (∀ (s : State) (k pc : Nat), s.Ready → k < 8 → pc < 64 → (s.dev.hbm (64 * k + pc)).returning = [] →
    s.Does (.hbmReadComplete k pc) s.dev) ∧
  (∀ (s : State) (k pc : Nat) (r : HReq), s.Ready → k < 8 → pc < 64 → oldest (s.dev.hbm (64 * k + pc)).returning = some r →
    r.what = .ptrRead → s.Does (.hbmReadComplete k pc) (s.dev.hbmGone k pc r)) ∧
  (∀ (s : State) (k pc q id q' : Nat) (r : HReq) (p : QPkt) (w : Wag), s.Ready → k < 8 → pc < 64 →
    oldest (s.dev.hbm (64 * k + pc)).returning = some r → r.what = .recRead q id → s.dev.findPkt id = some (q', p) → p.wag = some w →
    let x := (s.dev.hbmGone k pc r).hbmWords k .wagRec (r.ptr * 16 + w.recIdx) 24
    x.1 = false →
    s.Runs (.hbmReadComplete k pc) (x.2.setQueue q ((x.2.queue q).setMid (p.setWag { w with inStore := true, recUe := false })))) ∧
  (∀ (s : State) (k pc q id q' c due : Nat) (r : HReq) (p : QPkt) (w : Wag), s.Ready → k < 8 → pc < 64 →
    oldest (s.dev.hbm (64 * k + pc)).returning = some r → r.what = .dataRead q id → s.dev.findPkt id = some (q', p) →
    p.loc = .refill (some c) w due →
    let d := s.dev.hbmGone k pc r
    let e := d.setQueue q ((d.queue q).setMid { p with loc := .refill (some c) { w with toRead := w.toRead.erase r.ptr } due })
    s.Runs (.hbmReadComplete k pc) (e.wagonBack k r.ptr c (e.groupOf q) r.cols)) ∧
  (∀ (s : State) (k pc : Nat) (r : HReq), s.Ready → k < 8 → pc < 64 →
    let h := s.dev.hbm (64 * k + pc)
    (h.reads ++ h.writes).find? (fun r => 0 < r.done && !h.stopped r) = some r →
    refreshRun (hbmNb k) (wBank r.ptr) h.bank (h.credit + 1) = 0 → h.credit < 8 →
    s.Does (.hbmRefresh k pc) (s.dev.setHbm (64 * k + pc) { h with credit := h.credit + 1 })) ∧
  (∀ (s : State) (k pc : Nat) (r : HReq), s.Ready → k < 8 → pc < 64 →
    let h := s.dev.hbm (64 * k + pc)
    (h.reads ++ h.writes).find? (fun r => 0 < r.done && !h.stopped r) = some r →
    refreshRun (hbmNb k) (wBank r.ptr) h.bank (h.credit + 1) = 0 → 8 ≤ h.credit →
    let d := s.dev.setHbm (64 * k + pc)
      { h with split := some { seq := r.seq, stop := min r.cols ((r.done + 3) / 4 * 4), until_ := none } }
    s.Runs (.hbmRefresh k pc) (((d.bump YRD_SPLIT.COUNT).evt 0x32 0x24 (some k)).splitStep k (64 * k + pc))) ∧
  (∀ (s : State) (k pc n : Nat), s.Ready → k < 8 → pc < 64 →
    let h := s.dev.hbm (64 * k + pc)
    (h.reads ++ h.writes).find? (fun r => 0 < r.done && !h.stopped r) = none →
    refreshRun (hbmNb k) (hbmNb k) h.bank (h.credit + 1) = n → n ≠ 0 →
    s.Runs (.hbmRefresh k pc) ((s.dev.evt 0x32 0x23 (some k) n).setHbm (64 * k + pc)
      { h with open_ := h.open_.filter (fun p => !((List.range n).map fun i => (h.bank + i) % hbmNb k).contains (wBank p)),
               bank := (h.bank + n) % hbmNb k, credit := h.credit + 1 - n })) ∧
  (∀ (s : State) (k : Nat), s.Ready → k < 8 → s.dev.rd (YRD_STK_STATUS.STATE k) = stkEntering →
    2 ≤ tickSub s.dev.tck.now (SMap.get 0 s.dev.yrd.since k) →
    (k ∉ s.dev.yrd.exitReq → s.Does (.stackSrEntryDone k) (s.dev.stkGo k stkAsleep)) ∧
    (k ∈ s.dev.yrd.exitReq → s.Does (.stackSrEntryDone k)
      ({ s.dev with yrd := { s.dev.yrd with exitReq := s.dev.yrd.exitReq.filter fun x => x != k } }.stkGo k stkExiting))) ∧
  (∀ (s : State) (k : Nat), s.Ready → k < 8 → s.dev.rd (YRD_STK_STATUS.STATE k) ≠ stkEntering → s.Does (.stackSrEntryDone k) s.dev) ∧
  (∀ (s : State) (k : Nat), s.Ready → k < 8 → s.dev.rd (YRD_STK_STATUS.STATE k) = stkExiting →
    1 ≤ tickSub s.dev.tck.now (SMap.get 0 s.dev.yrd.since k) → s.Runs (.stackSrExitDone k) ((s.dev.stkGo k stkAwake).yrdFlags)) ∧
  (∀ (s : State) (k : Nat), s.Ready → k < 8 → s.dev.rd (YRD_STK_STATUS.STATE k) ≠ stkExiting → s.Does (.stackSrExitDone k) s.dev) ∧
  (∀ (s : State) (k : Nat) (t : Int), s.Ready → k < 8 → 83 < t → t ≤ 85 →
    t < (s.dev.rd YRD_THERM.WARN : Int) → k ∉ s.dev.yrd.warm → s.dev.on (YRD_STK_STATUS.TCLOSE k) = false →
    s.Runs (.stackTempRead k t) (s.dev.wr (YRD_STK_STATUS.TEMP k) t.toNat).yrdFlags) ∧
  (∀ (s : State) (k : Nat) (ok : Bool), s.Ready → k < 8 → s.dev.rd (YRD_STK_STATUS.STATE k) = stkFailed →
    s.Does (.stackTrainingDone k ok) s.dev) ∧
  (∀ (s : State) (k : Nat), s.Ready → k < 8 → s.dev.rd (YRD_STK_STATUS.STATE k) = stkTraining → s.dev.flt.recov = [] →
    let y := { s.dev.yrd with
      built := s.dev.yrd.built ++ [k], free := s.dev.yrd.free.filter (fun p => p.1 / 64 != k),
      credits := s.dev.yrd.credits.filter (fun c => wStack c.2 != k) }
    s.Runs (.stackTrainingDone k true) ((({ s.dev with yrd := y }.wr (YRD_STK_FREE.COUNT k) 0x1800000).stkGo k stkAwake).yrdFlags)) ∧
  (∀ (s : State) (k : Nat), s.Ready → k < 8 → s.dev.rd (YRD_STK_STATUS.STATE k) = stkTraining →
    let y := { s.dev.yrd with built := s.dev.yrd.built.filter (fun x => x != k) }
    s.Runs (.stackTrainingDone k false)
      (((({ s.dev with yrd := y }.wr (YRD_STK_FREE.COUNT k) 0).stkGo k stkFailed).fault (0x220 + k) contained 0x0E).yrdFlags)) ∧
  (∀ (s : State) (k pc : Nat), s.Ready → k < 8 → pc < 64 → s.dev.rd (YRD_STK_STATUS.STATE k) = stkAwake → 504 ≤ s.dev.tck.slot →
    s.dev.rd YRD_CAL.PERIOD ≤ tickSub s.dev.tck.now (SMap.get 0 s.dev.yrd.cal (64 * k + pc)) →
    s.Does (.hbmCalibration k pc)
      { s.dev with yrd := { s.dev.yrd with cal := SMap.set 0 s.dev.yrd.cal (64 * k + pc) s.dev.tck.now } }) ∧
  (∀ (s : State) (k pc : Nat), s.Ready → k < 8 → pc < 64 → s.dev.tck.slot < 504 → s.Does (.hbmCalibration k pc) s.dev)

/-- WAN_DEPARTURE (R251, R252): of a pipeline with no departure due nothing happens; else the first due of its port goes, by instant and
of a 1.6T port the lower pipeline's first: at a masked port it leaves with nothing sent, at a port that is down it is dropped with
reason 0x24, else it is sent. TS_FIFO_POP (R254): the head record leaves the two-step FIFO, and the next one shows. CM_READ, CM_WRITE
(R260): with the mailbox busy nothing happens, else the registers are loaded and the transaction goes. MGMT_BUS_TRANSACTION_DONE (R258):
on an idle controller nothing happens; else the transaction ends, with code 0x02 where its cage is empty (R328), and the next one starts;
the status of a host write is shown. MARGIN_POLL (R261): of a poll that no controller runs nothing happens, a reading that fails is
skipped, and any other is taken into the mean, which WAN_PORT_ST.ESNR shows. WAN_BLOCK_LOCK, WAN_BLOCK_LOCK_LOSS (R256): a lane's lock bit
or a port's marker lock follows, and the port's link conditions are weighed anew. LOCAL_OR_REMOTE_FAULT_RECEIVED (R250): a port that the
cage's mode does not have is left; another is listed, or leaves the list, and its link conditions are weighed anew. -/
def Obligations.WanPorts : Prop :=
  (∀ (s : State) (pipe : Nat), s.Ready → pipe < 64 →
    (∀ x ∈ s.dev.wan.deps, x.pipe = pipe → x.fabric = false → tickReached x.tick s.dev.tck.now = false) →
    s.Does (.wanDeparture pipe) s.dev) ∧
  (∀ (s : State) (pipe : Nat) (x y : Depart), s.Ready → pipe < 64 →
    let due := sortKey (fun x => departKey x s.dev.tck.now)
      (s.dev.wan.deps.filter fun x => !x.fabric && tickReached x.tick s.dev.tck.now)
    due.find? (fun x => x.pipe = pipe) = some y → due.find? (fun x => x.port = y.port) = some x →
    let d := { s.dev with wan := { s.dev.wan with deps := s.dev.wan.deps.erase x } }
    (s.dev.on (WAN_PORT_ST.MASKED x.port) = true → s.Runs (.wanDeparture pipe) (d.release x.chain (0x0140 + x.pipe))) ∧
    (s.dev.on (WAN_PORT_ST.MASKED x.port) = false → s.dev.wanUp x.port = false → s.Runs (.wanDeparture pipe) (d.departDrop x 0x24)) ∧
    (s.dev.on (WAN_PORT_ST.MASKED x.port) = false → s.dev.wanUp x.port = true → s.Runs (.wanDeparture pipe) (d.departSend x))) ∧
  (∀ s : State, s.Open → s.dev.wan.ts.length ≤ 1 → s.Does .tsFifoPop ({ s.dev with wan := { s.dev.wan with ts := [] } }.wrs
    [(WAN_TS_STATUS.COUNT, 0), (WAN_TS_ENT0.VALID, 0), (WAN_TS_ENT0.PORT, 0), (WAN_TS_ENT0.TAG, 0), (WAN_TS_ENT1.NS, 0),
     (WAN_TS_ENT2.SEC, 0), (WAN_TS_ENT3.SEC, 0)])) ∧
  (∀ (s : State) (r q : TsRec) (l : List TsRec), s.Open → s.dev.wan.ts = r :: q :: l →
    s.Does .tsFifoPop ({ s.dev with wan := { s.dev.wan with ts := q :: l } }.wrs
      [(WAN_TS_STATUS.COUNT, l.length + 1), (WAN_TS_ENT0.VALID, 1), (WAN_TS_ENT0.PORT, q.port), (WAN_TS_ENT0.TAG, q.tag),
       (WAN_TS_ENT1.NS, q.ns), (WAN_TS_ENT2.SEC, q.sec), (WAN_TS_ENT3.SEC, q.sec / 2 ^ 32)])) ∧
  (∀ (s : State) (cage page off len bank : Nat) (data : List Byte), s.Open →
    Instr.wf (.cmWrite cage page off len bank data) = true → s.dev.on WAN_CM_STATUS.BUSY = true →
    s.Does (.cmRead cage page off len bank) s.dev ∧ s.Does (.cmWrite cage page off len bank data) s.dev) ∧
  (∀ (s : State) (cage page off len bank : Nat) (data : List Byte), s.Open →
    Instr.wf (.cmWrite cage page off len bank data) = true → s.dev.on WAN_CM_STATUS.BUSY = false →
    s.Runs (.cmRead cage page off len bank) ((s.dev.cmLoad cage page off len bank []).cmGo true false) ∧
    s.Runs (.cmWrite cage page off len bank data) ((s.dev.cmLoad cage page off len bank data).cmGo false true)) ∧
  (∀ (s : State) (c code : Nat) (data : List Byte), s.Ready → c < 8 → code < 256 → s.dev.busQ c = [] →
    s.Does (.mgmtBusTransactionDone c code data) s.dev) ∧
  (∀ (s : State) (c code : Nat) (data : List Byte) (o : BusOp) (l : List BusOp), s.Ready → c < 8 → code < 256 →
    s.dev.busQ c = o :: l →
    (s.dev.modulePresent o.cage = true →
      let r := (s.dev.busEnd o code data).busRun (l ++ o.after code data)
      s.Runs (.mgmtBusTransactionDone c code data) (r.1.setBus c r.2)) ∧
    (s.dev.modulePresent o.cage = false →
      let r := (s.dev.busEnd o 2 data).busRun l
      s.Runs (.mgmtBusTransactionDone c code data) (r.1.setBus c r.2))) ∧
  (∀ (s : State) (c code cage bank page off len : Nat) (data w : List Byte), s.Ready → c < 8 → code < 256 →
    s.dev.busQ c = [.host cage bank page off len (some w)] → s.dev.modulePresent cage = true →
    s.Does (.mgmtBusTransactionDone c code data) ((s.dev.wrs
      [(WAN_CM_STATUS.BUSY, 0), (WAN_CM_STATUS.DONE, 1), (WAN_CM_STATUS.CODE, code),
       (WAN_CM_STATUS.ERR, if code = 0 then s.dev.rd WAN_CM_STATUS.ERR else 1)]).setBus c [])) ∧
  (∀ (s : State) (port : Nat) (r : Option Int) (im : Bool), s.Ready → port < 256 → (s.dev.busQ (port / 32)).head? ≠ some (.poll port) →
    s.Does (.marginPoll port r im) s.dev) ∧
  (∀ (s : State) (port : Nat) (l : List BusOp) (im : Bool), s.Ready → port < 256 → s.dev.busQ (port / 32) = .poll port :: l →
    s.Runs (.marginPoll port none im) (s.dev.busDone (port / 32) 0 [])) ∧
  (∀ (s : State) (port : Nat) (e : Int) (im : Bool), s.Ready → port < 256 → s.dev.busQ (port / 32) = [.poll port] →
    s.dev.modulePresent (port / 8) = true → s.dev.on (WAN_PORT_CFG.MS_EN port) = true → s.dev.wanExists port = true →
    s.Runs (.marginPoll port (some e) im) ((s.dev.setBus (port / 32) []).marginRead port e im)) ∧
  (∀ (s : State) (port : Nat) (e : Int) (im : Bool), s.Ready → port < 256 → s.dev.busQ (port / 32) = [.poll port] →
    s.dev.modulePresent (port / 8) = true → s.dev.on (WAN_PORT_CFG.MS_EN port) = true → s.dev.wanExists port = true →
    s.dev.sess port = none →
    let l := (e :: SMap.get [] s.dev.wan.esnr port).take (2 ^ s.dev.rd WAN_MS_POLL.AVG_LOG2)
    let d := s.dev.setBus (port / 32) []
    let f := { d with wan := { d.wan with esnr := SMap.set [] d.wan.esnr port l } }.wr (WAN_PORT_ST.ESNR port)
      (ofInt 16 (l.sum / (l.length : Int)))
    SMap.find s.dev.wan.since port = none → f.marginSelect port (l.sum / (l.length : Int)) = f.rd (WAN_PORT_ST.ENTRY port) →
    s.Does (.marginPoll port (some e) im) f) ∧
  (∀ (s : State) (lane : Nat), s.Ready → lane < 256 → s.dev.wanMode lane ≠ 0 →
    s.Does (.wanBlockLock 0 lane) ((s.dev.wr (WAN_LANE.LOCK lane) 1).linkNote (s.dev.lanePort lane)) ∧
    s.Does (.wanBlockLockLoss 0 lane) ((s.dev.wr (WAN_LANE.LOCK lane) 0).linkNote (s.dev.lanePort lane))) ∧
  (∀ (s : State) (port : Nat), s.Ready → port < 256 → s.dev.wanMode port ≠ 0 →
    s.Does (.wanBlockLock 1 port) ({ s.dev with wan := { s.dev.wan with
      am := if s.dev.wan.am.contains port then s.dev.wan.am else s.dev.wan.am ++ [port] } }.linkNote port) ∧
    s.Does (.wanBlockLockLoss 1 port) ({ s.dev with wan := { s.dev.wan with
      am := s.dev.wan.am.filter fun x => x != port } }.linkNote port)) ∧
  (∀ (s : State) (port : Nat) (remote p : Bool), s.Ready → port < 256 → s.dev.wanExists port = false →
    s.Does (.localOrRemoteFaultReceived port remote p) s.dev) ∧
  (∀ (s : State) (port : Nat) (remote : Bool), s.Ready → port < 256 → s.dev.wanExists port = true →
    let rest := s.dev.wan.faults.filter fun x => x != 2 * port + b2n remote
    s.Does (.localOrRemoteFaultReceived port remote true)
      ({ s.dev with wan := { s.dev.wan with faults := rest ++ [2 * port + b2n remote] } }.linkNote port) ∧
    s.Does (.localOrRemoteFaultReceived port remote false) ({ s.dev with wan := { s.dev.wan with faults := rest } }.linkNote port))

/-- A bearing message of another punt ring than WAN_BRG_CTRL.PUNT_RING is none of navigator firmware's (R265). One to a port with no
session is counted in WAN_BRG_BAD and nothing else (R266); the end's own events do nothing there. A BEARING_PROPOSE of another major
version is refused with 0x05, one to a port without margin steering with 0x04, one while another port of the cage has a session with 0x02
(R266); one for an entry that differs from this end's is refused with 0x01, one the module cannot carry out with 0x03 (R267), and any
other is accepted, this end leading (R263). Of a session that the message names and has not heard: ACCEPT (R267, R268) makes a proposer
ACCEPTED, staging the application of a retune; DRAIN makes a follower of an adaptive change DRAINED, and gives a retune's leader the
one-way delay; SWITCH makes a follower SWITCHED; CONFIRM lets the leader of an adaptive change restore its ceiling three ticks after the
admission; RESTORE gives the follower the target entry and ends the session; ABORT shows the reason and reverts. BEARING_RESEND (R269): a
message unanswered for RTO ticks goes again, or the session aborts with 0x06. ADAPTIVE_DRAIN, ADAPTIVE_SWITCH (R267): from ACCEPTED, with
the ceiling fallen at Td, DRAIN goes; from DRAINED, GAP ticks after Td, the module is told and SWITCH goes. CEILING_RESTORE: at its tick
the follower's session ends with the target entry. CLEAN_RECEIVE: after CONFIRM ticks clean, CONFIRM goes. RETUNE_FIFO_DRAINED,
RETUNE_APPLY (R268): the leader with an empty FIFO sends SWITCH with its delay, and at its apply tick an end tells its module.
RETUNE_TIMEOUT (R269): a retune not up within MAX ticks aborts with 0x08. -/
def Obligations.Bearings : Prop :=
  (∀ (s : State) (port gap : Nat) (m : BrgMsg) (cap : Bool), s.Ready → port < 256 → m.ring < 64 → 8 ≤ gap →
    m.ring ≠ s.dev.rd WAN_BRG_CTRL.PUNT_RING →
    ∀ c ∈ [Instr.bearingPropose port m cap gap, .bearingAccept port m, .bearingDrain port m, .bearingSwitch port m,
      .bearingConfirm port m, .bearingRestore port m, .bearingAbort port m], s.Does c s.dev) ∧
  (∀ (s : State) (port : Nat) (m : BrgMsg), s.Ready → port < 256 → m.ring < 64 →
    m.ring = s.dev.rd WAN_BRG_CTRL.PUNT_RING → s.dev.sess port = none →
    (∀ c ∈ [Instr.bearingAccept port m, .bearingDrain port m, .bearingSwitch port m, .bearingConfirm port m, .bearingRestore port m,
      .bearingAbort port m], s.Does c (s.dev.bump WAN_BRG_BAD.COUNT)) ∧
    (∀ c ∈ [Instr.bearingResend port, .adaptiveDrain port, .adaptiveSwitch port, .ceilingRestore port, .cleanReceive port,
      .retuneFifoDrained port, .retuneApply port, .retuneTimeout port], s.Does c s.dev)) ∧
  (∀ (s : State) (port gap : Nat) (m : BrgMsg) (cap : Bool), s.Ready → port < 256 → m.ring < 64 → 8 ≤ gap →
    m.ring = s.dev.rd WAN_BRG_CTRL.PUNT_RING →
    (m.ver / 16 ≠ 1 → s.Runs (.bearingPropose port m cap gap) (s.dev.brgRefuse port m 0x05)) ∧
    (m.ver / 16 = 1 → s.dev.on (WAN_PORT_CFG.MS_EN port) = false →
      s.Runs (.bearingPropose port m cap gap) (s.dev.brgRefuse port m 0x04)) ∧
    (∀ i, m.ver / 16 = 1 → s.dev.on (WAN_PORT_CFG.MS_EN port) = true → s.dev.sess port = none → i < 8 →
      8 * (port / 8) + i ≠ port → (s.dev.sess (8 * (port / 8) + i)).isSome = true →
      s.Runs (.bearingPropose port m cap gap) (s.dev.brgRefuse port m 0x02)) ∧
    (m.ver / 16 = 1 → s.dev.on (WAN_PORT_CFG.MS_EN port) = true → (∀ i < 8, s.dev.sess (8 * (port / 8) + i) = none) →
      let v := s.dev.mtEntry (s.dev.prof port) m.entry
      (mtValid v = false ∨ mtCeil v ≠ m.ceil ∨ mtApp v ≠ m.appsel →
        s.Runs (.bearingPropose port m cap gap) (s.dev.brgRefuse port m 0x01)) ∧
      (mtValid v = true → mtCeil v = m.ceil → mtApp v = m.appsel →
        s.Runs (.bearingPropose port m false gap) (s.dev.brgRefuse port m 0x03) ∧
        s.Runs (.bearingPropose port m true gap) (s.dev.brgAccept port m gap)))) ∧
  (∀ (s : State) (port : Nat) (m : BrgMsg) (x : Sess), s.Ready → port < 256 → m.ring < 64 →
    m.ring = s.dev.rd WAN_BRG_CTRL.PUNT_RING → s.dev.sess port = some x → m.session = x.id →
    1 ≤ m.subtype → m.subtype ≤ 7 → x.heard.contains m.seq = false →
    let y : Sess := { x with heard := x.heard ++ [m.seq] }
    let d := s.dev.setSess port y
    (s.dev.msState port = msProposed → s.dev.msRetune port = false →
      s.Does (.bearingAccept port m) (d.wr (WAN_MS_ST.STATE port) msAccepted)) ∧
    (s.dev.msState port = msProposed → s.dev.msRetune port = true →
      s.Runs (.bearingAccept port m) ((d.busAdd (.steer port 0 x.newApp)).wr (WAN_MS_ST.STATE port) msAccepted)) ∧
    (s.dev.msLeads port = false → s.dev.msRetune port = false →
      s.Does (.bearingDrain port m) (d.wr (WAN_MS_ST.STATE port) msDrained) ∧
      s.Runs (.bearingSwitch port m) ((d.wr (WAN_MS_ST.STATE port) (max msSwitched (s.dev.msState port))).setSess port
        { y with switch_ := some m.adm }) ∧
      s.Runs (.bearingRestore port m) ((d.wr (WAN_PORT_ST.ENTRY port) (d.rd (WAN_MS_ST.TARGET port))).sessEnd port)) ∧
    (s.dev.msLeads port = true → s.dev.msRetune port = true →
      s.Does (.bearingDrain port m) (d.setSess port { y with owd2 := some (tickSub m.adm x.drain - m.delay) })) ∧
    (s.dev.msLeads port = true → s.dev.msRetune port = false →
      s.Runs (.bearingConfirm port m) ((d.setSess port { y with peerConfirm := true }).startRestore port m.adm)) ∧
    s.Runs (.bearingAbort port m) ((d.wr (WAN_MS_ST.REASON port) m.reason).sessRevert port false)) ∧
  (∀ (s : State) (port : Nat) (x : Sess), s.Ready → port < 256 → s.dev.sess port = some x →
    (s.dev.msWaits port x = true → x.last ≠ [] → s.dev.rd WAN_MS_TIMER.RTO ≤ tickSub s.dev.tck.now x.lastTick →
      x.tries < s.dev.rd WAN_MS_TIMER.RETRY →
      s.Runs (.bearingResend port)
        ((s.dev.setSess port { x with tries := x.tries + 1, lastTick := s.dev.tck.now }).navInject port x.last)) ∧
    (s.dev.msWaits port x = true → x.last ≠ [] → s.dev.rd WAN_MS_TIMER.RTO ≤ tickSub s.dev.tck.now x.lastTick →
      s.dev.rd WAN_MS_TIMER.RETRY ≤ x.tries → s.Runs (.bearingResend port) (s.dev.sessAbort port 0x06)) ∧
    (s.dev.msLeads port = true → s.dev.msState port = msAccepted → x.fell = true → tickReached x.td s.dev.tck.now = true →
      s.Runs (.adaptiveDrain port) (((s.dev.setSess port { x with drain := s.dev.tck.now }).wr
        (WAN_MS_ST.STATE port) msDrained).brgSend port 0x03 0 0)) ∧
    (s.dev.msLeads port = true → s.dev.msRetune port = false → s.dev.msState port = msDrained →
      s.dev.rd WAN_MS_TIMER2.GAP ≤ tickSub s.dev.tck.now x.td →
      s.Runs (.adaptiveSwitch port)
        (((s.dev.busAdd (.steer port 1 x.newApp)).wr (WAN_MS_ST.STATE port) msSwitched).brgSend port 0x04 0 0)) ∧
    (∀ t, s.dev.msLeads port = false → x.restore = some t → tickReached t s.dev.tck.now = true →
      s.Runs (.ceilingRestore port) ((s.dev.wr (WAN_PORT_ST.ENTRY port) (s.dev.rd (WAN_MS_ST.TARGET port))).sessEnd port)) ∧
    (∀ t, s.dev.msLeads port = true → x.restore = some t → tickReached t s.dev.tck.now = true →
      let d := s.dev.brgSend port 0x06 0 (tickSub s.dev.tck.now t + 3)
      s.Runs (.ceilingRestore port) ((d.wr (WAN_PORT_ST.ENTRY port) (d.rd (WAN_MS_ST.TARGET port))).sessEnd port)) ∧
    (∀ t, s.dev.msLeads port = false → s.dev.msRetune port = false → x.switch_ = some t → x.ownClean = false →
      s.dev.msState port = msSwitched → s.dev.cleanSince port t = true →
      s.Runs (.cleanReceive port) (((s.dev.setSess port { x with ownClean := true }).brgSend port 0x05 0
        (tickSub s.dev.tck.now t)).wr (WAN_MS_ST.STATE port) msConfirmed)) ∧
    (∀ o, s.dev.msLeads port = true → s.dev.msRetune port = true → s.dev.msState port = msDrained → x.owd2 = some o →
      s.dev.fifoEmpty port = true →
      let dly := s.dev.rd WAN_MS_RETUNE.SWDLY
      s.Runs (.retuneFifoDrained port) (((s.dev.setSess port
        { x with apply_ := some (tickAdd s.dev.tck.now (4 + ceilDiv o 2 + dly)) }).wr (WAN_MS_ST.STATE port) msSwitched).brgSend
          port 0x04 0 dly)) ∧
    (∀ t, s.dev.msRetune port = true → x.applied = none → x.apply_ = some t → tickReached t s.dev.tck.now = true →
      s.Runs (.retuneApply port) (((s.dev.setSess port { x with applied := some s.dev.tck.now, apply_ := none }).wr
        (WAN_MS_ST.STATE port) msSwitched).busAdd (.steer port 2 x.newApp))) ∧
    (∀ t, x.applied = some t → s.dev.rd WAN_MS_RETUNE.MAX ≤ tickSub s.dev.tck.now t → s.dev.on (WAN_PORT_ST.LINK port) = false →
      s.dev.msState port ≠ msReverting → s.Runs (.retuneTimeout port) (s.dev.sessAbort port 0x08)))

/-- A STANDALONE device's interface is not powered, and what would come over it does nothing (R272). FABRIC_DEPARTURE (R277): of a
pipeline with no fabric departure due nothing happens; at a virtual port with no path or no grant the packet is dropped with 0x26, one
beyond the group's FIFO with 0x27, and any other is sent as cells. FABRIC_CODEWORD_RECEIVE (R273): an uncorrectable codeword, or one with
bad header parity, is counted, marks its lane and takes the cell in progress; another's cells are walked, from PTR where no cell is in
progress. FABRIC_DATA_CELL (R275, R280): a cell that fails its checks is counted; one of a tick whose release has begun loses its packet;
one that is held already changes nothing; one with no free carriage is counted; any other takes a carriage of the pool and joins the cells
of its packet. FABRIC_XOFF, XON, UNREACH, REACH (R278): the device's grant or reach is noted for the next boundary. FABRIC_PROBE (R284):
not probing, nothing happens; probing, the lane keeps its largest difference and shows it in ns. FABRIC_LSTAT (R283): FAR_GOOD shows, and
the lane notes what it heard and when. FABRIC_CODEWORD_LOCK and FABRIC_CODEWORD_LOCK_LOSS (R273, R283): RXLOCK follows, and a loss marks
the lane bad. -/
def Obligations.FabricCells : Prop :=
  (∀ (s : State) (lane arr arg dev hdr : Nat) (good : Bool) (bs st : List Byte), s.Ready → s.dev.fabPowered = false → lane < 320 →
    dev < 1024 → hdr < 1048576 → st.length = 640 →
    ∀ c ∈ [Instr.fabricCodewordReceive lane good hdr st arr, .fabricDataCell bs, .fabricXoff dev, .fabricXon dev, .fabricUnreach dev,
      .fabricReach dev, .fabricProbe lane arr arg, .fabricLstat lane good, .fabricProbeDone, .fabricCodewordLock lane,
      .fabricCodewordLockLoss lane], s.Does c s.dev) ∧
  (∀ (s : State) (pipe : Nat), s.Ready → pipe < 64 →
    (s.dev.wan.deps.filter fun x => x.pipe = pipe && x.fabric && tickReached x.tick s.dev.tck.now) = [] →
    s.Does (.fabricDeparture pipe) s.dev) ∧
  (∀ (s : State) (pipe : Nat) (x : Depart) (l : List Depart), s.Ready → pipe < 64 →
    sortKey (fun x => departKey x s.dev.tck.now)
      (s.dev.wan.deps.filter fun x => x.pipe = pipe && x.fabric && tickReached x.tick s.dev.tck.now) = x :: l →
    let d := { s.dev with wan := { s.dev.wan with deps := s.dev.wan.deps.erase x } }
    let queued := (SMap.get [] s.dev.fab.fifo x.pipe).filter fun e => !instReached e.1 (slotInstant x.tick x.slot)
    let cells := (List.range (ceilDiv x.bytes.length 256)).map fun k => cellLen (min 256 (x.bytes.length - 256 * k))
    ((d.fabUp x.pipe x.port && d.fabGranted x.pipe x.port) = false → s.Runs (.fabricDeparture pipe) (d.fabDrop x 0x26)) ∧
    ((d.fabUp x.pipe x.port && d.fabGranted x.pipe x.port) = true → 131072 < (queued.map Prod.snd).sum + cells.sum →
      s.Runs (.fabricDeparture pipe) (d.fabDrop x 0x27)) ∧
    s.Runs (.fabricDeparture pipe) (d.fabDepart x)) ∧
  (∀ (s : State) (lane hdr arr : Nat) (good : Bool) (st : List Byte), s.Ready → s.dev.fabPowered = true → lane < 320 → hdr < 1048576 →
    st.length = 640 →
    let d := { s.dev with fab := { s.dev.fab with part := SMap.erase s.dev.fab.part lane } }
    (good = false ∨ popcount 20 hdr % 2 ≠ 0 → s.Does (.fabricCodewordReceive lane good hdr st arr)
      ((d.bump FAB_CW_UNCORR.COUNT).setFabLane lane { s.dev.fabLane lane with dirty := true })) ∧
    (∀ bs, good = true → popcount 20 hdr % 2 = 0 → SMap.find s.dev.fab.part lane = some bs →
      s.Runs (.fabricCodewordReceive lane good hdr st arr) (d.cellWalk lane arr 240 (bs ++ st))) ∧
    (good = true → popcount 20 hdr % 2 = 0 → SMap.find s.dev.fab.part lane = none → bits hdr 1 10 < 640 →
      s.Runs (.fabricCodewordReceive lane good hdr st arr) (d.cellWalk lane arr 240 (st.drop (bits hdr 1 10)))) ∧
    (good = true → popcount 20 hdr % 2 = 0 → SMap.find s.dev.fab.part lane = none → 640 ≤ bits hdr 1 10 →
      s.Does (.fabricCodewordReceive lane good hdr st arr) d)) ∧
  (∀ (s : State) (bs : List Byte), s.Ready → s.dev.fabPowered = true → cellParse bs = none →
    s.Does (.fabricDataCell bs) (s.dev.bump FAB_CELL_BAD.COUNT)) ∧
  (∀ (s : State) (bs : List Byte) (h : CellHdr) (payload : List Byte), s.Ready → s.dev.fabPowered = true → cellParse bs = some (h, payload) →
    let d := s.dev.evt 0x33 0x21 (some h.dpipe)
    let t := departTick d.tck.now h.stick
    let late := tickReached (tickAdd t (d.rd FAB_HOP.L)) d.tck.now = true
    let held := (d.fab.gathers.any fun g => g.owns h t && g.cells.any fun x => x.cidx == h.cidx) = true
    (d.on FAB_CTRL.EN = false ∨ d.on FAB_STATUS.UP = false → s.Runs (.fabricDataCell bs) d) ∧
    (d.on FAB_CTRL.EN = true → d.on FAB_STATUS.UP = true →
      (late → s.Runs (.fabricDataCell bs) (d.fabLost (tickAdd t (d.rd FAB_HOP.L)))) ∧
      (¬ late → held → s.Runs (.fabricDataCell bs) d) ∧
      (¬ late → ¬ held → d.fab.free = [] → s.Runs (.fabricDataCell bs) (d.bump FAB_NOSTAGE.COUNT)) ∧
      (∀ ptr rest, ¬ late → ¬ held → d.fab.free = ptr :: rest →
        let c : FabCell := { cidx := h.cidx, last := h.last, err := h.err, plen := h.plen, dpipe := h.dpipe, payload, ptr }
        let e := { d with fab := { d.fab with gathers := gatherCell d.fab.gathers h t c, free := rest } }
        s.Runs (.fabricDataCell bs) ((e.wrote 0x200 .carData ptr).charge d.tck.now 0x20 1)))) ∧
  (∀ (s : State) (dev : Nat), s.Ready → s.dev.fabPowered = true → dev < 1024 →
    s.Does (.fabricXoff dev) { s.dev with fab := { s.dev.fab with grant := SMap.ins s.dev.fab.grant dev false } } ∧
    s.Does (.fabricXon dev) { s.dev with fab := { s.dev.fab with grant := SMap.ins s.dev.fab.grant dev true } } ∧
    s.Does (.fabricUnreach dev) { s.dev with fab := { s.dev.fab with reach := SMap.ins s.dev.fab.reach dev false } } ∧
    s.Does (.fabricReach dev) { s.dev with fab := { s.dev.fab with reach := SMap.ins s.dev.fab.reach dev true } }) ∧
  (∀ (s : State) (lane arr arg : Nat), s.Ready → s.dev.fabPowered = true → lane < 320 →
    s.dev.fab.probing = none → s.Does (.fabricProbe lane arr arg) s.dev) ∧
  (∀ (s : State) (lane arr arg : Nat), s.Ready → s.dev.fabPowered = true → lane < 320 →
    s.dev.fab.probing ≠ none →
    let p := max (SMap.get 0 s.dev.fab.probe lane) ((arr + tickTimeMod - arg % tickTimeMod) % tickTimeMod)
    s.Does (.fabricProbe lane arr arg)
      ({ s.dev with fab := { s.dev.fab with probe := SMap.set 0 s.dev.fab.probe lane p } }.wr (FAB_LANE.PROP lane) (min 2047 (p / 4)))) ∧
  (∀ (s : State) (lane : Nat) (good : Bool), s.Ready → s.dev.fabPowered = true → lane < 320 →
    let l := s.dev.fabLane lane
    s.Does (.fabricLstat lane good) ((s.dev.wr (FAB_LANE.FAR_GOOD lane) (b2n good)).setFabLane lane
      { l with last := s.dev.tck.now, goodNow := l.goodNow || good, badNow := l.badNow || !good })) ∧
  (∀ (s : State) (lane : Nat), s.Ready → s.dev.fabPowered = true → lane < 320 →
    let d := { s.dev.wr (FAB_LANE.RXLOCK lane) 0 with fab := { s.dev.fab with part := SMap.erase s.dev.fab.part lane } }
    s.Does (.fabricCodewordLock lane) (s.dev.wr (FAB_LANE.RXLOCK lane) 1) ∧
    (SMap.find s.dev.fab.lanes lane = none → s.Does (.fabricCodewordLockLoss lane) d) ∧
    (∀ l, SMap.find s.dev.fab.lanes lane = some l → s.Does (.fabricCodewordLockLoss lane)
      (d.setFabLane lane { l with badNow := true, run := 0 })))

/-- FABRIC_ENABLE (R284): with EN 0, or the interface enabled already, nothing happens; without LOCKED it sets HOP_ERR; with LOCKED the
pool is allocated, and a back-to-back device begins to probe, a fabric device with no hop allowance sets HOP_ERR, and one with an
allowance starts with it in force. FABRIC_PROBE_DONE: before 256 ticks of probing nothing happens; then the allowance is the largest
propagation with the link's own 1,072 ns in ticks, from 1 to 8, else HOP_ERR. FABRIC_DISABLE (R286): with EN 1, or not enabled, nothing
happens; else cells stop, the pool's carriages return under source 257 unless their holder is revoked (R192), what was gathered is
discarded and the interface is down. -/
def Obligations.FabricStartStop : Prop :=
  (∀ s : State, s.Ready → s.dev.on FAB_CTRL.EN = false ∨ s.dev.fab.en = true → s.Does .fabricEnable s.dev) ∧
  (∀ s : State, s.Ready → s.dev.on FAB_CTRL.EN = true → s.dev.fab.en = false → s.dev.on TCK_STATUS.LOCKED = false →
    s.Does .fabricEnable ({ s.dev with fab := { s.dev.fab with en := true } }.wr FAB_STATUS.HOP_ERR 1)) ∧
  (∀ s : State, s.Ready → s.dev.on FAB_CTRL.EN = true → s.dev.fab.en = false → s.dev.on TCK_STATUS.LOCKED = true →
    let d := { s.dev with fab := { s.dev.fab with en := true } }.fabPool
    (d.rd GLB_BOOT_STATUS.MODE = 1 →
      s.Runs .fabricEnable { d with fab := { d.fab with probing := some d.tck.now, probe := [] } }) ∧
    (d.rd GLB_BOOT_STATUS.MODE ≠ 1 → d.rd FAB_HOP.TICKS = 0 → s.Runs .fabricEnable (d.wr FAB_STATUS.HOP_ERR 1)) ∧
    (d.rd GLB_BOOT_STATUS.MODE ≠ 1 → d.rd FAB_HOP.TICKS ≠ 0 → s.Runs .fabricEnable (d.fabStart (d.rd FAB_HOP.TICKS)))) ∧
  (∀ s : State, s.Ready → s.dev.on FAB_CTRL.EN = true → s.dev.fab.en = false → s.dev.on TCK_STATUS.LOCKED = true →
    s.dev.isRevoked 0x0411 = true → s.dev.rd GLB_BOOT_STATUS.MODE ≠ 1 → s.dev.rd FAB_HOP.TICKS ≠ 0 →
    s.Does .fabricEnable { (s.dev.wr FAB_HOP.L (s.dev.rd FAB_HOP.TICKS)).wr FAB_STATUS.UP 1 with fab := { s.dev.fab with
      en := true, probing := none } }) ∧
  (∀ s : State, s.Ready → s.dev.fab.probing = none → s.Does .fabricProbeDone s.dev) ∧
  (∀ (s : State) (t : Nat), s.Ready → s.dev.fab.probing = some t → tickSub s.dev.tck.now t < 256 → s.Does .fabricProbeDone s.dev) ∧
  (∀ (s : State) (t : Nat), s.Ready → s.dev.fabPowered = true → s.dev.fab.probing = some t → 256 ≤ tickSub s.dev.tck.now t →
    let p := s.dev.fab.probe.foldl (fun a x => max a x.2) 0
    let l := max 1 (ceilDiv (4288 + p) 1536)
    (l ≤ 8 → s.Does .fabricProbeDone
      { (s.dev.wr FAB_HOP.L l).wr FAB_STATUS.UP 1 with fab := { s.dev.fab with probing := none } }) ∧
    (8 < l → s.Does .fabricProbeDone ({ s.dev with fab := { s.dev.fab with probing := none } }.wr FAB_STATUS.HOP_ERR 1))) ∧
  (∀ s : State, s.Ready → s.dev.on FAB_CTRL.EN = true ∨ s.dev.fab.en = false → s.Does .fabricDisable s.dev) ∧
  (∀ s : State, s.Ready → s.dev.on FAB_CTRL.EN = false → s.dev.fab.en = true →
    let d := (s.dev.emit (.fabStop (slotInstant s.dev.tck.now 0))).fabPoolBack
    let e := { d with fab := { d.fab with
      en := false, probing := none, probe := [], gathers := [], released := [], fifo := [], tails := [], sent := [] } }
    let chains := s.dev.fab.tails.map (fun t => t.x.chain) ++ s.dev.fab.sent.map fun e => e.2.1
    let f := chains.foldl (fun (d : Dev) c => d.release c 0x0410) e
    s.Runs .fabricDisable ((f.wr FAB_HOP.L 0).wrs [(FAB_STATUS.UP, 0), (FAB_STATUS.XOFF_SENT, 0)])) ∧
  (∀ d : Dev, d.isRevoked 0x0411 = false → d.fabPoolBack.fab.pool = [] ∧
    d.fabPoolBack.dpt.rejoin = d.dpt.rejoin ++ d.fab.pool ∧ d.fabPoolBack.dpt.credit = d.dpt.credit ++ [(257, d.fab.pool.length)])

/-- ENERGY_WINDOW_LATCH (R294): at the first tick after a window the measured energy is latched, the modelled sum waits for the last
tick's settlement, and a new window begins; at any other tick nothing happens. SAG_WARNING, SAG_DEEP (R297, R298): a reading below the
warning level takes a die at full clock to 7/8 (to 3/4 where that level stands at the deep one), one below the deep level takes it to 3/4,
the episode beginning with the running tick; a die stretched so far already stays, and a reading not above its level restarts the count
of clean cycles (R299). SAG_RETURN (R299, R300): before 256 clean cycles, or with a reading not above the level and HYST, the clock stays;
then it goes from 3/4 to 7/8, or from 7/8 to full, the episode recorded; at full clock nothing happens. -/
def Obligations.EnergyAndSag : Prop :=
  (∀ (s : State) (m : Nat), s.Ready → s.dev.tck.now % s.dev.winTicks ≠ 0 → s.Does (.energyWindowLatch m) s.dev) ∧
  (∀ (s : State) (m : Nat), s.Ready → s.dev.tck.now % s.dev.winTicks = 0 → s.dev.nrg.closing = none →
    s.Does (.energyWindowLatch m) { s.dev.wrTick NRG_MEAS_LO.EU NRG_MEAS_HI.EU m with nrg := { s.dev.nrg with
      closing := some s.dev.nrg.modelSum, modelSum := 0, winStart := s.dev.tck.now } }) ∧
  (∀ (s : State) (die low : Nat), s.Ready → die < 2 → (s.dev.sag die).level = 0 → under (s.dev.sag die).base s.dev.warnBelow low = true →
    s.Runs (.sagWarning die low) (s.dev.sagTo die (if 10 ≤ s.dev.rd NRG_SAG_CTRL.WARN then 2 else 1))) ∧
  (∀ (s : State) (die low : Nat), s.Ready → die < 2 → (s.dev.sag die).level = 0 → under (s.dev.sag die).base s.dev.warnBelow low = false →
    s.Does (.sagWarning die low) s.dev) ∧
  (∀ (s : State) (die low : Nat), s.Ready → die < 2 → (s.dev.sag die).level < 2 → under (s.dev.sag die).base deepBelow low = true →
    s.Runs (.sagDeep die low) (s.dev.sagTo die 2)) ∧
  (∀ (s : State) (die low : Nat), s.Ready → die < 2 → (s.dev.sag die).level = 2 →
    above (s.dev.sag die).base (deepBelow - s.dev.sagHyst) low = false →
    ∀ c ∈ [Instr.sagWarning die low, .sagDeep die low, .sagReturn die low],
      s.Does c (s.dev.setSag die { s.dev.sag die with clean := 0 })) ∧
  (∀ (s : State) (die low : Nat), s.Ready → die < 2 → (s.dev.sag die).level = 2 → 256 ≤ (s.dev.sag die).clean →
    above (s.dev.sag die).base (deepBelow - s.dev.sagHyst) low = true → s.Runs (.sagReturn die low) (s.dev.sagTo die 1)) ∧
  (∀ (s : State) (die low : Nat), s.Ready → die < 2 → (s.dev.sag die).level = 1 → 256 ≤ (s.dev.sag die).clean →
    above (s.dev.sag die).base (s.dev.warnBelow - s.dev.sagHyst) low = true → s.Runs (.sagReturn die low)
      (((s.dev.setSag die { s.dev.sag die with level := 0, deepest := 0, edges := 0, clean := 0 }).sagViews).sagEnd die (s.dev.sag die))) ∧
  (∀ (s : State) (die low : Nat), s.Ready → die < 2 → (s.dev.sag die).level = 0 ∨ (s.dev.sag die).clean < 256 ∧
    above (s.dev.sag die).base (s.dev.sagBelow die - s.dev.sagHyst) low = true → s.Does (.sagReturn die low) s.dev) ∧
  (∀ (d : Dev) (die level : Nat), (d.sag die).level = 0 → die < 2 →
    ((d.sagTo die level).sag die).level = level ∧ ((d.sagTo die level).sag die).onset = d.tck.now ∧
    ((d.sagTo die level).sag die).cycles = 0 ∧ (d.sagTo die level).sag (1 - die) = d.sag (1 - die))

/-- PUNT_HANDOFF (R311): with no punt due nothing happens; else the earliest leaves the hand-offs, and its record waits in the ring's
queue where the ring is served and has room. PUNT_WRITE (R308 to R312): with no record or no descriptor read of that ring, nothing happens;
a descriptor that is not valid puts the ring into ERROR 0x05; a valid one is written with the record and the frame, its write-back follows
and HEAD counts up. PUNT_WAIT_EXPIRE: a record older than PUNT_WAIT ticks is dropped and counted, a younger one stays. PUNT_DOORBELL,
INJECT_DOORBELL (R309, R317): TAIL takes the value; a ring that does not run does no more; one posted beyond its size goes into ERROR 0x06;
one that runs fetches. INJECT_DESCRIPTOR_FETCHED, INJECT_FRAME_STAGED (R313, R316, R319): a tag with no read is unexpected, counted and
reported; of a discarded read the tag is freed and no more; a valid descriptor waits in its place, an invalid one puts the ring into ERROR
0x05, one of a ring not served is dropped; a frame's bytes join the frame that asked for them, and a whole frame is staged. RING_ARM,
RING_DISABLE (R317): the CFG fields take the value, and the ring discards and arms, or a running one is disabled. RING_ARM_COMPLETE: with a
read outstanding, or not arming, nothing happens; else HEAD, TAIL and the error are 0, the state is RUN or DISABLED, and a punt ring's
phase is 1. -/
def Obligations.PuntAndInjectRings : Prop :=
  (∀ s : State, s.Ready → (s.dev.hst.punts.find? fun p => tickReached p.due s.dev.tck.now) = none → s.Does .puntHandoff s.dev) ∧
  (∀ (s : State) (p : Punt), s.Ready → (s.dev.hst.punts.find? fun p => tickReached p.due s.dev.tck.now) = some p →
    s.Runs .puntHandoff s.dev.puntHandoff ∧ (s.dev.puntHandoff).hst.punts = s.dev.hst.punts.erase p ∧
    (s.dev.served p.ring = false → (s.dev.puntHandoff).hst.recs = s.dev.hst.recs) ∧
    (s.dev.served p.ring = true → (s.dev.hst.recs.map PuntRec.cells).sum + carriages p.bytes.length ≤ 8192 →
      (s.dev.hst.recs.filter fun y => y.ring == p.ring).length < 256 →
      (s.dev.puntHandoff).hst.recs = s.dev.hst.recs ++ [PuntRec.mk p.ring s.dev.hst.nextPunt p.due p.egress p.m p.bytes p.chain false
        (s.dev.terr p.chain)])) ∧
  (∀ (s : State) (r addr ctl : Nat), s.Ready → r < 64 → (s.dev.hst.recs.find? (fun x => x.ring == r)) = none →
    s.Does (.puntWrite r addr ctl) s.dev) ∧
  (∀ (s : State) (r addr ctl tag : Nat) (x : PuntRec) (h : HostRd), s.Ready → r < 64 →
    s.dev.hst.recs.find? (fun x => x.ring == r) = some x →
    s.dev.hst.reads.find? (fun p => p.2.ring == r && !p.2.stale) = some (tag, h) →
    s.dev.served r = true → s.dev.posted r ≠ 0 → x.done = true → puntDescOk addr ctl = false →
    s.Runs (.puntWrite r addr ctl) ((s.dev.endRead tag).ringFail r 0x05)) ∧
  (∀ (s : State) (r addr ctl tag : Nat) (x : PuntRec) (h : HostRd), s.Ready → r < 64 →
    s.dev.hst.recs.find? (fun x => x.ring == r) = some x →
    s.dev.hst.reads.find? (fun p => p.2.ring == r && !p.2.stale) = some (tag, h) →
    s.dev.served r = true → s.dev.posted r ≠ 0 → x.done = true → puntDescOk addr ctl = true →
    x.bytes.length ≤ bits ctl 0 17 - 128 → (s.dev.rd (rHead r) + 1) % s.dev.ringSize r ≠ 0 →
    let wb := s.dev.rd (HST_PUNT_STATE.PHASE r) * 2 ^ 31 + b2n x.terr * 2 ^ 29 + (128 + x.bytes.length)
    let d := (s.dev.endRead tag).hostWrite 1 addr (s.dev.puntRecord x false ++ x.bytes)
    let e := (d.hostWrite 1 (s.dev.ringBase r + 16 * (s.dev.rd (rHead r) % s.dev.ringSize r) + 12) (beBytes 4 wb)).wr (rHead r)
      (s.dev.rd (rHead r) + 1)
    let f := { e with hst := { e.hst with recs := e.hst.recs.erase x, wrote := r :: e.hst.wrote.filter (· != r) } }
    s.Runs (.puntWrite r addr ctl) (((f.bump (HST_PUNT_PUNT.COUNT r)).evt 0x26 0x20 (some r)).puntFetch r)) ∧
  (∀ (s : State) (r : Nat) (x : PuntRec), s.Ready → r < 64 → s.dev.hst.recs.find? (fun x => x.ring == r) = some x →
    (s.dev.rd HST_CTRL.PUNT_WAIT < tickSub s.dev.tck.now x.tick → s.Does (.puntWaitExpire r)
      ({ s.dev with hst := { s.dev.hst with recs := s.dev.hst.recs.erase x } }.bump (HST_PUNT_DROP.COUNT r))) ∧
    (tickSub s.dev.tck.now x.tick ≤ s.dev.rd HST_CTRL.PUNT_WAIT → s.Does (.puntWaitExpire r) s.dev)) ∧
  (∀ (s : State) (r tail : Nat), s.Open → r < 64 → tail < 65536 →
    (s.dev.rd (HST_PUNT_STATE.STATE r) ≠ ringRun → s.Does (.puntDoorbell r tail) (s.dev.wr (HST_PUNT_TAIL.COUNT r) tail)) ∧
    (s.dev.rd (HST_PUNT_STATE.STATE r) = ringRun →
      let d := s.dev.wr (HST_PUNT_TAIL.COUNT r) tail
      (d.ringSize r < d.posted r → s.Runs (.puntDoorbell r tail) (d.ringFail r 0x06)) ∧
      (d.posted r ≤ d.ringSize r → s.Runs (.puntDoorbell r tail) (d.puntFetch r)))) ∧
  (∀ (s : State) (n tail : Nat), s.Open → n < 16 → tail < 65536 →
    (s.dev.rd (HST_INJ_STATE.STATE n) ≠ ringRun → s.Does (.injectDoorbell n tail) (s.dev.wr (HST_INJ_TAIL.COUNT n) tail)) ∧
    (s.dev.rd (HST_INJ_STATE.STATE n) = ringRun →
      let d := s.dev.wr (HST_INJ_TAIL.COUNT n) tail
      (d.ringSize (64 + n) < d.posted (64 + n) → s.Runs (.injectDoorbell n tail) (d.ringFail (64 + n) 0x06)) ∧
      (d.posted (64 + n) ≤ d.ringSize (64 + n) → s.Runs (.injectDoorbell n tail) d.injFetchAll))) ∧
  (∀ (s : State) (tag : Nat) (bs : List Byte), s.Ready → tag < 16384 → SMap.find s.dev.hst.reads tag = none →
    (bs.length = 32 → s.Does (.injectDescriptorFetched tag bs) ((s.dev.bump HST_UNEXP_CPL.COUNT).emit (.aer 2))) ∧
    s.Does (.injectFrameStaged tag bs) ((s.dev.bump HST_UNEXP_CPL.COUNT).emit (.aer 2))) ∧
  (∀ (s : State) (tag : Nat) (bs : List Byte) (h : HostRd), s.Ready → tag < 16384 → SMap.find s.dev.hst.reads tag = some h →
    h.stale = true →
    let d := { s.dev with hst := { s.dev.hst with reads := SMap.erase s.dev.hst.reads tag } }
    (bs.length = 32 → s.Does (.injectDescriptorFetched tag bs) d) ∧ s.Does (.injectFrameStaged tag bs) d) ∧
  (∀ (s : State) (tag n : Nat) (bs : List Byte) (h : HostRd), s.Ready → tag < 16384 → bs.length = 32 →
    SMap.find s.dev.hst.reads tag = some h → h.stale = false → h.frame = false → h.ring = 64 + n →
    let d := s.dev.endRead tag
    let l := SMap.get [] d.hst.inj n
    (d.injServed n = false → s.Does (.injectDescriptorFetched tag bs) (d.setInj n (replaceFirst (· = .fetch) none l))) ∧
    (d.injServed n = true → d.on (HST_INJ_CFG.REPLAY n) = false → injParse bs = none →
      s.Runs (.injectDescriptorFetched tag bs) (d.ringFail (64 + n) 0x05)) ∧
    (∀ y, d.injServed n = true → d.on (HST_INJ_CFG.REPLAY n) = false → injParse bs = some y →
      s.Runs (.injectDescriptorFetched tag bs) ((d.setInj n (replaceFirst (· = .fetch) (some (.wait y)) l)).injFetchAll)) ∧
    (∀ y, d.injServed n = true → d.on (HST_INJ_CFG.REPLAY n) = true → replayParse bs = some y → SMap.find d.hst.order n = none →
      let e := { d with hst := { d.hst with order := SMap.ins d.hst.order n (y.tick * 32768 + y.pipe * 512 + y.slot) } }
      s.Runs (.injectDescriptorFetched tag bs) ((e.setInj n (replaceFirst (· = .fetch) (some (.wait y)) l)).injFetchAll))) ∧
  (∀ (s : State) (tag n : Nat) (bs : List Byte) (h : HostRd), s.Ready → tag < 16384 →
    SMap.find s.dev.hst.reads tag = some h → h.stale = false → h.frame = true → h.ring = 64 + n →
    s.Runs (.injectFrameStaged tag bs)
      (((s.dev.endRead tag).setInj n ((SMap.get [] s.dev.hst.inj n).map (fillStage tag s.dev.tck.now bs))).injFetchAll)) ∧
  (∀ (x : InjDesc) (tag now n : Nat) (bs : List Byte), x.prefix_ = false →
    fillStage tag now bs (.read x [InjPart.mk 0 n (some tag) none]) = .staged x (fitBytes bs n) now) ∧
  (∀ (s : State) (r v : Nat), s.Open → r < 80 → v < 4294967296 →
    let d := s.dev.wrs [(rEn r, bits v 0 1), (rLog2 r, bits v 2 4), (rVec r, bits v 16 10), (rIrqEn r, bits v 26 1)]
    let e := s.dev.wrs [(rEn r, 0), (rLog2 r, bits v 2 4), (rVec r, bits v 16 10), (rIrqEn r, bits v 26 1)]
    (r < 64 → s.Runs (.ringArm r v) (d.ringArm r) ∧ s.Runs (.ringDisable r v) (e.ringDisable r)) ∧
    (64 ≤ r → s.Runs (.ringArm r v) ((d.wr (HST_INJ_CFG.REPLAY (r - 64)) (bits v 6 1)).ringArm r) ∧
      s.Runs (.ringDisable r v) ((e.wr (HST_INJ_CFG.REPLAY (r - 64)) (bits v 6 1)).ringDisable r))) ∧
  (∀ (s : State) (r : Nat), s.Ready → r < 80 →
    s.dev.hst.arming.contains r = false ∨ s.dev.hst.reads.any (fun p => p.2.ring == r) = true → s.Does (.ringArmComplete r) s.dev) ∧
  (∀ (s : State) (r : Nat), s.Ready → r < 80 → s.dev.hst.arming.contains r = true →
    s.dev.hst.reads.any (fun p => p.2.ring == r) = false →
    let d := { s.dev with hst := { s.dev.hst with arming := s.dev.hst.arming.filter (· != r) } }.wrs
      [(rHead r, 0), (rTail r, 0), (rErr r, 0), (rState r, if s.dev.on (rEn r) = true then ringRun else ringDisabled)]
    (r < 64 → s.Does (.ringArmComplete r) (d.wr (HST_PUNT_STATE.PHASE r) 1)) ∧ (64 ≤ r → s.Does (.ringArmComplete r) d)) ∧
  (∀ (d : Dev) (r : Nat), (d.ringArm r).hst.arming = r :: d.hst.arming.filter (· != r))

/-- BUS_MASTER_DISABLE (R318): PF1's Bus Master Enable clears and running rings halt; clear already, nothing happens.
HOST_READ_COMPLETION, COMPLETION_TIMEOUT, TAG_WITHHOLD_EXPIRE (R319): a completion of no read is unexpected; of a discarded read the tag is
freed; a bad status puts the ring into ERROR 0x02 to 0x04; a read that has waited for its timeout (Table 13.9) is counted and reported, its
tag withheld for twice the timeout and at least 1 s and the ring put into ERROR 0x01; a withheld tag whose time is over comes back. WINDOW_READ, WINDOW_WRITE (R306, R307): outside the windows in force a read completes with Unsupported
Request and a write is dropped and counted; one to a port that is up goes to it. WINDOW_COMMIT: PENDING sets. FLR_PF0, FLR_PF1, HOST_RESET
(R322, R323): the function's registers clear and HST_STATUS.FLR sets; a host reset does both and takes the link down. PCIE_LINK_LOSS: with the
link up, that and CONTAINED event 0x0A from 0x310; with it down nothing. PCIE_CONFIGURATION_REQUEST (R352): before boot completes Request
Retry Status; after, it is answered, a read with the field's value, and the fields take what
is written. PERST_N_DEASSERTION, PCIE_LINK_TRAINED: the link trains once the lanes are
calibrated, and trained shows its speed, width and FLIT; not training, nothing happens. -/
def Obligations.HostEndpoint : Prop :=
  (∀ s : State, s.Ready → s.dev.hst.pf1.bme = false → s.Does .busMasterDisable s.dev) ∧
  (∀ s : State, s.Ready → s.dev.hst.pf1.bme = true → s.Runs .busMasterDisable
    (Dev.haltRings { s.dev with hst := { s.dev.hst with pf1 := { s.dev.hst.pf1 with bme := false } } })) ∧
  (∀ (s : State) (tag st : Nat), s.Ready → SMap.find s.dev.hst.reads tag = none →
    tag < 16384 →
    s.Does (.hostReadCompletion tag st) ((s.dev.bump HST_UNEXP_CPL.COUNT).emit (.aer 2)) ∧ s.Does (.completionTimeout tag) s.dev) ∧
  (∀ (s : State) (tag st : Nat) (h : HostRd), s.Ready → tag < 16384 → SMap.find s.dev.hst.reads tag = some h →
    let d := { s.dev with hst := { s.dev.hst with reads := SMap.erase s.dev.hst.reads tag } }
    let e := (d.bump HST_CPL_TO.COUNT).emit (.aer 1)
    let us := timeoutUs s.dev.hst.pf1.timeout
    let back := tickAdd s.dev.tck.now (usTicks (max (2 * us) 1000000))
    (h.stale = true → s.Does (.hostReadCompletion tag st) d) ∧
    (h.stale = false → st ≠ 0 → s.Runs (.hostReadCompletion tag st) (d.ringFail h.ring (st + 1))) ∧
    (h.stale = false → s.Does (.hostReadCompletion tag 0) s.dev) ∧
    (tickSub s.dev.tck.now h.tick < usTicks us → s.Does (.completionTimeout tag) s.dev) ∧
    (usTicks us ≤ tickSub s.dev.tck.now h.tick → s.Runs (.completionTimeout tag)
      (Dev.ringFail { e with hst := { e.hst with withheld := e.hst.withheld ++ [(tag, back)] } } h.ring 0x01))) ∧
  (∀ (s : State) (tag : Nat), s.Ready → tag < 16384 → s.Runs (.tagWithholdExpire tag) (Dev.injFetchAll { s.dev with hst := { s.dev.hst with
    withheld := s.dev.hst.withheld.filter fun p => !(p.1 == tag && tickReached p.2 s.dev.tck.now) } })) ∧
  (∀ (s : State) (off len a : Nat) (w : Bool), s.Open → off < 14680064 → 1 ≤ len → off % 4096 + len ≤ 4096 →
    (s.dev.bar2Window off = (a, false, w) → s.Does (.windowRead off len) (s.dev.emit (.cpl 1 []))) ∧
    (∀ p, s.dev.bar2Window off = (a, true, w) → s.dev.cxlPort a = some p → s.dev.cxlUp p = true →
      let rd : CxlRd := { port := p, addr := a, len, tick := s.dev.tck.now, who := 0 }
      s.Runs (.windowRead off len) (Dev.cxlIssue { s.dev with cxl := { s.dev.cxl with reads := s.dev.cxl.reads ++ [rd] } } p a len))) ∧
  (∀ (s : State) (off a : Nat) (r w : Bool) (bs : List Byte), s.Open → off < 14680064 → 1 ≤ bs.length →
    off % 4096 + bs.length ≤ 4096 → s.dev.bar2Window off = (a, r, w) →
    ((r && w) = false → s.Does (.windowWrite off bs) ((s.dev.bump HST_WIN_DROP.COUNT).emit (.aer 0))) ∧
    (∀ p, (r && w) = true → s.dev.cxlPort a = some p → s.dev.cxlUp p = true →
      s.Does (.windowWrite off bs) (s.dev.emit (.cxlWrite p a bs)))) ∧
  (∀ s : State, s.Open → s.Does .windowCommit (s.dev.wr HST_WIN_COMMIT.PENDING 1)) ∧
  (∀ s : State, s.Ready → s.Runs .flrPf0 s.dev.flr0 ∧ s.Runs .flrPf1 s.dev.flr1 ∧
    s.dev.flr0.on HST_STATUS.FLR = true ∧ s.dev.flr0.hst.pf0 = Func.reset ∧ s.dev.flr1.on HST_STATUS.FLR = true ∧
    s.dev.flr1.hst.pf1 = Func.reset ∧ s.dev.flr1.hst.arming = []) ∧
  (∀ (s : State) (perst : Bool), s.dev.dead = false → s.Runs (.hostReset perst) (s.dev.hostReset perst) ∧
    (s.dev.hostReset perst).on HST_STATUS.LINK_UP = false ∧ (s.dev.hostReset perst).hst.perst = (s.dev.hst.perst || perst)) ∧
  (∀ s : State, s.Ready → s.dev.on HST_STATUS.LINK_UP = false → s.Does .pcieLinkLoss s.dev) ∧
  (∀ s : State, s.Ready → s.dev.on HST_STATUS.LINK_UP = true →
    s.Runs .pcieLinkLoss (((s.dev.hostReset false).wr HST_STATUS.LINK_LOSS 1).fault 0x310 contained 0x0A)) ∧
  (∀ (s : State) (q : CfgReq), s.Ready → s.dev.on GLB_BOOT_STATUS.READY = false → s.dev.on GLB_BOOT_STATUS.BOOT_ERR = false →
    q.fn < 2 → s.Does (.pcieConfigurationRequest q) (s.dev.emit (.cpl 4 []))) ∧
  (∀ (s : State) (fn v : Nat) (what : CfgField), s.Ready → fn < 2 → s.dev.on GLB_BOOT_STATUS.READY = true →
    s.Does (.pcieConfigurationRequest (.read fn what)) (s.dev.emit (.cpl 0 (leBytes 4 (s.dev.cfgValue fn what)))) ∧
    s.Does (.pcieConfigurationRequest (.timeout fn v)) ((s.dev.emit (.cpl 0 [])).setFunc fn { s.dev.func fn with timeout := v % 16 }) ∧
    s.Does (.pcieConfigurationRequest (.mrrs fn v)) ((s.dev.emit (.cpl 0 [])).setFunc fn { s.dev.func fn with mrrs := v % 8 })) ∧
  (∀ s : State, s.dev.dead = false → s.dev.flt.todo = [] →
    s.Does .perstNDeassertion { s.dev with hst := { s.dev.hst with perst := false, training := s.dev.hst.cal } }) ∧
  (∀ (s : State) (speed width : Nat) (flit : Bool), s.Ready → speed < 16 → width < 16 → s.dev.flt.recov = [] →
    (s.dev.hst.training = false → s.Does (.pcieLinkTrained speed width flit) s.dev) ∧
    (s.dev.hst.training = true → s.Does (.pcieLinkTrained speed width flit)
      ({ s.dev with hst := { s.dev.hst with training := false } }.wrs
        [(HST_STATUS.LINK_UP, 1), (HST_STATUS.SPEED, speed), (HST_STATUS.WIDTH, width), (HST_STATUS.FLIT, b2n flit)])))

/-- SIDEBAND_FRAME (R324): at a tick that is a multiple of 8 both chains shift; at another nothing happens. SIDEBAND_INPUT_APPLY: every
cage's captured inputs are applied at the boundary of a tick 8k + 6, and at another nothing happens. SLOT_CONTROL_WRITE: the fields of CGE_SLOT_CTL take the value, PCC only without a latched power fault,
and the write waits for its frames. HOST_BAD_ACCESS (R3, R305): an access not of 4 aligned bytes is counted in HST_BAD_ACCESS; a write is
reported and a read completes with Unsupported Request, as an AtomicOp does. UNMAPPED_ACCESS (R4, R309, R455): beyond the blocks the same;
inside a block, at an offset with no register, a read completes with zeros and a write does nothing; a register's read completes with what
its access types show, and a doorbell page's with HEAD at offset 4. REGISTER_WRITE (R305, R353, R454): a write of PF0 beyond the blocks
is counted as a bad access; one inside acts as the register's chapter says. -/
def Obligations.CagesAndAccesses : Prop :=
  (∀ (s : State) (l : List Nat), s.Ready →
    (s.dev.tck.now % 8 = 0 → s.Runs (.sidebandFrame l) ((s.dev.chainFrame 0 l).chainFrame 1 l)) ∧
    (s.dev.tck.now % 8 ≠ 0 → s.Does (.sidebandFrame l) s.dev)) ∧
  (∀ s : State, s.Ready → s.dev.tck.now % 8 ≠ 6 → s.Does .sidebandInputApply s.dev) ∧
  (∀ s : State, s.Ready → s.dev.tck.now % 8 = 6 → s.Runs .sidebandInputApply ((List.range 32).foldl (fun (d : Dev) c =>
    match (d.cage c).cap with
    | some b => ((d.setCage c { d.cage c with cap := none }).cageEvents c b).cagePresence c b
    | none => d) s.dev)) ∧
  (∀ (s : State) (c v : Nat), s.Open → c < 32 → v < 4294967296 → s.dev.on (CGE_SLOT_STS.PFLT c) = false →
    let d := s.dev.wrs [(CGE_SLOT_CTL.ABP_EN c, bits v 0 1), (CGE_SLOT_CTL.PFD_EN c, bits v 1 1), (CGE_SLOT_CTL.PDC_EN c, bits v 2 1),
      (CGE_SLOT_CTL.MIC_EN c, bits v 3 1), (CGE_SLOT_CTL.CC_EN c, bits v 4 1), (CGE_SLOT_CTL.AIC c, bits v 6 2),
      (CGE_SLOT_CTL.PIC c, bits v 8 2), (CGE_SLOT_CTL.PCC c, bits v 10 1), (CGE_SLOT_CTL.RESET c, bits v 11 1),
      (CGE_SLOT_CTL.LPMODE c, bits v 12 1)]
    s.Does (.slotControlWrite c v) (d.setCage c { d.cage c with cc := (d.cage c).cc ||| 1 })) ∧
  (∀ (s : State) (a len : Nat), s.Ready → a % 4 ≠ 0 ∨ len ≠ 4 →
    s.Does (.hostBadAccess 1 a len) ((s.dev.bump HST_BAD_ACCESS.COUNT).emit (.aer 0)) ∧
    s.Does (.hostBadAccess 0 a len) ((s.dev.bump HST_BAD_ACCESS.COUNT).emit (.cpl 1 []))) ∧
  (∀ (s : State) (a len : Nat), s.Ready → s.Does (.hostBadAccess 2 a len) (s.dev.emit (.cpl 1 []))) ∧
  (∀ (s : State) (a : Nat), s.Ready → 0x3200000 ≤ a → a < 67108864 → a % 4 = 0 →
    s.Does (.unmappedAccess 0 true a) ((s.dev.bump HST_BAD_ACCESS.COUNT).emit (.aer 0)) ∧
    s.Does (.unmappedAccess 0 false a) ((s.dev.bump HST_BAD_ACCESS.COUNT).emit (.cpl 1 []))) ∧
  (∀ (s : State) (a : Nat), s.Open → a < 0x2380000 → a % 4 = 0 → regRow a = none →
    s.Does (.unmappedAccess 0 true a) s.dev ∧ s.Runs (.unmappedAccess 0 false a) (s.dev.emit (.cpl 0 [0#8, 0#8, 0#8, 0#8]))) ∧
  (∀ (s : State) (a : Nat) (r : RegRow), s.Open → a < 0x2380000 → a % 4 = 0 → regRow a = some r →
    s.Runs (.unmappedAccess 0 false a) ((s.dev.emit (.cpl 0 (leBytes 4
      (((s.dev.regPend a).toNat &&& r.rwt) ||| (s.dev.regView a &&& (r.rw ||| r.w1c ||| r.rws ||| r.ro)))))).readEffect a)) ∧
  (∀ (s : State) (n : Nat), s.Open → n < 80 →
    s.Does (.unmappedAccess 1 false (0x1000 * n + 4)) (s.dev.emit (.cpl 0 (leBytes 4 (s.dev.rd (rHead n)))))) ∧
  (∀ (s : State) (a v : Nat), s.Open → 0x3200000 ≤ a → a < 67108864 → v < 4294967296 →
    s.Does (.registerWrite 0 a v) ((s.dev.bump HST_BAD_ACCESS.COUNT).emit (.aer 0))) ∧
  (∀ (s : State) (a v : Nat), s.Open → a < 0x2380000 → v < 4294967296 → a % 4 = 0 →
    s.Runs (.registerWrite 0 a v) (s.dev.regWrite 0x0001 a v))

/-- CXL_RETRAIN (R331, R339): EN takes the value; enabled with the port DOWN, it begins to train at the next boundary. CXL_TRAINING_DONE:
a port that does not train is left; a device of a kind the spec excludes loses the port with event 0x0A; with CXL.mem the link's facts show
and the port goes to CONFIG. CXL_TRAINING_TIMEOUT: a port that has trained for 1 s goes DOWN, another is left. CXL_READY: a port in CONFIG goes UP, another
is left. CXL_READ_COMPLETE (R336): with no read of a window outstanding nothing happens; a good read answers its bytes, the
latency shown. CXL_WRITE_COMPLETE: a good write changes nothing; one that ends in error is counted and logs CONTAINED event 0x06.
CXL_LINK_DOWN (R338): the port is lost; one that
is DOWN, or lost already, is left. CXL_READ_TIMEOUT: with no read outstanding nothing happens; a read outstanding for CXL_TIMEOUT ticks is
counted and loses its port with event 0x05. -/
def Obligations.CxlPorts : Prop :=
  (∀ (s : State) (n : Nat) (en : Bool), s.Open → n < 4 →
    (en = false ∨ s.dev.cxlNext n ≠ 0 → s.Does (.cxlRetrain n en) (s.dev.wr (CXL_PORT_CTL.EN n) (b2n en))) ∧
    (SMap.find s.dev.cxl.next n = none → s.dev.rd (CXL_PORT_ST.STATE n) = 0 → s.Does (.cxlRetrain n true)
      { s.dev.wr (CXL_PORT_CTL.EN n) 1 with cxl := { s.dev.cxl with
        next := SMap.ins s.dev.cxl.next n 1, since := SMap.ins s.dev.cxl.since n s.dev.tck.now } })) ∧
  (∀ (s : State) (n sp w : Nat) (mem al fl : Bool), s.Ready → n < 4 → sp < 16 → w < 32 →
    (s.dev.rd (CXL_PORT_ST.STATE n) ≠ 1 → s.Does (.cxlTrainingDone n mem al fl sp w) s.dev) ∧
    (s.dev.rd (CXL_PORT_ST.STATE n) = 1 → s.dev.cxl.lost = [] → s.Does (.cxlTrainingDone n mem false fl sp w)
      { s.dev with cxl := { s.dev.cxl with lost := [(n, 0x0A)] } }) ∧
    (s.dev.rd (CXL_PORT_ST.STATE n) = 1 → s.Does (.cxlTrainingDone n true true fl sp w)
      ((s.dev.wrs [(CXL_PORT_ST.FLIT n, b2n fl), (CXL_PORT_ST.SPEED n, sp), (CXL_PORT_ST.WIDTH n, w)]).cxlGo n 2))) ∧
  (∀ (s : State) (n : Nat), s.Ready → n < 4 →
    let waited := tickSub s.dev.tck.now (SMap.get s.dev.tck.now s.dev.cxl.since n)
    (s.dev.rd (CXL_PORT_ST.STATE n) = 1 → usTicks 1000000 ≤ waited → s.Does (.cxlTrainingTimeout n) (s.dev.cxlGo n 0)) ∧
    (s.dev.rd (CXL_PORT_ST.STATE n) ≠ 1 ∨ waited < usTicks 1000000 → s.Does (.cxlTrainingTimeout n) s.dev)) ∧
  (∀ (s : State) (n : Nat), s.Open → n < 4 →
    (s.dev.rd (CXL_PORT_ST.STATE n) = 2 → s.Does (.cxlReady n) (s.dev.cxlGo n 3)) ∧
    (s.dev.rd (CXL_PORT_ST.STATE n) ≠ 2 → s.Does (.cxlReady n) s.dev)) ∧
  (∀ (s : State) (n ns : Nat) (po er : Bool) (data : List Byte), s.Ready → n < 4 → s.dev.cxl.reads = [] →
    s.Does (.cxlReadComplete n 0 po er ns data) s.dev ∧ s.Does (.cxlReadComplete n 1 po er ns data) s.dev) ∧
  (∀ (s : State) (n ns : Nat) (data : List Byte) (r : CxlRd), s.Ready → n < 4 →
    s.dev.cxl.reads.find? (fun r => r.port = n && r.who = 0) = some r →
    s.Does (.cxlReadComplete n 0 false false ns data)
      (({ s.dev with cxl := { s.dev.cxl with reads := s.dev.cxl.reads.erase r } }.wr (CXL_PORT_LAT.NS n)
        (max (s.dev.rd (CXL_PORT_LAT.NS n)) (min ns 0xFFFF))).emit (winCpl false false (fitBytes data r.len)))) ∧
  (∀ (s : State) (n : Nat), s.Ready → n < 4 → s.Does (.cxlWriteComplete n false) s.dev ∧
    s.Runs (.cxlWriteComplete n true) ((s.dev.cxlError n).fault (0x300 + n) contained 0x06)) ∧
  (∀ (s : State) (n : Nat), s.Ready → n < 4 →
    (s.dev.rd (CXL_PORT_ST.STATE n) = 0 ∨ s.dev.cxl.lost.any (fun p => p.1 == n) = true → s.Does (.cxlLinkDown n) s.dev) ∧
    (s.dev.rd (CXL_PORT_ST.STATE n) ≠ 0 → s.dev.cxl.lost.any (fun p => p.1 == n) = false → s.Does (.cxlLinkDown n)
      { s.dev with cxl := { s.dev.cxl with lost := s.dev.cxl.lost ++ [(n, 0x0A)] } }) ∧
    (s.dev.t2Outstanding n = [] → s.dev.cxl.reads = [] → s.Does (.cxlReadTimeout n) s.dev) ∧
    (∀ r ∈ s.dev.cxl.reads, r.port = n → max 1 (s.dev.rd CXL_TIMEOUT.TICKS) ≤ tickSub s.dev.tck.now r.tick →
      s.Does (.cxlReadTimeout n) ((s.dev.bump (CXL_PORT_TO.COUNT n)).cxlLose n 0x05)))

/-- CONVOY_BLOCK_LOCK (R347): LOCK sets; on the root's own CVU port ROOT_ERR and CONTAINED event 0x0F too. CONVOY_BLOCK_LOCK_LOSS: LOCK
clears, and a member that loses CVU is no longer LOCKED. CONVOY_PORT_RETRAIN (R345): that, and the port's hop is to be measured again.
SYNC, DREQ, DRESP on a port that is not looked at do nothing; on CVU of a member with a measured hop, the first SYNC loads the tick of
its departure and the hop; SYNC on another port, or DREQ on CVU, is only counted; DREQ downstream is answered; DRESP on CVU joins the last 16
measurements, whose mean shows once there are 16. SYNC_SEND (R346): at a sixteenth tick a locked device sends; else nothing. SYNC_TIMEOUT:
a locked member 64 ticks without SYNC unlocks; else nothing. HOP_MEASURE (R345): a calibrated member asks on CVU; else nothing.
CONVOY_BAD_MESSAGE (R341, R342): a failed CRC counts at its port, a bad type in CVY_MSG_BAD. -/
def Obligations.ConvoyLinks : Prop :=
  (∀ (s : State) (p : Nat), s.dev.dead = false → p < 3 → s.dev.flt.recov = [] → s.dev.flt.todo = [] →
    (¬ (p = 0 ∧ s.dev.isRoot = true) → s.Does (.convoyBlockLock p) (s.dev.wr (CVY_PORT_ST.LOCK p) 1))) ∧
  (∀ s : State, s.dev.dead = false → s.dev.isRoot = true →
    s.Runs (.convoyBlockLock 0) ((((s.dev.wr (CVY_PORT_ST.LOCK 0) 1).wr CVY_STATUS.ROOT_ERR 1).fault 0x323 contained 0x0F).recovered
      0x320)) ∧
  (∀ (s : State) (p : Nat), s.dev.dead = false → p < 3 → s.dev.flt.todo = [] →
    (¬ (p = 0 ∧ s.dev.isRoot = false) → s.Does (.convoyBlockLockLoss p) (s.dev.wr (CVY_PORT_ST.LOCK p) 0)) ∧
    (s.dev.isRoot = false → s.Runs (.convoyBlockLockLoss 0) ((s.dev.wr (CVY_PORT_ST.LOCK 0) 0).cvyUnlock))) ∧
  (∀ (s : State) (p : Nat), s.Open → p < 3 → p ≠ 0 →
    s.Does (.convoyPortRetrain p) ((s.dev.wr (CVY_PORT_ST.LOCK p) 0).wr (CVY_PORT_ST.MEASURED p) 0)) ∧
  (∀ (s : State) (p t1 t2 t3 t4 : Nat), s.dev.dead = false → s.dev.flt.todo = [] → p < 3 → s.dev.hears p = false →
    s.Does (.sync p t1 t2) s.dev ∧ s.Does (.dreq p t1 t2 t3) s.dev ∧ s.Does (.dresp p t1 t2 t3 t4) s.dev) ∧
  (∀ (s : State) (p t1 t2 t3 t4 : Nat), s.dev.dead = false → p < 3 → s.dev.hears p = true →
    let d := s.dev.heard p
    (p ≠ 0 → s.Runs (.sync p t1 t2) d ∧ s.Runs (.dresp p t1 t2 t3 t4) d ∧ s.Runs (.dreq p t1 t2 t3)
      (d.cvySend [p] true 0x03 dstLocal 4 (beBytes 8 t1 ++ beBytes 8 t2 ++ beBytes 8 t3))) ∧
    (p = 0 → s.Runs (.dreq p t1 t2 t3) d) ∧
    (p = 0 → d.cvy.hops.length < 15 → s.Runs (.dresp p t1 t2 t3 t4)
      { d with cvy := { d.cvy with hops := (tickTimeSub t4 t1 - tickTimeSub t3 t2) :: d.cvy.hops } }) ∧
    (p = 0 → d.on (CVY_PORT_ST.MEASURED 0) = true → d.cvy.stuck = false → d.cvy.loaded = false →
      let now := (t1 + d.rd (CVY_PORT_HOP.HOP 0)) % tickTimeMod / 1536 % tickMod
      s.Runs (.sync p t1 t2) (Dev.showOffset
        { d with tck := { d.tck with now }, cvy := { d.cvy with loaded := true, good := 1, lastSync := now } } 0))) ∧
  (∀ (s : State) (t : Nat), s.dev.dead = false → s.dev.flt.todo = [] →
    (s.dev.on TCK_STATUS.LOCKED = false ∨ s.dev.tck.running = false ∨ s.dev.tck.now % 16 ≠ 0 → s.Does (.syncSend t) s.dev) ∧
    (s.dev.on TCK_STATUS.LOCKED = true → s.dev.tck.running = true → s.dev.tck.now % 16 = 0 → s.Runs (.syncSend t)
      (s.dev.cvySend [1, 2] true 0x01 dstLocal 3 (beBytes 6 s.dev.tck.now ++ beBytes 8 t)))) ∧
  (∀ s : State, s.dev.dead = false → s.dev.flt.todo = [] →
    (s.dev.isRoot = true ∨ s.dev.on TCK_STATUS.LOCKED = false ∨ tickSub s.dev.tck.now s.dev.cvy.lastSync < 64 →
      s.Does .syncTimeout s.dev) ∧
    (s.dev.isRoot = false → s.dev.on TCK_STATUS.LOCKED = true → 64 ≤ tickSub s.dev.tck.now s.dev.cvy.lastSync →
      s.Runs .syncTimeout s.dev.cvyUnlock)) ∧
  (∀ (s : State) (t : Nat), s.dev.dead = false → s.dev.flt.todo = [] →
    (s.dev.isRoot = true ∨ s.dev.cvy.cal = false → s.Does (.hopMeasure t) s.dev) ∧
    (s.dev.isRoot = false → s.dev.cvy.cal = true →
      s.Runs (.hopMeasure t) (s.dev.cvySend [cvuPort] true 0x02 dstLocal 2 (beBytes 8 t)))) ∧
  (∀ (s : State) (p dst src seq : Nat) (pl : List Byte), s.dev.dead = false → s.dev.flt.todo = [] → p < 3 → s.dev.hears p = true →
    s.Does (.convoyBadMessage p 0 dst src seq pl) (s.dev.bump (CVY_PORT_CRC.COUNT p)) ∧
    s.Does (.convoyBadMessage p 1 dst src seq pl) (s.dev.bump CVY_MSG_BAD.COUNT)) ∧
  (∀ d : Dev, d.rd CVY_STATUS.STATE = 1 →
    d.cvyUnlock.on TCK_STATUS.LOCKED = false ∧ d.cvyUnlock.rd CVY_STATUS.STATE = 2 ∧ d.cvyUnlock.cvy.good = 0)

/-- SIZE, ASSIGN, KSET, RECOUNT, ACTION, NAV on a port that is not looked at do nothing. SIZE (R348): on CVU only counted; from a
downstream port in the size phase the child's values are kept and the phase ends once both ports have answered; late, LATE_JOIN
sets, and a root does no more. SIZE_WAIT_EXPIRE: outside the size phase nothing happens; a silent port counts as absent after WAIT ticks.
ASSIGN (R349): on CVU acted on, its sender the parent; elsewhere only counted. KSET (R351): K takes the value and passes on. RECOUNT: passed
on, and the size phase starts. CONVOY_ENUM: at the root RECOUNT is broadcast and the phase starts; at a member nothing. ACTION (R350): both
copies pass on and count; a copy of one already taken does no more; one with a reserved code is counted bad. NAV: a message for this
device goes to navigator firmware. Of the three action codes a CHART_SWAP for a tick to come is held with its receipt tick (R103), a
FW_ACTIVATE goes to the loader, and a NAV_EVENT in time goes to navigator firmware. -/
def Obligations.ConvoyTree : Prop :=
  (∀ (s : State) (p a b c e : Nat) (l : Bool) (pl : List Byte), s.dev.dead = false → s.dev.flt.todo = [] → p < 3 →
    s.dev.hears p = false →
    s.Does (.size p a b c l e) s.dev ∧ s.Does (.assign p a b c e) s.dev ∧ s.Does (.kset p a b c) s.dev ∧
    s.Does (.recount p a b) s.dev ∧ s.Does (.nav p a b c pl) s.dev ∧ (∀ k < 256, s.Does (.action p a b k c e) s.dev)) ∧
  (∀ (s : State) (p count height hopmax hop : Nat) (late : Bool), s.dev.dead = false → p < 3 → s.dev.hears p = true →
    let d := s.dev.heard p
    let e := (d.wr (CVY_PORT_HOP.HOP p) hop).wr (CVY_PORT_ST.PRESENT p) 1
    (p = 0 → s.Runs (.size p count height hopmax late hop) d) ∧
    (p ≠ 0 → late = false → d.cvy.sent = false → s.Runs (.size p count height hopmax late hop)
      (Dev.sizeDone { e with cvy := { e.cvy with kids := SMap.ins e.cvy.kids p { count, height, hopmax } } })) ∧
    (p ≠ 0 → late = true → s.dev.isRoot = true → s.Runs (.size p count height hopmax late hop) (e.wr CVY_STATUS.LATE_JOIN 1))) ∧
  (∀ (s : State) (p : Nat), s.dev.dead = false → p < 3 →
    (s.dev.flt.todo = [] → s.dev.cvy.sizing = none → s.Does (.sizeWaitExpire p) s.dev) ∧
    (∀ t, s.dev.cvy.sizing = some t → p ≠ 0 → SMap.find s.dev.cvy.kids p = none →
      s.dev.rd CVY_CTRL.WAIT ≤ tickSub s.dev.tck.now t → s.Runs (.sizeWaitExpire p)
        (Dev.sizeDone { s.dev with cvy := { s.dev.cvy with absent := s.dev.cvy.absent ++ [p] } }))) ∧
  (∀ (s : State) (p src a k g : Nat), s.dev.dead = false → p < 3 → s.dev.hears p = true →
    let d := s.dev.heard p
    (p = 0 → s.Runs (.assign p src a k g) (Dev.assign { d with cvy := { d.cvy with parent := src } } a k g)) ∧
    (p ≠ 0 → s.Runs (.assign p src a k g) d)) ∧
  (∀ (s : State) (p src seq k : Nat), s.dev.dead = false → p < 3 → s.dev.hears p = true →
    let d := s.dev.heard p
    let pass (d : Dev) (t : Nat) (b : List Byte) : Dev :=
      (d.cvyUp.filter (· != p)).foldl (fun d q => d.cvyPut q false t dstAll src seq 1 b) d
    s.Runs (.kset p src seq k) ((pass d 0x06 (beBytes 2 k)).wr CVY_K.K k) ∧
    s.Runs (.recount p src seq) (pass d 0x07 (beBytes 4 0)).sizeStart) ∧
  (∀ s : State, s.Open → (s.dev.isRoot = false → s.Does .convoyEnum s.dev) ∧
    (s.dev.isRoot = true → s.Runs .convoyEnum (s.dev.cvySend s.dev.cvyUp false 0x07 dstAll 1 (beBytes 4 0)).sizeStart)) ∧
  (∀ (s : State) (p src seq ac tg arg : Nat), s.dev.dead = false → p < 3 → ac < 256 → s.dev.hears p = true →
    let d := s.dev.heard p
    let e := ((d.cvyUp.filter (· != p)).foldl (fun d q => d.cvyPut q true 0x08 dstAll src seq 2
      (beBytes 1 ac ++ beBytes 6 tg ++ beBytes 4 arg)) d).bump CVY_ACT_RX.COUNT
    (SMap.find e.cvy.taken src = some seq → s.Runs (.action p src seq ac tg arg) e) ∧
    (SMap.find e.cvy.taken src ≠ some seq → ac = 0 ∨ 4 ≤ ac → s.Runs (.action p src seq ac tg arg)
      (Dev.bump { e with cvy := { e.cvy with taken := SMap.ins e.cvy.taken src seq } } CVY_MSG_BAD.COUNT)) ∧
    (SMap.find e.cvy.taken src ≠ some seq → let f := { e with cvy := { e.cvy with taken := SMap.ins e.cvy.taken src seq } }
      (ac = 1 → s.Runs (.action p src seq ac tg arg) (f.takeSwap src seq tg arg)) ∧
      (ac = 2 → s.Runs (.action p src seq ac tg arg) (f.takeActivate tg arg)) ∧
      (ac = 3 → f.inTime tg = true → s.Runs (.action p src seq ac tg arg) (f.emit (.firmware 2 tg (beBytes 4 arg)))))) ∧
  (∀ (d : Dev) (src seq t id : Nat), d.cht.held = none → tickFuture t d.tck.now = true →
    (d.takeSwap src seq t id).cht.held = some { src, seq, target := t, chartId := id, receipt := d.tck.now }) ∧
  (∀ (s : State) (p src seq : Nat) (pl : List Byte), s.dev.dead = false → p < 3 → s.dev.hears p = true →
    s.Runs (.nav p 0 src seq pl) ((s.dev.heard p).emit (.firmware 1 (s.dev.heard p).tck.now pl))) ∧
  (∀ d : Dev, d.sizeStart.cvy.sizing = some d.tck.now ∧ d.sizeStart.cvy.kids = [] ∧ d.sizeStart.cvy.absent = [])

/-- KMIN (R351): for every height and largest hop (in 0.25 ns) it is the least whole number of ticks of 384 ns that is no less than the
travel bound, the height twice over with 12.8 ns a hop and 12.8 ns more, and three ticks; the tree of Table 15.6 (height 2, largest hop
49 ns) has 4. -/
def Obligations.AnnounceLead : Prop :=
  (∀ height hopmax, let b := 2 * height * (5 * hopmax + 256) + 256
    b ≤ 7680 * (kMin height hopmax - 3) ∧ 7680 * (kMin height hopmax - 4) < b ∧ 4 ≤ kMin height hopmax) ∧ kMin 2 196 = 4

/-- HEALTH (R344, R369): on a port that is not looked at nothing happens; one for this device from another than the partner, or of another
type, is counted bad; the partner's is taken: its fields are kept, it counts, its state shows and PLOST clears. HEALTH_REPORT_SEND (R369):
at another tick than 256j + 264, with no partner, or where the count has had no block j, nothing happens; else the block's report goes to the partner, counted, and the device's
own CLEAN shows. HEALTH_REPORT_MISS (R374): at another tick than a block's, with no
partner, or with the report received, nothing happens; else the miss is counted. -/
def Obligations.HelmReports : Prop :=
  (∀ (s : State) (p dst src seq : Nat) (pl : List Byte), s.dev.dead = false → s.dev.flt.todo = [] → p < 3 → s.dev.hears p = false →
    s.Does (.health p dst src seq pl) s.dev) ∧
  (∀ (s : State) (p src seq : Nat) (pl : List Byte), s.dev.dead = false → p < 3 → s.dev.hears p = true →
    let d := s.dev.heard p
    let good := src = d.rd HLM_PARTNER.ADDR ∧ (pl.getD 0 0).toNat / 16 = 1
    (¬ good → s.Runs (.health p 0 src seq pl) (d.bump HLM_RPT_BAD.COUNT)) ∧
    (good → s.Runs (.health p 0 src seq pl) (d.healthTake pl))) ∧
  (∀ s : State, s.Ready → s.dev.tck.now % 256 ≠ 8 ∨ s.dev.rd HLM_PARTNER.ADDR = 0 ∨ s.dev.blockWas 264 = false →
    s.Does .healthReportSend s.dev) ∧
  (∀ s : State, s.Ready → s.dev.tck.now % 256 = 8 → s.dev.rd HLM_PARTNER.ADDR ≠ 0 → s.dev.on GLB_BOOT_STATUS.READY = true →
    s.dev.blockWas 264 = true →
    let j := tickSub s.dev.tck.now 264 / 256
    let b := (s.dev.hlm.blk j).getD { j, adm := 0, out := 0, exposed := false, steady := false, selfOk := false }
    let e := (s.dev.wr HLM_STATUS.CLEAN (b2n (s.dev.ownClean b))).wtrUpdate
    (∀ p, s.dev.cvyRoute (s.dev.rd HLM_PARTNER.ADDR) = .out p →
      s.Runs .healthReportSend ((e.cvySend [p] false 0x09 (s.dev.rd HLM_PARTNER.ADDR) 6 (e.healthBytes b (s.dev.ownClean b))).bump
        HLM_RPT_TX.COUNT)) ∧
    (s.dev.cvyRoute (s.dev.rd HLM_PARTNER.ADDR) = .lost →
      s.Runs .healthReportSend ((e.bump CVY_UNROUTE.COUNT).bump HLM_RPT_TX.COUNT))) ∧
  (∀ s : State, s.Ready → s.dev.tck.now % 256 ≠ 0 ∨ s.dev.rd HLM_PARTNER.ADDR = 0 ∨
    (s.dev.hlm.rpt (tickSub s.dev.tck.now 512)).isSome = true ∨ s.dev.blockWas 512 = false → s.Does .healthReportMiss s.dev) ∧
  (∀ s : State, s.Ready → s.dev.tck.now % 256 = 0 → s.dev.rd HLM_PARTNER.ADDR ≠ 0 →
    (s.dev.hlm.rpt (tickSub s.dev.tck.now 512)) = none → s.dev.blockWas 512 = true →
    let d := s.dev.bump HLM_RPT_MISS.COUNT
    let e := { d with hlm := { d.hlm with misses := s.dev.hlm.misses + 1 } }
    (s.dev.on HLM_STATUS.PLOST = true → s.Runs .healthReportMiss e.wtrUpdate) ∧
    (s.dev.on HLM_STATUS.PLOST = false → max 1 (s.dev.rd HLM_CTRL.MISS) ≤ s.dev.hlm.misses + 1 →
      s.Runs .healthReportMiss (((e.wr HLM_STATUS.PLOST 1).fault 0x330 contained 0x05).wtrUpdate)))

/-- HELM_IN_CHANGE (R361): the pattern shows at once; a pattern that lasted under 20 ns is as if it had never been, any other is kept with its
instant. HELM_RELEASE_CMD (R365) asks for a release at the next boundary. HELM_KICK (R366): the right key marks the tick and clears the
expiry, another does nothing. HELM_WATCHDOG_EXPIRE: after TICKS without a kick, WD_EXP sets, CONTAINED event 0x0B is logged and the helm is
released with cause 4; disabled, expired already, or before that time, nothing happens. HELM_BACKOFF_END: at its tick BACKOFF ends in
STANDBY; else nothing. RECLAIM_SET (R372): with the wait to restore not running, only its terms are looked at; running, it sets RECLAIM at its end and not
before. PLANNED_HANDOVER: at the
tick named an active unit releases with cause 6, and the tick clears; else nothing. NAV_ROLE_SWAP (R373): at a multiple of 2^24 ticks both
pairs swap drivers, but for one being reloaded; else nothing. NAV_MISMATCH: both in error is FATAL, else the pair is reloaded, counted and
logged CORRECTED. NAV_RESYNC_DONE: the pair leaves the list, and RESYNC shows whether one is left; of another pair nothing. -/
def Obligations.HelmControl : Prop :=
  (∀ (s : State) (pat at_ : Nat), s.dev.dead = false → s.dev.flt.todo = [] → pat < 4 →
    let h := s.dev.hlm
    let d := s.dev.wr HLM_STATUS.LINE pat
    (pat = h.pat → s.Does (.helmInChange pat at_) d) ∧
    (pat ≠ h.pat → timeReached (h.since + 80) at_ = true →
      s.Does (.helmInChange pat at_) { d with hlm := { h with pat, since := at_, old := h.pat, oldSince := h.since } }) ∧
    (pat ≠ h.pat → timeReached (h.since + 80) at_ = false → pat = h.old →
      s.Does (.helmInChange pat at_) { d with hlm := { h with pat, since := h.oldSince } }) ∧
    (pat ≠ h.pat → timeReached (h.since + 80) at_ = false → pat ≠ h.old →
      s.Does (.helmInChange pat at_) { d with hlm := { h with pat, since := at_ } })) ∧
  (∀ s : State, s.Open → s.Does .helmReleaseCmd { s.dev with hlm := { s.dev.hlm with relReq := true } }) ∧
  (∀ (s : State) (key : Nat), s.Open → key < 65536 →
    (key = 0x5A1C → s.Does (.helmKick key) { s.dev with hlm := { s.dev.hlm with kicked := s.dev.tck.now, expired := false } }) ∧
    (key ≠ 0x5A1C → s.Does (.helmKick key) s.dev)) ∧
  (∀ s : State, s.Ready → s.dev.rd HLM_WD.TICKS = 0 ∨ s.dev.hlm.expired = true ∨
    tickSub s.dev.tck.now s.dev.hlm.kicked < s.dev.rd HLM_WD.TICKS → s.Does .helmWatchdogExpire s.dev) ∧
  (∀ s : State, s.Ready → s.dev.rd HLM_WD.TICKS ≠ 0 → s.dev.hlm.expired = false →
    s.dev.rd HLM_WD.TICKS ≤ tickSub s.dev.tck.now s.dev.hlm.kicked →
    let d := { s.dev with hlm := { s.dev.hlm with expired := true } }
    s.Runs .helmWatchdogExpire (((d.wr HLM_STATUS.WD_EXP 1).fault 0x330 contained 0x0B).helmRelease 4 0)) ∧
  (∀ s : State, s.Ready →
    (s.dev.rd HLM_STATUS.STATE = hBackoff → tickReached s.dev.hlm.backoff s.dev.tck.now = true →
      s.Does .helmBackoffEnd (s.dev.wr HLM_STATUS.STATE hStandby)) ∧
    (s.dev.rd HLM_STATUS.STATE ≠ hBackoff → s.Does .helmBackoffEnd s.dev)) ∧
  (∀ s : State, s.Ready → s.dev.on HLM_CTRL.REVERT = false →
    s.Does .reclaimSet ({ s.dev with hlm := { s.dev.hlm with wtr := none } }.wr HLM_STATUS.RECLAIM 0)) ∧
  (∀ (s : State) (t : Nat), s.Ready → s.dev.on HLM_CTRL.REVERT = true → s.dev.on HLM_STATUS.PREF = true →
    s.dev.rd HLM_STATUS.STATE = hStandby → s.dev.on HLM_STATUS.CLEAN = true → s.dev.hlm.misses = 0 → s.dev.hlm.wtr = some t →
    (∃ r l, s.dev.hlm.reports = r :: l ∧ r.clean = true ∧ r.state = hActive) →
    (s.dev.wtrTicks ≤ tickSub s.dev.tck.now t → s.Does .reclaimSet (s.dev.wr HLM_STATUS.RECLAIM 1)) ∧
    (tickSub s.dev.tck.now t < s.dev.wtrTicks → s.Does .reclaimSet s.dev)) ∧
  (∀ s : State, s.Ready →
    let x := s.dev.rdPair HLM_HANDOVER_LO.TICK HLM_HANDOVER_HI.TICK
    (x = 0 ∨ x ≠ s.dev.tck.now → s.Does .plannedHandover s.dev) ∧
    (x ≠ 0 → x = s.dev.tck.now → s.dev.rd HLM_STATUS.STATE ≠ hActive →
      s.Does .plannedHandover (s.dev.wrTick HLM_HANDOVER_LO.TICK HLM_HANDOVER_HI.TICK 0)) ∧
    (x ≠ 0 → x = s.dev.tck.now → s.dev.rd HLM_STATUS.STATE = hActive →
      s.Runs .plannedHandover ((s.dev.helmRelease 6 8).wrTick HLM_HANDOVER_LO.TICK HLM_HANDOVER_HI.TICK 0))) ∧
  (∀ s : State, s.Ready →
    (s.dev.tck.now % 16777216 ≠ 0 ∨ s.dev.fwu.split = true → s.Does .navRoleSwap s.dev) ∧
    (s.dev.tck.now % 16777216 = 0 → s.dev.fwu.split = false → s.dev.hlm.navSync = [] →
      s.Does .navRoleSwap ((s.dev.wr HLM_NAV_STATUS.DRIVER_A (1 - s.dev.rd HLM_NAV_STATUS.DRIVER_A)).wr HLM_NAV_STATUS.DRIVER_T
        (1 - s.dev.rd HLM_NAV_STATUS.DRIVER_T)))) ∧
  (∀ (s : State) (die : Nat), s.Ready → die < 2 → s.dev.fwu.split = false →
    s.Runs (.navMismatch die true true) (s.dev.fault (0x340 + die) fatal 0x04) ∧
    s.Runs (.navMismatch die false false)
      ((({ s.dev with hlm := { s.dev.hlm with navSync := die :: s.dev.hlm.navSync.filter (· != die) } }.wr HLM_NAV_STATUS.RESYNC 1).bump
        HLM_NAV_FAULT.COUNT).fault (0x340 + die) corrected 0x04)) ∧
  (∀ (s : State) (die : Nat), s.Ready → die < 2 → s.dev.flt.recov = [] →
    (s.dev.hlm.navSync.contains die = false → s.Does (.navResyncDone die) s.dev) ∧
    (s.dev.hlm.navSync.contains die = true →
      let l := s.dev.hlm.navSync.filter (· != die)
      s.Does (.navResyncDone die) ({ s.dev with hlm := { s.dev.hlm with navSync := l } }.wr HLM_NAV_STATUS.RESYNC
        (b2n (!l.isEmpty)))))

/-- FAULT_DETECT (R377 to R383): a source, class or event that the tables do not allow is no detection; any other is recorded; one that
alters an output marks the running tick FAULT; an uncorrectable die-to-die error (R22, R380) loses what the transfer carried toward that receiver, is CONTAINED with the tick, marks the
tick and counts; an
uncorrectable word of a log empties its slot (R382). FAULT_HALT (R386): a halt that a boundary has let through sets HALTED; else nothing
happens. QUENCH_WINDOW_CLOSE (R389): windows whose closing tick has begun are closed. -/
def Obligations.FaultDetections : Prop :=
  (∀ (s : State) (src cls ev det : Nat) (al : Bool) (lost : List D2dLoss), s.dev.dead = false → s.dev.flt.todo = [] → src < 4096 → cls < 4 → ev < 256 →
    faultOk src cls ev = false → s.Does (.faultDetect src cls ev det al lost) s.dev) ∧
  (∀ (s : State) (src cls ev det : Nat) (al : Bool) (lost : List D2dLoss), s.dev.dead = false → src < 4096 → cls < 4 → ev < 256 →
    faultOk src cls ev = true → ev ≠ 0x13 → ev ≠ 0x02 ∨ src ≠ 0x3F0 ∧ src ≠ 0x3F1 →
    let d := s.dev.fault src cls ev det
    s.Runs (.faultDetect src cls ev det al lost) (if al then d.markFault d.tck.now else d)) ∧
  (∀ (s : State) (src cls det : Nat) (al : Bool) (lost : List D2dLoss), s.dev.dead = false → src < 4096 → cls < 4 →
    faultOk src cls 0x13 = true →
    (src = 0x2C0 ∨ src = 0x2C1 → let d := (lost.filter (D2dLoss.toward src)).foldl Dev.lose s.dev
      s.Runs (.faultDetect src cls 0x13 det al lost)
        (((d.fault src contained 0x13 (d.tck.now * 2 ^ 48)).mark d.tck.now 3).bump TCK_EXP_CNT_D2D.COUNT)) ∧
    (src ≠ 0x2C0 → src ≠ 0x2C1 → s.Runs (.faultDetect src cls 0x13 det al lost) s.dev)) ∧
  (∀ (s : State) (cls det : Nat) (al : Bool) (lost : List D2dLoss), s.dev.dead = false → faultOk 0x3F0 cls 0x02 = true → cls < 4 →
    s.Runs (.faultDetect 0x3F0 cls 0x02 det al lost)
      (Dev.fault { s.dev with flt := { s.dev.flt with logA := SMap.erase s.dev.flt.logA (det % 2048) } } 0x3F0 cls 0x02 0)) ∧
  (∀ s : State, s.dev.dead = false → s.dev.flt.todo = [] →
    (s.dev.flt.pendHalt = 2 ∨ (s.dev.flt.pendHalt = 1 ∧ s.dev.tck.running = false) →
      s.Does .faultHalt ({ s.dev with flt := { s.dev.flt with pendHalt := 0 } }.wr FLT_STATUS.HALTED 1)) ∧
    (s.dev.flt.pendHalt = 0 ∨ (s.dev.flt.pendHalt = 1 ∧ s.dev.tck.running = true) → s.Does .faultHalt s.dev)) ∧
  (∀ s : State, s.dev.dead = false → s.dev.flt.todo = [] → s.Does .quenchWindowClose
    { s.dev with flt := { s.dev.flt with windows := s.dev.flt.windows.filter fun w => tickFuture w.close s.dev.tck.now } })

/-- FAULT_CLEAR_ONE, FAULT_CLEAR_ALL (R385): the record of the half that FLT_CLEAR_SEQ names is cleared; every record of the named classes
is, and FATAL empties the half's FATAL store. SOFTWARE_REVOKE (R391): with the key, a holder that can be granted is revoked; any other sets
CFG_ERR. HOLDER_REGRANT: at a boundary with no audit running or wanted, holders revoked by software are granted again; else nothing.
REACTION_WRITE (R387): an entry whose codes are allowed is taken; one that is not sets CFG_ERR; of a source with no entry nothing happens.
FAULT_INJECT_RECORD, SINGLE_BIT, DOUBLE_BIT (R394): without a test mode that permits it nothing happens; with it the register shows the
request, and a record counts and is logged as injected, or bits arm the source's next word and count; a request that is not valid sets
CFG_ERR. TEST_TOKEN_CHECK, TEST_TOKEN_CHECK_DONE (R392, R393): a check begins with the token's code; while one runs, nothing happens; a good
token opens test mode with its permissions and holds the helm, a bad one counts as refused. -/
def Obligations.FaultControl : Prop :=
  (∀ s : State, s.Open →
    let seq := s.dev.rd FLT_CLEAR_SEQ.SEQ
    let g (r : FltRec) : FltRec := if r.seq = seq then { r with cleared := true } else r
    s.Does (.faultClearOne 0) { s.dev with flt := { s.dev.flt with
      logA := s.dev.flt.logA.map (fun p => (p.1, g p.2)), fatA := s.dev.flt.fatA.map g } } ∧
    s.Does (.faultClearOne 1) { s.dev with flt := { s.dev.flt with
      logT := s.dev.flt.logT.map (fun p => (p.1, g p.2)), fatT := s.dev.flt.fatT.map g } }) ∧
  (∀ (s : State) (cs : Nat), s.Open → cs < 8 →
    let g (r : FltRec) : FltRec := if bit cs (r.cls - 1) then { r with cleared := true } else r
    s.Does (.faultClearAll 0 cs) { s.dev with flt := { s.dev.flt with
      logA := s.dev.flt.logA.map (fun p => (p.1, g p.2)), fatA := if bit cs 2 then [] else s.dev.flt.fatA.map g } } ∧
    s.Does (.faultClearAll 1 cs) { s.dev with flt := { s.dev.flt with
      logT := s.dev.flt.logT.map (fun p => (p.1, g p.2)), fatT := if bit cs 2 then [] else s.dev.flt.fatT.map g } }) ∧
  (∀ (s : State) (h k : Nat), s.Open → h < 65536 → k < 65536 →
    (k = 0xC3E1 → grantable h = true → s.Runs (.softwareRevoke h k) { s.dev with flt := { s.dev.flt with todo := [.revoke h true] } }) ∧
    (k ≠ 0xC3E1 ∨ grantable h = false → s.Does (.softwareRevoke h k) (s.dev.wr FLT_STATUS.CFG_ERR 1))) ∧
  (∀ s : State, s.Ready →
    (s.dev.tck.slot = 0 → s.dev.rd DPT_AUD_STATUS.PHASE = 0 → s.dev.dpt.audWanted = false → s.Does .holderRegrant
      { s.dev with flt := { s.dev.flt with revoked := s.dev.flt.revoked.filter fun p => !p.2 } }) ∧
    (s.dev.tck.slot ≠ 0 ∨ s.dev.rd DPT_AUD_STATUS.PHASE ≠ 0 ∨ s.dev.dpt.audWanted = true → s.Does .holderRegrant s.dev)) ∧
  (∀ (s : State) (src v : Nat), s.Open → src < 4096 → v < 4294967296 →
    let good := reactOk src (bits v 0 3) = true ∧ reactOk src (bits v 4 3) = true ∧ (bits v 8 3 = 4 ∨ bits v 8 3 = 5)
    (srcListed src = false → s.Does (.reactionWrite src v) s.dev) ∧
    (srcListed src = true → good →
      s.Does (.reactionWrite src v) (s.dev.setReg (FLT_REACT.addr src) (BitVec.ofNat 32 (v &&& 0x1777)))) ∧
    (srcListed src = true → ¬ good → s.Does (.reactionWrite src v) (s.dev.wr FLT_STATUS.CFG_ERR 1))) ∧
  (∀ (s : State) (src cls ev : Nat), s.Open → src < 4096 → cls < 4 → ev < 256 →
    (s.dev.injOpen = false → s.Does (.faultInjectRecord src cls ev) s.dev ∧ s.Does (.faultInjectSingleBit src cls ev) s.dev ∧
      s.Does (.faultInjectDoubleBit src cls ev) s.dev) ∧
    (s.dev.injOpen = true →
      let d (k : Nat) := s.dev.wrs [(FLT_INJ.SRC, src), (FLT_INJ.CLASS, cls), (FLT_INJ.TYPE, k), (FLT_INJ.EVENT, ev)]
      (faultOk src cls ev = false → s.Does (.faultInjectRecord src cls ev) ((d 0).wr FLT_STATUS.CFG_ERR 1)) ∧
      (faultOk src cls ev = true →
        s.Runs (.faultInjectRecord src cls ev) (((d 0).bump FLT_INJECTED.COUNT).faultInj src cls ev 0 true)) ∧
      (srcStore src = false → s.Does (.faultInjectSingleBit src cls ev) ((d 1).wr FLT_STATUS.CFG_ERR 1) ∧
        s.Does (.faultInjectDoubleBit src cls ev) ((d 2).wr FLT_STATUS.CFG_ERR 1)) ∧
      (srcStore src = true →
        s.Does (.faultInjectSingleBit src cls ev)
          (Dev.bump { d 1 with flt := { s.dev.flt with injArm := s.dev.flt.injArm ++ [(src, 1)] } } FLT_INJECTED.COUNT) ∧
        s.Does (.faultInjectDoubleBit src cls ev)
          (Dev.bump { d 2 with flt := { s.dev.flt with injArm := s.dev.flt.injArm ++ [(src, 2)] } } FLT_INJECTED.COUNT)))) ∧
  (∀ s : State, s.Open →
    (s.dev.flt.tokenBusy ≠ none → s.Does .testTokenCheck s.dev) ∧
    (s.dev.flt.tokenBusy = none →
      let v := s.dev.tokenCode s.dev.tokenBytes + 256 * ofBe (sliceD 0#8 s.dev.tokenBytes 24 4)
      s.Does .testTokenCheck ({ s.dev with flt := { s.dev.flt with tokenBusy := some v } }.wr FLT_TEST_STATUS.BUSY 1))) ∧
  (∀ s : State, s.Ready →
    (s.dev.flt.tokenBusy = none → s.Does .testTokenCheckDone s.dev) ∧
    (∀ v, s.dev.flt.tokenBusy = some v →
      let d := s.dev.wrs [(FLT_TEST_STATUS.BUSY, 0), (FLT_TEST_STATUS.DONE, 1), (FLT_TEST_STATUS.CODE, v % 256)]
      (v % 256 = 0 → s.Does .testTokenCheckDone
        (Dev.wrs { d with flt := { s.dev.flt with tokenBusy := none, perms := v / 256 } } [(FLT_STATUS.TESTMODE, 1), (HLM_CTRL.HOLD, 1)])) ∧
      (v % 256 ≠ 0 → s.Does .testTokenCheckDone (Dev.wr { d with flt := { s.dev.flt with
        tokenBusy := none, tokenRefused := min 8 (s.dev.flt.tokenRefused + 1) } } FLT_TEST_STATUS.ERR 1))))

/-- SWEEP_START (R402): with a sweep running BUSY_ERR sets, else one waits. SWEEP_PERIODIC (R403): not due, nothing happens; due in a FULL
tick with none running one begins; due in a LEAN tick it is skipped and counted. SWEEP_DONE: with no sweep, or readings left, nothing
happens. USER_PAGE_READ, USER_PAGE_WRITE (R407): a read of a page not open, or reserved, and any write count in SND_USER_DENY, the read
answered with zeros and the write reported. PHASE_ADJUST (R409): at the root the correction joins the pending one; at a member nothing.
OFFSET_COMMIT (R410): the staged offset waits for the boundary. PPS_IN_EDGE, CLK10M_EDGE (R411): an enabled edge is captured; another is not.
PPS_OUT_RISE: when the time of day comes to a whole second in the tick, enabled, PPS_OUT rises; PPS_OUT_FALL: WIDTH ticks later it
falls. -/
def Obligations.SoundingsAndSextant : Prop :=
  (∀ s : State, s.Open →
    (s.dev.on SND_STATUS.BUSY = true → s.Does .sweepStart (s.dev.wr SND_STATUS.BUSY_ERR 1)) ∧
    (s.dev.on SND_STATUS.BUSY = false →
      s.Does .sweepStart { s.dev with snd := { s.dev.snd with start := max 1 s.dev.snd.start } })) ∧
  (∀ s : State, s.Ready →
    (s.dev.sweepDue = false → s.Does .sweepPeriodic s.dev) ∧
    (s.dev.sweepDue = true → s.dev.variantOf s.dev.tck.now ≠ 0 →
      s.Does .sweepPeriodic ((s.dev.bump SND_SWEEP_SKIP.COUNT).wr SND_STATUS.SKIP 1)) ∧
    (s.dev.sweepDue = true → s.dev.variantOf s.dev.tck.now = 0 → s.dev.snd.sweep = none →
      s.Does .sweepPeriodic s.dev.sweepBegin)) ∧
  (∀ s : State, s.Ready → s.dev.snd.sweep = none → s.Does .sweepDone s.dev) ∧
  (∀ (s : State) (w : Sweep), s.Ready → s.dev.snd.sweep = some w →
    (w.pos < w.len → s.Does .sweepDone s.dev) ∧
    (w.len ≤ w.pos →
      let d := { s.dev with snd := { s.dev.snd with sweep := none, wrapped := [] } }
      s.Runs .sweepDone (((d.wr SND_STATUS.BUSY 0).bump SND_SWEEPS.COUNT).sndRecord 0 0x01
        (b2n w.snap + 2 * b2n (s.dev.sweepWrapped w.len)) 0 w.tick (if w.snap then 0 else w.cyc.getD 0)
        (w.vals.reverse.flatMap (beBytes 8))))) ∧
  (∀ (s : State) (off len : Nat), s.Open → 14680064 ≤ off → off < 16777216 → 1 ≤ len →
    (s.dev.pageOpen ((off - 14680064) / 4096) = false → s.Does (.userPageRead off len)
      (((s.dev.bump SND_USER_DENY.COUNT).wr SND_STATUS.DENY 1).emit (.cpl 0 (List.replicate len 0#8)))) ∧
    (s.dev.pageOpen ((off - 14680064) / 4096) = true → off % 4 = 0 → len = 4 → s.Does (.userPageRead off len)
      (s.dev.emit (.cpl 0 (leBytes 4 (s.dev.pageWord ((off - 14680064) / 4096) (off % 4096))))))) ∧
  (∀ s : State, s.Open → s.Does .userPageWrite (((s.dev.bump SND_USER_DENY.COUNT).wr SND_STATUS.DENY 1).emit (.aer 0))) ∧
  (∀ (s : State) (adj : Nat), s.Open → adj < 4294967296 →
    (s.dev.isRoot = false → s.Does (.phaseAdjust adj) s.dev) ∧
    (s.dev.isRoot = true →
      let p := s.dev.sxt.phase + 2 * sInt 32 adj
      s.Does (.phaseAdjust adj) ({ s.dev with sxt := { s.dev.sxt with phase := p } }.wr SXT_STATUS.PHASE_BUSY (b2n (p != 0))))) ∧
  (∀ s : State, s.Open → s.Does .offsetCommit (s.dev.wr SXT_STATUS.OFS_PEND 1)) ∧
  (∀ (s : State) (f : Bool) (t : Nat), s.dev.dead = false → s.dev.flt.todo = [] →
    (s.dev.on SXT_CTRL.PPS_IN_EN = true → s.dev.on SXT_CTRL.PPS_IN_POL = f →
      s.Does (.ppsInEdge f t) ((s.dev.wrTick SXT_PPS_CAP_LO.TIME SXT_PPS_CAP_HI.TIME t).wr SXT_STATUS.PPS_IN_SEEN 1)) ∧
    (s.dev.on SXT_CTRL.PPS_IN_EN = false ∨ s.dev.on SXT_CTRL.PPS_IN_POL = !f → s.Does (.ppsInEdge f t) s.dev) ∧
    (s.dev.on SXT_CTRL.CLK10M_EN = true → s.Does (.clk10mEdge t) (s.dev.wr SXT_10M_PHASE.PHASE (t % 400))) ∧
    (s.dev.on SXT_CTRL.CLK10M_EN = false → s.Does (.clk10mEdge t) s.dev)) ∧
  (∀ s : State, s.dev.dead = false → s.dev.flt.todo = [] →
    (∀ k, s.dev.on SXT_CTRL.PPS_OUT_EN = true → s.dev.todUnits ≤ 4000000000 * k → 4000000000 * k < s.dev.todUnits + 1536 →
      s.Does .ppsOutRise ({ s.dev with sxt := { s.dev.sxt with rise := some s.dev.tck.now } }.emit (.pps true s.dev.tck.now))) ∧
    (s.dev.on SXT_CTRL.PPS_OUT_EN = false → s.Does .ppsOutRise s.dev)) ∧
  (∀ s : State, s.dev.dead = false → s.dev.flt.todo = [] →
    (s.dev.sxt.rise = none → s.Does .ppsOutFall s.dev) ∧
    (∀ t, s.dev.sxt.rise = some t → max 1 (s.dev.rd SXT_PPS_WIDTH.TICKS) ≤ tickSub s.dev.tck.now t →
      s.Does .ppsOutFall ({ s.dev with sxt := { s.dev.sxt with rise := none } }.emit (.pps false s.dev.tck.now))) ∧
    (∀ t, s.dev.sxt.rise = some t → tickSub s.dev.tck.now t < max 1 (s.dev.rd SXT_PPS_WIDTH.TICKS) → s.Does .ppsOutFall s.dev))

/-- FW_GO_HDR (R416, R419): away from IDLE refused with 0x0F; from IDLE the source's header is taken up and the state is HDR_CHECK; with SRC 2
an OFFER starts it. FW_HEADER_CHECK_DONE: in another state nothing; a header that fails is refused with its code, the state IDLE; one that passes makes the
state STAGING, the secondary bank erased for it unless the image is for a device that waits to boot.
FW_DATA_BLOCK (R419): away from a window staging refused with 0x0F; a block beyond the payload is ignored; one inside is moved and shows
in BLOCKS. FW_STAGING_DONE: in another state, or with payload outstanding, nothing; a payload whose digest fails is refused with
0x0A; else the header is programmed last, the state is STAGED and STG_VER shows. FLASH_READ, FLASH_PROGRAM, FLASH_ERASE (R418): one that finds
another in progress is refused with 0x03, else it starts. FLASH_CMD_DONE: with none in progress nothing happens; a refused one ends with its
code, a failed one with 0x02, and one that ends well has read, programmed or erased. -/
def Obligations.UpdateStaging : Prop :=
  (∀ (s : State) (src : Nat), s.Open → src < 4 → s.dev.rd FWU_STATUS.STATE ≠ fIdle →
    s.Does (.fwGoHdr src) ((s.dev.wr FWU_CTRL.SRC src).fwuRefuse 0x0F)) ∧
  (∀ s : State, s.Open → s.dev.rd FWU_STATUS.STATE = fIdle → s.Does (.fwGoHdr 2) (s.dev.wr FWU_CTRL.SRC 2) ∧
    s.Does (.fwGoHdr 1) (Dev.setFState { s.dev.wr FWU_CTRL.SRC 1 with fwu := { s.dev.fwu with
      src := 1, hdr := [], blocks := [], next := 0, reading := false, cxlErr := false, boot := s.dev.bootWaits } } fHdrCheck) ∧
    s.Does (.fwGoHdr 0) (Dev.setFState { s.dev.wr FWU_CTRL.SRC 0 with fwu := { s.dev.fwu with
      src := 0, hdr := (List.range 2048).flatMap (fun n => beBytes 4 ((s.dev.wr FWU_CTRL.SRC 0).rd (FWU_HDR.DATA n))), blocks := [],
      next := 0, reading := false, cxlErr := false, boot := s.dev.bootWaits } } fHdrCheck)) ∧
  (∀ s : State, s.Ready →
    (s.dev.rd FWU_STATUS.STATE ≠ fHdrCheck → s.Does .fwHeaderCheckDone s.dev) ∧
    (s.dev.rd FWU_STATUS.STATE = fHdrCheck → s.dev.fwu.src ≠ 2 → s.dev.fwu.cxlErr = false → 8192 ≤ s.dev.fwu.hdr.length →
      s.dev.hdrCheck s.dev.fwu.boot s.dev.fwu.hdr ≠ 0 → s.Does .fwHeaderCheckDone
        ((s.dev.fwuRefuse (s.dev.hdrCheck s.dev.fwu.boot s.dev.fwu.hdr)).setFState fIdle)) ∧
    (s.dev.rd FWU_STATUS.STATE = fHdrCheck → s.dev.fwu.src ≠ 2 → s.dev.fwu.cxlErr = false → 8192 ≤ s.dev.fwu.hdr.length →
      s.dev.hdrCheck s.dev.fwu.boot s.dev.fwu.hdr = 0 →
      let d := (Dev.setFState { s.dev with fwu := { s.dev.fwu with blocks := [], next := 0, mem := [], memOk := false } } fStaging).wr
        FWU_PROGRESS.BLOCKS 0
      (s.dev.fwu.boot = true → s.Runs .fwHeaderCheckDone d) ∧
      (s.dev.fwu.boot = false → s.Runs .fwHeaderCheckDone ((d.flashErase (bankBase d.secondary) 8192).flashErase
        (bankBase (d.flashErase (bankBase d.secondary) 8192).secondary + 0x2000)
        (ceilDiv (0x2000 + (hdrImg s.dev.fwu.hdr).payload) 65536 * 65536 - 0x2000))))) ∧
  (∀ (s : State) (b : Nat), s.Open → b < 8192 →
    let d := s.dev.wr FWU_DATA_CMD.BLOCK b
    (s.dev.rd FWU_STATUS.STATE ≠ fStaging ∨ s.dev.fwu.src ≠ 0 → s.Does (.fwDataBlock b) (d.fwuRefuse 0x0F)) ∧
    (s.dev.rd FWU_STATUS.STATE = fStaging → s.dev.fwu.src = 0 → (hdrImg s.dev.fwu.hdr).payload ≤ 4096 * b →
      s.Does (.fwDataBlock b) d) ∧
    (s.dev.rd FWU_STATUS.STATE = fStaging → s.dev.fwu.src = 0 → 4096 * b < (hdrImg s.dev.fwu.hdr).payload →
      let e := d.putPayload (4096 * b) ((List.range 1024).flatMap fun n => beBytes 4 (d.rd (FWU_DATA.DATA n)))
      let blocks := b :: e.fwu.blocks.filter (· != b)
      s.Runs (.fwDataBlock b) (Dev.wr { e with fwu := { e.fwu with blocks } } FWU_PROGRESS.BLOCKS blocks.length))) ∧
  (∀ (s : State) (ok : Bool), s.Ready →
    (s.dev.rd FWU_STATUS.STATE ≠ fStaging → s.Does (.fwStagingDone ok) s.dev) ∧
    (s.dev.rd FWU_STATUS.STATE = fStaging → s.dev.fwu.cxlErr = false → s.dev.payloadIn = false → s.Does (.fwStagingDone ok) s.dev) ∧
    (s.dev.rd FWU_STATUS.STATE = fStaging → s.dev.fwu.cxlErr = false → s.dev.payloadIn = true → s.dev.fwu.boot = false →
      s.dev.fwu.src ≠ 2 →
      (digestOk s.dev.fwu.hdr s.dev.payloadMoved = false →
        s.Does (.fwStagingDone true) ((s.dev.fwuRefuse 0x0A).setFState fIdle)) ∧
      (digestOk s.dev.fwu.hdr s.dev.payloadMoved = true → s.Runs (.fwStagingDone true)
        (((s.dev.flashProgram (bankBase s.dev.secondary) s.dev.fwu.hdr).setFState fStaged).fwuDone.wr FWU_STG_VER.VERSION
          (hdrImg s.dev.fwu.hdr).version)))) ∧
  (∀ (s : State) (a : Nat), s.Open → a < 268435456 →
    let d := s.dev.wr FWU_FL_ADDR.ADDR a
    (s.dev.on FWU_FL_STATUS.BUSY = true → ∀ c ∈ [Instr.flashRead a, .flashProgram a, .flashErase a],
      s.Does c ((d.wr FWU_FL_STATUS.ERR 1).wr FWU_FL_STATUS.CODE 0x03)) ∧
    (s.dev.on FWU_FL_STATUS.BUSY = false → ∀ p ∈ [(Instr.flashRead a, 1), (.flashProgram a, 2), (.flashErase a, 3)],
      let fl : FlCmd := { op := p.2, addr := d.rd FWU_FL_ADDR.ADDR,
                          data := (List.range 64).flatMap fun n => beBytes 4 (d.rd (FWU_DATA.DATA n)),
                          code := if p.2 = 1 then 0 else d.flashRefusal (d.rd FWU_FL_ADDR.ADDR) }
      s.Does p.1 (Dev.wr { d with fwu := { d.fwu with fl := some fl } } FWU_FL_STATUS.BUSY 1))) ∧
  (∀ (s : State) (ok : Bool), s.Ready →
    (s.dev.fwu.fl = none → s.Does (.flashCmdDone ok) s.dev) ∧
    (∀ c, s.dev.fwu.fl = some c →
      let d := { s.dev with fwu := { s.dev.fwu with fl := none } }.wr FWU_FL_STATUS.BUSY 0
      (c.code ≠ 0 → s.Does (.flashCmdDone ok) ((d.wr FWU_FL_STATUS.ERR 1).wr FWU_FL_STATUS.CODE c.code)) ∧
      (c.code = 0 → s.Does (.flashCmdDone false) ((d.wr FWU_FL_STATUS.ERR 1).wr FWU_FL_STATUS.CODE 0x02)) ∧
      (c.code = 0 → c.op = 2 → s.Runs (.flashCmdDone true)
        (((d.flashProgram c.addr c.data).wr FWU_FL_STATUS.DONE 1).wr FWU_FL_STATUS.CODE 0)) ∧
      (c.code = 0 → c.op = 3 → s.Runs (.flashCmdDone true)
        (((d.flashErase (c.addr / 65536 * 65536) 65536).wr FWU_FL_STATUS.DONE 1).wr FWU_FL_STATUS.CODE 0))))

/-- FW_LOAD (R425): from STAGED the pairs split and the state is LOADING; else refused with 0x0F. FW_LOAD_DONE: a core's error ends the load
with 0x10, a bad digest with 0x0A, else the state is LOADED. FW_ACTIVATE (R424, R426): not LOADED, refused with 0x0F; a tick less than
HOLEAD + 2 ahead with 0x16; else the tick is kept. FW_ABORT: a staging is given up with 0x12, a load or a handover ends with 0x12, else refused.
FW_REVERT (R431): in TRIAL with an old image that reads the settings the load starts, else refused with 0x0F or 0x14. FW_SEND (R422): with
a transfer running refused with 0x0F, else the bank's image is offered. FW_HANDOVER_START (R426): at HOLEAD ticks before the activation the state is HANDOVER; else nothing.
FW_HANDOVER_READY: a die's record is kept and its READY sets. FW_SWITCH (R427): at the tick, both READY, the image runs and the drivers
swap; one not READY, 0x11 and back to LOADED. FW_RESYNC_DONE: TRIAL, after a revert STAGED. FW_CONFIRM (R430): the wrong key does nothing; in
TRIAL the primary's header is erased. FW_CONFIRM_DONE: the secondary is copied, and the state is IDLE. -/
def Obligations.UpdateActivation : Prop :=
  (∀ s : State, s.Open →
    (s.dev.rd FWU_STATUS.STATE = fStaged → s.Does .fwLoad
      ((Dev.setFState { s.dev with fwu := { s.dev.fwu with revert := false, split := true, load := none, x := none } } fLoading).wr
        FWU_PROGRESS.BLOCKS 0)) ∧
    (s.dev.rd FWU_STATUS.STATE ≠ fStaged → s.Does .fwLoad (s.dev.fwuRefuse 0x0F))) ∧
  (∀ (s : State) (err : Bool), s.Ready →
    (s.dev.rd FWU_STATUS.STATE ≠ fLoading → s.Does (.fwLoadDone err) s.dev) ∧
    (s.dev.rd FWU_STATUS.STATE = fLoading → s.Does (.fwLoadDone true) (s.dev.loadEnd 0x10)) ∧
    (s.dev.rd FWU_STATUS.STATE = fLoading →
      let h := s.dev.bankHdr s.dev.loadBank
      (digestOk h (s.dev.bankPayload s.dev.loadBank) = false → s.Does (.fwLoadDone false) (s.dev.loadEnd 0x0A)) ∧
      (digestOk h (s.dev.bankPayload s.dev.loadBank) = true → s.Does (.fwLoadDone false)
        (((Dev.setFState { s.dev with fwu := { s.dev.fwu with load := some (hdrImg h) } } fLoaded).wr FWU_PROGRESS.BLOCKS
          ((hdrImg h).payload / 4096)).fwuDone)))) ∧
  (∀ s : State, s.Open →
    (s.dev.fwu.load = none ∨ s.dev.rd FWU_STATUS.STATE ≠ fLoaded → s.Does .fwActivate (s.dev.fwuRefuse 0x0F)) ∧
    (∀ i, s.dev.fwu.load = some i → s.dev.rd FWU_STATUS.STATE = fLoaded → s.dev.hdrCheckEnv i = 0 →
      let x := s.dev.rdPair FWU_ACT_TICK_LO.TICK FWU_ACT_TICK_HI.TICK
      (tickFuture x s.dev.tck.now = false ∨ tickSub x s.dev.tck.now < s.dev.holead + 2 →
        s.Does .fwActivate (s.dev.fwuRefuse 0x16)) ∧
      (tickFuture x s.dev.tck.now = true → s.dev.holead + 2 ≤ tickSub x s.dev.tck.now →
        s.Does .fwActivate { s.dev with fwu := { s.dev.fwu with x := some x } }))) ∧
  (∀ s : State, s.Open →
    (s.dev.rd FWU_STATUS.STATE = fIdle → s.Does .fwAbort (s.dev.fwuRefuse 0x0F)) ∧
    (s.dev.rd FWU_STATUS.STATE = fStaging → s.dev.fwu.src ≠ 2 → s.Does .fwAbort ((s.dev.fwuFail 0x12).setFState fIdle)) ∧
    (s.dev.rd FWU_STATUS.STATE = fLoading ∨ s.dev.rd FWU_STATUS.STATE = fLoaded ∨ s.dev.rd FWU_STATUS.STATE = fHandover →
      s.Does .fwAbort (s.dev.loadEnd 0x12))) ∧
  (∀ s : State, s.Open →
    (s.dev.rd FWU_STATUS.STATE ≠ fTrial → s.Does .fwRevert (s.dev.fwuRefuse 0x0F)) ∧
    (∀ o r, s.dev.rd FWU_STATUS.STATE = fTrial → s.dev.fwu.old = some o → s.dev.fwu.run = some r →
      (o.setfLow ≤ r.setfProd → r.setfProd ≤ o.setfHigh → s.Does .fwRevert
        ((Dev.setFState { s.dev with fwu := { s.dev.fwu with revert := true, split := true, load := none, x := none } } fLoading).wr
          FWU_PROGRESS.BLOCKS 0)) ∧
      (r.setfProd < o.setfLow ∨ o.setfHigh < r.setfProd → s.Does .fwRevert (s.dev.fwuRefuse 0x14)))) ∧
  (∀ (s : State) (dst b : Nat), s.Open → dst < 65536 → b < 2 →
    let d := (s.dev.wr FWU_RELAY.DST dst).wr FWU_CTRL.SBANK b
    (s.dev.fwu.tx ≠ none → s.Does (.fwSend dst b) (d.fwuRefuse 0x0F)) ∧
    (s.dev.fwu.tx = none →
      let bank := if b = 0 then s.dev.primary else s.dev.secondary
      let x : TxXfer := { peer := dst, xid := s.dev.fwu.xid, bank, len := 8192 + (hdrImg (s.dev.bankHdr bank)).payload, next := 0,
                          acked := 0, accepted := false, last := s.dev.tck.now, tries := 0 }
      s.Runs (.fwSend dst b) (Dev.txPump
        { d with fwu := { d.fwu with tx := some x, xid := (d.fwu.xid + 1) % 65536 } } 74))) ∧
  (∀ s : State, s.Ready →
    (s.dev.fwu.x = none → s.Does .fwHandoverStart s.dev) ∧
    (s.dev.rd FWU_STATUS.STATE = fLoaded → s.dev.fwu.x = some (tickAdd s.dev.tck.now s.dev.holead) →
      s.Does .fwHandoverStart ((s.dev.setFState fHandover).wr FWU_STATUS.HO_REQ 1))) ∧
  (∀ (s : State) (r : List Byte), s.Ready → r.length ≤ 4194304 → s.dev.rd FWU_STATUS.STATE = fHandover →
    s.Does (.fwHandoverReady 0 r) ({ s.dev with fwu := { s.dev.fwu with hoA := r } }.wr FWU_HO.READY_A 1) ∧
    s.Does (.fwHandoverReady 1 r) ({ s.dev with fwu := { s.dev.fwu with hoT := r } }.wr FWU_HO.READY_T 1)) ∧
  (∀ s : State, s.Ready →
    (s.dev.rd FWU_STATUS.STATE ≠ fHandover ∨ s.dev.fwu.x ≠ some s.dev.tck.now → s.Does .fwSwitch s.dev) ∧
    (s.dev.rd FWU_STATUS.STATE = fHandover → s.dev.fwu.x = some s.dev.tck.now →
      let d := { s.dev with fwu := { s.dev.fwu with x := none } }.wrs
        [(FWU_STATUS.HO_REQ, 0), (FWU_HO.READY_A, 0), (FWU_HO.READY_T, 0)]
      (s.dev.on FWU_HO.READY_A = false ∨ s.dev.on FWU_HO.READY_T = false →
        s.Does .fwSwitch ((d.fwuFail 0x11).setFState fLoaded)) ∧
      (∀ i, s.dev.on FWU_HO.READY_A = true → s.dev.on FWU_HO.READY_T = true → s.dev.fwu.load = some i → s.dev.fwu.revert = false →
        let e := { d with fwu := { d.fwu with
          old := s.dev.fwu.run, run := some i, load := none, held := s.dev.fwu.run.bind fun r => d.heldSlot r.setfProd } }
        let f := [0, 1].foldl (fun (d : Dev) die => d.wr (navDriver die) (1 - d.rd (navDriver die))) e
        s.Runs .fwSwitch (((f.wr FWU_RUN_VER.VERSION i.version).setFState fResync).versionSend)))) ∧
  (∀ s : State, s.Ready →
    (s.dev.rd FWU_STATUS.STATE ≠ fResync → s.Does .fwResyncDone s.dev) ∧
    (s.dev.rd FWU_STATUS.STATE = fResync → s.dev.fwu.revert = false → s.Does .fwResyncDone
      ((Dev.setFState { s.dev with fwu := { s.dev.fwu with split := false } } fTrial).fwuDone))) ∧
  (∀ (s : State) (k : Nat) (ok : Bool), s.Open → k < 65536 →
    (k ≠ 0x7E3B → s.Does (.fwConfirm k ok) s.dev) ∧
    (k = 0x7E3B → s.dev.rd FWU_STATUS.STATE = fTrial →
      let i := hdrImg (s.dev.bankHdr s.dev.secondary)
      let svn := max s.dev.fwu.svn i.svn
      let d := { s.dev with fwu := { s.dev.fwu with svn, revoked := s.dev.fwu.revoked ||| i.revoke } }.wrs
        [(FWU_FUSE.SVN, svn), (FWU_FUSE.REVOKED, s.dev.fwu.revoked ||| i.revoke)]
      s.Does (.fwConfirm k true) ((d.flashErase (bankBase d.primary) 8192).setFState fConfirming))) ∧
  (∀ s : State, s.Ready →
    (s.dev.rd FWU_STATUS.STATE ≠ fConfirming → s.Does .fwConfirmDone s.dev) ∧
    (s.dev.rd FWU_STATUS.STATE = fConfirming →
      let h := s.dev.bankHdr s.dev.secondary
      let p := s.dev.bankPayload s.dev.secondary
      let base := bankBase s.dev.primary
      let d := (s.dev.flashErase (base + 0x2000) (ceilDiv (0x2000 + p.length) 65536 * 65536 - 0x2000)).flashProgram (base + 0x2000) p
      let e := d.flashProgram base h
      s.Runs .fwConfirmDone (Dev.setFState { e with fwu := { e.fwu with held := none } } fIdle).fwuDone))

/-- An FWR message on a port that is not looked at does nothing (R344, R347). For this device: VERSION (R423) from an address that is no
neighbour is ignored, a neighbour's is shown and kept; OFFER (R422) from one that is no neighbour is refused with 0x0F and counted, a
neighbour's in IDLE is taken up and the state is HDR_CHECK; DATA in its place is kept, and shows in BLOCKS; ACCEPT, REFUSE, DATA, ACK, DONE, ABORT that
name no transfer are ignored; the first ACCEPT of the outgoing transfer starts its payload, an ACK with progress moves it on, REFUSE and DONE end it with the message's code; DATA out of
order changes nothing but its time; an ABORT of the incoming transfer gives up the staging; REQUEST is ignored while a transfer runs.
FW_RELAY_RESEND (R421): with no transfer, or before RTO ticks, nothing; then what has no ACK goes again, or after RETRY times
the transfer ends with 0x15. FW_RELAY_RX_TIMEOUT: after (RETRY + 1) x RTO ticks without a message the incoming transfer ends with 0x15. -/
def Obligations.Relay : Prop :=
  (∀ (s : State) (m : FwrMsg), s.dev.dead = false → s.dev.flt.todo = [] → m.port < 3 → s.dev.hears m.port = false →
    ∀ c ∈ [Instr.fwrVersion m, .fwrOffer m, .fwrAccept m, .fwrRefuse m, .fwrData m, .fwrAck m, .fwrDone m, .fwrAbort m, .fwrRequest m],
      s.Does c s.dev) ∧
  (∀ (s : State) (m : FwrMsg), s.dev.dead = false → m.port < 3 → s.dev.hears m.port = true → m.dst = 0 →
    let d := s.dev.heard m.port
    (d.nbrPort m.src = none → s.Runs (.fwrVersion m) d) ∧
    (∀ n, d.nbrPort m.src = some n → d.fwu.run = none →
      let e := d.wrs [(FWU_NBR_VER.VERSION n, m.arg), (FWU_NBR_INFO.PROTO n, ofBe (sliceD 0#8 m.data 4 2)), (FWU_NBR_INFO.VALID n, 1)]
      s.Runs (.fwrVersion m) { e with fwu := { e.fwu with
        nbrMin := SMap.set 0 e.fwu.nbrMin n (ofBe (sliceD 0#8 m.data 0 4)) } }) ∧
    (∀ n, d.rxOf m = none → d.nbrPort m.src = some n → d.fwu.rx = none → d.rd FWU_STATUS.STATE = fIdle → m.offset = 0 →
      s.Runs (.fwrOffer m) (Dev.setFState { d with fwu := { d.fwu with
        src := 2, hdr := m.data, blocks := [], next := 0, reading := false, cxlErr := false, boot := d.bootWaits,
        rx := some { peer := m.src, xid := m.xid, last := d.tck.now, chunks := 0 } } } fHdrCheck)) ∧
    (∀ r, d.rxOf m = some r → d.rd FWU_STATUS.STATE = fStaging → d.fwu.src = 2 → m.offset = 8192 + d.fwu.next →
      let p := (hdrImg d.fwu.hdr).payload
      let next := d.fwu.next + (m.data.take (p - d.fwu.next)).length
      next < p → r.chunks ≠ 15 →
      let e := d.putPayload d.fwu.next (m.data.take (p - d.fwu.next))
      s.Runs (.fwrData m) (Dev.wr { e with fwu := { e.fwu with next, rx := some { r with last := e.tck.now, chunks := r.chunks + 1 } } }
        FWU_PROGRESS.BLOCKS (next / 4096))) ∧
    (d.rxOf m = none → d.nbrPort m.src = none → s.Runs (.fwrOffer m)
      ((d.bump FWU_REFUSED.COUNT).fwrSend m.src 0x04 0x0F m.xid 0 0 [])) ∧
    (d.txOf m = none → s.Runs (.fwrAccept m) d ∧ s.Runs (.fwrRefuse m) d ∧ s.Runs (.fwrAck m) d ∧ s.Runs (.fwrDone m) d) ∧
    (d.rxOf m = none → s.Runs (.fwrData m) d) ∧
    (d.txOf m = none → d.rxOf m = none → s.Runs (.fwrAbort m) d) ∧
    (∀ x, d.txOf m = some x →
      (x.accepted = false → s.Runs (.fwrAccept m) (Dev.txPump { d with fwu := { d.fwu with
        tx := some { x with accepted := true, next := 8192, acked := 8192, last := d.tck.now, tries := 0 } } } 74)) ∧
      (x.accepted = true → s.Runs (.fwrAccept m) d) ∧
      s.Runs (.fwrRefuse m) (d.txEnd m.code) ∧ s.Runs (.fwrDone m) (d.txEnd m.code) ∧
      (d.rxOf m = none → s.Runs (.fwrAbort m) (d.txEnd m.code)) ∧
      (x.acked < m.arg → m.arg ≤ x.len → s.Runs (.fwrAck m) (Dev.txPump { d with fwu := { d.fwu with
        tx := some { x with acked := m.arg, next := max x.next m.arg, last := d.tck.now, tries := 0 } } } 74))) ∧
    (∀ r, d.rxOf m = some r → d.rd FWU_STATUS.STATE ≠ fStaging →
      s.Runs (.fwrData m) { d with fwu := { d.fwu with rx := some { r with last := d.tck.now } } }) ∧
    (∀ r, d.rxOf m = some r → d.rd FWU_STATUS.STATE = fHdrCheck → m.offset = d.fwu.hdr.length → s.Runs (.fwrOffer m)
      { d with fwu := { d.fwu with
        hdr := d.fwu.hdr ++ m.data.take (8192 - m.offset), rx := some { r with last := d.tck.now } } }) ∧
    (d.fwu.tx ≠ none → s.Runs (.fwrRequest m) d) ∧
    (d.fwu.tx = none → s.Runs (.fwrRequest m) (d.txStart m.src d.primary))) ∧
  (∀ s : State, s.Ready →
    (s.dev.fwu.tx = none → s.Does .fwRelayResend s.dev) ∧
    (∀ x, s.dev.fwu.tx = some x →
      (tickSub s.dev.tck.now x.last < s.dev.rto → s.Does .fwRelayResend s.dev) ∧
      (s.dev.rto ≤ tickSub s.dev.tck.now x.last → x.tries < s.dev.rd FWU_RELAY.RETRY → s.Runs .fwRelayResend
        (Dev.txPump { s.dev with fwu := { s.dev.fwu with
          tx := some { x with next := x.acked, last := s.dev.tck.now, tries := x.tries + 1 } } } 74)) ∧
      (s.dev.rto ≤ tickSub s.dev.tck.now x.last → s.dev.rd FWU_RELAY.RETRY ≤ x.tries → s.Runs .fwRelayResend
        ((s.dev.fwrSend x.peer 0x08 0x15 x.xid 0 0 []).txEnd 0x15)))) ∧
  (∀ s : State, s.Ready →
    (s.dev.fwu.rx = none → s.Does .fwRelayRxTimeout s.dev) ∧
    (∀ r, s.dev.fwu.rx = some r →
      (tickSub s.dev.tck.now r.last < (s.dev.rd FWU_RELAY.RETRY + 1) * s.dev.rto → s.Does .fwRelayRxTimeout s.dev) ∧
      ((s.dev.rd FWU_RELAY.RETRY + 1) * s.dev.rto ≤ tickSub s.dev.tck.now r.last → s.Runs .fwRelayRxTimeout
        (((s.dev.rxTell 0x08 0x15).rxEnd.fwuFail 0x15).setFState fIdle))))

/-- R7. The tick after 0xFFFF_FFFF_FFFF is 0, after any other number one more, and every tick number reckoned is below 2^48. At tick `n`
the target `t` is future exactly when `t - n` modulo 2^48 lies from 1 to 2^47 - 1: the tick in progress is not future, and a target 2^47 or
more ticks ahead counts as past. -/
def Obligations.FutureTicks : Prop :=
  (tickAdd 0xFFFFFFFFFFFF 1 = 0 ∧ ∀ n : Nat, n < 0xFFFFFFFFFFFF → tickAdd n 1 = n + 1) ∧
  (∀ t n : Nat, tickFuture t n = true ↔ 1 ≤ ((t : Int) - n) % 2 ^ 48 ∧ ((t : Int) - n) % 2 ^ 48 ≤ 2 ^ 47 - 1) ∧
  (∀ n : Nat, tickFuture n n = false) ∧
  (∀ n k : Nat, 2 ^ 47 ≤ k → k < 2 ^ 48 → tickFuture (n + k) n = false ∧ tickReached (n + k) n = true) ∧
  (∀ n k : Nat, tickAdd n k < 2 ^ 48 ∧ tickAdd n k % 2 ^ 48 = (n + k) % 2 ^ 48)

/-- R98, for the chart window and for the parse graph window, whose entries lie in the same bank. While OLD_BUSY, CHECKING or ARMED is 1, a
GO command that completes leaves the shadow bank as it is, shows code 0x01, sets CHT_STATUS.REFUSED and counts in CHT_REFUSED, which
saturates. An RD command completes with code 0 and the entry's first word in the data, whatever those bits are. -/
def Obligations.ShadowBankRefuses : Prop :=
  (∀ (s : State) (c : LoadCmd), s.Ready → s.dev.cht.ld = some c → c.go = true → c.rd = false →
    (s.dev.on CHT_STATUS.OLD_BUSY = true ∨ s.dev.on CHT_STATUS.CHECKING = true ∨ s.dev.on CHT_STATUS.ARMED = true) →
    s.Gets .chartLoadComplete fun e => e.rd CHT_LD_STATUS.CODE = 0x01 ∧ e.rd CHT_STATUS.REFUSED = 1 ∧
      e.rd CHT_REFUSED.COUNT = min (s.dev.rd CHT_REFUSED.COUNT + 1) 0xFFFFFFFF ∧ e.shadow = s.dev.shadow) ∧
  (∀ (s : State) (c : LoadCmd), s.Ready → s.dev.cht.prsLd = some c → c.go = true → c.rd = false →
    (s.dev.on CHT_STATUS.OLD_BUSY = true ∨ s.dev.on CHT_STATUS.CHECKING = true ∨ s.dev.on CHT_STATUS.ARMED = true) →
    s.Gets .parseLoadComplete fun e => e.rd PRS_LD_STATUS.CODE = 0x01 ∧ e.rd CHT_STATUS.REFUSED = 1 ∧
      e.rd CHT_REFUSED.COUNT = min (s.dev.rd CHT_REFUSED.COUNT + 1) 0xFFFFFFFF ∧ e.shadow = s.dev.shadow) ∧
  (∀ (s : State) (c : LoadCmd), s.Ready → s.dev.cht.ld = some c → c.go = false → c.rd = true → checkTarget c.addr = none →
    s.Gets .chartLoadComplete fun e => e.rd CHT_LD_STATUS.CODE = 0 ∧
      e.rd (CHT_LD_DATA.DATA 0) = (readEntry s.dev.shadow c.addr).toNat % 2 ^ 32) ∧
  (∀ (s : State) (c : LoadCmd), s.Ready → s.dev.cht.prsLd = some c → c.go = false → c.rd = true → prsTarget c.addr = 0 →
    s.Gets .parseLoadComplete fun e => e.rd PRS_LD_STATUS.CODE = 0)

/-- R68. A row's least energy class is the sum of the weights of its four opcodes, plus 1 if NXT chooses MATCH; it is at most 9. A VALID row that
the loader accepts has an ECLASS of at least it. -/
def Obligations.LeastEnergyClass : Prop :=
  (∀ row : BitVec 256, minClass row ≤ 9 ∧
    minClass row = ((opcUse (aluSlot (rowSlot row 0)).opc).map OpcUse.weight).getD 0 +
      ((opcUse (aluSlot (rowSlot row 1)).opc).map OpcUse.weight).getD 0 +
      ((opcUse (aluSlot (rowSlot row 2)).opc).map OpcUse.weight).getD 0 +
      ((opcUse (aluSlot (rowSlot row 3)).opc).map OpcUse.weight).getD 0 + b2n (bits (rowNxt row) 29 3 == 2)) ∧
  (∀ (row : BitVec 256) (egress : Bool) (stage : Nat), rowValid row = true → checkRow row egress stage = none →
    minClass row ≤ rowEclass row)

/-- R49, for a slot whose destination lies within the manifest: ADD, SUB and ADDI write their sum or difference modulo 2^(8W); SEQ, SNE, SLT, SLE,
SEQI and SLTI write 1 or 0 in the whole of the destination; SHL and SHR by a register amount of 8W or more write 0; and the loader accepts no
immediate shift amount of 8W or more. -/
def Obligations.ArithmeticWraps : Prop :=
  (∀ (k : Nat → BitVec 64) (m : Manifest) (s : AluSlot), s.w < 4 → s.dst + s.bytes ≤ 512 →
    let r := mget (aluWrite k m m s) s.dst s.bytes
    let a := mget m s.a s.bytes
    let b := mget m s.b s.bytes
    (s.opc = 0x10 → r = (a + b) % 2 ^ (8 * s.bytes)) ∧
    (s.opc = 0x11 → (r : Int) = ((a : Int) - b) % 2 ^ (8 * s.bytes)) ∧
    (s.opc = 0x12 → (r : Int) = ((a : Int) + sInt 20 s.imm20) % 2 ^ (8 * s.bytes)) ∧
    (s.opc = 0x20 → r = if a = b then 1 else 0) ∧ (s.opc = 0x21 → r = if a = b then 0 else 1) ∧
    (s.opc = 0x22 → r = if a < b then 1 else 0) ∧ (s.opc = 0x23 → r = if a ≤ b then 1 else 0) ∧
    (s.opc = 0x24 → r = if a = s.imm20 then 1 else 0) ∧ (s.opc = 0x25 → r = if a < s.imm20 then 1 else 0) ∧
    (s.opc = 0x19 ∨ s.opc = 0x1A → 8 * s.bytes ≤ b % 64 → r = 0)) ∧
  (∀ (i raw : Nat), checkSlot i raw = none → ((aluSlot raw).opc = 0x1B ∨ (aluSlot raw).opc = 0x1C) →
    bits (aluSlot raw).aux 0 6 < 8 * (aluSlot raw).bytes)

/-- R164. After a CTX lookup of option 0b10 or 0b11 on a valid context without an error, PKTS (bytes 32 to 39 of the context) has gone on by 1 and
BYTES (40 to 47) by the measured length; under option 0b11 RED (48 to 55) has gone on by 1 if the meter's colour is red, and otherwise it
stays. All wrap modulo 2^64. Every other context stays as it was. -/
def Obligations.ContextCounts : Prop :=
  ∀ (d : Dev) (m : Manifest) (q : LkReq),
    let id := ofBe (fitBytes q.key 3) % 2 ^ 18
    let c := SMap.get 0 d.lku.ctx id
    let r := d.ctxLookup m q
    let c' := SMap.get 0 r.2.lku.ctx id
    let len := ctxLen c (mLEN m)
    SMap.wf 0 d.lku.ctx = true → q.tbl = 0 → q.ok = true → d.ueAt 0x181 .ctx id = false → bit (cget c 30 1) 7 = true → 2 ≤ bits q.opt 0 2 →
      cget c' 32 8 = (cget c 32 8 + 1) % 2 ^ 64 ∧ cget c' 40 8 = (cget c 40 8 + len) % 2 ^ 64 ∧
      cget c' 48 8 = (cget c 48 8 +
        b2n (bits q.opt 0 2 == 3 && (ctxMeter c d.tck.now (bits (mFWD m) 28 2) len).1 == 2)) % 2 ^ 64 ∧
      ∀ j, j ≠ id → SMap.get 0 r.2.lku.ctx j = SMap.get 0 d.lku.ctx j

/-- R208. Under an L0 node the scheduler measures a packet of `len` stored bytes as the larger of 1 and `len` plus the signed byte of the node's
overhead profile. After reset every profile says 24, so that the measure is the frame's size on the wire. -/
def Obligations.ScheduledLength : Prop :=
  (∀ (d : Dev) (n len : Nat),
    let o := d.rd (QUE_OVH.OVH (dfield (d.desc (3, n)) 0 15 4))
    (d.wireLen n len : Int) = max 1 ((len : Int) + if o < 128 then (o : Int) else (o : Int) - 256)) ∧
  (∀ n len : Nat, State.reset.dev.wireLen n len = len + 24)

/-- R291. After COLD_RESET (with a MODE of Table 0.3 and good fuses) and after WARM_RESET the balance is 64 times NRG_CAP, no tick has a
reservation, and every tick runs variant 0, which is FULL. -/
def Obligations.EnergyAtReset : Prop :=
  (∀ (s : State) (i : ColdIn), i.mode < 3 → i.bootSrc < 4 → i.fuseOk = true →
    s.Gets (.coldReset i) fun e => e.bal = 64 * e.rd NRG_CAP.EU ∧ e.nrg.rsv = [] ∧ ∀ t, e.variantOf t = 0) ∧
  (∀ s : State, s.dev.dead = false → s.dev.held = false →
    s.Gets .warmReset fun e => e.bal = 64 * e.rd NRG_CAP.EU ∧ e.nrg.rsv = [] ∧ ∀ t, e.variantOf t = 0)
end

