-- ==== Sys2Proof/Laws/State.lean ====
section
/-! SUPPORT. What the register updates and the output trace leave alone: one lemma per field of the device and update, true by `rfl`.
`wrs` has its lemmas by induction. -/

namespace Sys2Proof.Machine

/-! ### `Dev.setReg` -/

@[simp] theorem Dev.setReg_rwt (d : Dev) (a : Nat) (v : BitVec 32) : (d.setReg a v).rwt = d.rwt := (rfl)
@[simp] theorem Dev.setReg_tck (d : Dev) (a : Nat) (v : BitVec 32) : (d.setReg a v).tck = d.tck := (rfl)
@[simp] theorem Dev.setReg_flt (d : Dev) (a : Nat) (v : BitVec 32) : (d.setReg a v).flt = d.flt := (rfl)
@[simp] theorem Dev.setReg_cht (d : Dev) (a : Nat) (v : BitVec 32) : (d.setReg a v).cht = d.cht := (rfl)
@[simp] theorem Dev.setReg_asx (d : Dev) (a : Nat) (v : BitVec 32) : (d.setReg a v).asx = d.asx := (rfl)
@[simp] theorem Dev.setReg_lku (d : Dev) (a : Nat) (v : BitVec 32) : (d.setReg a v).lku = d.lku := (rfl)
@[simp] theorem Dev.setReg_pipe (d : Dev) (a : Nat) (v : BitVec 32) : (d.setReg a v).pipe = d.pipe := (rfl)
@[simp] theorem Dev.setReg_dpt (d : Dev) (a : Nat) (v : BitVec 32) : (d.setReg a v).dpt = d.dpt := (rfl)
@[simp] theorem Dev.setReg_nrg (d : Dev) (a : Nat) (v : BitVec 32) : (d.setReg a v).nrg = d.nrg := (rfl)
@[simp] theorem Dev.setReg_cxl (d : Dev) (a : Nat) (v : BitVec 32) : (d.setReg a v).cxl = d.cxl := (rfl)
@[simp] theorem Dev.setReg_que (d : Dev) (a : Nat) (v : BitVec 32) : (d.setReg a v).que = d.que := (rfl)
@[simp] theorem Dev.setReg_yrd (d : Dev) (a : Nat) (v : BitVec 32) : (d.setReg a v).yrd = d.yrd := (rfl)
@[simp] theorem Dev.setReg_wan (d : Dev) (a : Nat) (v : BitVec 32) : (d.setReg a v).wan = d.wan := (rfl)
@[simp] theorem Dev.setReg_fab (d : Dev) (a : Nat) (v : BitVec 32) : (d.setReg a v).fab = d.fab := (rfl)
@[simp] theorem Dev.setReg_hst (d : Dev) (a : Nat) (v : BitVec 32) : (d.setReg a v).hst = d.hst := (rfl)
@[simp] theorem Dev.setReg_cge (d : Dev) (a : Nat) (v : BitVec 32) : (d.setReg a v).cge = d.cge := (rfl)
@[simp] theorem Dev.setReg_cvy (d : Dev) (a : Nat) (v : BitVec 32) : (d.setReg a v).cvy = d.cvy := (rfl)
@[simp] theorem Dev.setReg_hlm (d : Dev) (a : Nat) (v : BitVec 32) : (d.setReg a v).hlm = d.hlm := (rfl)
@[simp] theorem Dev.setReg_snd (d : Dev) (a : Nat) (v : BitVec 32) : (d.setReg a v).snd = d.snd := (rfl)
@[simp] theorem Dev.setReg_sxt (d : Dev) (a : Nat) (v : BitVec 32) : (d.setReg a v).sxt = d.sxt := (rfl)
@[simp] theorem Dev.setReg_fwu (d : Dev) (a : Nat) (v : BitVec 32) : (d.setReg a v).fwu = d.fwu := (rfl)
@[simp] theorem Dev.setReg_pwr (d : Dev) (a : Nat) (v : BitVec 32) : (d.setReg a v).pwr = d.pwr := (rfl)
@[simp] theorem Dev.setReg_free (d : Dev) (a : Nat) (v : BitVec 32) : (d.setReg a v).free = d.free := (rfl)
@[simp] theorem Dev.setReg_out (d : Dev) (a : Nat) (v : BitVec 32) : (d.setReg a v).out = d.out := (rfl)

/-! ### `Dev.wr` -/

@[simp] theorem Dev.wr_rwt (d : Dev) (f : Field) (v : Nat) : (d.wr f v).rwt = d.rwt := (rfl)
@[simp] theorem Dev.wr_tck (d : Dev) (f : Field) (v : Nat) : (d.wr f v).tck = d.tck := (rfl)
@[simp] theorem Dev.wr_flt (d : Dev) (f : Field) (v : Nat) : (d.wr f v).flt = d.flt := (rfl)
@[simp] theorem Dev.wr_cht (d : Dev) (f : Field) (v : Nat) : (d.wr f v).cht = d.cht := (rfl)
@[simp] theorem Dev.wr_asx (d : Dev) (f : Field) (v : Nat) : (d.wr f v).asx = d.asx := (rfl)
@[simp] theorem Dev.wr_lku (d : Dev) (f : Field) (v : Nat) : (d.wr f v).lku = d.lku := (rfl)
@[simp] theorem Dev.wr_pipe (d : Dev) (f : Field) (v : Nat) : (d.wr f v).pipe = d.pipe := (rfl)
@[simp] theorem Dev.wr_dpt (d : Dev) (f : Field) (v : Nat) : (d.wr f v).dpt = d.dpt := (rfl)
@[simp] theorem Dev.wr_nrg (d : Dev) (f : Field) (v : Nat) : (d.wr f v).nrg = d.nrg := (rfl)
@[simp] theorem Dev.wr_cxl (d : Dev) (f : Field) (v : Nat) : (d.wr f v).cxl = d.cxl := (rfl)
@[simp] theorem Dev.wr_que (d : Dev) (f : Field) (v : Nat) : (d.wr f v).que = d.que := (rfl)
@[simp] theorem Dev.wr_yrd (d : Dev) (f : Field) (v : Nat) : (d.wr f v).yrd = d.yrd := (rfl)
@[simp] theorem Dev.wr_wan (d : Dev) (f : Field) (v : Nat) : (d.wr f v).wan = d.wan := (rfl)
@[simp] theorem Dev.wr_fab (d : Dev) (f : Field) (v : Nat) : (d.wr f v).fab = d.fab := (rfl)
@[simp] theorem Dev.wr_hst (d : Dev) (f : Field) (v : Nat) : (d.wr f v).hst = d.hst := (rfl)
@[simp] theorem Dev.wr_cge (d : Dev) (f : Field) (v : Nat) : (d.wr f v).cge = d.cge := (rfl)
@[simp] theorem Dev.wr_cvy (d : Dev) (f : Field) (v : Nat) : (d.wr f v).cvy = d.cvy := (rfl)
@[simp] theorem Dev.wr_hlm (d : Dev) (f : Field) (v : Nat) : (d.wr f v).hlm = d.hlm := (rfl)
@[simp] theorem Dev.wr_snd (d : Dev) (f : Field) (v : Nat) : (d.wr f v).snd = d.snd := (rfl)
@[simp] theorem Dev.wr_sxt (d : Dev) (f : Field) (v : Nat) : (d.wr f v).sxt = d.sxt := (rfl)
@[simp] theorem Dev.wr_fwu (d : Dev) (f : Field) (v : Nat) : (d.wr f v).fwu = d.fwu := (rfl)
@[simp] theorem Dev.wr_pwr (d : Dev) (f : Field) (v : Nat) : (d.wr f v).pwr = d.pwr := (rfl)
@[simp] theorem Dev.wr_free (d : Dev) (f : Field) (v : Nat) : (d.wr f v).free = d.free := (rfl)
@[simp] theorem Dev.wr_out (d : Dev) (f : Field) (v : Nat) : (d.wr f v).out = d.out := (rfl)

/-! ### `Dev.bump` -/

@[simp] theorem Dev.bump_rwt (d : Dev) (f : Field) (k : Nat) : (d.bump f k).rwt = d.rwt := (rfl)
@[simp] theorem Dev.bump_tck (d : Dev) (f : Field) (k : Nat) : (d.bump f k).tck = d.tck := (rfl)
@[simp] theorem Dev.bump_flt (d : Dev) (f : Field) (k : Nat) : (d.bump f k).flt = d.flt := (rfl)
@[simp] theorem Dev.bump_cht (d : Dev) (f : Field) (k : Nat) : (d.bump f k).cht = d.cht := (rfl)
@[simp] theorem Dev.bump_asx (d : Dev) (f : Field) (k : Nat) : (d.bump f k).asx = d.asx := (rfl)
@[simp] theorem Dev.bump_lku (d : Dev) (f : Field) (k : Nat) : (d.bump f k).lku = d.lku := (rfl)
@[simp] theorem Dev.bump_pipe (d : Dev) (f : Field) (k : Nat) : (d.bump f k).pipe = d.pipe := (rfl)
@[simp] theorem Dev.bump_dpt (d : Dev) (f : Field) (k : Nat) : (d.bump f k).dpt = d.dpt := (rfl)
@[simp] theorem Dev.bump_nrg (d : Dev) (f : Field) (k : Nat) : (d.bump f k).nrg = d.nrg := (rfl)
@[simp] theorem Dev.bump_cxl (d : Dev) (f : Field) (k : Nat) : (d.bump f k).cxl = d.cxl := (rfl)
@[simp] theorem Dev.bump_que (d : Dev) (f : Field) (k : Nat) : (d.bump f k).que = d.que := (rfl)
@[simp] theorem Dev.bump_yrd (d : Dev) (f : Field) (k : Nat) : (d.bump f k).yrd = d.yrd := (rfl)
@[simp] theorem Dev.bump_wan (d : Dev) (f : Field) (k : Nat) : (d.bump f k).wan = d.wan := (rfl)
@[simp] theorem Dev.bump_fab (d : Dev) (f : Field) (k : Nat) : (d.bump f k).fab = d.fab := (rfl)
@[simp] theorem Dev.bump_hst (d : Dev) (f : Field) (k : Nat) : (d.bump f k).hst = d.hst := (rfl)
@[simp] theorem Dev.bump_cge (d : Dev) (f : Field) (k : Nat) : (d.bump f k).cge = d.cge := (rfl)
@[simp] theorem Dev.bump_cvy (d : Dev) (f : Field) (k : Nat) : (d.bump f k).cvy = d.cvy := (rfl)
@[simp] theorem Dev.bump_hlm (d : Dev) (f : Field) (k : Nat) : (d.bump f k).hlm = d.hlm := (rfl)
@[simp] theorem Dev.bump_snd (d : Dev) (f : Field) (k : Nat) : (d.bump f k).snd = d.snd := (rfl)
@[simp] theorem Dev.bump_sxt (d : Dev) (f : Field) (k : Nat) : (d.bump f k).sxt = d.sxt := (rfl)
@[simp] theorem Dev.bump_fwu (d : Dev) (f : Field) (k : Nat) : (d.bump f k).fwu = d.fwu := (rfl)
@[simp] theorem Dev.bump_pwr (d : Dev) (f : Field) (k : Nat) : (d.bump f k).pwr = d.pwr := (rfl)
@[simp] theorem Dev.bump_free (d : Dev) (f : Field) (k : Nat) : (d.bump f k).free = d.free := (rfl)
@[simp] theorem Dev.bump_out (d : Dev) (f : Field) (k : Nat) : (d.bump f k).out = d.out := (rfl)

/-! ### `Dev.wrTick` -/

@[simp] theorem Dev.wrTick_rwt (d : Dev) (lo hi : Field) (t : Nat) : (d.wrTick lo hi t).rwt = d.rwt := (rfl)
@[simp] theorem Dev.wrTick_tck (d : Dev) (lo hi : Field) (t : Nat) : (d.wrTick lo hi t).tck = d.tck := (rfl)
@[simp] theorem Dev.wrTick_flt (d : Dev) (lo hi : Field) (t : Nat) : (d.wrTick lo hi t).flt = d.flt := (rfl)
@[simp] theorem Dev.wrTick_cht (d : Dev) (lo hi : Field) (t : Nat) : (d.wrTick lo hi t).cht = d.cht := (rfl)
@[simp] theorem Dev.wrTick_asx (d : Dev) (lo hi : Field) (t : Nat) : (d.wrTick lo hi t).asx = d.asx := (rfl)
@[simp] theorem Dev.wrTick_lku (d : Dev) (lo hi : Field) (t : Nat) : (d.wrTick lo hi t).lku = d.lku := (rfl)
@[simp] theorem Dev.wrTick_pipe (d : Dev) (lo hi : Field) (t : Nat) : (d.wrTick lo hi t).pipe = d.pipe := (rfl)
@[simp] theorem Dev.wrTick_dpt (d : Dev) (lo hi : Field) (t : Nat) : (d.wrTick lo hi t).dpt = d.dpt := (rfl)
@[simp] theorem Dev.wrTick_nrg (d : Dev) (lo hi : Field) (t : Nat) : (d.wrTick lo hi t).nrg = d.nrg := (rfl)
@[simp] theorem Dev.wrTick_cxl (d : Dev) (lo hi : Field) (t : Nat) : (d.wrTick lo hi t).cxl = d.cxl := (rfl)
@[simp] theorem Dev.wrTick_que (d : Dev) (lo hi : Field) (t : Nat) : (d.wrTick lo hi t).que = d.que := (rfl)
@[simp] theorem Dev.wrTick_yrd (d : Dev) (lo hi : Field) (t : Nat) : (d.wrTick lo hi t).yrd = d.yrd := (rfl)
@[simp] theorem Dev.wrTick_wan (d : Dev) (lo hi : Field) (t : Nat) : (d.wrTick lo hi t).wan = d.wan := (rfl)
@[simp] theorem Dev.wrTick_fab (d : Dev) (lo hi : Field) (t : Nat) : (d.wrTick lo hi t).fab = d.fab := (rfl)
@[simp] theorem Dev.wrTick_hst (d : Dev) (lo hi : Field) (t : Nat) : (d.wrTick lo hi t).hst = d.hst := (rfl)
@[simp] theorem Dev.wrTick_cge (d : Dev) (lo hi : Field) (t : Nat) : (d.wrTick lo hi t).cge = d.cge := (rfl)
@[simp] theorem Dev.wrTick_cvy (d : Dev) (lo hi : Field) (t : Nat) : (d.wrTick lo hi t).cvy = d.cvy := (rfl)
@[simp] theorem Dev.wrTick_hlm (d : Dev) (lo hi : Field) (t : Nat) : (d.wrTick lo hi t).hlm = d.hlm := (rfl)
@[simp] theorem Dev.wrTick_snd (d : Dev) (lo hi : Field) (t : Nat) : (d.wrTick lo hi t).snd = d.snd := (rfl)
@[simp] theorem Dev.wrTick_sxt (d : Dev) (lo hi : Field) (t : Nat) : (d.wrTick lo hi t).sxt = d.sxt := (rfl)
@[simp] theorem Dev.wrTick_fwu (d : Dev) (lo hi : Field) (t : Nat) : (d.wrTick lo hi t).fwu = d.fwu := (rfl)
@[simp] theorem Dev.wrTick_pwr (d : Dev) (lo hi : Field) (t : Nat) : (d.wrTick lo hi t).pwr = d.pwr := (rfl)
@[simp] theorem Dev.wrTick_free (d : Dev) (lo hi : Field) (t : Nat) : (d.wrTick lo hi t).free = d.free := (rfl)
@[simp] theorem Dev.wrTick_out (d : Dev) (lo hi : Field) (t : Nat) : (d.wrTick lo hi t).out = d.out := (rfl)

/-! ### `Dev.emit` -/

@[simp] theorem Dev.emit_regs (d : Dev) (e : Emit) : (d.emit e).regs = d.regs := (rfl)
@[simp] theorem Dev.emit_rwt (d : Dev) (e : Emit) : (d.emit e).rwt = d.rwt := (rfl)
@[simp] theorem Dev.emit_tck (d : Dev) (e : Emit) : (d.emit e).tck = d.tck := (rfl)
@[simp] theorem Dev.emit_flt (d : Dev) (e : Emit) : (d.emit e).flt = d.flt := (rfl)
@[simp] theorem Dev.emit_cht (d : Dev) (e : Emit) : (d.emit e).cht = d.cht := (rfl)
@[simp] theorem Dev.emit_asx (d : Dev) (e : Emit) : (d.emit e).asx = d.asx := (rfl)
@[simp] theorem Dev.emit_lku (d : Dev) (e : Emit) : (d.emit e).lku = d.lku := (rfl)
@[simp] theorem Dev.emit_pipe (d : Dev) (e : Emit) : (d.emit e).pipe = d.pipe := (rfl)
@[simp] theorem Dev.emit_dpt (d : Dev) (e : Emit) : (d.emit e).dpt = d.dpt := (rfl)
@[simp] theorem Dev.emit_nrg (d : Dev) (e : Emit) : (d.emit e).nrg = d.nrg := (rfl)
@[simp] theorem Dev.emit_cxl (d : Dev) (e : Emit) : (d.emit e).cxl = d.cxl := (rfl)
@[simp] theorem Dev.emit_que (d : Dev) (e : Emit) : (d.emit e).que = d.que := (rfl)
@[simp] theorem Dev.emit_yrd (d : Dev) (e : Emit) : (d.emit e).yrd = d.yrd := (rfl)
@[simp] theorem Dev.emit_wan (d : Dev) (e : Emit) : (d.emit e).wan = d.wan := (rfl)
@[simp] theorem Dev.emit_fab (d : Dev) (e : Emit) : (d.emit e).fab = d.fab := (rfl)
@[simp] theorem Dev.emit_hst (d : Dev) (e : Emit) : (d.emit e).hst = d.hst := (rfl)
@[simp] theorem Dev.emit_cge (d : Dev) (e : Emit) : (d.emit e).cge = d.cge := (rfl)
@[simp] theorem Dev.emit_cvy (d : Dev) (e : Emit) : (d.emit e).cvy = d.cvy := (rfl)
@[simp] theorem Dev.emit_hlm (d : Dev) (e : Emit) : (d.emit e).hlm = d.hlm := (rfl)
@[simp] theorem Dev.emit_snd (d : Dev) (e : Emit) : (d.emit e).snd = d.snd := (rfl)
@[simp] theorem Dev.emit_sxt (d : Dev) (e : Emit) : (d.emit e).sxt = d.sxt := (rfl)
@[simp] theorem Dev.emit_fwu (d : Dev) (e : Emit) : (d.emit e).fwu = d.fwu := (rfl)
@[simp] theorem Dev.emit_pwr (d : Dev) (e : Emit) : (d.emit e).pwr = d.pwr := (rfl)
@[simp] theorem Dev.emit_free (d : Dev) (e : Emit) : (d.emit e).free = d.free := (rfl)
@[simp] theorem Dev.emit_out (d : Dev) (e : Emit) : (d.emit e).out = d.out ++ [e] := (rfl)

/-! ### `Dev.wrs` -/

@[simp] theorem Dev.wrs_nil (d : Dev) : d.wrs [] = d := (rfl)
@[simp] theorem Dev.wrs_cons (d : Dev) (p : Field × Nat) (l : List (Field × Nat)) : d.wrs (p :: l) = (d.wr p.1 p.2).wrs l := (rfl)
theorem Dev.wrs_rwt (d : Dev) (l : List (Field × Nat)) : (d.wrs l).rwt = d.rwt := by
  induction l generalizing d with
  | nil => rfl
  | cons p l ih => rw [Dev.wrs_cons, ih]; rfl
theorem Dev.wrs_tck (d : Dev) (l : List (Field × Nat)) : (d.wrs l).tck = d.tck := by
  induction l generalizing d with
  | nil => rfl
  | cons p l ih => rw [Dev.wrs_cons, ih]; rfl
theorem Dev.wrs_flt (d : Dev) (l : List (Field × Nat)) : (d.wrs l).flt = d.flt := by
  induction l generalizing d with
  | nil => rfl
  | cons p l ih => rw [Dev.wrs_cons, ih]; rfl
theorem Dev.wrs_cht (d : Dev) (l : List (Field × Nat)) : (d.wrs l).cht = d.cht := by
  induction l generalizing d with
  | nil => rfl
  | cons p l ih => rw [Dev.wrs_cons, ih]; rfl
theorem Dev.wrs_asx (d : Dev) (l : List (Field × Nat)) : (d.wrs l).asx = d.asx := by
  induction l generalizing d with
  | nil => rfl
  | cons p l ih => rw [Dev.wrs_cons, ih]; rfl
theorem Dev.wrs_lku (d : Dev) (l : List (Field × Nat)) : (d.wrs l).lku = d.lku := by
  induction l generalizing d with
  | nil => rfl
  | cons p l ih => rw [Dev.wrs_cons, ih]; rfl
theorem Dev.wrs_pipe (d : Dev) (l : List (Field × Nat)) : (d.wrs l).pipe = d.pipe := by
  induction l generalizing d with
  | nil => rfl
  | cons p l ih => rw [Dev.wrs_cons, ih]; rfl
theorem Dev.wrs_dpt (d : Dev) (l : List (Field × Nat)) : (d.wrs l).dpt = d.dpt := by
  induction l generalizing d with
  | nil => rfl
  | cons p l ih => rw [Dev.wrs_cons, ih]; rfl
theorem Dev.wrs_nrg (d : Dev) (l : List (Field × Nat)) : (d.wrs l).nrg = d.nrg := by
  induction l generalizing d with
  | nil => rfl
  | cons p l ih => rw [Dev.wrs_cons, ih]; rfl
theorem Dev.wrs_cxl (d : Dev) (l : List (Field × Nat)) : (d.wrs l).cxl = d.cxl := by
  induction l generalizing d with
  | nil => rfl
  | cons p l ih => rw [Dev.wrs_cons, ih]; rfl
theorem Dev.wrs_que (d : Dev) (l : List (Field × Nat)) : (d.wrs l).que = d.que := by
  induction l generalizing d with
  | nil => rfl
  | cons p l ih => rw [Dev.wrs_cons, ih]; rfl
theorem Dev.wrs_yrd (d : Dev) (l : List (Field × Nat)) : (d.wrs l).yrd = d.yrd := by
  induction l generalizing d with
  | nil => rfl
  | cons p l ih => rw [Dev.wrs_cons, ih]; rfl
theorem Dev.wrs_wan (d : Dev) (l : List (Field × Nat)) : (d.wrs l).wan = d.wan := by
  induction l generalizing d with
  | nil => rfl
  | cons p l ih => rw [Dev.wrs_cons, ih]; rfl
theorem Dev.wrs_fab (d : Dev) (l : List (Field × Nat)) : (d.wrs l).fab = d.fab := by
  induction l generalizing d with
  | nil => rfl
  | cons p l ih => rw [Dev.wrs_cons, ih]; rfl
theorem Dev.wrs_hst (d : Dev) (l : List (Field × Nat)) : (d.wrs l).hst = d.hst := by
  induction l generalizing d with
  | nil => rfl
  | cons p l ih => rw [Dev.wrs_cons, ih]; rfl
theorem Dev.wrs_cge (d : Dev) (l : List (Field × Nat)) : (d.wrs l).cge = d.cge := by
  induction l generalizing d with
  | nil => rfl
  | cons p l ih => rw [Dev.wrs_cons, ih]; rfl
theorem Dev.wrs_cvy (d : Dev) (l : List (Field × Nat)) : (d.wrs l).cvy = d.cvy := by
  induction l generalizing d with
  | nil => rfl
  | cons p l ih => rw [Dev.wrs_cons, ih]; rfl
theorem Dev.wrs_hlm (d : Dev) (l : List (Field × Nat)) : (d.wrs l).hlm = d.hlm := by
  induction l generalizing d with
  | nil => rfl
  | cons p l ih => rw [Dev.wrs_cons, ih]; rfl
theorem Dev.wrs_snd (d : Dev) (l : List (Field × Nat)) : (d.wrs l).snd = d.snd := by
  induction l generalizing d with
  | nil => rfl
  | cons p l ih => rw [Dev.wrs_cons, ih]; rfl
theorem Dev.wrs_sxt (d : Dev) (l : List (Field × Nat)) : (d.wrs l).sxt = d.sxt := by
  induction l generalizing d with
  | nil => rfl
  | cons p l ih => rw [Dev.wrs_cons, ih]; rfl
theorem Dev.wrs_fwu (d : Dev) (l : List (Field × Nat)) : (d.wrs l).fwu = d.fwu := by
  induction l generalizing d with
  | nil => rfl
  | cons p l ih => rw [Dev.wrs_cons, ih]; rfl
theorem Dev.wrs_pwr (d : Dev) (l : List (Field × Nat)) : (d.wrs l).pwr = d.pwr := by
  induction l generalizing d with
  | nil => rfl
  | cons p l ih => rw [Dev.wrs_cons, ih]; rfl
theorem Dev.wrs_free (d : Dev) (l : List (Field × Nat)) : (d.wrs l).free = d.free := by
  induction l generalizing d with
  | nil => rfl
  | cons p l ih => rw [Dev.wrs_cons, ih]; rfl
theorem Dev.wrs_out (d : Dev) (l : List (Field × Nat)) : (d.wrs l).out = d.out := by
  induction l generalizing d with
  | nil => rfl
  | cons p l ih => rw [Dev.wrs_cons, ih]; rfl

/-! ### Predicates of the device that registers do not change -/

@[simp] theorem Dev.setReg_held (d : Dev) (a : Nat) (v : BitVec 32) : (d.setReg a v).held = d.held := (rfl)
@[simp] theorem Dev.wr_held (d : Dev) (f : Field) (v : Nat) : (d.wr f v).held = d.held := (rfl)
@[simp] theorem Dev.bump_held (d : Dev) (f : Field) (k : Nat) : (d.bump f k).held = d.held := (rfl)
@[simp] theorem Dev.emit_held (d : Dev) (e : Emit) : (d.emit e).held = d.held := (rfl)
@[simp] theorem Dev.wr_dead (d : Dev) (f : Field) (v : Nat) : (d.wr f v).dead = d.dead := (rfl)
@[simp] theorem Dev.emit_dead (d : Dev) (e : Emit) : (d.emit e).dead = d.dead := (rfl)
@[simp] theorem Dev.emit_reg (d : Dev) (e : Emit) (a : Nat) : (d.emit e).reg a = d.reg a := (rfl)
@[simp] theorem Dev.emit_rd (d : Dev) (e : Emit) (f : Field) : (d.emit e).rd f = d.rd f := (rfl)
@[simp] theorem Dev.emit_on (d : Dev) (e : Emit) (f : Field) : (d.emit e).on f = d.on f := (rfl)

/-- A register is read from the register file alone. -/
theorem Dev.reg_of_regs {d e : Dev} (h : d.regs = e.regs) (a : Nat) : d.reg a = e.reg a := by
  unfold Dev.reg; rw [h]
theorem Dev.rd_of_regs {d e : Dev} (h : d.regs = e.regs) (f : Field) : d.rd f = e.rd f := by
  unfold Dev.rd; rw [Dev.reg_of_regs h]
theorem Dev.on_of_regs {d e : Dev} (h : d.regs = e.regs) (f : Field) : d.on f = e.on f := by
  unfold Dev.on; rw [Dev.rd_of_regs h]

end Sys2Proof.Machine
end

