-- ==== Sys2Proof/Laws/Store.lean ====
section
/-! SUPPORT. Sparse stores and the register file: reads after writes, and the canonical form that every update of a store keeps. -/

namespace Sys2Proof.Machine

/-! ### Reads after writes -/

@[simp] theorem SMap.get_erase_same {α : Type} (z : α) (m : SMap α) (i : Nat) : SMap.get z (SMap.erase m i) i = z := by
  induction m with
  | nil => rfl
  | cons p r ih =>
    obtain ⟨k, v⟩ := p
    by_cases h : k = i
    · simp only [SMap.erase, h, if_true]; exact ih
    · simp only [SMap.erase, h, if_false, SMap.get]; exact ih

theorem SMap.get_erase_ne {α : Type} (z : α) (m : SMap α) {i j : Nat} (h : j ≠ i) :
    SMap.get z (SMap.erase m i) j = SMap.get z m j := by
  induction m with
  | nil => rfl
  | cons p r ih =>
    obtain ⟨k, v⟩ := p
    by_cases hk : k = i
    · have hj : ¬ i = j := fun e => h e.symm
      simp only [SMap.erase, hk, if_true, SMap.get, hj, if_false]; exact ih
    · simp only [SMap.erase, hk, if_false, SMap.get]; rw [ih]

theorem SMap.get_put_ne {α : Type} (z : α) (m : SMap α) (w : α) {i j : Nat} (h : j ≠ i) :
    SMap.get z (SMap.put m i w) j = SMap.get z m j := by
  have hj : ¬ i = j := fun e => h e.symm
  induction m with
  | nil => simp only [SMap.put, SMap.get, hj, if_false]
  | cons p r ih =>
    obtain ⟨k, v⟩ := p
    by_cases hk : i < k
    · simp only [SMap.put, hk, if_true, SMap.get, hj, if_false]
    · simp only [SMap.put, hk, if_false, SMap.get]; rw [ih]

theorem SMap.get_put_erase {α : Type} (z : α) (m : SMap α) (i : Nat) (w : α) :
    SMap.get z (SMap.put (SMap.erase m i) i w) i = w := by
  induction m with
  | nil => simp [SMap.erase, SMap.put, SMap.get]
  | cons p r ih =>
    obtain ⟨k, v⟩ := p
    by_cases h : k = i
    · simp only [SMap.erase, h, if_true]; exact ih
    · simp only [SMap.erase, h, if_false, SMap.put]
      split
      · simp [SMap.get]
      · simp only [SMap.get, h, if_false]; exact ih

/-- A store reads back what was set, whatever its form. -/
@[simp] theorem SMap.get_set_same {α : Type} [DecidableEq α] (z : α) (m : SMap α) (i : Nat) (w : α) :
    SMap.get z (SMap.set z m i w) i = w := by
  unfold SMap.set
  split
  · next h => rw [SMap.get_erase_same, h]
  · exact SMap.get_put_erase z m i w

/-- Setting one key leaves every other as it was. -/
theorem SMap.get_set_ne {α : Type} [DecidableEq α] (z y : α) (m : SMap α) (w : α) {i j : Nat} (h : j ≠ i) :
    SMap.get z (SMap.set y m i w) j = SMap.get z m j := by
  unfold SMap.set
  split
  · exact SMap.get_erase_ne z m h
  · rw [SMap.get_put_ne z _ w h, SMap.get_erase_ne z m h]

theorem SMap.find_get {α : Type} (m : SMap α) (i : Nat) : SMap.find m i = SMap.get none (m.map fun p => (p.1, some p.2)) i := by
  induction m with
  | nil => rfl
  | cons p r ih =>
    obtain ⟨k, v⟩ := p
    by_cases h : k = i
    · simp [SMap.find, SMap.get, h]
    · simp [SMap.find, SMap.get, h, ih]

theorem SMap.map_erase {α β : Type} (g : α → β) (m : SMap α) (i : Nat) :
    (SMap.erase m i).map (fun p => (p.1, g p.2)) = SMap.erase (m.map fun p => (p.1, g p.2)) i := by
  induction m with
  | nil => rfl
  | cons p r ih =>
    obtain ⟨k, v⟩ := p
    by_cases h : k = i
    · simp only [SMap.erase, h, if_true, List.map]; exact ih
    · simp only [SMap.erase, h, if_false, List.map]; rw [ih]

theorem SMap.map_put {α β : Type} (g : α → β) (m : SMap α) (i : Nat) (w : α) :
    (SMap.put m i w).map (fun p => (p.1, g p.2)) = SMap.put (m.map fun p => (p.1, g p.2)) i (g w) := by
  induction m with
  | nil => rfl
  | cons p r ih =>
    obtain ⟨k, v⟩ := p
    by_cases h : i < k
    · simp only [SMap.put, h, if_true, List.map]
    · simp only [SMap.put, h, if_false, List.map]; rw [ih]

/-- A store of listed keys finds what was put at a key. -/
@[simp] theorem SMap.find_ins_same {α : Type} (m : SMap α) (i : Nat) (w : α) : SMap.find (SMap.ins m i w) i = some w := by
  rw [SMap.find_get, SMap.ins, SMap.map_put some, SMap.map_erase some, SMap.get_put_erase]

theorem SMap.find_ins_ne {α : Type} (m : SMap α) (w : α) {i j : Nat} (h : j ≠ i) :
    SMap.find (SMap.ins m i w) j = SMap.find m j := by
  rw [SMap.find_get, SMap.ins, SMap.map_put some, SMap.map_erase some, SMap.get_put_ne none _ _ h, SMap.get_erase_ne none _ h,
    SMap.find_get]

@[simp] theorem SMap.find_erase_same {α : Type} (m : SMap α) (i : Nat) : SMap.find (SMap.erase m i) i = none := by
  rw [SMap.find_get, SMap.map_erase some, SMap.get_erase_same]

theorem SMap.find_erase_ne {α : Type} (m : SMap α) {i j : Nat} (h : j ≠ i) : SMap.find (SMap.erase m i) j = SMap.find m j := by
  rw [SMap.find_get, SMap.map_erase some, SMap.get_erase_ne none _ h, SMap.find_get]

/-! ### The canonical form -/

theorem SMap.wfFrom_mono {α : Type} [DecidableEq α] (z : α) (m : SMap α) {lo lo' : Nat} (h : lo' ≤ lo)
    (w : SMap.wfFrom z lo m = true) : SMap.wfFrom z lo' m = true := by
  cases m with
  | nil => rfl
  | cons p r =>
    obtain ⟨k, v⟩ := p
    simp only [SMap.wfFrom, Bool.and_eq_true, decide_eq_true_eq] at w ⊢
    exact ⟨⟨by omega, w.1.2⟩, w.2⟩

theorem SMap.wfFrom_erase {α : Type} [DecidableEq α] (z : α) (m : SMap α) (i lo : Nat)
    (w : SMap.wfFrom z lo m = true) : SMap.wfFrom z lo (SMap.erase m i) = true := by
  induction m generalizing lo with
  | nil => rfl
  | cons p r ih =>
    obtain ⟨k, v⟩ := p
    simp only [SMap.wfFrom, Bool.and_eq_true, decide_eq_true_eq] at w
    by_cases h : k = i
    · simp only [SMap.erase, h, if_true]
      exact ih lo (SMap.wfFrom_mono z r (by omega) w.2)
    · simp only [SMap.erase, h, if_false, SMap.wfFrom, Bool.and_eq_true, decide_eq_true_eq]
      exact ⟨w.1, ih (k + 1) w.2⟩

theorem SMap.wfFrom_put {α : Type} [DecidableEq α] (z : α) (m : SMap α) (i lo : Nat) (x : α) (hx : x ≠ z) (hi : lo ≤ i)
    (w : SMap.wfFrom z lo m = true) (hn : ∀ p ∈ m, p.1 ≠ i) : SMap.wfFrom z lo (SMap.put m i x) = true := by
  induction m generalizing lo with
  | nil => simp [SMap.put, SMap.wfFrom, hx, hi]
  | cons p r ih =>
    obtain ⟨k, v⟩ := p
    simp only [SMap.wfFrom, Bool.and_eq_true, decide_eq_true_eq] at w
    have hk : k ≠ i := hn (k, v) (List.mem_cons_self ..)
    by_cases h : i < k
    · simp only [SMap.put, h, if_true, SMap.wfFrom, Bool.and_eq_true, decide_eq_true_eq]
      exact ⟨⟨hi, hx⟩, ⟨h, w.1.2⟩, w.2⟩
    · simp only [SMap.put, h, if_false, SMap.wfFrom, Bool.and_eq_true, decide_eq_true_eq]
      exact ⟨w.1, ih (k + 1) (by omega) w.2 fun p hp => hn p (List.mem_cons_of_mem _ hp)⟩

theorem SMap.erase_keys {α : Type} (m : SMap α) (i : Nat) : ∀ p ∈ SMap.erase m i, p.1 ≠ i := by
  induction m with
  | nil => intro p hp; cases hp
  | cons q r ih =>
    obtain ⟨k, v⟩ := q
    intro p hp
    by_cases h : k = i
    · simp only [SMap.erase, h, if_true] at hp; exact ih p hp
    · simp only [SMap.erase, h, if_false, List.mem_cons] at hp
      rcases hp with rfl | hp
      · exact h
      · exact ih p hp

/-- Every update of a sparse store keeps its canonical form. -/
theorem SMap.wf_set {α : Type} [DecidableEq α] (z : α) (m : SMap α) (i : Nat) (x : α) (w : SMap.wf z m = true) :
    SMap.wf z (SMap.set z m i x) = true := by
  unfold SMap.wf at w ⊢
  unfold SMap.set
  split
  · exact SMap.wfFrom_erase z m i 0 w
  · next h => exact SMap.wfFrom_put z _ i 0 x h (Nat.zero_le _) (SMap.wfFrom_erase z m i 0 w) (SMap.erase_keys m i)

theorem SMap.wf_erase {α : Type} [DecidableEq α] (z : α) (m : SMap α) (i : Nat) (w : SMap.wf z m = true) :
    SMap.wf z (SMap.erase m i) = true := SMap.wfFrom_erase z m i 0 w

/-! ### Bits of a word -/

theorem bits_lt (n low width : Nat) : bits n low width < 2 ^ width := Nat.mod_lt _ (Nat.two_pow_pos _)

theorem bits_mul_le (n low width : Nat) : bits n low width * 2 ^ low ≤ n := by
  unfold bits
  rw [Nat.shiftRight_eq_div_pow]
  exact Nat.le_trans (Nat.mul_le_mul_right _ (Nat.mod_le _ _)) (Nat.div_mul_le_self n (2 ^ low))

/-- A word split around a field: what is above it, the field, and what is below. -/
theorem bits_split (n low width : Nat) :
    n = (n / 2 ^ (low + width)) * 2 ^ (low + width) + bits n low width * 2 ^ low + n % 2 ^ low := by
  have h1 : bits n low width = (n / 2 ^ low) % 2 ^ width := by unfold bits; rw [Nat.shiftRight_eq_div_pow]
  have h2 : n / 2 ^ (low + width) = (n / 2 ^ low) / 2 ^ width := by rw [Nat.pow_add, Nat.div_div_eq_div_mul]
  have h3 := Nat.div_add_mod (n / 2 ^ low) (2 ^ width)
  have h4 := Nat.div_add_mod n (2 ^ low)
  rw [h1, h2]
  generalize (n / 2 ^ low) / 2 ^ width = q at *
  generalize (n / 2 ^ low) % 2 ^ width = f at *
  generalize n % 2 ^ low = r at *
  rw [← h4, ← h3, Nat.pow_add]
  ring

theorem setBits_split (n low width v : Nat) :
    setBits n low width v = (n / 2 ^ (low + width)) * 2 ^ (low + width) + (v % 2 ^ width) * 2 ^ low + n % 2 ^ low := by
  have h := bits_split n low width
  unfold setBits
  omega

/-- A field reads back what was written to it, modulo its width. -/
theorem bits_setBits_same (n low width v : Nat) : bits (setBits n low width v) low width = v % 2 ^ width := by
  rw [setBits_split]
  unfold bits
  rw [Nat.shiftRight_eq_div_pow]
  have hl : n % 2 ^ low < 2 ^ low := Nat.mod_lt _ (Nat.two_pow_pos _)
  have hp : 0 < 2 ^ low := Nat.two_pow_pos _
  have e : (n / 2 ^ (low + width)) * 2 ^ (low + width) + (v % 2 ^ width) * 2 ^ low + n % 2 ^ low
      = 2 ^ low * ((n / 2 ^ (low + width)) * 2 ^ width + v % 2 ^ width) + n % 2 ^ low := by rw [Nat.pow_add]; ring
  rw [e, Nat.mul_add_div hp, Nat.div_eq_of_lt hl, Nat.add_zero, Nat.add_comm, Nat.add_mul_mod_self_right, Nat.mod_mod]

/-- The bits above or below a written field stay. -/
theorem bits_setBits_above (n low width v low' width' : Nat) (h : low + width ≤ low') :
    bits (setBits n low width v) low' width' = bits n low' width' := by
  obtain ⟨k, rfl⟩ := Nat.le.dest h
  have hv : v % 2 ^ width < 2 ^ width := Nat.mod_lt _ (Nat.two_pow_pos _)
  have hl : n % 2 ^ low < 2 ^ low := Nat.mod_lt _ (Nat.two_pow_pos _)
  have hs : (v % 2 ^ width) * 2 ^ low + n % 2 ^ low < 2 ^ (low + width) := by
    have : (v % 2 ^ width + 1) * 2 ^ low ≤ 2 ^ width * 2 ^ low := Nat.mul_le_mul_right _ hv
    rw [Nat.pow_add, Nat.mul_comm (2 ^ low)]
    rw [Nat.add_mul, Nat.one_mul] at this
    omega
  have hd : setBits n low width v / 2 ^ (low + width) = n / 2 ^ (low + width) := by
    rw [setBits_split, Nat.add_assoc, Nat.mul_comm, Nat.mul_add_div (Nat.two_pow_pos _), Nat.div_eq_of_lt hs, Nat.add_zero]
  unfold bits
  rw [Nat.shiftRight_eq_div_pow, Nat.shiftRight_eq_div_pow, Nat.pow_add, ← Nat.div_div_eq_div_mul, ← Nat.div_div_eq_div_mul, hd]

theorem bits_setBits_below (n low width v low' width' : Nat) (h : low' + width' ≤ low) :
    bits (setBits n low width v) low' width' = bits n low' width' := by
  have key : ∀ m, bits m low' width' = (m % 2 ^ low) / 2 ^ low' % 2 ^ width' := by
    intro m
    unfold bits
    rw [Nat.shiftRight_eq_div_pow]
    obtain ⟨k, rfl⟩ := Nat.le.dest h
    have : m % 2 ^ (low' + width' + k) / 2 ^ low' = m / 2 ^ low' % 2 ^ (width' + k) := by
      rw [Nat.add_assoc, Nat.pow_add, Nat.mod_mul_right_div_self]
    rw [this, Nat.pow_add, Nat.mod_mul_right_mod]
  rw [key, key]
  have : setBits n low width v % 2 ^ low = n % 2 ^ low := by
    rw [setBits_split, Nat.pow_add]
    have e : n / (2 ^ low * 2 ^ width) * (2 ^ low * 2 ^ width) + v % 2 ^ width * 2 ^ low + n % 2 ^ low
        = n % 2 ^ low + 2 ^ low * (n / (2 ^ low * 2 ^ width) * 2 ^ width + v % 2 ^ width) := by ring
    rw [e, Nat.add_mul_mod_self_left, Nat.mod_mod]
  rw [this]

theorem setBits_lt (n low width v : Nat) (hn : n < 2 ^ 32) (h : low + width ≤ 32) : setBits n low width v < 2 ^ 32 := by
  obtain ⟨k, hk⟩ := Nat.le.dest h
  rw [setBits_split]
  have hv : v % 2 ^ width < 2 ^ width := Nat.mod_lt _ (Nat.two_pow_pos _)
  have hl : n % 2 ^ low < 2 ^ low := Nat.mod_lt _ (Nat.two_pow_pos _)
  have hp : 2 ^ 32 = 2 ^ k * 2 ^ (low + width) := by rw [← Nat.pow_add, Nat.add_comm, hk]
  have hq : n / 2 ^ (low + width) < 2 ^ k := by
    rw [Nat.div_lt_iff_lt_mul (Nat.two_pow_pos _), ← hp]; exact hn
  have h1 : (n / 2 ^ (low + width) + 1) * 2 ^ (low + width) ≤ 2 ^ k * 2 ^ (low + width) := Nat.mul_le_mul_right _ hq
  have h2 : (v % 2 ^ width + 1) * 2 ^ low ≤ 2 ^ width * 2 ^ low := Nat.mul_le_mul_right _ hv
  have h3 : 2 ^ (low + width) = 2 ^ width * 2 ^ low := by rw [Nat.pow_add, Nat.mul_comm]
  rw [Nat.add_mul, Nat.one_mul] at h1 h2
  omega

/-! ### The register file -/

@[simp] theorem Dev.reg_setReg_same (d : Dev) (a : Nat) (v : BitVec 32) : (d.setReg a v).reg a = v :=
  SMap.get_set_same (regReset a) d.regs a v

theorem Dev.reg_setReg_ne (d : Dev) (v : BitVec 32) {a b : Nat} (h : b ≠ a) : (d.setReg a v).reg b = d.reg b :=
  SMap.get_set_ne (regReset b) (regReset a) d.regs v h

theorem Dev.reg_wr_ne (d : Dev) (f : Field) (v : Nat) {b : Nat} (h : b ≠ f.addr) : (d.wr f v).reg b = d.reg b :=
  Dev.reg_setReg_ne d _ h

/-- Setting a field leaves every register but its own. -/
theorem Dev.rd_wr_addr (d : Dev) (f g : Field) (v : Nat) (h : g.addr ≠ f.addr) : (d.wr f v).rd g = d.rd g := by
  unfold Dev.rd; rw [Dev.reg_wr_ne d f v h]

theorem Dev.reg_wr_toNat (d : Dev) (f : Field) (v : Nat) (h : f.low + f.width ≤ 32) :
    ((d.wr f v).reg f.addr).toNat = setBits (d.reg f.addr).toNat f.low f.width v := by
  unfold Dev.wr
  rw [Dev.reg_setReg_same, BitVec.toNat_ofNat]
  exact Nat.mod_eq_of_lt (setBits_lt _ _ _ _ (d.reg f.addr).isLt h)

/-- A field reads what it was set to, modulo its width. -/
theorem Dev.rd_wr_same (d : Dev) (f : Field) (v : Nat) (h : f.low + f.width ≤ 32) : (d.wr f v).rd f = v % 2 ^ f.width := by
  unfold Dev.rd
  rw [Dev.reg_wr_toNat d f v h, bits_setBits_same]

/-- Two fields of one register that do not overlap do not disturb each other. -/
theorem Dev.rd_wr_apart (d : Dev) (f g : Field) (v : Nat) (hf : f.low + f.width ≤ 32)
    (h : f.low + f.width ≤ g.low ∨ g.low + g.width ≤ f.low) : (d.wr f v).rd g = d.rd g := by
  by_cases ha : g.addr = f.addr
  · unfold Dev.rd
    rw [ha, Dev.reg_wr_toNat d f v hf]
    rcases h with h | h
    · exact bits_setBits_above _ _ _ _ _ _ h
    · exact bits_setBits_below _ _ _ _ _ _ h
  · exact Dev.rd_wr_addr d f g v ha

theorem Dev.on_wr_apart (d : Dev) (f g : Field) (v : Nat) (hf : f.low + f.width ≤ 32)
    (h : g.addr ≠ f.addr ∨ f.low + f.width ≤ g.low ∨ g.low + g.width ≤ f.low) : (d.wr f v).on g = d.on g := by
  unfold Dev.on
  rcases h with h | h
  · rw [Dev.rd_wr_addr d f g v h]
  · rw [Dev.rd_wr_apart d f g v hf h]

/-- A saturating counter counts. -/
theorem Dev.rd_bump_same (d : Dev) (f : Field) (k : Nat) (h : f.low + f.width ≤ 32) :
    (d.bump f k).rd f = min (d.rd f + k) (2 ^ f.width - 1) := by
  unfold Dev.bump
  rw [Dev.rd_wr_same d f _ h]
  have : 0 < 2 ^ f.width := Nat.two_pow_pos _
  exact Nat.mod_eq_of_lt (by omega)

theorem Dev.rd_bump_addr (d : Dev) (f g : Field) (k : Nat) (h : g.addr ≠ f.addr) : (d.bump f k).rd g = d.rd g :=
  Dev.rd_wr_addr d f g _ h

end Sys2Proof.Machine
end

