-- ==== Sys2Proof/Laws/Settle.lean ====
section
/-! SUPPORT. What the end of a command (`Dev.settle`) leaves as it is when no reaction waits: every unit but its own queues of
messages, reads and interrupts, and every register but the few that follow from the state. -/

namespace Sys2Proof.Machine

theorem settleField_le {f : Field} (h : settleField f) : f.low + f.width ≤ 32 := by
  rcases h with h | h
  · have : ∀ f ∈ settleFields, f.low + f.width ≤ 32 := by decide
    exact this f h
  · exact h.2.2

theorem Field.calm_apart {g : Field} (h : g.calm = true) {f : Field} (hf : settleField f) : f.apart g := by
  unfold Field.calm at h
  rw [Bool.and_eq_true, List.all_eq_true] at h
  rcases hf with hf | hf
  · have := h.1 f hf
    unfold Field.apart
    simp only [Bool.or_eq_true, bne_iff_ne, decide_eq_true_eq] at this
    tauto
  · have := h.2
    simp only [Bool.or_eq_true, decide_eq_true_eq] at this
    left; omega

theorem Calm.refl (d : Dev) : Calm d d where
  rds := fun _ _ => rfl
  regs := fun _ _ => rfl
  rwt := rfl
  tck := rfl
  flt := rfl
  cht := rfl
  asx := rfl
  lku := rfl
  pipe := rfl
  dpt := rfl
  nrg := rfl
  cxl := ⟨[], by simp⟩
  que := rfl
  yrd := rfl
  wan := rfl
  fab := rfl
  hst := ⟨_, _, rfl⟩
  cge := rfl
  cvy := ⟨_, _, _, _, rfl⟩
  hlm := rfl
  snd := ⟨_, rfl⟩
  sxt := rfl
  fwu := ⟨_, _, rfl⟩
  pwr := rfl
  free := rfl
  out := ⟨[], by simp⟩

theorem Calm.trans {a b c : Dev} (h : Calm a b) (k : Calm b c) : Calm a c where
  rds := fun x hx => (k.rds x hx).trans (h.rds x hx)
  regs := fun x hx => (k.regs x hx).trans (h.regs x hx)
  rwt := k.rwt.trans h.rwt
  tck := k.tck.trans h.tck
  flt := k.flt.trans h.flt
  cht := k.cht.trans h.cht
  asx := k.asx.trans h.asx
  lku := k.lku.trans h.lku
  pipe := k.pipe.trans h.pipe
  dpt := k.dpt.trans h.dpt
  nrg := k.nrg.trans h.nrg
  cxl := by
    obtain ⟨l, h⟩ := h.cxl; obtain ⟨m, k⟩ := k.cxl
    exact ⟨l ++ m, by rw [k, h]; simp⟩
  que := k.que.trans h.que
  yrd := k.yrd.trans h.yrd
  wan := k.wan.trans h.wan
  fab := k.fab.trans h.fab
  hst := by
    obtain ⟨_, _, h⟩ := h.hst; obtain ⟨_, _, k⟩ := k.hst
    exact ⟨_, _, by rw [k, h]⟩
  cge := k.cge.trans h.cge
  cvy := by
    obtain ⟨_, _, _, _, h⟩ := h.cvy; obtain ⟨_, _, _, _, k⟩ := k.cvy
    exact ⟨_, _, _, _, by rw [k, h]⟩
  hlm := k.hlm.trans h.hlm
  snd := by
    obtain ⟨_, h⟩ := h.snd; obtain ⟨_, k⟩ := k.snd
    exact ⟨_, by rw [k, h]⟩
  sxt := k.sxt.trans h.sxt
  fwu := by
    obtain ⟨_, _, h⟩ := h.fwu; obtain ⟨_, _, k⟩ := k.fwu
    exact ⟨_, _, by rw [k, h]⟩
  pwr := k.pwr.trans h.pwr
  free := k.free.trans h.free
  out := by
    obtain ⟨l, h⟩ := h.out; obtain ⟨m, k⟩ := k.out
    exact ⟨l ++ m, by rw [k, h]; simp⟩

/-- A field of the end of a command is set. -/
theorem Calm.wr (d : Dev) (f : Field) (v : Nat) (h : settleField f) : Calm d (d.wr f v) :=
  { Calm.refl d with
    rds := fun g hg => by
      rcases hg f h with k | k
      · exact Dev.rd_wr_addr d f g v k
      · exact Dev.rd_wr_apart d f g v (settleField_le h) k
    regs := fun _ hx => Dev.reg_wr_ne d f v (hx f h) }

theorem Calm.wrs (d : Dev) (l : List (Field × Nat)) (h : ∀ p ∈ l, settleField p.1) : Calm d (d.wrs l) := by
  induction l generalizing d with
  | nil => exact Calm.refl d
  | cons p l ih =>
    rw [Dev.wrs_cons]
    exact (Calm.wr d p.1 p.2 (h p (List.mem_cons_self ..))).trans (ih _ fun q hq => h q (List.mem_cons_of_mem _ hq))

theorem Calm.emit (d : Dev) (e : Emit) : Calm d (d.emit e) := { Calm.refl d with out := ⟨[e], rfl⟩ }

theorem Calm.foldl_mem {α : Type} (f : Dev → α → Dev) (l : List α) (h : ∀ d, ∀ x ∈ l, Calm d (f d x)) (d : Dev) :
    Calm d (l.foldl f d) := by
  induction l generalizing d with
  | nil => exact Calm.refl d
  | cons x l ih =>
    exact (h d x (List.mem_cons_self ..)).trans (ih (fun e y hy => h e y (List.mem_cons_of_mem _ hy)) _)

theorem Calm.foldl {α : Type} (f : Dev → α → Dev) (h : ∀ d x, Calm d (f d x)) (l : List α) (d : Dev) : Calm d (l.foldl f d) :=
  Calm.foldl_mem f l (fun e x _ => h e x) d

/-! ### Event counters -/

theorem Calm.wrSnd (d : Dev) (f : Field) (v : Nat) (h : 0x2C04000 ≤ f.addr) (k : f.addr < 0x2C08000) (w : f.low + f.width ≤ 32) :
    Calm d (d.wr f v) := Calm.wr d f v (.inr ⟨h, k, w⟩)

/-- A counter that wrapped. -/
theorem Calm.wrapped (d : Dev) (g v : Nat) (l : List Nat) (hg : g < 64) :
    Calm d (let e := (d.wr (SND_G_STATUS.OVF g) v).wr SND_STATUS.OVF 1; { e with snd := { e.snd with wrapped := l } }) := by
  have h1 : settleField (SND_G_STATUS.OVF g) := by
    refine .inr ⟨?_, ?_, ?_⟩
    · show 0x2C04000 ≤ 0x02C04080 + 256 * g; omega
    · show 0x02C04080 + 256 * g < 0x2C08000; omega
    · show 0 + 8 ≤ 32; omega
  have h2 : settleField SND_STATUS.OVF := .inl (by decide)
  exact ((Calm.wr d _ v h1).trans (Calm.wr _ _ 1 h2)).trans { Calm.refl _ with snd := ⟨_, rfl⟩ }

/-- Counting an event touches the SND block alone. -/
theorem Calm.countAdd (d : Dev) (g j k : Nat) (hg : g < 64) (hj : j < 8) : Calm d (d.countAdd g j k) := by
  have a1 : ∀ j, j ≤ 8 → settleField (SND_G_CNT.COUNT g j) := fun j h => by
    refine .inr ⟨?_, ?_, ?_⟩
    · show 0x2C04000 ≤ 0x02C04000 + 256 * g + 4 * j; omega
    · show 0x02C04000 + 256 * g + 4 * j < 0x2C08000; omega
    · show 0 + 32 ≤ 32; omega
  unfold Dev.countAdd
  split
  · dsimp only
    split
    · exact ((Calm.wr d _ _ (a1 _ (by omega))).trans (Calm.wr _ _ _ (a1 _ (by omega)))).trans (Calm.wrapped _ _ _ _ hg)
    · exact (Calm.wr d _ _ (a1 _ (by omega))).trans (Calm.wr _ _ _ (a1 _ (by omega)))
  · dsimp only
    split
    · exact (Calm.wr d _ _ (a1 _ (by omega))).trans (Calm.wrapped _ _ _ _ hg)
    · exact Calm.wr d _ _ (a1 _ (by omega))

theorem Dev.selections_lt (d : Dev) : ∀ s ∈ d.selections, s.1 < 64 ∧ s.2.1 < 8 := by
  intro s hs
  unfold Dev.selections at hs
  rw [List.mem_filterMap] at hs
  obtain ⟨p, _, hp⟩ := hs
  split at hp
  · next h =>
    cases hp
    refine ⟨?_, ?_⟩
    · show (p.1 - 0x2C04000) / 256 < 64; omega
    · show p.1 % 32 / 4 < 8; omega
  · cases hp

theorem Calm.evt (d : Dev) (g code : Nat) (sub : Option Nat) (k : Nat) : Calm d (d.evt g code sub k) := by
  unfold Dev.evt
  refine Calm.foldl_mem _ _ (fun e s hs => ?_) _
  have h := Dev.selections_lt d s hs
  split
  · next c => exact Calm.countAdd e _ _ _ (c.1 ▸ h.1) h.2
  · exact Calm.refl e

theorem Calm.evtAll (d : Dev) (code k : Nat) : Calm d (d.evtAll code k) := by
  unfold Dev.evtAll
  refine Calm.foldl_mem _ _ (fun e s hs => ?_) _
  have h := Dev.selections_lt d s hs
  split
  · exact Calm.countAdd e _ _ _ h.1 h.2
  · exact Calm.refl e

theorem Calm.quadEvt (d : Dev) (dir pipe code k : Nat) : Calm d (d.quadEvt dir pipe code k) := by
  unfold Dev.quadEvt
  split
  · exact Calm.refl d
  · exact Calm.evt _ _ _ _ _

/-! ### What the end of a command does -/

theorem Calm.setCvy (d : Dev) (seq : Nat) (tx : SMap (List (Nat × Nat))) (pri : SMap Nat) (assigned : Bool) :
    Calm d { d with cvy := { d.cvy with seq, tx, pri, assigned } } := { Calm.refl d with cvy := ⟨_, _, _, _, rfl⟩ }

/-- The counters of the three convoy ports and of the four CXL ports. -/
theorem settleField_tx {p : Nat} (h : p < 3) : settleField (CVY_PORT_TX.COUNT p) ∧ settleField (CVY_PORT_DROP.COUNT p) := by
  have : ∀ p < 3, CVY_PORT_TX.COUNT p ∈ settleFields ∧ CVY_PORT_DROP.COUNT p ∈ settleFields := by decide
  exact ⟨.inl (this p h).1, .inl (this p h).2⟩

theorem settleField_rd {p : Nat} (h : p < 4) : settleField (CXL_PORT_RD.COUNT p) := by
  have : ∀ p < 4, CXL_PORT_RD.COUNT p ∈ settleFields := by decide
  exact .inl (this p h)

theorem Calm.cvySent (d : Dev) (port : Nat) (e : Emit) (h : port < 3) :
    Calm d (((d.bump (CVY_PORT_TX.COUNT port)).evt 0x34 0x20 (some port)).emit e) :=
  ((Calm.wr d _ _ (settleField_tx h).1).trans (Calm.evt _ _ _ _ _)).trans (Calm.emit _ _)

theorem Calm.cvyPut (d : Dev) (port : Nat) (pri : Bool) (mtype dst src seq len : Nat) (payload : List Byte) (h : port < 3) :
    Calm d (d.cvyPut port pri mtype dst src seq len payload) := by
  unfold Dev.cvyPut
  split
  · exact Calm.refl d
  · dsimp only
    split
    · exact (Calm.setCvy d _ _ _ _).trans (Calm.cvySent _ _ _ h)
    · split
      · exact Calm.wr d _ _ (settleField_tx h).2
      · exact (Calm.setCvy d _ _ _ _).trans (Calm.cvySent _ _ _ h)

theorem Calm.cvySend (d : Dev) (ports : List Nat) (pri : Bool) (mtype dst len : Nat) (payload : List Byte)
    (h : ∀ p ∈ ports, p < 3) : Calm d (d.cvySend ports pri mtype dst len payload) := by
  unfold Dev.cvySend
  dsimp only
  exact (Calm.setCvy d ((d.cvy.seq + 1) % 256) d.cvy.tx d.cvy.pri d.cvy.assigned).trans
    (Calm.foldl_mem _ _ (fun e p hp => Calm.cvyPut e p _ _ _ _ _ _ _ (h p hp)) _)

theorem Dev.cvyRoute_lt (d : Dev) (dst p : Nat) (h : d.cvyRoute dst = .out p) : p < 3 := by
  unfold Dev.cvyRoute at h
  dsimp only at h
  split at h
  · cases h
  · split at h
    · cases h
    · split at h
      · cases h; decide
      · split at h
        · cases h; decide
        · split at h
          · cases h
          · cases h; decide

theorem Calm.fwrSend (d : Dev) (dst op code xid offset arg : Nat) (data : List Byte) :
    Calm d (d.fwrSend dst op code xid offset arg data) := by
  unfold Dev.fwrSend
  split
  · next p hp =>
    refine Calm.cvySend _ _ _ _ _ _ _ fun q hq => ?_
    rw [List.mem_singleton] at hq
    exact hq ▸ d.cvyRoute_lt dst p hp
  · exact Calm.refl d
  · exact Calm.wr d _ _ (.inl (by decide))

theorem Calm.versionSend (d : Dev) : Calm d d.versionSend := by
  unfold Dev.versionSend
  split
  · exact Calm.refl d
  · exact Calm.foldl _ (fun e a => Calm.fwrSend e _ _ _ _ _ _ _) _ _

theorem Calm.readyCheck (d : Dev) : Calm d d.readyCheck := by
  unfold Dev.readyCheck
  split
  · exact Calm.refl d
  · split
    · exact Calm.refl d
    · have h : Calm d (d.wrs [(GLB_BOOT_STATUS.READY, 1), (GLB_BOOT_STATUS.STEP, 7)]) := by
        refine Calm.wrs d _ fun p hp => ?_
        simp only [List.mem_cons, List.not_mem_nil, or_false] at hp
        rcases hp with rfl | rfl <;> exact .inl (by decide)
      dsimp only
      split
      · exact h
      · exact h.trans (Calm.versionSend _)

theorem Calm.assignedSend (d : Dev) : Calm d d.assignedSend := by
  unfold Dev.assignedSend
  split
  · exact Calm.refl d
  · dsimp only
    have h : Calm d { d with cvy := { d.cvy with assigned := false } }.versionSend :=
      (Calm.setCvy d d.cvy.seq d.cvy.tx d.cvy.pri false).trans (Calm.versionSend _)
    split
    · exact h.trans (Calm.fwrSend _ _ _ _ _ _ _ _)
    · exact h

theorem Calm.cxlIssue (d : Dev) (port addr len : Nat) (h : port < 4) : Calm d (d.cxlIssue port addr len) :=
  ((Calm.wr d _ _ (settleField_rd h)).trans (Calm.evt _ _ _ _ _)).trans (Calm.emit _ _)

theorem Dev.cxlPort_lt (d : Dev) (a p : Nat) (h : d.cxlPort a = some p) : p < 4 := by
  unfold Dev.cxlPort at h
  rw [Option.map_eq_some_iff] at h
  obtain ⟨x, _, rfl⟩ := h
  exact bits_lt _ _ _

theorem Calm.setStage (d : Dev) (r : CxlRd) :
    Calm d { d with cxl := { d.cxl with reads := d.cxl.reads ++ [r] }, fwu := { d.fwu with reading := true } } :=
  { Calm.refl d with cxl := ⟨_, rfl⟩, fwu := ⟨_, _, rfl⟩ }

theorem Calm.stageRead (d : Dev) : Calm d d.stageRead := by
  have bad : Calm d { d with fwu := { d.fwu with cxlErr := true } } := { Calm.refl d with fwu := ⟨_, _, rfl⟩ }
  unfold Dev.stageRead
  split
  · exact Calm.refl d
  · dsimp only
    split
    · exact bad
    · split
      · next p hp =>
        split
        · exact (Calm.setStage d _).trans (Calm.cxlIssue _ _ _ _ (d.cxlPort_lt _ _ hp))
        · exact bad
      · exact bad

theorem Calm.cageEvt (d : Dev) : Calm d d.cageEvt := Calm.wr d _ _ (.inl (by decide))

theorem Calm.lkuCount (d : Dev) : Calm d d.lkuCount := by
  unfold Dev.lkuCount
  refine Calm.wrs d _ fun p hp => ?_
  simp only [List.mem_cons, List.not_mem_nil, or_false] at hp
  rcases hp with rfl | rfl | rfl | rfl | rfl | rfl | rfl <;> exact .inl (by dsimp only; decide)

theorem Calm.sndHalf (d : Dev) : Calm d d.sndHalf :=
  (Calm.wr d _ _ (.inl (by decide))).trans (Calm.wr _ _ _ (.inl (by decide)))

theorem Calm.faultViews (d : Dev) : Calm d d.faultViews := by
  exact (Calm.wr d FLT_STATUS.QUENCH _ (.inl (by decide))).trans (Calm.wr _ FLT_STATUS.FAULTN _ (.inl (by decide)))

theorem Calm.sendVec (d : Dev) (v : Nat) : Calm d (d.sendVec 0 v) := by
  unfold Dev.sendVec
  dsimp only
  split
  · exact Calm.refl d
  · split
    · unfold Dev.setFunc Dev.func
      exact { Calm.refl d with hst := ⟨_, _, rfl⟩ }
    · exact Calm.emit d _

theorem Calm.setIrq (d : Dev) (l : List Nat) : Calm d { d with hst := { d.hst with irq := l } } :=
  { Calm.refl d with hst := ⟨l, _, rfl⟩ }

theorem Calm.irqs (d : Dev) : Calm d d.irqs := by
  unfold Dev.irqs
  dsimp only
  exact (Calm.setIrq d _).trans (Calm.foldl _ (fun e k => Calm.sendVec e _) _ _)

theorem Dev.carryAll_todo (d : Dev) (n : Nat) : (d.carryAll n).flt.todo = [] := by
  induction n generalizing d with
  | zero => rfl
  | succ n ih =>
    unfold Dev.carryAll
    split
    · assumption
    · exact ih _

theorem Dev.clearTodo (d : Dev) (h : d.flt.todo = []) : { d with flt := { d.flt with todo := [] } } = d := by rw [← h]

theorem Dev.carryAll_nil (d : Dev) (h : d.flt.todo = []) (n : Nat) : d.carryAll n = d := by
  cases n with
  | zero => exact Dev.clearTodo d h
  | succ n => unfold Dev.carryAll; rw [h]

/-- The end of a command, after the reactions. -/
theorem Calm.settleAfter (d : Dev) :
    Calm (d.carryAll (64 + d.flt.todo.length)) d.settle := by
  unfold Dev.settle
  dsimp only
  exact (((((((Calm.readyCheck _).trans (Calm.assignedSend _)).trans (Calm.stageRead _)).trans (Calm.cageEvt _)).trans
    (Calm.lkuCount _)).trans (Calm.sndHalf _)).trans (Calm.faultViews _)).trans (Calm.irqs _)

/-- The end of a command that left no reaction waiting changes nothing but what `Calm` names. -/
theorem Calm.settle (d : Dev) (h : d.flt.todo = []) : Calm d d.settle := by
  have k := Calm.settleAfter d
  rwa [Dev.carryAll_nil d h] at k

/-- No reaction waits after a command. -/
theorem Dev.settle_todo (d : Dev) : d.settle.flt.todo = [] := by
  rw [(Calm.settleAfter d).flt]; exact Dev.carryAll_todo d _

/-- A field that the end of a command leaves alone. -/
theorem Calm.rd {d e : Dev} (h : Calm d e) (g : Field) (hg : g.calm = true) : e.rd g = d.rd g :=
  h.rds g fun _ hf => Field.calm_apart hg hf

theorem Calm.on {d e : Dev} (h : Calm d e) (g : Field) (hg : g.calm = true) : e.on g = d.on g := by
  unfold Dev.on; rw [h.rd g hg]

end Sys2Proof.Machine
end

