-- ==== Sys2Proof/Laws/Act.lean ====
section
/-! SUPPORT. How a command acts: what `State.act` answers, when the gates of `Dev.core`, `Dev.host`, `Dev.agent` and `Dev.hostGet` let an
effect through, and what the state then holds. -/

namespace Sys2Proof.Machine

/-- A command that names things the device has has its effect. -/
theorem State.act_next (s : State) (c : Instr) (f : Dev → Dev) (w : Instr.wf c = true) : s.act c f = .next (s.run f) := by
  unfold State.act; rw [if_pos w]

/-- A command that names a thing the device does not have leaves the state as it is. -/
theorem State.act_ill (s : State) (c : Instr) (f : Dev → Dev) (w : Instr.wf c = false) : s.act c f = .next s := by
  unfold State.act; simp [w]

@[simp] theorem State.run_pending (s : State) (f : Dev → Dev) : (s.run f).pending = s.pending := rfl

theorem State.run_dead (s : State) (f : Dev → Dev) (h : s.dev.dead = true) : s.run f = s := by
  unfold State.run; rw [if_pos h]

theorem State.run_dev (s : State) (f : Dev → Dev) (h : s.dev.dead = false) : (s.run f).dev = (f s.dev).settle := by
  unfold State.run; simp [h]

/-- What a command leaves, when its effect leaves no reaction waiting: the effect, and the little that `Calm` names. -/
theorem State.run_calm (s : State) (f : Dev → Dev) (h : s.dev.dead = false) (t : (f s.dev).flt.todo = []) :
    Calm (f s.dev) (s.run f).dev := by
  rw [State.run_dev s f h]; exact Calm.settle _ t

theorem Dev.core_open (d : Dev) (f : Dev → Dev) (h : d.held = false) : d.core f = f d := by unfold Dev.core; simp [h]

theorem Dev.core_held (d : Dev) (f : Dev → Dev) (h : d.held = true) : d.core f = d := by unfold Dev.core; simp [h]

theorem Dev.agent_held (d : Dev) (holder a : Nat) (f : Dev → Dev) (h : d.held = true) : d.agent holder a f = d := by
  unfold Dev.agent; simp [h]

theorem Dev.hostGet_held (d : Dev) (a : Nat) (f : Dev → Dev) (h : d.held = true) : d.hostGet a f = d := by unfold Dev.hostGet; simp [h]

/-- The host is no navigator core. -/
theorem Dev.hoBlocked_host (d : Dev) : d.hoBlocked 1 = false := by unfold Dev.hoBlocked; simp

theorem State.Open.barred {s : State} (h : s.Open) (a : Nat) : s.dev.barred a = false := by
  obtain ⟨_, h1, h2⟩ := h
  unfold Dev.barred
  rw [h1]
  by_cases hb : s.dev.pwr.bootSrc = 2
  · have : s.dev.pwr.step3 = true := by
      cases hs : s.dev.pwr.step3
      · exact absurd ⟨hb, hs⟩ h2
      · rfl
    simp [this]
  · simp [hb]

theorem State.Open.agent {s : State} (h : s.Open) {holder : Nat} (k : s.Agent holder) (a : Nat) (f : Dev → Dev) :
    s.dev.agent holder a f = f s.dev := by
  have hb := h.barred a
  have hh := h.1.2.1
  unfold State.Agent at k
  unfold Dev.agent
  rw [hh, k, hb]
  simp

theorem State.Open.host {s : State} (h : s.Open) (a : Nat) (f : Dev → Dev) : s.dev.host a f = f s.dev :=
  h.agent (Dev.hoBlocked_host _) a f

theorem State.Open.hostGet {s : State} (h : s.Open) (a : Nat) (f : Dev → Dev) : s.dev.hostGet a f = f s.dev := by
  have hb := h.barred a
  have hh := h.1.2.1
  unfold Dev.hostGet
  rw [hh, hb]
  simp

/-! ### What a command does, from its effect -/

theorem State.does {s : State} {c : Instr} {f : Dev → Dev} (r : s.dev.dead = false) (hx : exec c s = s.act c f)
    (w : Instr.wf c = true) (t : (f s.dev).flt.todo = []) : s.Does c (f s.dev) :=
  ⟨s.run f, by rw [hx, State.act_next s c f w], rfl, State.run_calm s f r t⟩

theorem State.does_core {s : State} {c : Instr} {f : Dev → Dev} (h : s.Ready) (hx : exec c s = s.act c fun d => d.core f)
    (w : Instr.wf c = true) (t : (f s.dev).flt.todo = []) : s.Does c (f s.dev) := by
  have e := Dev.core_open s.dev f h.2.1
  have := State.does (f := fun d => d.core f) h.1 hx w (by rw [e]; exact t)
  rwa [e] at this

theorem State.does_host {s : State} {c : Instr} {a : Nat} {f : Dev → Dev} (h : s.Open) (hx : exec c s = s.act c fun d => d.host a f)
    (w : Instr.wf c = true) (t : (f s.dev).flt.todo = []) : s.Does c (f s.dev) := by
  have e := h.host a f
  have := State.does (f := fun d => d.host a f) h.1.1 hx w (by rw [e]; exact t)
  rwa [e] at this

theorem State.does_hostGet {s : State} {c : Instr} {a : Nat} {f : Dev → Dev} (h : s.Open)
    (hx : exec c s = s.act c fun d => d.hostGet a f) (w : Instr.wf c = true) (t : (f s.dev).flt.todo = []) : s.Does c (f s.dev) := by
  have e := h.hostGet a f
  have := State.does (f := fun d => d.hostGet a f) h.1.1 hx w (by rw [e]; exact t)
  rwa [e] at this

theorem State.does_agent {s : State} {c : Instr} {holder a : Nat} {f : Dev → Dev} (h : s.Open) (k : s.Agent holder)
    (hx : exec c s = s.act c fun d => d.agent holder a f) (w : Instr.wf c = true) (t : (f s.dev).flt.todo = []) :
    s.Does c (f s.dev) := by
  have e := h.agent k a f
  have := State.does (f := fun d => d.agent holder a f) h.1.1 hx w (by rw [e]; exact t)
  rwa [e] at this

theorem State.runs {s : State} {c : Instr} {f : Dev → Dev} (r : s.dev.dead = false) (hx : exec c s = s.act c f)
    (w : Instr.wf c = true) : s.Runs c (f s.dev) := by
  rw [State.Runs, hx, State.act_next s c f w]; unfold State.run; simp [r]

theorem State.runs_core {s : State} {c : Instr} {f : Dev → Dev} (h : s.Ready) (hx : exec c s = s.act c fun d => d.core f)
    (w : Instr.wf c = true) : s.Runs c (f s.dev) := by
  have := State.runs (f := fun d => d.core f) h.1 hx w
  rwa [Dev.core_open s.dev f h.2.1] at this

theorem State.runs_host {s : State} {c : Instr} {a : Nat} {f : Dev → Dev} (h : s.Open) (hx : exec c s = s.act c fun d => d.host a f)
    (w : Instr.wf c = true) : s.Runs c (f s.dev) := by
  have := State.runs (f := fun d => d.host a f) h.1.1 hx w
  rwa [h.host a f] at this

theorem State.runs_hostGet {s : State} {c : Instr} {a : Nat} {f : Dev → Dev} (h : s.Open)
    (hx : exec c s = s.act c fun d => d.hostGet a f) (w : Instr.wf c = true) : s.Runs c (f s.dev) := by
  have := State.runs (f := fun d => d.hostGet a f) h.1.1 hx w
  rwa [h.hostGet a f] at this

theorem State.runs_agent {s : State} {c : Instr} {holder a : Nat} {f : Dev → Dev} (h : s.Open) (k : s.Agent holder)
    (hx : exec c s = s.act c fun d => d.agent holder a f) (w : Instr.wf c = true) : s.Runs c (f s.dev) := by
  have := State.runs (f := fun d => d.agent holder a f) h.1.1 hx w
  rwa [h.agent k a f] at this

/-- What a command runs, it does, when no reaction waits. -/
theorem State.Runs.does {s : State} {c : Instr} {e : Dev} (h : s.Runs c e) (t : e.flt.todo = []) : s.Does c e :=
  ⟨_, h, rfl, Calm.settle e t⟩

/-- What a command does says what its answer holds. -/
theorem State.Does.gets {s : State} {c : Instr} {e : Dev} {p : Dev → Prop} (h : s.Does c e) (k : ∀ x, Calm e x → p x) : s.Gets c p := by
  obtain ⟨t, h1, h2, h3⟩ := h
  exact ⟨t, h1, h2, k _ h3⟩

end Sys2Proof.Machine
end

