-- ==== Sys2Proof/Laws/Bytes.lean ====
section
/-! SUPPORT. Bytes and numbers: what the byte lists of Sys2Proof/Machine/Ops.lean spell, and which of them a slice takes. -/

namespace Sys2Proof.Machine

@[simp] theorem length_beBytes (n : Nat) : ∀ k, (beBytes k n).length = k
  | 0 => rfl
  | k + 1 => by rw [beBytes, List.length_cons, length_beBytes n k]

theorem ofBe_cons (b : Byte) (l : List Byte) : ofBe (b :: l) = b.toNat * 256 ^ l.length + ofBe l := by
  have go (l : List Byte) : ∀ a, l.foldl (fun a b => a * 256 + b.toNat) a = a * 256 ^ l.length + ofBe l := by
    induction l with
    | nil => intro a; simp [ofBe]
    | cons c l ih =>
      intro a
      simp only [ofBe, List.foldl_cons, List.length_cons]
      rw [ih, ih (0 * 256 + c.toNat), Nat.pow_succ]
      ring
  simpa [ofBe] using go l b.toNat

/-- The bytes of a number spell it again, as far as they reach. -/
theorem ofBe_beBytes (n : Nat) : ∀ k, ofBe (beBytes k n) = n % 256 ^ k
  | 0 => by simp [beBytes, ofBe, Nat.mod_one]
  | k + 1 => by
    rw [beBytes, ofBe_cons, length_beBytes, ofBe_beBytes n k, BitVec.toNat_ofNat, Nat.shiftRight_eq_div_pow,
      show 2 ^ (8 * k) = 256 ^ k by rw [Nat.pow_mul], Nat.pow_succ (n := 256) (m := k),
      @Nat.mod_mul (256 ^ k) 256 n]
    change n / 256 ^ k % 256 * 256 ^ k + n % 256 ^ k = _
    rw [Nat.mul_comm, Nat.add_comm]

@[simp] theorem length_sliceD {α : Type} (z : α) (l : List α) : ∀ k i, (sliceD z l i k).length = k
  | 0, _ => rfl
  | k + 1, i => by rw [sliceD, List.length_cons, length_sliceD z l k]

/-- A slice takes the elements at its indices. -/
theorem sliceD_eq {α : Type} (z : α) (l : List α) : ∀ k i, sliceD z l i k = (List.range' i k).map fun j => l.getD j z
  | 0, _ => rfl
  | k + 1, i => by rw [sliceD, sliceD_eq z l k, List.range'_succ, List.map_cons]

end Sys2Proof.Machine
end

