-- ==== Sys2Proof/Laws/Fault.lean ====
section
/-! SUPPORT. What a detection can do (`Dev.fault`): which registers and which part of the collector it writes, when it leaves no reaction
waiting, and that its record is in the log. And what releasing the helm can do. -/

namespace Sys2Proof.Machine

/-! ### Registers apart -/

theorem Dev.reg_bump_ne (d : Dev) (f : Field) (k : Nat) {b : Nat} (h : b ≠ f.addr) : (d.bump f k).reg b = d.reg b :=
  Dev.reg_wr_ne d f _ h

/-- The registers that a detection writes: FLT_STATUS, and the heads and counters from 0x0280_0020 to 0x0280_0050. -/
def fltReg (a : Nat) : Prop := a = 0x02800000 ∨ (0x02800020 ≤ a ∧ a ≤ 0x02800050)

theorem clsCounter_addr (die cls : Nat) : fltReg (clsCounter die cls).addr := by
  unfold clsCounter fltReg; split <;> split <;> try split
  all_goals simp

theorem headField_addr (die : Nat) : fltReg (headField die).addr := by unfold headField fltReg; split <;> simp

/-- `e` is `d` but for registers of a detection and the collector. -/
structure FltOnly (d e : Dev) : Prop where
  reg : ∀ a, ¬ fltReg a → e.reg a = d.reg a
  rest : ∃ regs flt, e = { d with regs, flt }

theorem FltOnly.refl (d : Dev) : FltOnly d d := ⟨fun _ _ => rfl, d.regs, d.flt, rfl⟩

theorem FltOnly.trans {a b c : Dev} (h : FltOnly a b) (k : FltOnly b c) : FltOnly a c := by
  refine ⟨fun x hx => (k.reg x hx).trans (h.reg x hx), ?_⟩
  obtain ⟨_, _, h⟩ := h.rest; obtain ⟨r, f, k⟩ := k.rest
  exact ⟨r, f, by rw [k, h]⟩

theorem FltOnly.wr (d : Dev) (f : Field) (v : Nat) (h : fltReg f.addr) : FltOnly d (d.wr f v) :=
  ⟨fun a ha => Dev.reg_wr_ne d f v (by rintro rfl; exact ha h), _, _, rfl⟩

theorem FltOnly.bump (d : Dev) (f : Field) (h : fltReg f.addr) : FltOnly d (d.bump f) := FltOnly.wr d f _ h

theorem FltOnly.flt (d : Dev) (f : Flt) : FltOnly d { d with flt := f } := ⟨fun _ _ => rfl, _, _, rfl⟩

theorem FltOnly.logLost (d : Dev) (die : Nat) : FltOnly d (d.logLost die) := by
  unfold Dev.logLost
  split
  · exact (FltOnly.bump d FLT_LOST_A.COUNT (by simp [fltReg])).trans (FltOnly.wr _ _ _ (.inl rfl))
  · exact (FltOnly.bump d FLT_LOST_T.COUNT (by simp [fltReg])).trans (FltOnly.wr _ _ _ (.inl rfl))

theorem FltOnly.ite {d a b : Dev} (p : Prop) [Decidable p] (h : FltOnly d a) (k : FltOnly d b) : FltOnly d (if p then a else b) := by
  split
  · exact h
  · exact k

theorem FltOnly.logRecord (d : Dev) (die : Nat) (r : FltRec) : FltOnly d (d.logRecord die r) :=
  (FltOnly.ite _ (FltOnly.logLost d die) (FltOnly.refl d)).trans
    (((FltOnly.flt _ _).trans (FltOnly.wr _ _ _ (headField_addr die))).trans (FltOnly.wr _ _ _ (.inl rfl)))

theorem FltOnly.quenchOpen (d : Dev) (src cls code seq : Nat) : FltOnly d (d.quenchOpen src cls code seq) :=
  FltOnly.ite _ (FltOnly.flt _ _) (FltOnly.refl d)

theorem FltOnly.react (d : Dev) (src code : Nat) : FltOnly d (d.react src code) := by
  unfold Dev.react
  split
  · exact FltOnly.flt _ _
  · split
    · exact FltOnly.flt _ _
    · split
      · exact FltOnly.flt _ _
      · split
        · exact FltOnly.flt _ _
        · exact FltOnly.refl d

theorem FltOnly.faultRecord (d : Dev) (src cls event detail : Nat) (inj : Bool) : FltOnly d (d.faultRecord src cls event detail inj) := by
  unfold Dev.faultRecord
  refine FltOnly.trans (FltOnly.bump d _ (clsCounter_addr (srcDie src) cls)) ?_
  dsimp only
  split
  · exact (FltOnly.bump _ FLT_SECONDARY.COUNT (by simp [fltReg])).trans (FltOnly.logRecord _ _ _)
  · split
    · exact FltOnly.refl _
    · split
      · exact FltOnly.logRecord _ _ _
      · exact ((FltOnly.logRecord _ _ _).trans (FltOnly.quenchOpen _ _ _ _ _)).trans (FltOnly.react _ _ _)

/-- A detection writes registers of the collector and the collector, and nothing else. -/
theorem FltOnly.fault (d : Dev) (src cls event detail : Nat) : FltOnly d (d.fault src cls event detail) := by
  unfold Dev.fault Dev.faultInj
  refine (FltOnly.faultRecord d src cls event detail false).trans ?_
  dsimp only
  split
  · split
    · exact (FltOnly.flt _ _).trans ((FltOnly.flt _ _).trans (FltOnly.faultRecord _ _ _ _ _ _))
    · exact FltOnly.flt _ _
  · exact FltOnly.refl _

theorem FltOnly.rd {d e : Dev} (h : FltOnly d e) (f : Field) (k : ¬ fltReg f.addr) : e.rd f = d.rd f := by
  unfold Dev.rd; rw [h.reg _ k]

/-! ### Reactions -/

@[simp] theorem Dev.logLost_todo (d : Dev) (die : Nat) : (d.logLost die).flt.todo = d.flt.todo := by
  unfold Dev.logLost; split <;> simp

@[simp] theorem Dev.logRecord_todo (d : Dev) (die : Nat) (r : FltRec) : (d.logRecord die r).flt.todo = d.flt.todo := by
  unfold Dev.logRecord
  dsimp only
  split <;> simp <;> split <;> simp

@[simp] theorem Dev.quenchOpen_todo (d : Dev) (src cls code seq : Nat) : (d.quenchOpen src cls code seq).flt.todo = d.flt.todo := by
  unfold Dev.quenchOpen; dsimp only; split <;> rfl

theorem Dev.faultRecord_todo (d : Dev) (src cls event detail : Nat) (inj : Bool) (h : d.reactCode src cls ≤ 1) :
    (d.faultRecord src cls event detail inj).flt.todo = d.flt.todo := by
  have hc : (d.bump (clsCounter (srcDie src) cls)).reactCode src cls = d.reactCode src cls := by
    have := (FltOnly.bump d _ (clsCounter_addr (srcDie src) cls)).rd
    have hf : ¬ fltReg (FLT_REACT.addr src) := by simp [fltReg, FLT_REACT.addr]; omega
    unfold Dev.reactCode
    rw [this _ hf, this _ hf, this _ hf]
  unfold Dev.faultRecord
  dsimp only
  split
  · rw [Dev.logRecord_todo]; simp
  · split
    · simp
    · split
      · rw [Dev.logRecord_todo]; simp
      · rw [hc]
        unfold Dev.react
        rw [if_neg (by omega), if_neg (by omega), if_neg (by omega), if_neg (by omega)]
        simp

/-- A source whose reaction to a class is at most to log it leaves no reaction waiting; for a corrected fault that holds of the storm
record too. -/
theorem Dev.fault_todo (d : Dev) (src cls event detail : Nat) (h : d.reactCode src cls ≤ 1)
    (k : cls = corrected → d.reactCode src contained ≤ 1) : (d.fault src cls event detail).flt.todo = d.flt.todo := by
  have h1 := Dev.faultRecord_todo d src cls event detail false h
  unfold Dev.fault Dev.faultInj
  dsimp only
  split
  · rename_i hc
    split
    · rw [Dev.faultRecord_todo _ _ _ _ _ _ ?_]
      · exact h1
      · have := (FltOnly.faultRecord d src cls event detail false).rd (FLT_REACT.CONT src) (by simp [fltReg]; omega)
        exact this.trans_le (k hc)
    · exact h1
  · exact h1

end Sys2Proof.Machine
end

