-- ==== Sys2Proof/Laws/Helm.lean ====
section
/-! SUPPORT. What releasing the helm can change (R365), and that every command but COLD_RESET acts through `State.act`. -/

namespace Sys2Proof.Machine

/-- `e` is `d` but for registers. -/
def RegOnly (d e : Dev) : Prop := ∃ regs, e = { d with regs }

theorem RegOnly.refl (d : Dev) : RegOnly d d := ⟨d.regs, rfl⟩

theorem RegOnly.trans {a b c : Dev} (h : RegOnly a b) (k : RegOnly b c) : RegOnly a c := by
  obtain ⟨_, rfl⟩ := h
  obtain ⟨r, rfl⟩ := k
  exact ⟨r, rfl⟩

theorem RegOnly.wr (d : Dev) (f : Field) (v : Nat) : RegOnly d (d.wr f v) := ⟨_, rfl⟩

theorem RegOnly.bump (d : Dev) (f : Field) (k : Nat) : RegOnly d (d.bump f k) := ⟨_, rfl⟩

theorem RegOnly.foldl {α : Type} (f : Dev → α → Dev) (h : ∀ d x, RegOnly d (f d x)) (l : List α) (d : Dev) : RegOnly d (l.foldl f d) := by
  induction l generalizing d with
  | nil => exact RegOnly.refl d
  | cons a l ih => exact (h d a).trans (ih _)

theorem RegOnly.wrs (d : Dev) (l : List (Field × Nat)) : RegOnly d (d.wrs l) := RegOnly.foldl _ (fun e _ => RegOnly.wr e _ _) l d

theorem RegOnly.ite {d a b : Dev} (p : Prop) [Decidable p] (h : RegOnly d a) (k : RegOnly d b) : RegOnly d (if p then a else b) := by
  split
  · exact h
  · exact k

/-- A reset of the core dies is what `Dev.cleared` leaves, but for registers. -/
theorem RegOnly.coreReset (d : Dev) (cause : Nat) : RegOnly d.cleared (d.coreReset cause) := by
  unfold Dev.coreReset
  dsimp only
  refine RegOnly.trans ?_ (RegOnly.foldl _ (fun e _ => RegOnly.wr e _ _) _ _)
  exact RegOnly.ite _ (((RegOnly.wrs _ _).trans (RegOnly.bump _ _ _)).trans (RegOnly.wr _ _ _)) ((RegOnly.wrs _ _).trans (RegOnly.bump _ _ _))

/-- `e` is `d` but for registers, the WAN ports, the helm's own state and what was sent. -/
def HelmOnly (d e : Dev) : Prop := ∃ regs out hlm wan, e = { d with regs, out, hlm, wan }

theorem HelmOnly.refl (d : Dev) : HelmOnly d d := ⟨d.regs, d.out, d.hlm, d.wan, rfl⟩

theorem HelmOnly.trans {a b c : Dev} (h : HelmOnly a b) (k : HelmOnly b c) : HelmOnly a c := by
  obtain ⟨_, _, _, _, rfl⟩ := h
  obtain ⟨r, o, l, w, rfl⟩ := k
  exact ⟨r, o, l, w, rfl⟩

theorem HelmOnly.wr (d : Dev) (f : Field) (v : Nat) : HelmOnly d (d.wr f v) := ⟨_, _, _, _, rfl⟩

theorem HelmOnly.emit (d : Dev) (x : Emit) : HelmOnly d (d.emit x) := ⟨_, _, _, _, rfl⟩

theorem HelmOnly.wan (d : Dev) (w : Wan) : HelmOnly d { d with wan := w } := ⟨_, _, _, _, rfl⟩

theorem HelmOnly.hlm (d : Dev) (h : Hlm) : HelmOnly d { d with hlm := h } := ⟨_, _, _, _, rfl⟩

theorem HelmOnly.foldl {α : Type} (f : Dev → α → Dev) (h : ∀ d x, HelmOnly d (f d x)) (l : List α) (d : Dev) : HelmOnly d (l.foldl f d) := by
  induction l generalizing d with
  | nil => exact HelmOnly.refl d
  | cons a l ih => exact (h d a).trans (ih _)

theorem HelmOnly.cutFrames (d : Dev) : HelmOnly d d.cutFrames := by
  unfold Dev.cutFrames
  dsimp only
  refine HelmOnly.trans (HelmOnly.trans (HelmOnly.wan d _) (HelmOnly.foldl _ (fun e p => ?_) _ _)) (HelmOnly.emit _ _)
  have h : HelmOnly e (e.wanBump p.1 11) := HelmOnly.wr _ _ _
  split <;> split
  · exact h
  · exact HelmOnly.refl e
  · exact h.trans (HelmOnly.emit _ _)
  · exact HelmOnly.emit _ _

/-- A release of the helm changes registers, the WAN ports, the helm's own state, and what is sent. -/
theorem HelmOnly.release (d : Dev) (cause hold : Nat) : HelmOnly d (d.helmRelease cause hold) := by
  unfold Dev.helmRelease
  split
  · exact HelmOnly.refl d
  · dsimp only
    have h1 : HelmOnly d (if d.helmState = hActive then d.cutFrames else d) := by
      split
      · exact HelmOnly.cutFrames d
      · exact HelmOnly.refl d
    have h2 (e : Dev) : HelmOnly e (((((e.wrTick HLM_REL_TICK_LO.TICK HLM_REL_TICK_HI.TICK e.tck.now).wr HLM_REL_TICK_HI.CAUSE cause).bump
        HLM_RELEASES.COUNT)).emit (.helm false e.tck.now)) := ⟨_, _, _, _, rfl⟩
    have h3 := h1.trans (h2 _)
    split
    · exact h3.trans (HelmOnly.wr _ _ _)
    · exact (h3.trans (HelmOnly.hlm _ _)).trans (HelmOnly.wr _ _ _)

/-- Without the helm there is nothing to release. -/
theorem Dev.helmRelease_idle (d : Dev) (cause hold : Nat) (h : d.holdsHelm = false) : d.helmRelease cause hold = d := by
  unfold Dev.helmRelease; simp [h]

/-- Every command but COLD_RESET acts through `State.act`. -/
theorem exec_form (c : Instr) : (∃ cold, c = .coldReset cold) ∨ ∃ f, ∀ s, exec c s = s.act c f := by
  cases c
  case coldReset cold => exact .inl ⟨cold, rfl⟩
  all_goals exact .inr ⟨_, fun s => rfl⟩

/-- The interrupts change no register and nothing of the fault collector. -/
theorem Dev.irqs_regs (d : Dev) : d.irqs.regs = d.regs ∧ d.irqs.flt = d.flt := by
  have k : ∀ (l : List Nat) (g : Dev → Nat → Nat) (d : Dev), (l.foldl (fun (d : Dev) k => d.sendVec 0 (g d k)) d).regs = d.regs ∧
      (l.foldl (fun (d : Dev) k => d.sendVec 0 (g d k)) d).flt = d.flt := by
    intro l g
    induction l with
    | nil => intro d; exact ⟨rfl, rfl⟩
    | cons a l ih =>
      intro d
      rw [List.foldl_cons, (ih _).1, (ih _).2]
      unfold Dev.sendVec
      dsimp only
      split
      · exact ⟨rfl, rfl⟩
      · split <;> exact ⟨rfl, rfl⟩
  unfold Dev.irqs
  exact k _ (fun d k => d.rd (HST_IRQ_MAP.VEC k)) _

/-- A field after a write of a field that shares no bit with it. -/
theorem Dev.rd_wr_free {d : Dev} {f g : Field} {v : Nat} (h : f.apart g) (hf : f.low + f.width ≤ 32) : (d.wr f v).rd g = d.rd g := by
  rcases h with h | h
  · exact Dev.rd_wr_addr d f g v h
  · exact Dev.rd_wr_apart d f g v hf h

end Sys2Proof.Machine
end

