-- ==== Sys2Proof/Tests/Slice0.lean ====
section
/-! SUPPORT. Tests of the model: the commands that name what the device does not have, the spec's worked examples and tables (each named
at its test), and for every statement a state and operands that meet its hypotheses. -/

namespace Sys2Proof.Tests

open Sys2Proof Sys2Proof.Machine

set_option Elab.async false

/-! ### Small states -/

/-- The machine after reset with its device changed. -/
def at_ (f : Dev → Dev) : State := { State.reset with dev := f State.reset.dev }

def cold0 : ColdIn :=
  { mode := 0, root := false, pref := false, bootSrc := 0, testLow := false, fuseOk := true, tjA := 0, tjT := 0, ackA := true, ackT := true }

def pkt0 : Pkt := { m := 0#4096, chain := 0, row := 0, copy := false, trunc := 0, frame := none }

def pass0 : Pass :=
  { dir := 0, pipe := 0, slot := 0, tick := 0, src := 1, bank := 0, own := 0, pkt := pkt0, pos := 80, row := 0, exited := true, pend := [],
    req := none, bad := false, walk := none, stop := none, queue := 0 }

def ended0 : Ended := { pass := pass0, grow := .none_, cow := false }

def asxOp (op tbl entry : Nat) : AsxOp := { holder := 0x10, op, tbl, entry, ent := AsxEntry.free, prof := 0#320 }

/-- A table of one copy in one bank, the last. -/
def bank127 : AsxDesc := { AsxDesc.off with valid := true, first := 127, span := 1 }

def lkuOp (op tbl index : Nat) : LkuOp := { holder := 0x10, op, tbl, index, data := [] }

def walk0 : T2Walk := { v6 := false, addr := 0, used := 0, reads := 1, rdAddr := 8, port := 3, tick := 0, at_ := 0 }

def parked0 : Parked :=
  { pkt := pkt0, pipe := 0, slot := 0, tick := 0, at_ := 0,
    req := { tbl := 0, ok := true, key := [], rdst := 0, words := 1, desc := none }, st := .walking walk0, landed := false, miss := false,
    ret := none }

def buf0 : T2Buf := { addr := 0, data := 0#64, at_ := 0, issued := false }

def dec0 : BitVec 32 × BitVec 32 × BitVec 32 := (1#32, 0#32, 1#32)

def chain0 : Chain :=
  { owner := 0, couple := 1, csrc := 0, terr := false, ue := false, bytes := [0#8], ptrs := [5], gone := 0, shr := 0, wagons := 0 }

def read0 : CarRead := { port := 63, chain := 0, idx := 0, why := .punt 0 0, from_ := 0 }

def req0 : HReq := { seq := 0, ready := true, ptr := 7 * 2 ^ 25 + 63, col := 0, cols := 2, done := 0, bypassed := 0, what := .dataRead 0 0 }

/-- A request of the last pseudo-channel that is part done, in the bank that refreshes next, with some columns credited. -/
def refreshing (credit : Nat) : Dev :=
  { State.reset.dev with yrd := { State.reset.dev.yrd with
      hbm := [(511, { Hbm.idle with reads := [{ req0 with done := 1 }], credit, bank := wBank req0.ptr })] } }

/-- A die's setpoint in force below or at its table's voltage, the other's at it. -/
def volts (mvA : Nat) : Dev :=
  let mvT := mvClamp (Config.voltTable 1 0)
  { State.reset.dev with
    pwr := { State.reset.dev.pwr with mvA, mvT }
    nrg := { State.reset.dev.nrg with sagA := { State.reset.dev.nrg.sagA with base := mvA }
                                      sagT := { State.reset.dev.nrg.sagT with base := mvT } } }

def dep0 (fabric : Bool) : Depart :=
  { pipe := 63, key := 0, tick := 0, slot := 0, fabric, port := 248, m := 0#4096, bytes := [], stored := 0, chain := 0 }

def ts0 : TsRec := { port := 0, tag := 0, sec := 0, ns := 0 }

def msg0 : BrgMsg :=
  { ring := 0, ver := 0x10, subtype := 1, sysid := 0, rport := 0, session := 0, seq := 0, retune := false, reason := 0, entry := 0, ceil := 0,
    appsel := 0, cur := 0, esnr := 0, delay := 0, tick := 0, adm := 0 }

def sess0 : Sess :=
  { id := 0, sent := 0, heard := [], oldEntry := 0, oldCeil := 0, newCeil := 0, oldApp := 0, newApp := 0, last := [], lastTick := 0,
    tries := 0, td := 0, fell := false, drain := 0, owd2 := none, switch_ := none, apply_ := none, applied := none, restore := none,
    ownClean := false, peerConfirm := false }

def punt0 : Punt := { ring := 63, due := 0, egress := false, pipe := 0, m := 0#4096, bytes := [], chain := 0 }

def rec0 : PuntRec := { ring := 63, id := 0, tick := 0, egress := false, m := 0#4096, bytes := [], chain := 0, done := false, terr := false }

def inj0 : InjDesc :=
  { addr := 0, len := 64, prefix_ := false, metaBytes := [], kind := 0, fcsBad := false, pipe := 0, slot := 0, source := 0, tick := 0, h := 0 }

def hrd0 : HostRd := { ring := 0, frame := false, len := 32, tick := 0, stale := false }

def cell0 : CellHdr :=
  { first := true, last := true, err := false, units := 1, ddev := 0, sdev := 1, dpipe := 0, spipe := 0, pseq := 0, stick := 0, cidx := 0,
    cls := 0, fhash := 0, plen := 64 }

def qpkt0 : QPkt :=
  { id := 0, m := 0#4096, etick := 0, copy := false, trunc := 0, frame := none, refilled := false, loc := .res 0 }

def wag0 : Wag :=
  { bytes := [], terr := false, ue := false, transit := false, nextw := 0, wptrs := [], recPtr := 0, recIdx := 0, fetched := none,
    inStore := true, recUe := false, toRead := [] }

def q0 : QState :=
  { front := [], middle := [], back := [], high := 0, deq := 0, dropped := 0, marked := 0, refilling := false, openRec := none }

def sweep0 : Sweep := { tick := 0, snap := false, cyc := none, len := 1, pos := 0, step := 0, h1 := 0, low := 0, vals := [] }

def fwr0 : FwrMsg := { port := 0, dst := 0, src := 0, seq := 0, code := 0, xid := 0, offset := 0, arg := 0, data := [] }

/-- A row of Table 2.23, and an ALU slot SHLI by 7 of a byte of scratch. -/
def goodRow : BitVec 256 := 0x0860000000000000000000000000000000000000000000000000000000000000#256

def shiftSlot : Nat := 0x1B * 2 ^ 40 + 0x190 * 2 ^ 29 + 0x190 * 2 ^ 20 + 7


theorem refreshRun_self (nb b k : Nat) : refreshRun nb b b (k + 1) = 0 := by simp [refreshRun]

theorem refreshRun_one : refreshRun (hbmNb 7) (hbmNb 7) 0 1 = 1 := by
  have : 2 ≤ hbmNb 7 := Nat.le_max_left _ _
  simp only [refreshRun]
  split <;> omega

theorem mvClamp_pos (n : Int) : 0 < mvClamp n := by unfold mvClamp; omega

/-- At reset no reading moves the table's point: both readings and both trims are 0. -/
theorem volts_point (m : Nat) :
    (volts m).rd GLB_TEMP.TJ_A = 0 ∧ (volts m).rd GLB_TEMP.TJ_T = 0 ∧
    5 * max (-4) (min 4 (sInt 4 ((volts m).rd GLB_AVS_A.TRIM))) = 0 ∧ 5 * max (-4) (min 4 (sInt 4 ((volts m).rd GLB_AVS_T.TRIM))) = 0 := by
  change State.reset.dev.rd GLB_TEMP.TJ_A = 0 ∧ State.reset.dev.rd GLB_TEMP.TJ_T = 0 ∧
    5 * max (-4) (min 4 (sInt 4 (State.reset.dev.rd GLB_AVS_A.TRIM))) = 0 ∧
    5 * max (-4) (min 4 (sInt 4 (State.reset.dev.rd GLB_AVS_T.TRIM))) = 0
  decide +kernel

theorem volts_tableA :
    let d := volts (mvClamp (Config.voltTable 0 0))
    mvClamp (Config.voltTable 0 (d.rd GLB_TEMP.TJ_A) + 5 * max (-4) (min 4 (sInt 4 (d.rd GLB_AVS_A.TRIM)))) = d.pwr.mvA := by
  intro d
  obtain ⟨a, -, b, -⟩ := volts_point (mvClamp (Config.voltTable 0 0))
  rw [a, b, Int.add_zero]; rfl

theorem volts_tableT (m : Nat) :
    mvClamp (Config.voltTable 1 ((volts m).rd GLB_TEMP.TJ_T) + 5 * max (-4) (min 4 (sInt 4 ((volts m).rd GLB_AVS_T.TRIM)))) =
      (volts m).pwr.mvT := by
  obtain ⟨-, a, -, b⟩ := volts_point m
  rw [a, b, Int.add_zero]; rfl


/-! ### Headers and their digests -/

/-- A store that lists every key below `n` reads as the listing function there. -/
theorem get_listed {α : Type} (z : α) (f : Nat → α) : ∀ (n k i : Nat), k ≤ i → i < k + n →
    SMap.get z ((List.range' k n).map fun j => (j, f j)) i = f i
  | 0, _, _, h, h' => by omega
  | n + 1, k, i, h, h' => by
    simp only [List.range'_succ, List.map_cons, SMap.get]
    by_cases e : k = i
    · simp [e]
    · simp only [e, ↓reduceIte]; exact get_listed z f n (k + 1) i (by omega) (by omega)

/-- A header with empty sections and the digest `x`, and all else 0. -/
def digestByte (x j : Nat) : Byte := if j < 64 then 0#8 else (beBytes 64 x).getD (j - 64) 0#8

def digestHdr (x : Nat) : List Byte := (List.range 128).map (digestByte x)

theorem slice_digest (x : Nat) : ((List.range' 64 64).map fun j => digestByte x j) = beBytes 64 x := by
  apply List.ext_getElem
  · simp
  · intro i h1 h2
    have : i < 64 := by simpa using h1
    simp only [List.getElem_map, List.getElem_range', Nat.one_mul, digestByte]
    rw [if_neg (by omega), Nat.add_sub_cancel_left, List.getD_eq_getElem _ _ h2]

theorem getD_listed {α : Type} (z : α) (f : Nat → α) (n j : Nat) (h : j < n) : ((List.range n).map f).getD j z = f j := by
  rw [List.getD_eq_getElem _ _ (by simpa using h)]; simp

/-- A field of a list that a function lists. -/
theorem hfield_listed (f : Nat → Byte) (n o k : Nat) (h : o + k ≤ n) :
    hfield ((List.range n).map f) o k = ofBe ((List.range' o k).map f) := by
  rw [hfield, sliceD_eq]
  congr 1
  apply List.map_congr_left
  intro j hj
  have := List.mem_range'_1.1 hj
  exact getD_listed _ _ _ _ (by omega)

set_option exponentiation.threshold 600 in
theorem hfield_digest (f : Nat → Byte) (x n : Nat) (hn : 128 ≤ n) (hf : ∀ j < 128, f j = digestByte x j) :
    hfield ((List.range n).map f) 0x40 64 = x % 2 ^ 512 ∧ hfield ((List.range n).map f) 0x2C 4 = 0 ∧
      hfield ((List.range n).map f) 0x30 4 = 0 := by
  have e (o k : Nat) (h : o + k ≤ 128) : hfield ((List.range n).map f) o k = ofBe ((List.range' o k).map (digestByte x)) := by
    rw [hfield_listed f n o k (by omega)]
    congr 1
    apply List.map_congr_left
    intro j hj
    have := List.mem_range'_1.1 hj
    exact hf j (by omega)
  refine ⟨?_, ?_, ?_⟩
  · rw [e _ _ (by omega), slice_digest, ofBe_beBytes, show 256 = 2 ^ 8 from rfl, ← Nat.pow_mul, show 8 * 64 = 512 from rfl]
  · rw [e _ _ (by omega)]; simp [List.range', digestByte, ofBe]
  · rw [e _ _ (by omega)]; simp [List.range', digestByte, ofBe]

/-- A staging that has all of an empty image, whose header names the digest `x`. -/
def stagedDigest (x : Nat) : State :=
  at_ fun d => { d.wr FWU_STATUS.STATE fStaging with fwu := { d.fwu with hdr := digestHdr x } }

/-- A load of an empty image that the secondary bank holds, whose header names the digest `x`. -/
def loadedDigest (x : Nat) : State :=
  at_ fun d => { d.wr FWU_STATUS.STATE fLoading with
    fwu := { d.fwu with flash := (List.range' 0x2000000 128).map fun j => (j, digestByte x (j - 0x2000000)) } }

theorem staged_ok (x : Nat) :
    (stagedDigest x).dev.payloadIn = true ∧
      digestOk (stagedDigest x).dev.fwu.hdr (stagedDigest x).dev.payloadMoved = decide ((Config.sha512 []).toNat = x % 2 ^ 512) := by
  obtain ⟨a, b, c⟩ := hfield_digest (digestByte x) x 128 (by omega) (fun _ _ => rfl)
  have p : (hdrImg (digestHdr x)).payload = 0 := by
    change hfield (digestHdr x) 0x2C 4 + hfield (digestHdr x) 0x30 4 = 0
    rw [digestHdr, b, c]
  have hs : (stagedDigest x).dev.fwu.hdr = digestHdr x := rfl
  have hr : (stagedDigest x).dev.fwu.src = 0 := rfl
  have hb : (stagedDigest x).dev.fwu.boot = false := rfl
  refine ⟨?_, ?_⟩
  · rw [Dev.payloadIn, if_pos hr, hs, p]; rfl
  · rw [Dev.payloadMoved, hs, p, hb, digestOk, digestHdr, a]; rfl

theorem loaded_ok (x : Nat) :
    digestOk ((loadedDigest x).dev.bankHdr (loadedDigest x).dev.loadBank) ((loadedDigest x).dev.bankPayload (loadedDigest x).dev.loadBank) =
      decide ((Config.sha512 []).toNat = x % 2 ^ 512) := by
  have l : (loadedDigest x).dev.loadBank = 1 := rfl
  rw [l]
  have g : ∀ j < 128, (loadedDigest x).dev.fwu.flashGet (bankBase 1 + j) = digestByte x j := by
    intro j hj
    have := get_listed 0xFF#8 (fun k => digestByte x (k - 0x2000000)) 128 0x2000000 (0x2000000 + j) (by omega) (by omega)
    rw [show 0x2000000 + j - 0x2000000 = j by omega] at this
    exact this
  obtain ⟨a, b, c⟩ := hfield_digest (fun j => (loadedDigest x).dev.fwu.flashGet (bankBase 1 + j)) x 8192 (by omega) g
  have p : (hdrImg ((loadedDigest x).dev.bankHdr 1)).payload = 0 := by
    change hfield ((loadedDigest x).dev.bankHdr 1) 0x2C 4 + hfield ((loadedDigest x).dev.bankHdr 1) 0x30 4 = 0
    rw [Dev.bankHdr, Fwu.flashRead, b, c]
  rw [Dev.bankPayload, p, digestOk]
  change decide (_ = hfield (List.map (fun j => (loadedDigest x).dev.fwu.flashGet (bankBase 1 + j)) (List.range 8192)) 64 64) = _
  rw [a]; rfl

/-- The digest of the empty image, and another. -/
def goodDigest : Nat := (Config.sha512 []).toNat
def badDigest : Nat := (goodDigest + 1) % 2 ^ 512

theorem good_digest : decide ((Config.sha512 []).toNat = goodDigest % 2 ^ 512) = true := by
  have := (Config.sha512 []).isLt
  rw [decide_eq_true_eq, goodDigest, Nat.mod_eq_of_lt this]

theorem bad_digest : decide ((Config.sha512 []).toNat = badDigest % 2 ^ 512) = false := by
  have := (Config.sha512 []).isLt
  rw [decide_eq_false_iff_not, badDigest, goodDigest]
  omega

/-! ### An itinerary that passes the scan -/

/-- A bank whose every ingress entry is ARRIVE and every egress entry DEPART, for the pipeline itself, with a valid descriptor. -/
def fullBank : ChartBank :=
  { ChartBank.reset with
    desc := BitVec.ofNat 256 (2 ^ 127 + 1 * 2 ^ 96),
    itin := (List.range' 0 262144).map fun j => (j, BitVec.ofNat 16 ((1 + j / 131072) * 4096 + (j / 2048 % 64) * 64)) }

theorem fullBank_entry (dir pipe v s : Nat) (hd : dir < 2) (hp : pipe < 64) (hv : v < 4) (hs : s < 512) :
    fullBank.entry dir pipe v s = (1 + dir) * 4096 + pipe * 64 := by
  unfold ChartBank.entry fullBank
  dsimp only
  rw [get_listed _ _ _ _ _ (by omega) (by omega)]
  have a : (((64 * dir + pipe) * 4 + v) * 512 + s) / 131072 = dir := by omega
  have b : (((64 * dir + pipe) * 4 + v) * 512 + s) / 2048 % 64 = pipe := by omega
  rw [a, b, BitVec.toNat_ofNat]
  omega

theorem fullBank_check (dir pipe v s : Nat) (hd : dir < 2) (hp : pipe < 64) (hv : v < 4) (hs : s < 512) :
    fullBank.entryCheck dir pipe v s = 0 := by
  unfold ChartBank.entryCheck
  dsimp only
  have e (w : Nat) (hw : w < 4) := fullBank_entry dir pipe w s hd hp hw hs
  rw [e v hv, e (v - 1) (by omega)]
  have c0 : bits ((1 + dir) * 4096 + pipe * 64) 12 4 = 1 + dir := by
    simp only [bits, Nat.shiftRight_eq_div_pow]; omega
  have c1 : bits ((1 + dir) * 4096 + pipe * 64) 6 6 = pipe := by
    simp only [bits, Nat.shiftRight_eq_div_pow]; omega
  have c2 : bits ((1 + dir) * 4096 + pipe * 64) 0 6 = 0 := by
    simp only [bits, Nat.shiftRight_eq_div_pow]; omega
  rw [c0, c1, c2]
  have : dir = 0 ∨ dir = 1 := by omega
  rcases this with rfl | rfl <;> simp [itinSrcOk, itinFieldOk, itinLeanOk]

theorem fullBank_count (dir pipe : Nat) (hd : dir < 2) (hp : pipe < 64) :
    (List.range 512).countP (fun s => fullBank.entry dir pipe 0 s / 4096 = 1 + dir) = 512 := by
  rw [List.countP_eq_length.2 (by
    intro s hs
    rw [fullBank_entry dir pipe 0 s hd hp (by omega) (by simpa using hs), decide_eq_true_eq]; omega)]
  exact List.length_range

/-- An itinerary can pass the scan, so that an arm can succeed. -/
theorem fullBank_scan : fullBank.scan = none := by
  unfold ChartBank.scan
  rw [List.findSome?_eq_none_iff]
  intro k hk
  have hk : k < 512 := by simpa using hk
  unfold ChartBank.scanVariant
  have : (List.range 512).find? (fun s => fullBank.entryCheck (k / 256) (k / 4 % 64) (k % 4) s ≠ 0) = none := by
    rw [List.find?_eq_none]
    intro s hs
    simp [fullBank_check (k / 256) (k / 4 % 64) (k % 4) s (by omega) (by omega) (by omega) (by simpa using hs)]
  rw [this]
  have := fullBank_count (k / 256) (k / 4 % 64) (by omega) (by omega)
  simp only [this]
  simp

/-- A check of it in progress, for a tick far enough ahead. -/
def armedState : State :=
  at_ fun d => { d.wr CHT_STATUS.CHECKING 1 with cht := { d.cht with bank1 := fullBank, armTarget := 3 } }

theorem armed_shadow : armedState.dev.shadow = fullBank := rfl

/-! ### Commands that name what the device does not have, one for each check -/

def illFormed1 : List Instr :=
  [.tickStart 576 [(256, 0, 0)], .coldReset { cold0 with mode := 4 }, .coldReset { cold0 with bootSrc := 4 }, .glbWarmResetCmd false 65536, .brownOut 2,
   .railLoss 0, .railLoss 7, .junctionTempRead (-129) 0, .junctionTempRead 128 0, .junctionTempRead 0 (-129),
   .junctionTempRead 0 128, .blockReset 4096, .frameReceive 256 0 false [], .swapArm 4 false, .seqMismatch 32 false false,
   .seqResyncDone 32, .asxWrite 0 64 0 [], .asxWrite 0 0 262144 [], .asxWrite 0 0 0 (List.replicate 26 0), .asxClear 0 64 0,
   .asxClear 0 0 262144, .asxInsert 0 64 0 [], .asxInsert 0 0 262144 [], .asxInsert 0 0 0 (List.replicate 26 0),
   .asxMaskp 0 64 0 [], .asxMaskp 0 0 262144 [], .asxMaskp 0 0 0 (List.replicate 26 0), .asxRead 0 64 0, .asxRead 0 0 262144,
   .asxFailover 128, .asxBankReturn 128, .asxReturnComplete 128 false, .lpmAdd 0 16 0 [], .lpmAdd 0 0 8388608 [],
   .lpmAdd 0 0 0 (List.replicate 17 0), .lpmDel 0 16 0 [], .lpmDel 0 0 8388608 [], .lpmDel 0 0 0 (List.replicate 17 0),
   .exInsert 0 16 0 [], .exInsert 0 0 8388608 [], .exInsert 0 0 0 (List.replicate 17 0), .exUpdate 0 16 0 [],
   .exUpdate 0 0 8388608 [], .exUpdate 0 0 0 (List.replicate 17 0), .exDelete 0 16 0 [], .exDelete 0 0 8388608 [],
   .exDelete 0 0 0 (List.replicate 17 0), .exSlotclr 0 16 0, .exSlotclr 0 0 8388608, .dirWrite 0 16 0 [], .dirWrite 0 0 8388608 [],
   .dirWrite 0 0 0 (List.replicate 17 0), .memberWrite 0 16 0 [], .memberWrite 0 0 8388608 [],
   .memberWrite 0 0 0 (List.replicate 17 0), .ctxWrite 0 16 0 [], .ctxWrite 0 0 8388608 [], .ctxWrite 0 0 0 (List.replicate 17 0),
   .ctxRead 0 16 0, .ctxRead 0 0 8388608, .ctxReadClr 0 16 0]

def illFormed2 : List Instr :=
  [.ctxReadClr 0 0 8388608, .t2DirWrite 0 16 0 [], .t2DirWrite 0 0 8388608 [], .t2DirWrite 0 0 0 (List.replicate 17 0),
   .t2Write 0 16 0 [], .t2Write 0 0 8388608 [], .t2Write 0 0 0 (List.replicate 17 0), .t2ReadComplete (.walk 4096) 0 false false 0,
   .t2ReadComplete (.late 4 0) 0 false false 0, .t2BufWriteComplete 256 false, .carriagePlace 64, .carriageReadReturn 64, .queCfgWrite 0 16 0 false 0 [],
   .queCfgWrite 0 0 262144 false 0 [], .queCfgWrite 0 0 0 false 281474976710656 [], .queCfgWrite 0 0 0 false 0 (List.replicate 9 0),
   .queCfgRead 0 16 0 false 0, .queCfgRead 0 0 262144 false 0, .queCfgRead 0 0 0 false 281474976710656,
   .queCfgReadClr 0 16 0 false 0, .queCfgReadClr 0 0 262144 false 0, .queCfgReadClr 0 0 0 false 281474976710656,
   .hbmCommandIssue 8 0, .hbmCommandIssue 0 64, .hbmReadComplete 8 0, .hbmReadComplete 0 64, .hbmRefresh 8 0, .hbmRefresh 0 64,
   .stackSrEntryDone 8, .stackSrExitDone 8, .stackTempRead 8 0, .stackTempRead 0 (-129), .stackTempRead 0 128,
   .stackTrainingDone 8 false, .hbmCalibration 8 0, .hbmCalibration 0 64, .wanDeparture 64, .cmRead 32 0 0 1 0, .cmRead 0 256 0 1 0,
   .cmRead 0 0 256 1 0, .cmRead 0 0 0 0 0, .cmRead 0 0 0 129 0, .cmRead 0 0 0 1 256, .cmWrite 32 0 0 1 0 [],
   .cmWrite 0 256 0 1 0 [], .cmWrite 0 0 256 1 0 [], .cmWrite 0 0 0 0 0 [], .cmWrite 0 0 0 129 0 [], .cmWrite 0 0 0 1 256 [],
   .cmWrite 0 0 0 1 0 (List.replicate 129 0), .mgmtBusTransactionDone 8 0 [], .mgmtBusTransactionDone 0 256 [],
   .marginPoll 256 none false, .wanBlockLock 3 0, .wanBlockLock 0 256, .wanBlockLockLoss 3 0, .wanBlockLockLoss 0 256,
   .localOrRemoteFaultReceived 256 false false, .bearingPropose 256 msg0 false 8, .bearingPropose 0 { msg0 with ring := 64 } false 8, .bearingPropose 0 msg0 false 7, .bearingAccept 0 { msg0 with ring := 64 }, .bearingAbort 0 { msg0 with ring := 64 }, .bearingAccept 256 msg0, .bearingDrain 256 msg0]

def illFormed3 : List Instr :=
  [.bearingSwitch 256 msg0, .bearingConfirm 256 msg0, .bearingRestore 256 msg0, .bearingAbort 256 msg0, .bearingResend 256,
   .adaptiveDrain 256, .adaptiveSwitch 256, .ceilingRestore 256, .cleanReceive 256, .retuneFifoDrained 256, .retuneApply 256,
   .retuneTimeout 256, .fabricDeparture 64, .fabricCodewordReceive 320 false 0 (List.replicate 640 0) 0,
   .fabricCodewordReceive 0 false 1048576 (List.replicate 640 0) 0, .fabricCodewordReceive 0 false 0 (List.replicate 639 0) 0,
   .fabricXoff 1024, .fabricXon 1024, .fabricUnreach 1024, .fabricReach 1024, .fabricProbe 320 0 0, .fabricLstat 320 false,
   .fabricCodewordLock 320, .fabricCodewordLockLoss 320, .sagWarning 2 0, .sagDeep 2 0, .sagReturn 2 0, .puntWrite 64 0 0,
   .puntWaitExpire 64, .puntDoorbell 64 0, .puntDoorbell 0 65536, .injectDoorbell 16 0, .injectDoorbell 0 65536,
   .injectDescriptorFetched 16384 (List.replicate 32 0), .injectDescriptorFetched 0 (List.replicate 31 0),
   .injectFrameStaged 16384 [], .hostReadCompletion 16384 0, .completionTimeout 16384, .tagWithholdExpire 16384,
   .pcieConfigurationRequest (.mps 2 0), .ringArm 80 0, .ringArm 0 4294967296, .ringArmComplete 80, .ringDisable 80 0,
   .ringDisable 0 4294967296, .windowRead 14680064 1, .windowRead 0 0, .windowRead 0 4097, .windowWrite 14680064 [0],
   .windowWrite 0 [], .windowWrite 1 (List.replicate 4096 0), .pcieLinkTrained 16 0 false, .pcieLinkTrained 0 16 false,
   .supervisedRailReturn 0, .supervisedRailReturn 7, .slotControlWrite 32 0, .slotControlWrite 0 4294967296,
   .hostBadAccess 3 0 4, .hostBadAccess 1 0 4, .unmappedAccess 2 false 0, .unmappedAccess 0 false 67108864, .registerWrite 4 0 0, .registerWrite 0 67108864 0,
   .registerWrite 0 0 4294967296, .cxlRetrain 4 false, .cxlTrainingDone 4 false false false 0 0]

def illFormed4 : List Instr :=
  [.cxlTrainingDone 0 false false false 16 0, .cxlTrainingDone 0 false false false 0 32, .cxlTrainingTimeout 4, .cxlReady 4,
   .cxlReadComplete 4 0 false false 0 [], .cxlReadComplete 0 2 false false 0 [], .cxlWriteComplete 4 false, .cxlReadTimeout 4,
   .cxlLinkDown 4, .convoyBlockLock 3, .convoyBlockLockLoss 3, .convoyPortRetrain 3, .sync 3 0 0, .dreq 3 0 0 0, .dresp 3 0 0 0 0,
   .size 3 0 0 0 false 0, .sizeWaitExpire 3, .assign 3 0 0 0 0, .kset 3 0 0 0, .recount 3 0 0, .action 3 0 0 0 0 0,
   .action 0 0 0 256 0 0, .nav 3 0 0 0 [], .convoyBadMessage 3 0 0 0 0 [], .convoyBadMessage 0 3 0 0 0 [], .health 3 0 0 0 [],
   .helmInChange 4 0, .helmKick 65536, .navMismatch 2 false false, .navResyncDone 2, .faultDetect 4096 0 0 0 false [],
   .faultDetect 0 4 0 0 false [], .faultDetect 0 0 256 0 false [], .faultClearOne 2, .faultClearAll 2 0, .faultClearAll 0 8,
   .softwareRevoke 65536 0, .softwareRevoke 0 65536, .reactionWrite 4096 0, .reactionWrite 0 4294967296,
   .faultInjectRecord 4096 0 0, .faultInjectRecord 0 4 0, .faultInjectRecord 0 0 256, .faultInjectSingleBit 4096 0 0,
   .faultInjectSingleBit 0 4 0, .faultInjectSingleBit 0 0 256, .faultInjectDoubleBit 4096 0 0, .faultInjectDoubleBit 0 4 0,
   .faultInjectDoubleBit 0 0 256, .userPageRead 14680063 1, .userPageRead 16777216 1, .userPageRead 14680064 0,
   .phaseAdjust 4294967296, .fwGoHdr 4, .fwDataBlock 8192, .fwSend 65536 0, .fwSend 0 2, .fwHandoverReady 2 [], .fwConfirm 65536 false]

def illFormed5 : List Instr :=
  [.flashRead 268435456, .flashProgram 268435456, .flashErase 268435456, .fwrVersion { fwr0 with port := 3 },
   .fwrOffer { fwr0 with port := 3 }, .fwrAccept { fwr0 with port := 3 }, .fwrRefuse { fwr0 with port := 3 },
   .fwrData { fwr0 with port := 3 }, .fwrAck { fwr0 with port := 3 }, .fwrDone { fwr0 with port := 3 },
   .fwrAbort { fwr0 with port := 3 }, .fwrRequest { fwr0 with port := 3 }]

theorem test_ill_formed : (illFormed1 ++ illFormed2 ++ illFormed3 ++ illFormed4 ++ illFormed5).all (fun c => !Instr.wf c) = true := by decide +kernel

theorem test_ill_formed_record : Instr.wf (.fwHandoverReady 0 (List.replicate 4194305 0)) = false := by
  rw [Instr.wf, List.length_replicate]; decide

/-- A command that names what the device does not have leaves it as it was. -/
theorem test_ill_formed_ignored :
    exec (.brownOut 2) State.reset = .next State.reset ∧ exec (.registerWrite 0 67108864 0) State.reset = .next State.reset :=
  ⟨rfl, rfl⟩

/-! ### States and operands that meet the hypotheses of the statements -/

/-- The hypotheses of each clause of StepRunsFront can be met. -/
theorem witness_stepRunsFront :
    (∃ (s : State) (c : Instr) (r : List Instr), (s.pending = c :: r)) ∧
    (∃ (s : State), s.pending = []) :=
  ⟨⟨{ State.reset with pending := [.coldReset cold0, .lookupResult] }, .coldReset cold0, [.lookupResult], by decide +kernel⟩,
    ⟨State.reset, by decide +kernel⟩⟩

/-- The hypotheses of each clause of EveryCommandAnswers can be met. -/
theorem witness_everyCommandAnswers :
    ∃ (c : Instr), Instr.wf c = false :=
  ⟨.brownOut 2, by decide +kernel⟩

/-- The hypotheses of each clause of DeadDeviceIgnores can be met. -/
theorem witness_deadDeviceIgnores :
    ∃ (c : Instr) (s : State), Instr.wf c = true ∧ s.dev.dead = true ∧ (∀ cold, c ≠ .coldReset cold) :=
  ⟨.lookupResult, (at_ fun d => { d with pwr := { d.pwr with standby := false } }), by decide +kernel, rfl, fun _ h => by cases h⟩

/-- The hypotheses of each clause of HeldCoreUnchanged can be met. -/
theorem witness_heldCoreUnchanged :
    ∃ (c : Instr) (s : State), s.dev.held = true ∧ s.dev.flt.todo = [] ∧ Instr.wf c = true ∧
      (c ∈ [.lookupResult, .endOfPass, .chartLoadComplete, .parseLoadComplete, .swapArmChecked, .chartSwap, .seqRoleSwap, .asxOpStart, .lkuOpStart, .t2Deadline, .t2BufWriteIssue, .freeListRejoin, .auditStart, .auditApply, .fabricEnable, .fabricProbeDone, .fabricDisable, .puntHandoff, .busMasterDisable, .flrPf0, .flrPf1, .sidebandInputApply, .healthReportSend, .healthReportMiss, .helmWatchdogExpire, .helmBackoffEnd, .reclaimSet, .plannedHandover, .navRoleSwap, .holderRegrant, .testTokenCheckDone, .sweepPeriodic, .sweepDone, .fwSwitch, .fwResyncDone, .fwConfirmDone, .windowCommit, .dptAuditStartCmd, .convoyEnum, .helmReleaseCmd, .testTokenCheck, .sweepStart, .offsetCommit, .fwLoad, .fwActivate, .fwAbort, .fwRevert, .userPageWrite, .cycMinRst, .chartLoadRead, .parseLoadRead, .swapDisarm, .tsFifoPop] ∨ (∃ errs fails,
      c = .slotCycle errs fails) ∨ (∃ errs words, c = .slackCycle errs words) ∨ (∃ port h bad bytes,
      c = .frameReceive port h bad bytes) ∨ (∃ a v, c = .registerWrite 0 a v)) :=
  ⟨.lookupResult, (at_ fun d => { d with pwr := { d.pwr with refLost := true } }), rfl, rfl, rfl, .inl (by decide)⟩

/-- The hypotheses of each clause of NoReactionWaits can be met. -/
theorem witness_noReactionWaits :
    (∃ (s : State) (t : State), s.Settled ∧ step s = .next t) ∧
    (∃ (c : Instr) (s : State) (t : State), Instr.wf c = true ∧ s.dev.dead = false ∧ exec c s = .next t) :=
  ⟨⟨State.reset, State.reset, by decide +kernel, rfl⟩,
    ⟨.lookupResult, State.reset, _, rfl, rfl, State.runs_core ⟨rfl, rfl, rfl⟩ rfl rfl⟩⟩

/-- The hypotheses of each clause of ColdStart can be met. -/
theorem witness_coldStart :
    (∃ (i : ColdIn), i.mode < 3 ∧ i.bootSrc < 4 ∧ i.fuseOk = true ∧ i.ackA = true ∧ i.ackT = true) ∧
    (∃ (i : ColdIn), i.mode < 3 ∧ i.bootSrc < 4 ∧ i.fuseOk = false) ∧
    (∃ (i : ColdIn), i.mode = 3 ∧ i.bootSrc < 4) :=
  ⟨⟨cold0, by decide +kernel⟩,
    ⟨{ cold0 with fuseOk := false }, by decide +kernel⟩,
    ⟨{ cold0 with mode := 3 }, by decide +kernel⟩⟩

/-- The hypotheses of each clause of StartSteps can be met. -/
theorem witness_startSteps :
    (∃ (s : State), s.dev.dead = false ∧ s.dev.flt.todo = [] ∧ s.dev.cvy.cal = false ∧ s.dev.on GLB_BOOT_STATUS.BOOT_ERR = false ∧
      s.dev.isRoot = false) ∧
    (∃ (s : State), s.dev.dead = false ∧ s.dev.cvy.cal = false ∧ s.dev.on GLB_BOOT_STATUS.BOOT_ERR = false ∧ s.dev.isRoot = true) ∧
    (∃ (s : State), s.Ready ∧ s.dev.pwr.step3 = false ∧ s.dev.on GLB_BOOT_STATUS.BOOT_ERR = false ∧ 2 ≤ s.dev.pwr.bootSrc ∧
      s.dev.fwu.memOk = true) ∧
    (∃ (s : State), s.Ready ∧ s.dev.pwr.step3 = false ∧ s.dev.on GLB_BOOT_STATUS.BOOT_ERR = false ∧ s.dev.pwr.bootSrc < 2 ∧
      s.dev.bankOk s.dev.primary = false ∧ s.dev.bankOk s.dev.secondary = false) :=
  ⟨⟨State.reset, by decide +kernel⟩,
    ⟨(at_ fun d => d.wr GLB_BOOT_STATUS.ROOT 1), by decide +kernel⟩,
    ⟨(at_ fun d => { d with pwr := { d.pwr with bootSrc := 2 }, fwu := { d.fwu with memOk := true } }), by decide +kernel⟩,
    ⟨State.reset, by decide +kernel⟩⟩

/-- The hypotheses of each clause of WarmResets can be met. -/
theorem witness_warmResets :
    (∃ (s : State), s.dev.dead = false ∧ s.dev.held = false) ∧
    (∃ (s : State), s.Open) ∧
    (∃ (s : State) (warm : Bool) (key : Nat), s.Open ∧ key < 65536 ∧ ¬ (warm = true ∧ key = 0xA5C3)) ∧
    (∃ (s : State), s.dev.dead = false ∧ (s.dev.pwr.brown ≠ []) ∧ s.dev.pwr.rails = [] ∧ s.dev.pwr.refLost = false) ∧
    (∃ (s : State) (rail : Nat), s.dev.dead = false ∧ s.dev.flt.todo = [] ∧ 1 ≤ rail ∧ rail < 7 ∧ s.dev.pwr.rails.contains rail = true ∧
      (s.dev.pwr.brown ≠ [])) ∧
    (∃ (s : State) (rail : Nat), s.dev.dead = false ∧ 1 ≤ rail ∧ rail < 7 ∧ s.dev.pwr.rails = [rail] ∧ s.dev.pwr.brown = [] ∧
      s.dev.pwr.refLost = false) ∧
    (∃ (s : State), s.dev.dead = false ∧ s.dev.pwr.refLost = true ∧ s.dev.pwr.brown = [] ∧ s.dev.pwr.rails = []) :=
  ⟨⟨State.reset, by decide +kernel⟩,
    ⟨State.reset, by decide +kernel⟩,
    ⟨State.reset, false, 0, by decide +kernel⟩,
    ⟨(at_ fun d => { d with pwr := { d.pwr with brown := [1] } }), by decide +kernel⟩,
    ⟨(at_ fun d => { d with pwr := { d.pwr with brown := [1], rails := [6] } }), 6, by decide +kernel⟩,
    ⟨(at_ fun d => { d with pwr := { d.pwr with rails := [1] } }), 1, by decide +kernel⟩,
    ⟨(at_ fun d => { d with pwr := { d.pwr with refLost := true } }), by decide +kernel⟩⟩

/-- The hypotheses of each clause of SupplyLosses can be met. -/
theorem witness_supplyLosses :
    (∃ (s : State) (die : Nat), s.dev.dead = false ∧ die < 2 ∧ s.dev.pwr.brown.contains die = false) ∧
    (∃ (s : State) (die : Nat), s.dev.dead = false ∧ die < 2 ∧ s.dev.pwr.brown.contains die = false ∧ s.dev.flt.todo = [] ∧
      (s.dev.reactCode (0x352 + die) fatal = 4 ∨ s.dev.reactCode (0x352 + die) fatal = 5)) ∧
    (∃ (s : State) (rail : Nat), s.dev.dead = false ∧ 1 ≤ rail ∧ rail < 7 ∧ s.dev.pwr.rails.contains rail = false) ∧
    (∃ (s : State), s.dev.dead = false ∧ s.dev.pwr.refLost = false ∧ s.dev.isRoot = true) ∧
    (∃ (s : State), s.dev.dead = false ∧ s.dev.flt.todo = [] ∧ s.dev.holdsHelm = false) ∧
    (∃ (s : State), s.dev.dead = false ∧ s.dev.flt.todo = [] ∧ s.dev.holdsHelm = true) :=
  ⟨⟨State.reset, 0, by decide +kernel⟩,
    ⟨State.reset, 0, by decide +kernel⟩,
    ⟨State.reset, 6, by decide +kernel⟩,
    ⟨(at_ fun d => d.wr GLB_BOOT_STATUS.ROOT 1), by decide +kernel⟩,
    ⟨State.reset, by decide +kernel⟩,
    ⟨(at_ fun d => d.wr HLM_STATUS.STATE hActive), by decide +kernel⟩⟩

/-- The hypotheses of each clause of TemperatureAndVoltage can be met. -/
theorem witness_temperatureAndVoltage :
    (∃ (s : State) (a : Int) (t : Int), s.dev.dead = false ∧ s.dev.flt.todo = [] ∧ -128 ≤ a ∧ a < 128 ∧ -128 ≤ t ∧ t < 128 ∧
      (a < (min 150 (s.dev.rd GLB_THERM.WARN) : Nat)) ∧ (t < (min 150 (s.dev.rd GLB_THERM.WARN) : Nat))) ∧
    (∃ (s : State) (a : Int) (t : Int), s.dev.dead = false ∧ -128 ≤ a ∧ a < 128 ∧ t < 128 ∧
      (a < (min 150 (s.dev.rd GLB_THERM.WARN) : Nat)) ∧ (min 150 (s.dev.rd GLB_THERM.WARN) : Nat) ≤ t ∧ t ≤ 150 ∧ s.dev.pwr.hot = [] ∧
      s.dev.pwr.overs = [] ∧ s.dev.pwr.tripped = []) ∧
    (∃ (s : State), s.dev.dead = false ∧ s.dev.flt.todo = [] ∧ (s.dev.tck.now % 4194304 ≠ 0) ∧ (s.dev.sag 0).base = s.dev.pwr.mvA ∧
      (s.dev.sag 1).base = s.dev.pwr.mvT) ∧
    (∃ (s : State) (x : Nat × Nat), s.dev.dead = false ∧ s.dev.flt.todo = [] ∧ (s.dev.tck.now % 4194304 ≠ 0) ∧
      (s.dev.sag 0).base < s.dev.pwr.mvA ∧ 990 * s.dev.pwr.mvA ≤ x.1 ∧ x.2 ≤ 1010 * s.dev.pwr.mvA ∧ (s.dev.sag 1).base = s.dev.pwr.mvT) ∧
    (∃ (s : State), s.dev.dead = false ∧ s.dev.flt.todo = [] ∧ s.dev.tck.now % 4194304 = 0 ∧ (s.dev.sag 0).base = s.dev.pwr.mvA ∧
      (s.dev.sag 1).base = s.dev.pwr.mvT ∧
      mvClamp (Config.voltTable 0 (s.dev.rd GLB_TEMP.TJ_A) + 5 * max (-4) (min 4 (sInt 4 (s.dev.rd GLB_AVS_A.TRIM)))) = s.dev.pwr.mvA ∧
      mvClamp (Config.voltTable 1 (s.dev.rd GLB_TEMP.TJ_T) + 5 * max (-4) (min 4 (sInt 4 (s.dev.rd GLB_AVS_T.TRIM)))) = s.dev.pwr.mvT) ∧
    (∃ (s : State) (v : Nat), s.dev.dead = false ∧ s.dev.flt.todo = [] ∧ s.dev.tck.now % 4194304 = 0 ∧ (s.dev.sag 0).base = s.dev.pwr.mvA ∧
      (s.dev.sag 1).base = s.dev.pwr.mvT ∧
      mvClamp (Config.voltTable 0 (s.dev.rd GLB_TEMP.TJ_A) + 5 * max (-4) (min 4 (sInt 4 (s.dev.rd GLB_AVS_A.TRIM)))) = v ∧
      s.dev.pwr.mvA < v ∧
      mvClamp (Config.voltTable 1 (s.dev.rd GLB_TEMP.TJ_T) + 5 * max (-4) (min 4 (sInt 4 (s.dev.rd GLB_AVS_T.TRIM)))) = s.dev.pwr.mvT) :=
  ⟨⟨State.reset, 124, -128, by decide +kernel⟩,
    ⟨State.reset, 124, 125, by decide +kernel⟩,
    ⟨(at_ fun d => { d with tck := { d.tck with now := 1 }, nrg := { d.nrg with sagA := { d.nrg.sagA with base := d.pwr.mvA }, sagT := { d.nrg.sagT with base := d.pwr.mvT } } }),
      by decide +kernel⟩,
    ⟨(at_ fun d => { d with tck := { d.tck with now := 1 }, pwr := { d.pwr with mvA := 800 }, nrg := { d.nrg with sagA := { d.nrg.sagA with base := 790 }, sagT := { d.nrg.sagT with base := d.pwr.mvT } } }),
      (792000, 808000), by decide +kernel⟩,
    ⟨{ State.reset with dev := volts (mvClamp (Config.voltTable 0 0)) }, rfl, rfl, rfl, rfl, rfl, volts_tableA, volts_tableT _⟩,
    ⟨{ State.reset with dev := volts 0 }, _, rfl, rfl, rfl, rfl, rfl, rfl, mvClamp_pos _, volts_tableT _⟩⟩

/-- The hypotheses of each clause of BlockResets can be met. -/
theorem witness_blockResets :
    (∃ (s : State) (src : Nat), s.dev.dead = false ∧ s.dev.flt.todo = [] ∧ 0x010 ≤ src ∧ src ≤ 0x02F ∧
      s.dev.flt.dueReset.contains src = true) ∧
    (∃ (s : State) (src : Nat), s.dev.dead = false ∧ s.dev.flt.todo = [] ∧ (src = 0x340 ∨ src = 0x341) ∧
      s.dev.flt.dueReset.contains src = true) ∧
    (∃ (s : State) (src : Nat), s.dev.dead = false ∧ s.dev.flt.todo = [] ∧ src < 4096 ∧ s.dev.flt.dueReset.contains src = false ∧
      s.dev.flt.pendReset.contains src = false) :=
  ⟨⟨(at_ fun d => { d with flt := { d.flt with dueReset := [0x02F] } }), 0x02F, by decide +kernel⟩,
    ⟨(at_ fun d => { d with flt := { d.flt with dueReset := [0x341] } }), 0x341, by decide +kernel⟩,
    ⟨State.reset, 4095, by decide +kernel⟩⟩

/-- The hypotheses of each clause of TickStarts can be met. -/
theorem witness_tickStarts :
    (∃ (s : State), s.dev.dead = false ∧ s.dev.flt.todo = [] ∧ s.dev.cvy.loaded = false) ∧
    (∃ (s : State), s.dev.dead = false ∧ s.dev.flt.todo = [] ∧ s.dev.cvy.loaded = true ∧ s.dev.held = true ∧ s.dev.tck.running = true) ∧
    (∃ (s : State) (n : Nat) (fec : List (Nat × Nat × Nat)), s.Ready ∧ (∀ x ∈ fec, x.1 < 256) ∧ s.dev.cvy.loaded = true ∧
      s.dev.tck.running = true ∧ (s.dev.tickEnd n fec).held = false) ∧
    (∃ (s : State), s.Ready ∧ s.dev.cvy.loaded = true ∧ s.dev.tck.running = false) :=
  ⟨⟨State.reset, by decide +kernel⟩,
    ⟨(at_ fun d => { d with pwr := { d.pwr with refLost := true }, cvy := { d.cvy with loaded := true }, tck := { d.tck with running := true } }),
      by decide +kernel⟩,
    ⟨(at_ fun d => { d with cvy := { d.cvy with loaded := true }, tck := { d.tck with running := true } }), 576, [(255, 1, 1)],
      by decide +kernel⟩,
    ⟨(at_ fun d => { d with cvy := { d.cvy with loaded := true } }), by decide +kernel⟩⟩

/-- The hypotheses of each clause of CyclesAdvance can be met. -/
theorem witness_cyclesAdvance :
    (∃ (s : State), s.Ready ∧ s.dev.tck.running = true ∧ s.dev.tck.slot < 504 ∧ (s.dev.tck.slot % 252 ≠ 0)) ∧
    (∃ (s : State), s.Ready ∧ s.dev.tck.running = true ∧ s.dev.tck.slot < 504 ∧ (s.dev.tck.slot ≠ 87) ∧ (s.dev.tck.slot % 252 ≠ 0) ∧
      s.dev.on FLT_STATUS.HALTED = true ∧ s.dev.on CHT_STATUS.ARMED = false ∧ s.dev.nrg.sagA.level = 0 ∧ s.dev.nrg.sagT.level = 0 ∧
      s.dev.nrg.sagA.done = s.dev.tck.slot ∧ s.dev.nrg.sagT.done = s.dev.tck.slot ∧ s.dev.pipe.passes = [] ∧ s.dev.dpt.credit = [] ∧
      s.dev.dpt.place = [] ∧ s.dev.dpt.placed = [] ∧ s.dev.dpt.reads = [] ∧ s.dev.dpt.readQ = [] ∧ s.dev.wan.tx = [] ∧
      s.dev.fab.tails = [] ∧ s.dev.fab.sent = [] ∧ s.dev.lku.t2old = [] ∧ s.dev.selections = [] ∧ s.dev.snd.sweep = none) ∧
    (∃ (s : State), s.Ready ∧ s.dev.tck.running = true ∧ 504 ≤ s.dev.tck.slot) ∧
    (∃ (s : State), s.Ready ∧ s.dev.tck.running = true ∧ 504 ≤ s.dev.tck.slot) ∧
    (∃ (s : State), s.Ready ∧ s.dev.tck.slot < 504) :=
  ⟨⟨(at_ fun d => { d with tck := { d.tck with running := true, slot := 503 } }), by decide +kernel⟩,
    ⟨(at_ fun d => { d.wr FLT_STATUS.HALTED 1 with tck := { d.tck with running := true, slot := 503 }, nrg := { d.nrg with sagA := { d.nrg.sagA with done := 503 }, sagT := { d.nrg.sagT with done := 503 } } }),
      by decide +kernel⟩,
    ⟨(at_ fun d => { d with tck := { d.tck with running := true, slot := 504 } }), by decide +kernel⟩,
    ⟨(at_ fun d => { d with tck := { d.tck with running := true, slot := 504 } }), by decide +kernel⟩,
    ⟨(at_ fun d => { d with tck := { d.tck with running := true, slot := 503 } }), by decide +kernel⟩⟩

/-- The hypotheses of each clause of FramesAndResults can be met. -/
theorem witness_framesAndResults :
    (∃ (s : State) (port : Nat) (bytes : List Byte), s.Ready ∧ port < 256 ∧ s.dev.wanExists port = true ∧ 64 ≤ bytes.length ∧
      bytes.length ≤ min 16000 (s.dev.rd (WAN_PORT_CFG.MAXF port)) ∧ s.dev.on TCK_CTRL.REPLAY = false ∧
      s.dev.on (WAN_CAGE.LOOP (port / 8)) = false) ∧
    (∃ (s : State) (port : Nat) (bytes : List Byte), s.Ready ∧ port < 256 ∧ s.dev.wanExists port = true ∧ bytes.length < 64 ∧
      s.dev.on (WAN_CAGE.LOOP (port / 8)) = false) ∧
    (∃ (s : State) (port : Nat), s.Ready ∧ port < 256 ∧ s.dev.wanExists port = false) ∧
    (∃ (s : State) (port : Nat), s.Ready ∧ port < 256 ∧ s.dev.on (WAN_CAGE.LOOP (port / 8)) = true) ∧
    (∃ (s : State), s.Ready) ∧
    (∃ (s : State), s.Ready ∧ s.dev.pipe.ended = []) ∧
    (∃ (s : State) (e : Ended) (r : List Ended), s.Ready ∧ (s.dev.pipe.ended = e :: r)) :=
  ⟨⟨(at_ fun d => d.wr (WAN_CAGE.MODE 31) 4), 255, List.replicate 64 0#8, by decide +kernel⟩,
    ⟨(at_ fun d => d.wr (WAN_CAGE.MODE 31) 4), 255, List.replicate 63 0#8, by decide +kernel⟩,
    ⟨State.reset, 0, by decide +kernel⟩,
    ⟨(at_ fun d => (d.wr (WAN_CAGE.MODE 31) 4).wr (WAN_CAGE.LOOP 31) 1), 255, by decide +kernel⟩,
    ⟨State.reset, by decide +kernel⟩,
    ⟨State.reset, by decide +kernel⟩,
    ⟨(at_ fun d => { d with pipe := { d.pipe with ended := [ended0] } }), ended0, [], by decide +kernel⟩⟩

/-- The hypotheses of each clause of CyclesAndDigestReads can be met. -/
theorem witness_cyclesAndDigestReads :
    (∃ (s : State), s.Open) ∧
    (∃ (s : State), s.Open ∧ s.dev.tck.digLatch = none) ∧
    (∃ (s : State) (l : List (BitVec 32)), s.Open ∧ s.dev.tck.digLatch = some l) ∧
    (∃ (s : State) (a : BitVec 32) (b : BitVec 32) (c : BitVec 32) (d : BitVec 32) (e : BitVec 32), s.Open ∧
      s.dev.tck.digLatch = some [a, b, c, d, e]) :=
  ⟨⟨State.reset, by decide +kernel⟩,
    ⟨State.reset, by decide +kernel⟩,
    ⟨(at_ fun d => { d with tck := { d.tck with digLatch := some [1#32] } }), [1#32], by decide +kernel⟩,
    ⟨(at_ fun d => { d with tck := { d.tck with digLatch := some [1#32, 2#32, 3#32, 4#32, 5#32] } }), 1#32, 2#32, 3#32, 4#32, 5#32,
      by decide +kernel⟩⟩

/-- The hypotheses of each clause of ChartLoads can be met. -/
theorem witness_chartLoads :
    (∃ (s : State), s.Open ∧ s.dev.on CHT_LD_STATUS.BUSY = false) ∧
    (∃ (s : State), s.Open ∧ s.dev.on CHT_LD_STATUS.BUSY = false) ∧
    (∃ (s : State), s.Open ∧ s.dev.on CHT_LD_STATUS.BUSY = true) ∧
    (∃ (s : State), s.Open ∧ s.dev.on PRS_LD_STATUS.BUSY = false) ∧
    (∃ (s : State), s.Open ∧ s.dev.on PRS_LD_STATUS.BUSY = false) ∧
    (∃ (s : State), s.Open ∧ s.dev.on PRS_LD_STATUS.BUSY = true) ∧
    (∃ (s : State) (c : LoadCmd), s.Ready ∧ s.dev.cht.ld = some c ∧ c.go = true ∧ c.rd = false ∧ s.dev.shadowBusy = false ∧
      checkTarget c.addr = none ∧ checkData c.addr c.data = none) ∧
    (∃ (s : State) (c : LoadCmd) (f : Nat × Nat), s.Ready ∧ s.dev.cht.ld = some c ∧ c.go = true ∧ c.rd = false ∧ s.dev.shadowBusy = false ∧
      (checkTarget c.addr).or (checkData c.addr c.data) = some f) ∧
    (∃ (s : State) (c : LoadCmd), s.Ready ∧ s.dev.cht.ld = some c ∧ c.go = true ∧ c.rd = false ∧ s.dev.shadowBusy = true) ∧
    (∃ (s : State), s.Ready ∧ s.dev.cht.ld = none) ∧
    (∃ (s : State) (c : LoadCmd), s.Ready ∧ s.dev.cht.prsLd = some c ∧ c.go = true ∧ c.rd = false ∧ s.dev.shadowBusy = false ∧
      checkPrs c.addr (BitVec.ofNat 128 c.data.toNat) = 0) ∧
    (∃ (s : State) (c : LoadCmd), s.Ready ∧ s.dev.cht.prsLd = some c ∧ c.go = true ∧ c.rd = false ∧ s.dev.shadowBusy = false ∧
      (checkPrs c.addr (BitVec.ofNat 128 c.data.toNat) ≠ 0)) ∧
    (∃ (s : State), s.Ready ∧ s.dev.cht.prsLd = none) :=
  ⟨⟨State.reset, by decide +kernel⟩,
    ⟨State.reset, by decide +kernel⟩,
    ⟨(at_ fun d => d.wr CHT_LD_STATUS.BUSY 1), by decide +kernel⟩,
    ⟨State.reset, by decide +kernel⟩,
    ⟨State.reset, by decide +kernel⟩,
    ⟨(at_ fun d => d.wr PRS_LD_STATUS.BUSY 1), by decide +kernel⟩,
    ⟨(at_ fun d => { d with cht := { d.cht with ld := some { go := true, rd := false, addr := 0#32, data := 0#256 } } }),
      { go := true, rd := false, addr := 0#32, data := 0#256 }, by decide +kernel⟩,
    ⟨(at_ fun d => { d with cht := { d.cht with ld := some { go := true, rd := false, addr := 0x08000000#32, data := 0#256 } } }),
      { go := true, rd := false, addr := 0x08000000#32, data := 0#256 }, (0x02, 7), by decide +kernel⟩,
    ⟨(at_ fun d => { d.wr CHT_STATUS.ARMED 1 with cht := { d.cht with ld := some { go := true, rd := false, addr := 0#32, data := 0#256 } } }),
      { go := true, rd := false, addr := 0#32, data := 0#256 }, by decide +kernel⟩,
    ⟨State.reset, by decide +kernel⟩,
    ⟨(at_ fun d => { d with cht := { d.cht with prsLd := some { go := true, rd := false, addr := 0#32, data := 0#256 } } }),
      { go := true, rd := false, addr := 0#32, data := 0#256 }, by decide +kernel⟩,
    ⟨(at_ fun d => { d with cht := { d.cht with prsLd := some { go := true, rd := false, addr := 0x03000000#32, data := 0#256 } } }),
      { go := true, rd := false, addr := 0x03000000#32, data := 0#256 }, by decide +kernel⟩,
    ⟨State.reset, by decide +kernel⟩⟩

/-- The hypotheses of each clause of ChartSwaps can be met. -/
theorem witness_chartSwaps :
    (∃ (s : State), s.Open ∧ s.dev.on CHT_STATUS.OLD_BUSY = false ∧ s.dev.on CHT_STATUS.ARMED = false ∧
      s.dev.on CHT_STATUS.CHECKING = false) ∧
    (∃ (s : State) (scope : Nat), s.Open ∧ scope < 4 ∧ s.dev.on CHT_STATUS.OLD_BUSY = false ∧ s.dev.on CHT_STATUS.ARMED = true) ∧
    (∃ (s : State), s.Open ∧ s.dev.on CHT_STATUS.ARMED = false) ∧
    (∃ (s : State), s.Open ∧ s.dev.on CHT_STATUS.ARMED = true ∧ s.dev.cht.armScope = 0 ∧
      tickFuture s.dev.cht.armTarget s.dev.tck.now = true ∧ 2 ≤ tickSub s.dev.cht.armTarget s.dev.tck.now) ∧
    (∃ (s : State), s.Ready ∧ s.dev.on CHT_STATUS.CHECKING = false) ∧
    (∃ (s : State), s.Ready ∧ s.dev.on CHT_STATUS.CHECKING = true ∧ s.dev.shadow.valid = false) ∧
    (∃ (s : State), s.Ready ∧ s.dev.on CHT_STATUS.CHECKING = true ∧ s.dev.shadow.valid = true ∧ (s.dev.shadow.epoch ≠ s.dev.active.epoch) ∧
      s.dev.shadow.scan = none ∧ s.dev.cht.armScope = 0 ∧ tickFuture s.dev.cht.armTarget s.dev.tck.now = true ∧
      3 ≤ tickSub s.dev.cht.armTarget s.dev.tck.now) ∧
    (∃ (s : State), s.Ready ∧ s.dev.swapDue = false) ∧
    (∃ (s : State), s.Ready ∧ s.dev.swapDue = true) :=
  ⟨⟨State.reset, by decide +kernel⟩,
    ⟨(at_ fun d => d.wr CHT_STATUS.ARMED 1), 3, by decide +kernel⟩,
    ⟨State.reset, by decide +kernel⟩,
    ⟨(at_ fun d => { d.wr CHT_STATUS.ARMED 1 with cht := { d.cht with armTarget := 2 } }), by decide +kernel⟩,
    ⟨State.reset, by decide +kernel⟩,
    ⟨(at_ fun d => d.wr CHT_STATUS.CHECKING 1), by decide +kernel⟩,
    ⟨armedState, ⟨rfl, rfl, rfl⟩, by decide +kernel, by rw [armed_shadow]; decide +kernel, by rw [armed_shadow]; decide +kernel,
      by rw [armed_shadow]; exact fullBank_scan, rfl, by decide +kernel, by decide +kernel⟩,
    ⟨State.reset, by decide +kernel⟩,
    ⟨(at_ fun d => { d.wr CHT_STATUS.ARMED 1 with cht := { d.cht with armTarget := 0 } }), by decide +kernel⟩⟩

/-- The hypotheses of each clause of Sequencers can be met. -/
theorem witness_sequencers :
    (∃ (s : State), s.Ready ∧ (s.dev.tck.now % 65536 ≠ 0)) ∧
    (∃ (s : State), s.Ready ∧ s.dev.tck.now % 65536 = 0 ∧ s.dev.cht.resync = []) ∧
    (∃ (s : State) (pair : Nat), s.Ready ∧ pair < 32 ∧ s.dev.cht.driverB.getD pair false = false) ∧
    (∃ (s : State) (pair : Nat), s.Ready ∧ pair < 32) ∧
    (∃ (s : State) (pair : Nat) (t : Nat), s.Ready ∧ pair < 32 ∧ s.dev.cht.resync = [(pair, t)] ∧
      tickReached (tickAdd t 2) s.dev.tck.now = true ∧ s.dev.flt.recov = []) ∧
    (∃ (s : State) (pair : Nat), s.Ready ∧ pair < 32 ∧ s.dev.cht.resync = [] ∧ s.dev.flt.recov = []) :=
  ⟨⟨(at_ fun d => { d with tck := { d.tck with now := 65535 } }), by decide +kernel⟩,
    ⟨State.reset, by decide +kernel⟩,
    ⟨State.reset, 0, by decide +kernel⟩,
    ⟨State.reset, 0, by decide +kernel⟩,
    ⟨(at_ fun d => { d with cht := { d.cht with resync := [(31, 0)] }, tck := { d.tck with now := 2 } }), 31, 0, by decide +kernel⟩,
    ⟨State.reset, 0, by decide +kernel⟩⟩

/-- The hypotheses of each clause of SearchSubmissions can be met. -/
theorem witness_searchSubmissions :
    (∃ (s : State) (holder : Nat) (tbl : Nat) (entry : Nat) (data : List (BitVec 32)), ∃ p, let d := s.dev.asxLoad p.2.1 tbl entry p.2.2;
      let o := d.asxOpOf holder; s.Open ∧ s.Agent holder ∧ tbl < 64 ∧ entry < 262144 ∧ data.length ≤ 25 ∧
      p ∈ [(Instr.asxWrite holder tbl entry data, 1, data), (.asxClear holder tbl entry, 2, []), (.asxInsert holder tbl entry data, 3, data), (.asxMaskp holder tbl entry data, 4, data), (.asxRead holder tbl entry, 5, [])] ∧
      d.asxGoCheck o = 0) ∧
    (∃ (s : State) (holder : Nat) (tbl : Nat) (entry : Nat) (data : List (BitVec 32)), ∃ p, let d := s.dev.asxLoad p.2.1 tbl entry p.2.2;
      let o := d.asxOpOf holder; s.Open ∧ s.Agent holder ∧ tbl < 64 ∧ entry < 262144 ∧ data.length ≤ 25 ∧
      p ∈ [(Instr.asxWrite holder tbl entry data, 1, data), (.asxClear holder tbl entry, 2, []), (.asxInsert holder tbl entry data, 3, data), (.asxMaskp holder tbl entry data, 4, data), (.asxRead holder tbl entry, 5, [])] ∧
      (d.asxGoCheck o ≠ 0)) ∧
    (∃ (s : State) (holder : Nat) (tbl : Nat) (entry : Nat) (data : List (BitVec 32)), ∃ p, s.Open ∧ s.Agent holder ∧ tbl < 64 ∧
      entry < 262144 ∧ data.length ≤ 25 ∧
      p ∈ [(Instr.asxWrite holder tbl entry data, 1, data), (.asxClear holder tbl entry, 2, []), (.asxInsert holder tbl entry data, 3,
      data), (.asxMaskp holder tbl entry data, 4, data), (.asxRead holder tbl entry, 5, [])]) ∧
    (∃ (s : State) (holder : Nat) (tbl : Nat) (entry : Nat) (data : List (BitVec 32)), ∃ p, s.Open ∧ s.Agent holder ∧ tbl < 64 ∧
      entry < 262144 ∧ data.length ≤ 25 ∧
      p ∈ [(Instr.asxWrite holder tbl entry data, 1, data), (.asxClear holder tbl entry, 2, []), (.asxInsert holder tbl entry data, 3, data), (.asxMaskp holder tbl entry data, 4, data), (.asxRead holder tbl entry, 5, [])] ∧
      s.dev.isRevoked holder = true) :=
  ⟨⟨State.reset, 0x10, 63, 262143, List.replicate 25 0#32, (Instr.asxWrite 0x10 63 262143 (List.replicate 25 0#32), 1,
      List.replicate 25 0#32), by decide +kernel⟩,
    ⟨(at_ fun d => d.wr ASX_OP_STATUS.PENDING 64), 0x10, 63, 262143, List.replicate 25 0#32,
      (Instr.asxWrite 0x10 63 262143 (List.replicate 25 0#32), 1, List.replicate 25 0#32), by decide +kernel⟩,
    ⟨State.reset, 0x10, 63, 262143, List.replicate 25 0#32, (Instr.asxWrite 0x10 63 262143 (List.replicate 25 0#32), 1,
      List.replicate 25 0#32), by decide +kernel⟩,
    ⟨(at_ fun d => { d with flt := { d.flt with revoked := [0x10] } }), 0x10, 63, 262143, List.replicate 25 0#32, (.asxRead 0x10 63 262143,
      5, []), by decide +kernel⟩⟩

/-- The hypotheses of each clause of LookupSubmissions can be met. -/
theorem witness_lookupSubmissions :
    (∃ (s : State) (holder : Nat) (tbl : Nat) (index : Nat) (data : List (BitVec 32)), ∃ p, s.Open ∧ s.Agent holder ∧ tbl < 16 ∧
      index < 8388608 ∧ data.length ≤ 16 ∧
      p ∈ [(Instr.lpmAdd holder tbl index data, 0x1, data), (.lpmDel holder tbl index data, 0x2, data), (.exInsert holder tbl index data, 0x3, data), (.exUpdate holder tbl index data, 0x4, data), (.exDelete holder tbl index data, 0x5, data), (.dirWrite holder tbl index data, 0x6, data), (.memberWrite holder tbl index data, 0x7, data), (.ctxWrite holder tbl index data, 0x8, data), (.ctxRead holder tbl index, 0x9, []), (.ctxReadClr holder tbl index, 0xA, []), (.t2DirWrite holder tbl index data, 0xB, data), (.t2Write holder tbl index data, 0xC, data), (.exSlotclr holder tbl index, 0xD, [])] ∧
      s.dev.isRevoked holder = false ∧ s.dev.rd LKU_WR_STATUS.PENDING < 256) ∧
    (∃ (s : State) (holder : Nat) (tbl : Nat) (index : Nat) (data : List (BitVec 32)), ∃ p, s.Open ∧ s.Agent holder ∧ tbl < 16 ∧
      index < 8388608 ∧ data.length ≤ 16 ∧
      p ∈ [(Instr.lpmAdd holder tbl index data, 0x1, data), (.lpmDel holder tbl index data, 0x2, data), (.exInsert holder tbl index data, 0x3, data), (.exUpdate holder tbl index data, 0x4, data), (.exDelete holder tbl index data, 0x5, data), (.dirWrite holder tbl index data, 0x6, data), (.memberWrite holder tbl index data, 0x7, data), (.ctxWrite holder tbl index data, 0x8, data), (.ctxRead holder tbl index, 0x9, []), (.ctxReadClr holder tbl index, 0xA, []), (.t2DirWrite holder tbl index data, 0xB, data), (.t2Write holder tbl index data, 0xC, data), (.exSlotclr holder tbl index, 0xD, [])] ∧
      s.dev.isRevoked holder = true) ∧
    (∃ (s : State) (holder : Nat) (tbl : Nat) (index : Nat) (data : List (BitVec 32)), ∃ p, s.Open ∧ s.Agent holder ∧ tbl < 16 ∧
      index < 8388608 ∧ data.length ≤ 16 ∧
      p ∈ [(Instr.lpmAdd holder tbl index data, 0x1, data), (.lpmDel holder tbl index data, 0x2, data), (.exInsert holder tbl index data, 0x3, data), (.exUpdate holder tbl index data, 0x4, data), (.exDelete holder tbl index data, 0x5, data), (.dirWrite holder tbl index data, 0x6, data), (.memberWrite holder tbl index data, 0x7, data), (.ctxWrite holder tbl index data, 0x8, data), (.ctxRead holder tbl index, 0x9, []), (.ctxReadClr holder tbl index, 0xA, []), (.t2DirWrite holder tbl index data, 0xB, data), (.t2Write holder tbl index data, 0xC, data), (.exSlotclr holder tbl index, 0xD, [])] ∧
      s.dev.isRevoked holder = false ∧ 256 ≤ s.dev.rd LKU_WR_STATUS.PENDING) ∧
    (∃ (s : State) (holder : Nat) (tbl : Nat) (index : Nat) (data : List (BitVec 32)), ∃ p, s.Open ∧ s.Agent holder ∧ tbl < 16 ∧
      index < 8388608 ∧ data.length ≤ 16 ∧
      p ∈ [(Instr.lpmAdd holder tbl index data, 0x1, data), (.lpmDel holder tbl index data, 0x2, data), (.exInsert holder tbl index data,
      0x3, data), (.exUpdate holder tbl index data, 0x4, data), (.exDelete holder tbl index data, 0x5, data),
      (.dirWrite holder tbl index data, 0x6, data), (.memberWrite holder tbl index data, 0x7, data), (.ctxWrite holder tbl index data, 0x8,
      data), (.ctxRead holder tbl index, 0x9, []), (.ctxReadClr holder tbl index, 0xA, []), (.t2DirWrite holder tbl index data, 0xB, data),
      (.t2Write holder tbl index data, 0xC, data), (.exSlotclr holder tbl index, 0xD, [])]) :=
  ⟨⟨State.reset, 0x11, 15, 8388607, List.replicate 16 0#32, (.exSlotclr 0x11 15 8388607, 0xD, []), by decide +kernel⟩,
    ⟨(at_ fun d => { d with flt := { d.flt with revoked := [0x11] } }), 0x11, 15, 8388607, List.replicate 16 0#32,
      (.exSlotclr 0x11 15 8388607, 0xD, []), by decide +kernel⟩,
    ⟨(at_ fun d => d.wr LKU_WR_STATUS.PENDING 256), 0x11, 15, 8388607, List.replicate 16 0#32, (.exSlotclr 0x11 15 8388607, 0xD, []),
      by decide +kernel⟩,
    ⟨State.reset, 0x11, 15, 8388607, List.replicate 16 0#32, (.exSlotclr 0x11 15 8388607, 0xD, []), by decide +kernel⟩⟩

/-- The hypotheses of each clause of QueueSubmissions can be met. -/
theorem witness_queueSubmissions :
    (∃ (s : State) (holder : Nat) (type : Nat) (index : Nat) (tick : Nat) (timed : Bool) (data : List (BitVec 32)), ∃ p,
      let d := s.dev.queLoad p.2.1 type index timed tick p.2.2; let o := d.queOpOf holder; s.Open ∧ s.Agent holder ∧ type < 16 ∧
      index < 262144 ∧ tick < 2 ^ 48 ∧ data.length ≤ 8 ∧
      p ∈ [(Instr.queCfgWrite holder type index timed tick data, 1, data), (.queCfgRead holder type index timed tick, 2, []), (.queCfgReadClr holder type index timed tick, 3, [])] ∧
      d.queGoCheck o = 0) ∧
    (∃ (s : State) (holder : Nat) (type : Nat) (index : Nat) (tick : Nat) (timed : Bool) (data : List (BitVec 32)), ∃ p,
      let d := s.dev.queLoad p.2.1 type index timed tick p.2.2; let o := d.queOpOf holder; s.Open ∧ s.Agent holder ∧ type < 16 ∧
      index < 262144 ∧ tick < 2 ^ 48 ∧ data.length ≤ 8 ∧
      p ∈ [(Instr.queCfgWrite holder type index timed tick data, 1, data), (.queCfgRead holder type index timed tick, 2, []), (.queCfgReadClr holder type index timed tick, 3, [])] ∧
      (d.queGoCheck o ≠ 0)) ∧
    (∃ (s : State) (holder : Nat) (type : Nat) (index : Nat) (tick : Nat) (timed : Bool) (data : List (BitVec 32)), ∃ p, s.Open ∧
      s.Agent holder ∧ type < 16 ∧ index < 262144 ∧ tick < 2 ^ 48 ∧ data.length ≤ 8 ∧
      p ∈ [(Instr.queCfgWrite holder type index timed tick data, 1, data), (.queCfgRead holder type index timed tick, 2, []),
      (.queCfgReadClr holder type index timed tick, 3, [])]) ∧
    (∃ (s : State) (holder : Nat) (type : Nat) (index : Nat) (tick : Nat) (timed : Bool) (data : List (BitVec 32)), ∃ p, s.Open ∧
      s.Agent holder ∧ type < 16 ∧ index < 262144 ∧ tick < 2 ^ 48 ∧ data.length ≤ 8 ∧
      p ∈ [(Instr.queCfgWrite holder type index timed tick data, 1, data), (.queCfgRead holder type index timed tick, 2, []), (.queCfgReadClr holder type index timed tick, 3, [])] ∧
      256 ≤ s.dev.que.ops.length) :=
  ⟨⟨State.reset, 0x10, 7, 0, 2 ^ 48 - 1, true, List.replicate 8 0#32, (.queCfgReadClr 0x10 7 0 true (2 ^ 48 - 1), 3, []),
      by decide +kernel⟩,
    ⟨State.reset, 0x10, 2, 262143, 2 ^ 48 - 1, false, List.replicate 8 0#32, (.queCfgReadClr 0x10 2 262143 false (2 ^ 48 - 1), 3, []),
      by decide +kernel⟩,
    ⟨State.reset, 0x10, 2, 262143, 2 ^ 48 - 1, false, List.replicate 8 0#32, (.queCfgReadClr 0x10 2 262143 false (2 ^ 48 - 1), 3, []),
      by decide +kernel⟩,
    ⟨(at_ fun d => { d with que := { d.que with ops := List.replicate 256 { holder := 0, op := 1, type := 0, index := 0, timed := false, tick := 0, data := [] } } }),
      0x10, 2, 262143, 2 ^ 48 - 1, false, List.replicate 8 0#32, (.queCfgReadClr 0x10 2 262143 false (2 ^ 48 - 1), 3, []),
      by decide +kernel⟩⟩

/-- The hypotheses of each clause of SearchOperations can be met. -/
theorem witness_searchOperations :
    (∃ (s : State) (o : AsxOp) (r : List AsxOp), s.Ready ∧ (s.dev.rd ASX_OP_CTRL.RATE ≠ 0) ∧ s.dev.asx.run = none ∧
      (s.dev.asx.queue = o :: r) ∧ o.op = 4) ∧
    (∃ (s : State) (o : AsxOp) (r : List AsxOp), s.Ready ∧ (s.dev.rd ASX_OP_CTRL.RATE ≠ 0) ∧ s.dev.asx.run = none ∧
      (s.dev.asx.queue = o :: r) ∧ o.op = 2 ∧ (s.dev.asx.tbl o.tbl).valid = true ∧ o.entry < s.dev.asx.capacity o.tbl) ∧
    (∃ (s : State) (o : AsxOp) (r : List AsxOp), s.Ready ∧ (s.dev.rd ASX_OP_CTRL.RATE ≠ 0) ∧ s.dev.asx.run = none ∧
      (s.dev.asx.queue = o :: r) ∧ (o.op ≠ 4) ∧ (s.dev.asx.tbl o.tbl).valid = false) ∧
    (∃ (s : State) (o : AsxOp) (r : List AsxOp), s.Ready ∧ (s.dev.rd ASX_OP_CTRL.RATE ≠ 0) ∧ s.dev.asx.run = none ∧
      (s.dev.asx.queue = o :: r) ∧ (o.op ≠ 4) ∧ (s.dev.asx.tbl o.tbl).valid = true ∧ s.dev.asx.capacity o.tbl ≤ o.entry) ∧
    (∃ (s : State), s.Ready ∧ (s.dev.rd ASX_OP_CTRL.RATE = 0 ∨ s.dev.asx.run ≠ none ∨ s.dev.asx.queue = [])) ∧
    (∃ (s : State) (bank : Nat) (t : Nat) (c : Nat), s.Ready ∧ bank < 128 ∧ s.dev.asx.owner bank = some t ∧
      (s.dev.asx.tbl t).copyOf bank = some c ∧ s.dev.on (ASX_BANK.QUAR bank) = true ∧ (s.dev.asx.tbl t).spareEn = true ∧
      s.dev.on (ASX_TBL_B.SPARE_USED t) = false ∧ s.dev.asxQuarIn (s.dev.asx.tbl t).spareBank (s.dev.asx.tbl t).span = false ∧
      s.dev.tck.slot = 0 ∧ s.dev.asx.quarDue.contains bank = true) ∧
    (∃ (s : State) (bank : Nat), s.Ready ∧ bank < 128 ∧ s.dev.asx.quarDue.contains bank = false) ∧
    (∃ (s : State) (bank : Nat), s.Open ∧ bank < 128 ∧ s.dev.on (ASX_BANK.SHADOW_UE bank) = false ∧ s.dev.on (ASX_BANK.QUAR bank) = true) ∧
    (∃ (s : State) (bank : Nat), s.Open ∧ bank < 128 ∧
      (s.dev.on (ASX_BANK.SHADOW_UE bank) = true ∨ s.dev.on (ASX_BANK.QUAR bank) = false)) ∧
    (∃ (s : State) (bank : Nat), s.Ready ∧ bank < 128 ∧ s.dev.asx.returning.contains bank = true) ∧
    (∃ (s : State) (bank : Nat), s.Ready ∧ bank < 128 ∧ s.dev.asx.returning.contains bank = false) :=
  ⟨⟨(at_ fun d => { d.wr ASX_OP_CTRL.RATE 1 with asx := { d.asx with queue := [(asxOp 4 63 0)] } }), (asxOp 4 63 0), [], by decide +kernel⟩,
    ⟨(at_ fun d => { d.wr ASX_OP_CTRL.RATE 1 with asx := { d.asx with queue := [(asxOp 2 63 2047)], desc := [(63, bank127)] } }),
      (asxOp 2 63 2047), [], by decide +kernel⟩,
    ⟨(at_ fun d => { d.wr ASX_OP_CTRL.RATE 1 with asx := { d.asx with queue := [(asxOp 1 63 0)] } }), (asxOp 1 63 0), [],
      by decide +kernel⟩,
    ⟨(at_ fun d => { d.wr ASX_OP_CTRL.RATE 1 with asx := { d.asx with queue := [(asxOp 1 63 2048)], desc := [(63, bank127)] } }),
      (asxOp 1 63 2048), [], by decide +kernel⟩,
    ⟨State.reset, by decide +kernel⟩,
    ⟨(at_ fun d => { d.wr (ASX_BANK.QUAR 127) 1 with asx := { d.asx with desc := [(63, { bank127 with spareEn := true, spareBank := 126 })], quarDue := [127] }, tck := { d.tck with slot := 0 } }),
      127, 63, 0, by decide +kernel⟩,
    ⟨State.reset, 0, by decide +kernel⟩,
    ⟨(at_ fun d => d.wr (ASX_BANK.QUAR 127) 1), 127, by decide +kernel⟩,
    ⟨State.reset, 0, by decide +kernel⟩,
    ⟨(at_ fun d => { d with asx := { d.asx with returning := [127] } }), 127, by decide +kernel⟩,
    ⟨State.reset, 0, by decide +kernel⟩⟩

/-- The hypotheses of each clause of LookupOperations can be met. -/
theorem witness_lookupOperations :
    (∃ (s : State) (o : LkuOp) (r : List LkuOp) (c : Nat), s.Ready ∧ (s.dev.rd LKU_WR_CTRL.RATE ≠ 0) ∧ s.dev.lku.run = none ∧
      (s.dev.lku.queue = o :: r) ∧ s.dev.lkuCheck o = .inl c) ∧
    (∃ (s : State) (o : LkuOp) (r : List LkuOp) (st : List LkuStep), s.Ready ∧ (s.dev.rd LKU_WR_CTRL.RATE ≠ 0) ∧ s.dev.lku.run = none ∧
      (s.dev.lku.queue = o :: r) ∧ s.dev.lkuCheck o = .inr st) ∧
    (∃ (s : State), s.Ready ∧ (s.dev.rd LKU_WR_CTRL.RATE = 0 ∨ s.dev.lku.run ≠ none ∨ s.dev.lku.queue = [])) ∧
    (∃ (o : LkuOp), o.op = 7 ∧ o.tbl = 0 ∧ o.index < 2097152 ∧ o.rest 2 = false) ∧
    (∃ (o : LkuOp), o.op = 9 ∧ (o.tbl ≠ 0)) ∧
    (∃ (s : State) (entry : Nat), s.Ready ∧ entry < 4096 ∧ SMap.find s.dev.lku.layby entry = none) ∧
    (∃ (s : State) (entry : Nat) (data : BitVec 64) (p : Parked) (w : T2Walk), s.Ready ∧ entry < 4096 ∧
      SMap.find s.dev.lku.layby entry = some p ∧ p.st = .walking w ∧ bits data.toNat 62 2 = 1) ∧
    (∃ (s : State) (entry : Nat) (p : Parked) (w : T2Walk), s.Ready ∧ entry < 4096 ∧ SMap.find s.dev.lku.layby entry = some p ∧
      p.st = .walking w) ∧
    (∃ (s : State) (entry : Nat) (p : Parked) (w : T2Walk), s.Ready ∧ entry < 4096 ∧ SMap.find s.dev.lku.layby entry = some p ∧
      p.st = .walking w) ∧
    (∃ (s : State) (port : Nat) (addr : Nat) (ns : Nat) (data : BitVec 64) (poison : Bool) (err : Bool) (w : T2Walk), s.Ready ∧
      Instr.wf (.t2ReadComplete (.late port addr) data poison err ns) = true ∧
      (s.dev.lku.t2late.find? (fun w => w.port == port && w.rdAddr == addr) = some w)) ∧
    (∃ (s : State), s.Ready ∧ s.dev.lku.layby = []) ∧
    (∃ (s : State) (i : Nat) (p : Parked), s.Ready ∧ s.dev.lku.layby = [(i, p)] ∧ p.landed = false ∧
      tickReached (tickAdd p.tick 6) s.dev.tck.now = true) ∧
    (∃ (s : State), s.Ready ∧ s.dev.lku.t2buf = []) ∧
    (∃ (s : State) (b : T2Buf) (p : Nat), s.Ready ∧ s.dev.lku.t2buf = [b] ∧ b.issued = false ∧ s.dev.lku.layby = [] ∧
      s.dev.cxlPort b.addr = some p ∧ s.dev.cxlUp p = true) ∧
    (∃ (s : State) (b : T2Buf), s.Ready ∧ s.dev.lku.t2buf = [b] ∧ b.issued = true ∧ s.dev.cxlPort b.addr = none) ∧
    (∃ (s : State) (b : T2Buf) (p : Nat), s.Ready ∧ s.dev.lku.t2buf = [b] ∧ b.issued = true ∧ s.dev.cxlPort b.addr = some p) :=
  ⟨⟨(at_ fun d => { d.wr LKU_WR_CTRL.RATE 1 with lku := { d.lku with queue := [(lkuOp 7 1 0)] } }), (lkuOp 7 1 0), [], 0x03,
      by decide +kernel⟩,
    ⟨(at_ fun d => { d.wr LKU_WR_CTRL.RATE 1 with lku := { d.lku with queue := [(lkuOp 9 0 262143)] } }), (lkuOp 9 0 262143), [],
      [.ctxGet 262143 false], by decide +kernel⟩,
    ⟨State.reset, by decide +kernel⟩,
    ⟨(lkuOp 7 0 2097151), by decide +kernel⟩,
    ⟨(lkuOp 9 1 0), by decide +kernel⟩,
    ⟨State.reset, 0, by decide +kernel⟩,
    ⟨(at_ fun d => { d with lku := { d.lku with layby := [(4095, parked0)] } }), 4095, 0x4000000000000000#64, parked0, walk0,
      by decide +kernel⟩,
    ⟨(at_ fun d => { d with lku := { d.lku with layby := [(4095, parked0)] } }), 4095, parked0, walk0, by decide +kernel⟩,
    ⟨(at_ fun d => { d with lku := { d.lku with layby := [(4095, parked0)] } }), 4095, parked0, walk0, by decide +kernel⟩,
    ⟨(at_ fun d => { d with lku := { d.lku with t2late := [walk0] } }), 3, 8, 0, 0, false, false, walk0, by decide +kernel⟩,
    ⟨State.reset, by decide +kernel⟩,
    ⟨(at_ fun d => { d with lku := { d.lku with layby := [(0, parked0)] }, tck := { d.tck with now := 6 } }), 0, parked0,
      by decide +kernel⟩,
    ⟨State.reset, by decide +kernel⟩,
    ⟨(at_ fun d => { d.wr (CXL_PORT_ST.STATE 0) 3 with lku := { d.lku with t2buf := [buf0] }, cxl := { d.cxl with dec := [(0, dec0)] } }),
      buf0, 0, by decide +kernel⟩,
    ⟨(at_ fun d => { d with lku := { d.lku with t2buf := [{ buf0 with issued := true }] } }), { buf0 with issued := true },
      by decide +kernel⟩,
    ⟨(at_ fun d => { d with lku := { d.lku with t2buf := [{ buf0 with issued := true }] }, cxl := { d.cxl with dec := [(0, dec0)] } }),
      { buf0 with issued := true }, 0, by decide +kernel⟩⟩

/-- The hypotheses of each clause of CarriagesAndAudit can be met. -/
theorem witness_carriagesAndAudit :
    (∃ (s : State) (port : Nat), s.Ready ∧ port < 64 ∧ (s.dev.dpt.nextPlace port = none ∨ s.dev.dpt.placed.contains port = true)) ∧
    (∃ (s : State) (port : Nat) (row : Nat) (e : Place) (x : Dpt) (c : Chain), s.Ready ∧ port < 64 ∧ s.dev.dpt.nextPlace port = some e ∧
      s.dev.dpt.placed.contains port = false ∧ s.dev.dpt.pop (writeBank port s.dev.sc) = some (row, x) ∧ s.dev.chain e.chain = some c ∧
      c.ptrs.length < c.ncar) ∧
    (∃ (s : State) (port : Nat), s.Ready ∧ port < 64 ∧ (s.dev.dpt.reads.find? (fun x => x.rd.port == port) = none)) ∧
    (∃ (s : State) (port : Nat) (x : InFlight), s.Ready ∧ port < 64 ∧ (s.dev.dpt.reads.find? (fun x => x.rd.port == port) = some x) ∧
      scReached ((x.at_ + 128) % scMod) s.dev.sc = true) ∧
    (∃ (s : State) (port : Nat) (id : Nat) (x : InFlight), s.Ready ∧ port < 64 ∧
      (s.dev.dpt.reads.find? (fun x => x.rd.port == port) = some x) ∧ scReached ((x.at_ + 128) % scMod) s.dev.sc = true ∧
      x.rd.why = .spill id ∧ ({ s.dev with dpt := { s.dev.dpt with reads := s.dev.dpt.reads.erase x } } : Dev).reading (.spill id) = true) ∧
    (∃ (s : State), s.Ready) ∧
    (∃ (s : State), s.Open) ∧
    (∃ (s : State), s.Ready ∧ s.dev.dpt.audWanted = true ∧ s.dev.rd DPT_AUD_STATUS.PHASE = 0 ∧ s.dev.tck.slot = 0) ∧
    (∃ (s : State), s.Ready ∧ (s.dev.dpt.audWanted = false ∨ s.dev.rd DPT_AUD_STATUS.PHASE ≠ 0 ∨ s.dev.tck.slot ≠ 0)) ∧
    (∃ (s : State), s.Ready ∧ (s.dev.rd DPT_AUD_STATUS.PHASE ≠ 3 ∨ s.dev.tck.slot ≠ 0)) ∧
    (∃ (s : State), s.Ready ∧ s.dev.rd DPT_AUD_STATUS.PHASE = 3 ∧ s.dev.tck.slot = 0) :=
  ⟨⟨State.reset, 63, by decide +kernel⟩,
    ⟨(at_ fun d => { d with dpt := { d.dpt with place := [{ port := 63, chain := 0, by_ := 0, refill := false }], chains := [(0, { chain0 with ptrs := [] })] } }),
      63, _, _, _, { chain0 with ptrs := [] }, by decide +kernel, by decide, rfl, rfl, rfl, rfl, by decide +kernel⟩,
    ⟨State.reset, 0, by decide +kernel⟩,
    ⟨(at_ fun d => { d with dpt := { d.dpt with reads := [{ rd := read0, at_ := 0, touch := none }], chains := [(0, chain0)] }, tck := { d.tck with now := 1 } }),
      63, { rd := read0, at_ := 0, touch := none }, by decide +kernel⟩,
    ⟨(at_ fun d => { d with dpt := { d.dpt with reads := [{ rd := { read0 with why := .spill 3 }, at_ := 0, touch := none }], readQ := [{ read0 with why := .spill 3, idx := 1 }], chains := [(0, chain0)] }, tck := { d.tck with now := 1 } }),
      63, 3, { rd := { read0 with why := .spill 3 }, at_ := 0, touch := none }, by decide +kernel⟩,
    ⟨State.reset, by decide +kernel⟩,
    ⟨State.reset, by decide +kernel⟩,
    ⟨(at_ fun d => { d with dpt := { d.dpt with audWanted := true }, tck := { d.tck with slot := 0 } }), by decide +kernel⟩,
    ⟨State.reset, by decide +kernel⟩,
    ⟨State.reset, by decide +kernel⟩,
    ⟨(at_ fun d => { d.wr DPT_AUD_STATUS.PHASE 3 with tck := { d.tck with slot := 0 } }), by decide +kernel⟩⟩

/-- The hypotheses of each clause of Stacks can be met. -/
theorem witness_stacks :
    (∃ (s : State) (k : Nat) (pc : Nat), s.Ready ∧ k < 8 ∧ pc < 64 ∧
      (s.dev.rd (YRD_STK_STATUS.STATE k) ≠ stkAwake ∨ ((s.dev.hbm (64 * k + pc)).split = none ∧ (s.dev.hbm (64 * k + pc)).next = none))) ∧
    (∃ (s : State) (k : Nat) (pc : Nat) (r : HReq), s.Ready ∧ k < 8 ∧ pc < 64 ∧ s.dev.rd (YRD_STK_STATUS.STATE k) = stkAwake ∧
      (s.dev.hbm (64 * k + pc)).split = none ∧ (s.dev.hbm (64 * k + pc)).next = some r ∧ (r.what ≠ .write)) ∧
    (∃ (s : State) (k : Nat) (pc : Nat), s.Ready ∧ k < 8 ∧ pc < 64 ∧ (s.dev.hbm (64 * k + pc)).returning = []) ∧
    (∃ (s : State) (k : Nat) (pc : Nat) (r : HReq), s.Ready ∧ k < 8 ∧ pc < 64 ∧ oldest (s.dev.hbm (64 * k + pc)).returning = some r ∧
      r.what = .ptrRead) ∧
    (∃ (s : State) (k : Nat) (pc : Nat) (q : Nat) (id : Nat) (q' : Nat) (r : HReq) (p : QPkt) (w : Wag),
      let x := (s.dev.hbmGone k pc r).hbmWords k .wagRec (r.ptr * 16 + w.recIdx) 24; s.Ready ∧ k < 8 ∧ pc < 64 ∧
      oldest (s.dev.hbm (64 * k + pc)).returning = some r ∧ r.what = .recRead q id ∧ s.dev.findPkt id = some (q', p) ∧ p.wag = some w ∧
      x.1 = false) ∧
    (∃ (s : State) (k : Nat) (pc : Nat) (q : Nat) (id : Nat) (q' : Nat) (c : Nat) (due : Nat) (r : HReq) (p : QPkt) (w : Wag), s.Ready ∧
      k < 8 ∧ pc < 64 ∧ oldest (s.dev.hbm (64 * k + pc)).returning = some r ∧ r.what = .dataRead q id ∧ s.dev.findPkt id = some (q', p) ∧
      p.loc = .refill (some c) w due) ∧
    (∃ (s : State) (k : Nat) (pc : Nat) (r : HReq), let h := s.dev.hbm (64 * k + pc); s.Ready ∧ k < 8 ∧ pc < 64 ∧
      (h.reads ++ h.writes).find? (fun r => 0 < r.done && !h.stopped r) = some r ∧
      refreshRun (hbmNb k) (wBank r.ptr) h.bank (h.credit + 1) = 0 ∧ h.credit < 8) ∧
    (∃ (s : State) (k : Nat) (pc : Nat) (r : HReq), let h := s.dev.hbm (64 * k + pc); s.Ready ∧ k < 8 ∧ pc < 64 ∧
      (h.reads ++ h.writes).find? (fun r => 0 < r.done && !h.stopped r) = some r ∧
      refreshRun (hbmNb k) (wBank r.ptr) h.bank (h.credit + 1) = 0 ∧ 8 ≤ h.credit) ∧
    (∃ (s : State) (k : Nat) (pc : Nat) (n : Nat), let h := s.dev.hbm (64 * k + pc); s.Ready ∧ k < 8 ∧ pc < 64 ∧
      (h.reads ++ h.writes).find? (fun r => 0 < r.done && !h.stopped r) = none ∧ refreshRun (hbmNb k) (hbmNb k) h.bank (h.credit + 1) = n ∧
      (n ≠ 0)) ∧
    (∃ (s : State) (k : Nat), s.Ready ∧ k < 8 ∧ s.dev.rd (YRD_STK_STATUS.STATE k) = stkEntering ∧
      2 ≤ tickSub s.dev.tck.now (SMap.get 0 s.dev.yrd.since k) ∧ k ∉ s.dev.yrd.exitReq) ∧
    (∃ (s : State) (k : Nat), s.Ready ∧ k < 8 ∧ s.dev.rd (YRD_STK_STATUS.STATE k) = stkEntering ∧
      2 ≤ tickSub s.dev.tck.now (SMap.get 0 s.dev.yrd.since k) ∧ k ∈ s.dev.yrd.exitReq) ∧
    (∃ (s : State) (k : Nat), s.Ready ∧ k < 8 ∧ (s.dev.rd (YRD_STK_STATUS.STATE k) ≠ stkEntering)) ∧
    (∃ (s : State) (k : Nat), s.Ready ∧ k < 8 ∧ s.dev.rd (YRD_STK_STATUS.STATE k) = stkExiting ∧
      1 ≤ tickSub s.dev.tck.now (SMap.get 0 s.dev.yrd.since k)) ∧
    (∃ (s : State) (k : Nat), s.Ready ∧ k < 8 ∧ (s.dev.rd (YRD_STK_STATUS.STATE k) ≠ stkExiting)) ∧
    (∃ (s : State) (k : Nat) (t : Int), s.Ready ∧ k < 8 ∧ 83 < t ∧ t ≤ 85 ∧ (t < (s.dev.rd YRD_THERM.WARN : Int)) ∧ k ∉ s.dev.yrd.warm ∧
      s.dev.on (YRD_STK_STATUS.TCLOSE k) = false) ∧
    (∃ (s : State) (k : Nat), s.Ready ∧ k < 8 ∧ s.dev.rd (YRD_STK_STATUS.STATE k) = stkFailed) ∧
    (∃ (s : State) (k : Nat), s.Ready ∧ k < 8 ∧ s.dev.rd (YRD_STK_STATUS.STATE k) = stkTraining ∧ s.dev.flt.recov = []) ∧
    (∃ (s : State) (k : Nat), s.Ready ∧ k < 8 ∧ s.dev.rd (YRD_STK_STATUS.STATE k) = stkTraining) ∧
    (∃ (s : State) (k : Nat) (pc : Nat), s.Ready ∧ k < 8 ∧ pc < 64 ∧ s.dev.rd (YRD_STK_STATUS.STATE k) = stkAwake ∧ 504 ≤ s.dev.tck.slot ∧
      s.dev.rd YRD_CAL.PERIOD ≤ tickSub s.dev.tck.now (SMap.get 0 s.dev.yrd.cal (64 * k + pc))) ∧
    (∃ (s : State) (k : Nat) (pc : Nat), s.Ready ∧ k < 8 ∧ pc < 64 ∧ s.dev.tck.slot < 504) :=
  ⟨⟨State.reset, 0, 0, by decide +kernel⟩,
    ⟨(at_ fun d => { d.wr (YRD_STK_STATUS.STATE 7) stkAwake with yrd := { d.yrd with hbm := [(511, { Hbm.idle with reads := [req0] })] } }),
      7, 63, req0, by decide +kernel⟩,
    ⟨State.reset, 0, 0, by decide +kernel⟩,
    ⟨(at_ fun d => { d with yrd := { d.yrd with hbm := [(511, { Hbm.idle with returning := [{ req0 with what := .ptrRead }] })] } }), 7,
      63, { req0 with what := .ptrRead }, by decide +kernel⟩,
    ⟨(at_ fun d => { d with yrd := { d.yrd with hbm := [(511, { Hbm.idle with returning := [{ req0 with what := .recRead 0 0 }] })] }, que := { d.que with q := [(0, { q0 with middle := [{ qpkt0 with loc := .held wag0 }] })] } }),
      7, 63, 0, 0, 0, { req0 with what := .recRead 0 0 }, { qpkt0 with loc := .held wag0 }, wag0, by decide +kernel⟩,
    ⟨(at_ fun d => { d with yrd := { d.yrd with hbm := [(511, { Hbm.idle with returning := [req0] })] }, que := { d.que with q := [(0, { q0 with middle := [{ qpkt0 with loc := .refill (some 4) wag0 6 }] })] } }),
      7, 63, 0, 0, 0, 4, 6, req0, { qpkt0 with loc := .refill (some 4) wag0 6 }, wag0, by decide +kernel⟩,
    ⟨{ State.reset with dev := refreshing 7 }, 7, 63, { req0 with done := 1 }, ⟨rfl, rfl, rfl⟩, by decide, by decide, rfl,
      refreshRun_self _ _ _, by decide⟩,
    ⟨{ State.reset with dev := refreshing 8 }, 7, 63, { req0 with done := 1 }, ⟨rfl, rfl, rfl⟩, by decide, by decide, rfl,
      refreshRun_self _ _ _, by decide⟩,
    ⟨State.reset, 7, 63, 1, ⟨rfl, rfl, rfl⟩, by decide, by decide, rfl, refreshRun_one, by decide⟩,
    ⟨(at_ fun d => { d.wr (YRD_STK_STATUS.STATE 7) stkEntering with tck := { d.tck with now := 2 } }), 7, by decide +kernel⟩,
    ⟨(at_ fun d => { d.wr (YRD_STK_STATUS.STATE 7) stkEntering with tck := { d.tck with now := 2 }, yrd := { d.yrd with exitReq := [7] } }),
      7, by decide +kernel⟩,
    ⟨State.reset, 0, by decide +kernel⟩,
    ⟨(at_ fun d => { d.wr (YRD_STK_STATUS.STATE 7) stkExiting with tck := { d.tck with now := 1 } }), 7, by decide +kernel⟩,
    ⟨State.reset, 0, by decide +kernel⟩,
    ⟨State.reset, 7, 84, by decide +kernel⟩,
    ⟨(at_ fun d => d.wr (YRD_STK_STATUS.STATE 7) stkFailed), 7, by decide +kernel⟩,
    ⟨State.reset, 0, by decide +kernel⟩,
    ⟨State.reset, 0, by decide +kernel⟩,
    ⟨(at_ fun d => { d.wr (YRD_STK_STATUS.STATE 7) stkAwake with tck := { d.tck with now := 2604, slot := 504 } }), 7, 63,
      by decide +kernel⟩,
    ⟨(at_ fun d => { d with tck := { d.tck with running := true, slot := 503 } }), 7, 63, by decide +kernel⟩⟩

/-- The hypotheses of each clause of WanPorts can be met. -/
theorem witness_wanPorts :
    (∃ (s : State) (pipe : Nat), s.Ready ∧ pipe < 64 ∧ (∀ x ∈ s.dev.wan.deps, x.pipe = pipe → x.fabric = false →
      tickReached x.tick s.dev.tck.now = false)) ∧
    (∃ (s : State) (pipe : Nat) (x : Depart) (y : Depart),
      let due := sortKey (fun x => departKey x s.dev.tck.now) (s.dev.wan.deps.filter fun x => !x.fabric && tickReached x.tick s.dev.tck.now);
      s.Ready ∧ pipe < 64 ∧ (due.find? (fun x => x.pipe = pipe) = some y) ∧ (due.find? (fun x => x.port = y.port) = some x) ∧
      s.dev.on (WAN_PORT_ST.MASKED x.port) = true) ∧
    (∃ (s : State) (pipe : Nat) (x : Depart) (y : Depart),
      let due := sortKey (fun x => departKey x s.dev.tck.now) (s.dev.wan.deps.filter fun x => !x.fabric && tickReached x.tick s.dev.tck.now);
      s.Ready ∧ pipe < 64 ∧ (due.find? (fun x => x.pipe = pipe) = some y) ∧ (due.find? (fun x => x.port = y.port) = some x) ∧
      s.dev.on (WAN_PORT_ST.MASKED x.port) = false ∧ s.dev.wanUp x.port = false) ∧
    (∃ (s : State) (pipe : Nat) (x : Depart) (y : Depart),
      let due := sortKey (fun x => departKey x s.dev.tck.now) (s.dev.wan.deps.filter fun x => !x.fabric && tickReached x.tick s.dev.tck.now);
      s.Ready ∧ pipe < 64 ∧ (due.find? (fun x => x.pipe = pipe) = some y) ∧ (due.find? (fun x => x.port = y.port) = some x) ∧
      s.dev.on (WAN_PORT_ST.MASKED x.port) = false ∧ s.dev.wanUp x.port = true) ∧
    (∃ (s : State), s.Open ∧ s.dev.wan.ts.length ≤ 1) ∧
    (∃ (s : State) (r : TsRec) (q : TsRec) (l : List TsRec), s.Open ∧ (s.dev.wan.ts = r :: q :: l)) ∧
    (∃ (s : State) (cage : Nat) (page : Nat) (off : Nat) (len : Nat) (bank : Nat) (data : List Byte), s.Open ∧
      Instr.wf (.cmWrite cage page off len bank data) = true ∧ s.dev.on WAN_CM_STATUS.BUSY = true) ∧
    (∃ (s : State) (cage : Nat) (page : Nat) (off : Nat) (len : Nat) (bank : Nat) (data : List Byte), s.Open ∧
      Instr.wf (.cmWrite cage page off len bank data) = true ∧ s.dev.on WAN_CM_STATUS.BUSY = false) ∧
    (∃ (s : State) (c : Nat) (code : Nat), s.Ready ∧ c < 8 ∧ code < 256 ∧ s.dev.busQ c = []) ∧
    (∃ (s : State) (c : Nat) (code : Nat) (o : BusOp) (l : List BusOp), s.Ready ∧ c < 8 ∧ code < 256 ∧ (s.dev.busQ c = o :: l) ∧
      s.dev.modulePresent o.cage = true) ∧
    (∃ (s : State) (c : Nat) (code : Nat) (o : BusOp) (l : List BusOp), s.Ready ∧ c < 8 ∧ code < 256 ∧ (s.dev.busQ c = o :: l) ∧
      s.dev.modulePresent o.cage = false) ∧
    (∃ (s : State) (c : Nat) (code : Nat) (cage : Nat) (bank : Nat) (page : Nat) (off : Nat) (len : Nat) (w : List Byte), s.Ready ∧ c < 8 ∧
      code < 256 ∧ s.dev.busQ c = [.host cage bank page off len (some w)] ∧ s.dev.modulePresent cage = true) ∧
    (∃ (s : State) (port : Nat), s.Ready ∧ port < 256 ∧ (s.dev.busQ (port / 32)).head? ≠ some (.poll port)) ∧
    (∃ (s : State) (port : Nat) (l : List BusOp), s.Ready ∧ port < 256 ∧ (s.dev.busQ (port / 32) = .poll port :: l)) ∧
    (∃ (s : State) (port : Nat), s.Ready ∧ port < 256 ∧ s.dev.busQ (port / 32) = [.poll port] ∧ s.dev.modulePresent (port / 8) = true ∧
      s.dev.on (WAN_PORT_CFG.MS_EN port) = true ∧ s.dev.wanExists port = true) ∧
    (∃ (s : State) (port : Nat) (e : Int), let l := (e :: SMap.get [] s.dev.wan.esnr port).take (2 ^ s.dev.rd WAN_MS_POLL.AVG_LOG2);
      let d := s.dev.setBus (port / 32) [];
      let f := { d with wan := { d.wan with esnr := SMap.set [] d.wan.esnr port l } }.wr (WAN_PORT_ST.ESNR port) (ofInt 16 (l.sum / (l.length : Int)));
      s.Ready ∧ port < 256 ∧ s.dev.busQ (port / 32) = [.poll port] ∧ s.dev.modulePresent (port / 8) = true ∧
      s.dev.on (WAN_PORT_CFG.MS_EN port) = true ∧ s.dev.wanExists port = true ∧ s.dev.sess port = none ∧
      SMap.find s.dev.wan.since port = none ∧ (f.marginSelect port (l.sum / (l.length : Int)) = f.rd (WAN_PORT_ST.ENTRY port))) ∧
    (∃ (s : State) (lane : Nat), s.Ready ∧ lane < 256 ∧ (s.dev.wanMode lane ≠ 0)) ∧
    (∃ (s : State) (port : Nat), s.Ready ∧ port < 256 ∧ (s.dev.wanMode port ≠ 0)) ∧
    (∃ (s : State) (port : Nat), s.Ready ∧ port < 256 ∧ s.dev.wanExists port = false) ∧
    (∃ (s : State) (port : Nat), s.Ready ∧ port < 256 ∧ s.dev.wanExists port = true) :=
  ⟨⟨State.reset, 0, by decide +kernel⟩,
    ⟨(at_ fun d => { d.wr (WAN_PORT_ST.MASKED 248) 1 with wan := { d.wan with deps := [dep0 false] } }), 63, dep0 false, dep0 false,
      by decide +kernel⟩,
    ⟨(at_ fun d => { d with wan := { d.wan with deps := [dep0 false] } }), 63, dep0 false, dep0 false, by decide +kernel⟩,
    ⟨(at_ fun d => { (d.wr (WAN_CAGE.MODE 31) 1).wr (WAN_PORT_ST.LINK 248) 1 with wan := { d.wan with deps := [dep0 false] } }), 63,
      dep0 false, dep0 false, by decide +kernel⟩,
    ⟨State.reset, by decide +kernel⟩,
    ⟨(at_ fun d => { d with wan := { d.wan with ts := [ts0, ts0] } }), ts0, ts0, [], by decide +kernel⟩,
    ⟨(at_ fun d => d.wr WAN_CM_STATUS.BUSY 1), 31, 255, 255, 128, 255, List.replicate 128 0#8, by decide +kernel⟩,
    ⟨State.reset, 31, 255, 255, 128, 255, List.replicate 128 0#8, by decide +kernel⟩,
    ⟨State.reset, 0, 0, by decide +kernel⟩,
    ⟨(at_ fun d => { (d.wr (CGE_SLOT_STS.PDS 31) 1) with wan := { d.wan with bus := [(7, [.host 31 0 0 0 1 (some [])])] } }), 7, 255,
      .host 31 0 0 0 1 (some []), [], by decide +kernel⟩,
    ⟨(at_ fun d => { d with wan := { d.wan with bus := [(7, [.host 31 0 0 0 1 (some [])])] } }), 7, 255, .host 31 0 0 0 1 (some []), [],
      by decide +kernel⟩,
    ⟨(at_ fun d => { (d.wr (CGE_SLOT_STS.PDS 31) 1) with wan := { d.wan with bus := [(7, [.host 31 0 0 0 1 (some [])])] } }), 7, 255, 31,
      0, 0, 0, 1, [], by decide +kernel⟩,
    ⟨State.reset, 0, by decide +kernel⟩,
    ⟨(at_ fun d => { d with wan := { d.wan with bus := [(7, [.poll 255])] } }), 255, [], by decide +kernel⟩,
    ⟨(at_ fun d => { (((d.wr (CGE_SLOT_STS.PDS 31) 1).wr (WAN_CAGE.MODE 31) 4).wr (WAN_PORT_CFG.MS_EN 255) 1) with wan := { d.wan with bus := [(7, [.poll 255])] } }),
      255, by decide +kernel⟩,
    ⟨(at_ fun d => { (((d.wr (CGE_SLOT_STS.PDS 31) 1).wr (WAN_CAGE.MODE 31) 4).wr (WAN_PORT_CFG.MS_EN 255) 1) with wan := { d.wan with bus := [(7, [.poll 255])] } }),
      255, 0, by decide +kernel⟩,
    ⟨(at_ fun d => d.wr (WAN_CAGE.MODE 31) 1), 255, by decide +kernel⟩,
    ⟨(at_ fun d => d.wr (WAN_CAGE.MODE 31) 1), 255, by decide +kernel⟩,
    ⟨State.reset, 0, by decide +kernel⟩,
    ⟨(at_ fun d => d.wr (WAN_CAGE.MODE 31) 4), 255, by decide +kernel⟩⟩

/-- The hypotheses of each clause of Bearings can be met. -/
theorem witness_bearings :
    (∃ (s : State) (port : Nat) (gap : Nat) (m : BrgMsg) (cap : Bool), ∃ c, s.Ready ∧ port < 256 ∧ m.ring < 64 ∧ 8 ≤ gap ∧
      (m.ring ≠ s.dev.rd WAN_BRG_CTRL.PUNT_RING) ∧
      c ∈ [Instr.bearingPropose port m cap gap, .bearingAccept port m, .bearingDrain port m, .bearingSwitch port m, .bearingConfirm port m,
      .bearingRestore port m, .bearingAbort port m]) ∧
    (∃ (s : State) (port : Nat) (m : BrgMsg), ∃ c, s.Ready ∧ port < 256 ∧ m.ring < 64 ∧ m.ring = s.dev.rd WAN_BRG_CTRL.PUNT_RING ∧
      s.dev.sess port = none ∧
      c ∈ [Instr.bearingAccept port m, .bearingDrain port m, .bearingSwitch port m, .bearingConfirm port m, .bearingRestore port m,
      .bearingAbort port m]) ∧
    (∃ (s : State) (port : Nat) (m : BrgMsg), ∃ c, s.Ready ∧ port < 256 ∧ m.ring < 64 ∧ m.ring = s.dev.rd WAN_BRG_CTRL.PUNT_RING ∧
      s.dev.sess port = none ∧
      c ∈ [Instr.bearingResend port, .adaptiveDrain port, .adaptiveSwitch port, .ceilingRestore port, .cleanReceive port,
      .retuneFifoDrained port, .retuneApply port, .retuneTimeout port]) ∧
    (∃ (s : State) (port : Nat) (gap : Nat) (m : BrgMsg), s.Ready ∧ port < 256 ∧ m.ring < 64 ∧ 8 ≤ gap ∧
      m.ring = s.dev.rd WAN_BRG_CTRL.PUNT_RING ∧ (m.ver / 16 ≠ 1)) ∧
    (∃ (s : State) (port : Nat) (gap : Nat) (m : BrgMsg), s.Ready ∧ port < 256 ∧ m.ring < 64 ∧ 8 ≤ gap ∧
      m.ring = s.dev.rd WAN_BRG_CTRL.PUNT_RING ∧ m.ver / 16 = 1 ∧ s.dev.on (WAN_PORT_CFG.MS_EN port) = false) ∧
    (∃ (s : State) (port : Nat) (gap : Nat) (m : BrgMsg), ∃ i, s.Ready ∧ port < 256 ∧ m.ring < 64 ∧ 8 ≤ gap ∧
      m.ring = s.dev.rd WAN_BRG_CTRL.PUNT_RING ∧ m.ver / 16 = 1 ∧ s.dev.on (WAN_PORT_CFG.MS_EN port) = true ∧ s.dev.sess port = none ∧
      i < 8 ∧ (8 * (port / 8) + i ≠ port) ∧ (s.dev.sess (8 * (port / 8) + i)).isSome = true) ∧
    (∃ (s : State) (port : Nat) (gap : Nat) (m : BrgMsg), let v := s.dev.mtEntry (s.dev.prof port) m.entry; s.Ready ∧ port < 256 ∧
      m.ring < 64 ∧ 8 ≤ gap ∧ m.ring = s.dev.rd WAN_BRG_CTRL.PUNT_RING ∧ m.ver / 16 = 1 ∧ s.dev.on (WAN_PORT_CFG.MS_EN port) = true ∧
      (∀ i < 8, s.dev.sess (8 * (port / 8) + i) = none) ∧ (mtValid v = false ∨ mtCeil v ≠ m.ceil ∨ mtApp v ≠ m.appsel)) ∧
    (∃ (s : State) (port : Nat) (gap : Nat) (m : BrgMsg), let v := s.dev.mtEntry (s.dev.prof port) m.entry; s.Ready ∧ port < 256 ∧
      m.ring < 64 ∧ 8 ≤ gap ∧ m.ring = s.dev.rd WAN_BRG_CTRL.PUNT_RING ∧ m.ver / 16 = 1 ∧ s.dev.on (WAN_PORT_CFG.MS_EN port) = true ∧
      (∀ i < 8, s.dev.sess (8 * (port / 8) + i) = none) ∧ mtValid v = true ∧ mtCeil v = m.ceil ∧ mtApp v = m.appsel) ∧
    (∃ (s : State) (port : Nat) (m : BrgMsg) (x : Sess), s.Ready ∧ port < 256 ∧ m.ring < 64 ∧ m.ring = s.dev.rd WAN_BRG_CTRL.PUNT_RING ∧
      s.dev.sess port = some x ∧ m.session = x.id ∧ 1 ≤ m.subtype ∧ m.subtype ≤ 7 ∧ x.heard.contains m.seq = false ∧
      s.dev.msState port = msProposed ∧ s.dev.msRetune port = false) ∧
    (∃ (s : State) (port : Nat) (m : BrgMsg) (x : Sess), s.Ready ∧ port < 256 ∧ m.ring < 64 ∧ m.ring = s.dev.rd WAN_BRG_CTRL.PUNT_RING ∧
      s.dev.sess port = some x ∧ m.session = x.id ∧ 1 ≤ m.subtype ∧ m.subtype ≤ 7 ∧ x.heard.contains m.seq = false ∧
      s.dev.msState port = msProposed ∧ s.dev.msRetune port = true) ∧
    (∃ (s : State) (port : Nat) (m : BrgMsg) (x : Sess), s.Ready ∧ port < 256 ∧ m.ring < 64 ∧ m.ring = s.dev.rd WAN_BRG_CTRL.PUNT_RING ∧
      s.dev.sess port = some x ∧ m.session = x.id ∧ 1 ≤ m.subtype ∧ m.subtype ≤ 7 ∧ x.heard.contains m.seq = false ∧
      s.dev.msLeads port = false ∧ s.dev.msRetune port = false) ∧
    (∃ (s : State) (port : Nat) (m : BrgMsg) (x : Sess), s.Ready ∧ port < 256 ∧ m.ring < 64 ∧ m.ring = s.dev.rd WAN_BRG_CTRL.PUNT_RING ∧
      s.dev.sess port = some x ∧ m.session = x.id ∧ 1 ≤ m.subtype ∧ m.subtype ≤ 7 ∧ x.heard.contains m.seq = false ∧
      s.dev.msLeads port = true ∧ s.dev.msRetune port = true) ∧
    (∃ (s : State) (port : Nat) (m : BrgMsg) (x : Sess), s.Ready ∧ port < 256 ∧ m.ring < 64 ∧ m.ring = s.dev.rd WAN_BRG_CTRL.PUNT_RING ∧
      s.dev.sess port = some x ∧ m.session = x.id ∧ 1 ≤ m.subtype ∧ m.subtype ≤ 7 ∧ x.heard.contains m.seq = false ∧
      s.dev.msLeads port = true ∧ s.dev.msRetune port = false) ∧
    (∃ (s : State) (port : Nat) (m : BrgMsg) (x : Sess), s.Ready ∧ port < 256 ∧ m.ring < 64 ∧ m.ring = s.dev.rd WAN_BRG_CTRL.PUNT_RING ∧
      s.dev.sess port = some x ∧ m.session = x.id ∧ 1 ≤ m.subtype ∧ m.subtype ≤ 7 ∧ x.heard.contains m.seq = false) ∧
    (∃ (s : State) (port : Nat) (x : Sess), s.Ready ∧ port < 256 ∧ s.dev.sess port = some x ∧ s.dev.msWaits port x = true ∧ (x.last ≠ []) ∧
      s.dev.rd WAN_MS_TIMER.RTO ≤ tickSub s.dev.tck.now x.lastTick ∧ x.tries < s.dev.rd WAN_MS_TIMER.RETRY) ∧
    (∃ (s : State) (port : Nat) (x : Sess), s.Ready ∧ port < 256 ∧ s.dev.sess port = some x ∧ s.dev.msWaits port x = true ∧ (x.last ≠ []) ∧
      s.dev.rd WAN_MS_TIMER.RTO ≤ tickSub s.dev.tck.now x.lastTick ∧ s.dev.rd WAN_MS_TIMER.RETRY ≤ x.tries) ∧
    (∃ (s : State) (port : Nat) (x : Sess), s.Ready ∧ port < 256 ∧ s.dev.sess port = some x ∧ s.dev.msLeads port = true ∧
      s.dev.msState port = msAccepted ∧ x.fell = true ∧ tickReached x.td s.dev.tck.now = true) ∧
    (∃ (s : State) (port : Nat) (x : Sess), s.Ready ∧ port < 256 ∧ s.dev.sess port = some x ∧ s.dev.msLeads port = true ∧
      s.dev.msRetune port = false ∧ s.dev.msState port = msDrained ∧ s.dev.rd WAN_MS_TIMER2.GAP ≤ tickSub s.dev.tck.now x.td) ∧
    (∃ (s : State) (port : Nat) (x : Sess), ∃ t, s.Ready ∧ port < 256 ∧ s.dev.sess port = some x ∧ s.dev.msLeads port = false ∧
      x.restore = some t ∧ tickReached t s.dev.tck.now = true) ∧
    (∃ (s : State) (port : Nat) (x : Sess), ∃ t, s.Ready ∧ port < 256 ∧ s.dev.sess port = some x ∧ s.dev.msLeads port = true ∧
      x.restore = some t ∧ tickReached t s.dev.tck.now = true) ∧
    (∃ (s : State) (port : Nat) (x : Sess), ∃ t, s.Ready ∧ port < 256 ∧ s.dev.sess port = some x ∧ s.dev.msLeads port = false ∧
      s.dev.msRetune port = false ∧ x.switch_ = some t ∧ x.ownClean = false ∧ s.dev.msState port = msSwitched ∧
      s.dev.cleanSince port t = true) ∧
    (∃ (s : State) (port : Nat) (x : Sess), ∃ o, s.Ready ∧ port < 256 ∧ s.dev.sess port = some x ∧ s.dev.msLeads port = true ∧
      s.dev.msRetune port = true ∧ s.dev.msState port = msDrained ∧ x.owd2 = some o ∧ s.dev.fifoEmpty port = true) ∧
    (∃ (s : State) (port : Nat) (x : Sess), ∃ t, s.Ready ∧ port < 256 ∧ s.dev.sess port = some x ∧ s.dev.msRetune port = true ∧
      x.applied = none ∧ x.apply_ = some t ∧ tickReached t s.dev.tck.now = true) ∧
    (∃ (s : State) (port : Nat) (x : Sess), ∃ t, s.Ready ∧ port < 256 ∧ s.dev.sess port = some x ∧ x.applied = some t ∧
      s.dev.rd WAN_MS_RETUNE.MAX ≤ tickSub s.dev.tck.now t ∧ s.dev.on (WAN_PORT_ST.LINK port) = false ∧
      (s.dev.msState port ≠ msReverting)) :=
  ⟨⟨State.reset, 255, 8, msg0, true, .bearingPropose 255 msg0 true 8, by decide +kernel⟩,
    ⟨State.reset, 255, { msg0 with ring := 63 }, .bearingAbort 255 { msg0 with ring := 63 }, by decide +kernel⟩,
    ⟨State.reset, 255, { msg0 with ring := 63 }, .retuneTimeout 255, by decide +kernel⟩,
    ⟨State.reset, 255, 8, { msg0 with ring := 63, ver := 0x20 }, by decide +kernel⟩,
    ⟨State.reset, 255, 8, { msg0 with ring := 63 }, by decide +kernel⟩,
    ⟨(at_ fun d => { d.wr (WAN_PORT_CFG.MS_EN 255) 1 with wan := { d.wan with sess := [(248, sess0)] } }), 255, 8,
      { msg0 with ring := 63 }, 0, by decide +kernel⟩,
    ⟨(at_ fun d => d.wr (WAN_PORT_CFG.MS_EN 255) 1), 255, 8, { msg0 with ring := 63, ceil := 1 }, by decide +kernel⟩,
    ⟨(at_ fun d => (d.wr (WAN_PORT_CFG.MS_EN 255) 1).wr (WAN_MT.ENTRY 0 0) 1), 255, 8, { msg0 with ring := 63 }, by decide +kernel⟩,
    ⟨(at_ fun d => { (d.wr (WAN_MS_ST.STATE 255) msProposed) with wan := { d.wan with sess := [(255, sess0)] } }), 255,
      { msg0 with ring := 63, subtype := 1 }, sess0, by decide +kernel⟩,
    ⟨(at_ fun d => { ((d.wr (WAN_MS_ST.STATE 255) msProposed).wr (WAN_MS_ST.RETUNE 255) 1) with wan := { d.wan with sess := [(255, sess0)] } }),
      255, { msg0 with ring := 63, subtype := 1 }, sess0, by decide +kernel⟩,
    ⟨(at_ fun d => { d with wan := { d.wan with sess := [(255, sess0)] } }), 255, { msg0 with ring := 63, subtype := 1 }, sess0,
      by decide +kernel⟩,
    ⟨(at_ fun d => { ((d.wr (WAN_MS_ST.LEADER 255) 1).wr (WAN_MS_ST.RETUNE 255) 1) with wan := { d.wan with sess := [(255, sess0)] } }),
      255, { msg0 with ring := 63, subtype := 1 }, sess0, by decide +kernel⟩,
    ⟨(at_ fun d => { (d.wr (WAN_MS_ST.LEADER 255) 1) with wan := { d.wan with sess := [(255, sess0)] } }), 255,
      { msg0 with ring := 63, subtype := 1 }, sess0, by decide +kernel⟩,
    ⟨(at_ fun d => { d with wan := { d.wan with sess := [(255, sess0)] } }), 255, { msg0 with ring := 63, subtype := 7 }, sess0,
      by decide +kernel⟩,
    ⟨(at_ fun d => { ({ ((d.wr (WAN_MS_ST.STATE 255) msProposed).wr (WAN_MS_TIMER.RETRY) 1) with wan := { d.wan with sess := [(255, { sess0 with last := [0#8] })] } }) with tck := { d.tck with now := 2 ^ 40 } }),
      255, { sess0 with last := [0#8] }, by decide +kernel⟩,
    ⟨(at_ fun d => { ({ (d.wr (WAN_MS_ST.STATE 255) msProposed) with wan := { d.wan with sess := [(255, { sess0 with last := [0#8], tries := 255 })] } }) with tck := { d.tck with now := 2 ^ 40 } }),
      255, { sess0 with last := [0#8], tries := 255 }, by decide +kernel⟩,
    ⟨(at_ fun d => { ((d.wr (WAN_MS_ST.STATE 255) msAccepted).wr (WAN_MS_ST.LEADER 255) 1) with wan := { d.wan with sess := [(255, { sess0 with fell := true })] } }),
      255, { sess0 with fell := true }, by decide +kernel⟩,
    ⟨(at_ fun d => { ({ ((d.wr (WAN_MS_ST.STATE 255) msDrained).wr (WAN_MS_ST.LEADER 255) 1) with wan := { d.wan with sess := [(255, sess0)] } }) with tck := { d.tck with now := 255 } }),
      255, sess0, by decide +kernel⟩,
    ⟨(at_ fun d => { d with wan := { d.wan with sess := [(255, { sess0 with restore := some 0 })] } }), 255,
      { sess0 with restore := some 0 }, 0, by decide +kernel⟩,
    ⟨(at_ fun d => { (d.wr (WAN_MS_ST.LEADER 255) 1) with wan := { d.wan with sess := [(255, { sess0 with restore := some 0 })] } }), 255,
      { sess0 with restore := some 0 }, 0, by decide +kernel⟩,
    ⟨(at_ fun d => { ({ (d.wr (WAN_MS_ST.STATE 255) msSwitched) with wan := { d.wan with sess := [(255, { sess0 with switch_ := some 0 })] } }) with tck := { d.tck with now := 65535 } }),
      255, { sess0 with switch_ := some 0 }, 0, by decide +kernel⟩,
    ⟨(at_ fun d => { (((d.wr (WAN_MS_ST.STATE 255) msDrained).wr (WAN_MS_ST.LEADER 255) 1).wr (WAN_MS_ST.RETUNE 255) 1) with wan := { d.wan with sess := [(255, { sess0 with owd2 := some 0 })] } }),
      255, { sess0 with owd2 := some 0 }, 0, by decide +kernel⟩,
    ⟨(at_ fun d => { (d.wr (WAN_MS_ST.RETUNE 255) 1) with wan := { d.wan with sess := [(255, { sess0 with apply_ := some 0 })] } }), 255,
      { sess0 with apply_ := some 0 }, 0, by decide +kernel⟩,
    ⟨(at_ fun d => { ({ ((d.wr (WAN_MS_ST.STATE 255) msSwitched).wr (WAN_MS_ST.RETUNE 255) 1) with wan := { d.wan with sess := [(255, { sess0 with applied := some 0 })] } }) with tck := { d.tck with now := 2 ^ 40 } }),
      255, { sess0 with applied := some 0 }, 0, by decide +kernel⟩⟩

/-- The hypotheses of each clause of FabricCells can be met. -/
theorem witness_fabricCells :
    (∃ (s : State) (lane : Nat) (arr : Nat) (arg : Nat) (dev : Nat) (hdr : Nat) (good : Bool) (bs : List Byte) (st : List Byte), ∃ c,
      s.Ready ∧ s.dev.fabPowered = false ∧ lane < 320 ∧ dev < 1024 ∧ hdr < 1048576 ∧ st.length = 640 ∧
      c ∈ [Instr.fabricCodewordReceive lane good hdr st arr, .fabricDataCell bs, .fabricXoff dev, .fabricXon dev, .fabricUnreach dev,
      .fabricReach dev, .fabricProbe lane arr arg, .fabricLstat lane good, .fabricProbeDone, .fabricCodewordLock lane,
      .fabricCodewordLockLoss lane]) ∧
    (∃ (s : State) (pipe : Nat), s.Ready ∧ pipe < 64 ∧
      (s.dev.wan.deps.filter fun x => x.pipe = pipe && x.fabric && tickReached x.tick s.dev.tck.now) = []) ∧
    (∃ (s : State) (pipe : Nat) (x : Depart) (l : List Depart),
      let d := { s.dev with wan := { s.dev.wan with deps := s.dev.wan.deps.erase x } }; s.Ready ∧ pipe < 64 ∧
      (sortKey (fun x => departKey x s.dev.tck.now) (s.dev.wan.deps.filter fun x => x.pipe = pipe && x.fabric && tickReached x.tick s.dev.tck.now) = x :: l) ∧
      (d.fabUp x.pipe x.port && d.fabGranted x.pipe x.port) = false) ∧
    (∃ (s : State) (pipe : Nat) (x : Depart) (l : List Depart),
      let d := { s.dev with wan := { s.dev.wan with deps := s.dev.wan.deps.erase x } };
      let queued := (SMap.get [] s.dev.fab.fifo x.pipe).filter fun e => !instReached e.1 (slotInstant x.tick x.slot);
      let cells := (List.range (ceilDiv x.bytes.length 256)).map fun k => cellLen (min 256 (x.bytes.length - 256 * k)); s.Ready ∧
      pipe < 64 ∧
      (sortKey (fun x => departKey x s.dev.tck.now) (s.dev.wan.deps.filter fun x => x.pipe = pipe && x.fabric && tickReached x.tick s.dev.tck.now) = x :: l) ∧
      (d.fabUp x.pipe x.port && d.fabGranted x.pipe x.port) = true ∧ 131072 < (queued.map Prod.snd).sum + cells.sum) ∧
    (∃ (s : State) (pipe : Nat) (x : Depart) (l : List Depart), s.Ready ∧ pipe < 64 ∧
      (sortKey (fun x => departKey x s.dev.tck.now) (s.dev.wan.deps.filter fun x => x.pipe = pipe && x.fabric && tickReached x.tick s.dev.tck.now) = x :: l)) ∧
    (∃ (s : State) (lane : Nat) (hdr : Nat) (good : Bool) (st : List Byte), s.Ready ∧ s.dev.fabPowered = true ∧ lane < 320 ∧
      hdr < 1048576 ∧ st.length = 640 ∧ (good = false ∨ popcount 20 hdr % 2 ≠ 0)) ∧
    (∃ (s : State) (lane : Nat) (hdr : Nat) (good : Bool) (st : List Byte), ∃ bs, s.Ready ∧ s.dev.fabPowered = true ∧ lane < 320 ∧
      hdr < 1048576 ∧ st.length = 640 ∧ good = true ∧ popcount 20 hdr % 2 = 0 ∧ SMap.find s.dev.fab.part lane = some bs) ∧
    (∃ (s : State) (lane : Nat) (hdr : Nat) (good : Bool) (st : List Byte), s.Ready ∧ s.dev.fabPowered = true ∧ lane < 320 ∧
      hdr < 1048576 ∧ st.length = 640 ∧ good = true ∧ popcount 20 hdr % 2 = 0 ∧ SMap.find s.dev.fab.part lane = none ∧
      bits hdr 1 10 < 640) ∧
    (∃ (s : State) (lane : Nat) (hdr : Nat) (good : Bool) (st : List Byte), s.Ready ∧ s.dev.fabPowered = true ∧ lane < 320 ∧
      hdr < 1048576 ∧ st.length = 640 ∧ good = true ∧ popcount 20 hdr % 2 = 0 ∧ SMap.find s.dev.fab.part lane = none ∧
      640 ≤ bits hdr 1 10) ∧
    (∃ (s : State) (bs : List Byte), s.Ready ∧ s.dev.fabPowered = true ∧ cellParse bs = none) ∧
    (∃ (s : State) (bs : List Byte) (h : CellHdr) (payload : List Byte), let d := s.dev.evt 0x33 0x21 (some h.dpipe); s.Ready ∧
      s.dev.fabPowered = true ∧ cellParse bs = some (h, payload) ∧ (d.on FAB_CTRL.EN = false ∨ d.on FAB_STATUS.UP = false)) ∧
    (∃ (s : State) (bs : List Byte) (h : CellHdr) (payload : List Byte), let d := s.dev.evt 0x33 0x21 (some h.dpipe);
      let t := departTick d.tck.now h.stick; let late := tickReached (tickAdd t (d.rd FAB_HOP.L)) d.tck.now = true; s.Ready ∧
      s.dev.fabPowered = true ∧ cellParse bs = some (h, payload) ∧ d.on FAB_CTRL.EN = true ∧ d.on FAB_STATUS.UP = true ∧ late) ∧
    (∃ (s : State) (bs : List Byte) (h : CellHdr) (payload : List Byte), let d := s.dev.evt 0x33 0x21 (some h.dpipe);
      let t := departTick d.tck.now h.stick; let late := tickReached (tickAdd t (d.rd FAB_HOP.L)) d.tck.now = true;
      let held := (d.fab.gathers.any fun g => g.owns h t && g.cells.any fun x => x.cidx == h.cidx) = true; s.Ready ∧
      s.dev.fabPowered = true ∧ cellParse bs = some (h, payload) ∧ d.on FAB_CTRL.EN = true ∧ d.on FAB_STATUS.UP = true ∧ ¬ late ∧ held) ∧
    (∃ (s : State) (bs : List Byte) (h : CellHdr) (payload : List Byte), let d := s.dev.evt 0x33 0x21 (some h.dpipe);
      let t := departTick d.tck.now h.stick; let late := tickReached (tickAdd t (d.rd FAB_HOP.L)) d.tck.now = true;
      let held := (d.fab.gathers.any fun g => g.owns h t && g.cells.any fun x => x.cidx == h.cidx) = true; s.Ready ∧
      s.dev.fabPowered = true ∧ cellParse bs = some (h, payload) ∧ d.on FAB_CTRL.EN = true ∧ d.on FAB_STATUS.UP = true ∧ ¬ late ∧ ¬ held ∧
      d.fab.free = []) ∧
    (∃ (s : State) (bs : List Byte) (h : CellHdr) (payload : List Byte), ∃ ptr rest, let d := s.dev.evt 0x33 0x21 (some h.dpipe);
      let t := departTick d.tck.now h.stick; let late := tickReached (tickAdd t (d.rd FAB_HOP.L)) d.tck.now = true;
      let held := (d.fab.gathers.any fun g => g.owns h t && g.cells.any fun x => x.cidx == h.cidx) = true; s.Ready ∧
      s.dev.fabPowered = true ∧ cellParse bs = some (h, payload) ∧ d.on FAB_CTRL.EN = true ∧ d.on FAB_STATUS.UP = true ∧ ¬ late ∧ ¬ held ∧
      (d.fab.free = ptr :: rest)) ∧
    (∃ (s : State) (dev : Nat), s.Ready ∧ s.dev.fabPowered = true ∧ dev < 1024) ∧
    (∃ (s : State) (lane : Nat), s.Ready ∧ s.dev.fabPowered = true ∧ lane < 320 ∧ s.dev.fab.probing = none) ∧
    (∃ (s : State) (lane : Nat), s.Ready ∧ s.dev.fabPowered = true ∧ lane < 320 ∧ (s.dev.fab.probing ≠ none)) ∧
    (∃ (s : State) (lane : Nat), s.Ready ∧ s.dev.fabPowered = true ∧ lane < 320) ∧
    (∃ (s : State) (lane : Nat), s.Ready ∧ s.dev.fabPowered = true ∧ lane < 320) ∧
    (∃ (s : State) (lane : Nat), s.Ready ∧ s.dev.fabPowered = true ∧ lane < 320 ∧ SMap.find s.dev.fab.lanes lane = none) ∧
    (∃ (s : State) (lane : Nat), ∃ l, s.Ready ∧ s.dev.fabPowered = true ∧ lane < 320 ∧ SMap.find s.dev.fab.lanes lane = some l) :=
  ⟨⟨State.reset, 319, 0, 0, 1023, 1048575, true, [], List.replicate 640 0#8,
      .fabricCodewordReceive 319 true 1048575 (List.replicate 640 0#8) 0, by decide +kernel⟩,
    ⟨State.reset, 0, by decide +kernel⟩,
    ⟨(at_ fun d => { d with wan := { d.wan with deps := [dep0 true] } }), 63, dep0 true, [], by decide +kernel⟩,
    ⟨(at_ fun d => { (((((((d.wr FAB_CTRL.EN 1).wr FAB_STATUS.UP 1).wr (FAB_VP.EN 248) 1).wr (FAB_REACH.BITS 0) 1).wr (FAB_GRANT.BITS 0) 1).wr (FAB_LANE.IN_SET 319) 1).wr FAB_CTRL.MINLANES 1) with wan := { d.wan with deps := [dep0 true] }, fab := { d.fab with fifo := [(63, [(1000000000, 131073)])] } }),
      63, dep0 true, [], by decide +kernel⟩,
    ⟨(at_ fun d => { d with wan := { d.wan with deps := [dep0 true] } }), 63, dep0 true, [], by decide +kernel⟩,
    ⟨(at_ fun d => d.wr GLB_BOOT_STATUS.MODE 1), 319, 1048575, false, List.replicate 640 0#8, by decide +kernel⟩,
    ⟨(at_ fun d => { d.wr GLB_BOOT_STATUS.MODE 1 with fab := { d.fab with part := [(319, [0#8])] } }), 319, 0, true,
      List.replicate 640 0#8, [0#8], by decide +kernel⟩,
    ⟨(at_ fun d => d.wr GLB_BOOT_STATUS.MODE 1), 319, 1278, true, List.replicate 640 0#8, by decide +kernel⟩,
    ⟨(at_ fun d => d.wr GLB_BOOT_STATUS.MODE 1), 319, 1280, true, List.replicate 640 0#8, by decide +kernel⟩,
    ⟨(at_ fun d => d.wr GLB_BOOT_STATUS.MODE 1), [], by decide +kernel⟩,
    ⟨(at_ fun d => d.wr GLB_BOOT_STATUS.MODE 1), cell0.cell [], { cell0 with units := 1 }, List.replicate 64 0#8, by decide +kernel⟩,
    ⟨(at_ fun d => { ((d.wr GLB_BOOT_STATUS.MODE 1).wr FAB_CTRL.EN 1).wr FAB_STATUS.UP 1 with tck := { d.tck with now := 100 } }),
      cell0.cell [], { cell0 with units := 1 }, List.replicate 64 0#8, by decide +kernel⟩,
    ⟨(at_ fun d => { (((d.wr GLB_BOOT_STATUS.MODE 1).wr FAB_CTRL.EN 1).wr FAB_STATUS.UP 1).wr FAB_HOP.L 4 with fab := { d.fab with gathers := [{ sdev := 1, spipe := 0, tick := 0, pseq := 0, cells := [{ cidx := 0, last := true, err := false, plen := 64, dpipe := 0, payload := [], ptr := 0 }] }] } }),
      cell0.cell [], { cell0 with units := 1 }, List.replicate 64 0#8, by decide +kernel⟩,
    ⟨(at_ fun d => (((d.wr GLB_BOOT_STATUS.MODE 1).wr FAB_CTRL.EN 1).wr FAB_STATUS.UP 1).wr FAB_HOP.L 4), cell0.cell [],
      { cell0 with units := 1 }, List.replicate 64 0#8, by decide +kernel⟩,
    ⟨(at_ fun d => { (((d.wr GLB_BOOT_STATUS.MODE 1).wr FAB_CTRL.EN 1).wr FAB_STATUS.UP 1).wr FAB_HOP.L 4 with fab := { d.fab with free := [5] } }),
      cell0.cell [], { cell0 with units := 1 }, List.replicate 64 0#8, 5, [], by decide +kernel⟩,
    ⟨(at_ fun d => d.wr GLB_BOOT_STATUS.MODE 1), 1023, by decide +kernel⟩,
    ⟨(at_ fun d => d.wr GLB_BOOT_STATUS.MODE 1), 319, by decide +kernel⟩,
    ⟨(at_ fun d => { d.wr GLB_BOOT_STATUS.MODE 1 with fab := { d.fab with probing := some 0 } }), 319, by decide +kernel⟩,
    ⟨(at_ fun d => d.wr GLB_BOOT_STATUS.MODE 1), 319, by decide +kernel⟩,
    ⟨(at_ fun d => d.wr GLB_BOOT_STATUS.MODE 1), 319, by decide +kernel⟩,
    ⟨(at_ fun d => d.wr GLB_BOOT_STATUS.MODE 1), 319, by decide +kernel⟩,
    ⟨(at_ fun d => { d.wr GLB_BOOT_STATUS.MODE 1 with fab := { d.fab with lanes := [(319, { last := 0, goodNow := false, badNow := false, dirty := false, run := 0 })] } }),
      319, { last := 0, goodNow := false, badNow := false, dirty := false, run := 0 }, by decide +kernel⟩⟩

/-- The hypotheses of each clause of FabricStartStop can be met. -/
theorem witness_fabricStartStop :
    (∃ (s : State), s.Ready ∧ (s.dev.on FAB_CTRL.EN = false ∨ s.dev.fab.en = true)) ∧
    (∃ (s : State), s.Ready ∧ s.dev.on FAB_CTRL.EN = true ∧ s.dev.fab.en = false ∧ s.dev.on TCK_STATUS.LOCKED = false) ∧
    (∃ (s : State), let d := { s.dev with fab := { s.dev.fab with en := true } }.fabPool; s.Ready ∧ s.dev.on FAB_CTRL.EN = true ∧
      s.dev.fab.en = false ∧ s.dev.on TCK_STATUS.LOCKED = true ∧ d.rd GLB_BOOT_STATUS.MODE = 1) ∧
    (∃ (s : State), let d := { s.dev with fab := { s.dev.fab with en := true } }.fabPool; s.Ready ∧ s.dev.on FAB_CTRL.EN = true ∧
      s.dev.fab.en = false ∧ s.dev.on TCK_STATUS.LOCKED = true ∧ (d.rd GLB_BOOT_STATUS.MODE ≠ 1) ∧ d.rd FAB_HOP.TICKS = 0) ∧
    (∃ (s : State), let d := { s.dev with fab := { s.dev.fab with en := true } }.fabPool; s.Ready ∧ s.dev.on FAB_CTRL.EN = true ∧
      s.dev.fab.en = false ∧ s.dev.on TCK_STATUS.LOCKED = true ∧ (d.rd GLB_BOOT_STATUS.MODE ≠ 1) ∧ (d.rd FAB_HOP.TICKS ≠ 0)) ∧
    (∃ (s : State), s.Ready ∧ s.dev.on FAB_CTRL.EN = true ∧ s.dev.fab.en = false ∧ s.dev.on TCK_STATUS.LOCKED = true ∧
      s.dev.isRevoked 0x0411 = true ∧ (s.dev.rd GLB_BOOT_STATUS.MODE ≠ 1) ∧ (s.dev.rd FAB_HOP.TICKS ≠ 0)) ∧
    (∃ (s : State), s.Ready ∧ s.dev.fab.probing = none) ∧
    (∃ (s : State) (t : Nat), s.Ready ∧ s.dev.fab.probing = some t ∧ tickSub s.dev.tck.now t < 256) ∧
    (∃ (s : State) (t : Nat), let p := s.dev.fab.probe.foldl (fun a x => max a x.2) 0; let l := max 1 (ceilDiv (4288 + p) 1536); s.Ready ∧
      s.dev.fabPowered = true ∧ s.dev.fab.probing = some t ∧ 256 ≤ tickSub s.dev.tck.now t ∧ l ≤ 8) ∧
    (∃ (s : State) (t : Nat), let p := s.dev.fab.probe.foldl (fun a x => max a x.2) 0; let l := max 1 (ceilDiv (4288 + p) 1536); s.Ready ∧
      s.dev.fabPowered = true ∧ s.dev.fab.probing = some t ∧ 256 ≤ tickSub s.dev.tck.now t ∧ 8 < l) ∧
    (∃ (s : State), s.Ready ∧ (s.dev.on FAB_CTRL.EN = true ∨ s.dev.fab.en = false)) ∧
    (∃ (s : State), s.Ready ∧ s.dev.on FAB_CTRL.EN = false ∧ s.dev.fab.en = true) ∧
    (∃ (d : Dev), d.isRevoked 0x0411 = false) :=
  ⟨⟨State.reset, by decide +kernel⟩,
    ⟨(at_ fun d => d.wr FAB_CTRL.EN 1), by decide +kernel⟩,
    ⟨(at_ fun d => { ((d.wr FAB_CTRL.EN 1).wr TCK_STATUS.LOCKED 1).wr GLB_BOOT_STATUS.MODE 1 with flt := { d.flt with revoked := [0x0411] } }),
      by decide +kernel⟩,
    ⟨(at_ fun d => { ((d.wr FAB_CTRL.EN 1).wr TCK_STATUS.LOCKED 1).wr FAB_HOP.TICKS 0 with flt := { d.flt with revoked := [0x0411] } }),
      by decide +kernel⟩,
    ⟨(at_ fun d => { ((d.wr FAB_CTRL.EN 1).wr TCK_STATUS.LOCKED 1).wr FAB_HOP.TICKS 1 with flt := { d.flt with revoked := [0x0411] } }),
      by decide +kernel⟩,
    ⟨(at_ fun d => { ((d.wr FAB_CTRL.EN 1).wr TCK_STATUS.LOCKED 1).wr FAB_HOP.TICKS 1 with flt := { d.flt with revoked := [0x0411] } }),
      by decide +kernel⟩,
    ⟨State.reset, by decide +kernel⟩,
    ⟨(at_ fun d => { d with fab := { d.fab with probing := some 0 }, tck := { d.tck with now := 255 } }), 0, by decide +kernel⟩,
    ⟨(at_ fun d => { d.wr GLB_BOOT_STATUS.MODE 1 with fab := { d.fab with probing := some 0, probe := [(0, 8000)] }, tck := { d.tck with now := 256 } }),
      0, by decide +kernel⟩,
    ⟨(at_ fun d => { d.wr GLB_BOOT_STATUS.MODE 1 with fab := { d.fab with probing := some 0, probe := [(0, 8001)] }, tck := { d.tck with now := 256 } }),
      0, by decide +kernel⟩,
    ⟨State.reset, by decide +kernel⟩,
    ⟨(at_ fun d => { d with fab := { d.fab with en := true } }), by decide +kernel⟩,
    ⟨State.reset.dev, by decide +kernel⟩⟩

/-- The hypotheses of each clause of EnergyAndSag can be met. -/
theorem witness_energyAndSag :
    (∃ (s : State), s.Ready ∧ (s.dev.tck.now % s.dev.winTicks ≠ 0)) ∧
    (∃ (s : State), s.Ready ∧ s.dev.tck.now % s.dev.winTicks = 0 ∧ s.dev.nrg.closing = none) ∧
    (∃ (s : State) (die : Nat) (low : Nat), s.Ready ∧ die < 2 ∧ (s.dev.sag die).level = 0 ∧
      under (s.dev.sag die).base s.dev.warnBelow low = true) ∧
    (∃ (s : State) (die : Nat) (low : Nat), s.Ready ∧ die < 2 ∧ (s.dev.sag die).level = 0 ∧
      under (s.dev.sag die).base s.dev.warnBelow low = false) ∧
    (∃ (s : State) (die : Nat) (low : Nat), s.Ready ∧ die < 2 ∧ (s.dev.sag die).level < 2 ∧
      under (s.dev.sag die).base deepBelow low = true) ∧
    (∃ (s : State) (die : Nat) (low : Nat), ∃ c, s.Ready ∧ die < 2 ∧ (s.dev.sag die).level = 2 ∧
      above (s.dev.sag die).base (deepBelow - s.dev.sagHyst) low = false ∧
      c ∈ [Instr.sagWarning die low, .sagDeep die low, .sagReturn die low]) ∧
    (∃ (s : State) (die : Nat) (low : Nat), s.Ready ∧ die < 2 ∧ (s.dev.sag die).level = 2 ∧ 256 ≤ (s.dev.sag die).clean ∧
      above (s.dev.sag die).base (deepBelow - s.dev.sagHyst) low = true) ∧
    (∃ (s : State) (die : Nat) (low : Nat), s.Ready ∧ die < 2 ∧ (s.dev.sag die).level = 1 ∧ 256 ≤ (s.dev.sag die).clean ∧
      above (s.dev.sag die).base (s.dev.warnBelow - s.dev.sagHyst) low = true) ∧
    (∃ (s : State) (die : Nat) (low : Nat), s.Ready ∧ die < 2 ∧ (s.dev.sag die).level = 0 ∨ (s.dev.sag die).clean < 256 ∧
      above (s.dev.sag die).base (s.dev.sagBelow die - s.dev.sagHyst) low = true) ∧
    (∃ (d : Dev) (die : Nat), (d.sag die).level = 0 ∧ die < 2) :=
  ⟨⟨(at_ fun d => { d with tck := { d.tck with now := 1 } }), by decide +kernel⟩,
    ⟨State.reset, by decide +kernel⟩,
    ⟨State.reset, 0, 0, by decide +kernel⟩,
    ⟨(at_ fun d => { d with nrg := { d.nrg with sagT := { d.nrg.sagT with level := 0, clean := 0, base := 800 } } }), 1, 776000,
      by decide +kernel⟩,
    ⟨State.reset, 0, 0, by decide +kernel⟩,
    ⟨(at_ fun d => { d with nrg := { d.nrg with sagT := { d.nrg.sagT with level := 2, clean := 0, base := 800 } } }), 1, 736000,
      .sagReturn 1 736000, by decide +kernel⟩,
    ⟨(at_ fun d => { d with nrg := { d.nrg with sagT := { d.nrg.sagT with level := 2, clean := 256, base := 800 } } }), 1, 800000,
      by decide +kernel⟩,
    ⟨(at_ fun d => { d with nrg := { d.nrg with sagT := { d.nrg.sagT with level := 1, clean := 256, base := 800 } } }), 1, 800000,
      by decide +kernel⟩,
    ⟨State.reset, 0, 0, by decide +kernel⟩,
    ⟨State.reset.dev, 0, by decide +kernel⟩⟩

/-- The hypotheses of each clause of PuntAndInjectRings can be met. -/
theorem witness_puntAndInjectRings :
    (∃ (s : State), s.Ready ∧ (s.dev.hst.punts.find? fun p => tickReached p.due s.dev.tck.now) = none) ∧
    (∃ (s : State) (p : Punt), s.Ready ∧ (s.dev.hst.punts.find? fun p => tickReached p.due s.dev.tck.now) = some p) ∧
    (∃ (s : State) (p : Punt), s.Ready ∧ (s.dev.hst.punts.find? fun p => tickReached p.due s.dev.tck.now) = some p ∧
      s.dev.served p.ring = false) ∧
    (∃ (s : State) (p : Punt), s.Ready ∧ (s.dev.hst.punts.find? fun p => tickReached p.due s.dev.tck.now) = some p ∧
      s.dev.served p.ring = true ∧ (s.dev.hst.recs.map PuntRec.cells).sum + carriages p.bytes.length ≤ 8192 ∧
      (s.dev.hst.recs.filter fun y => y.ring == p.ring).length < 256) ∧
    (∃ (s : State) (r : Nat), s.Ready ∧ r < 64 ∧ (s.dev.hst.recs.find? (fun x => x.ring == r)) = none) ∧
    (∃ (s : State) (r : Nat) (addr : Nat) (ctl : Nat) (tag : Nat) (x : PuntRec) (h : HostRd), s.Ready ∧ r < 64 ∧
      (s.dev.hst.recs.find? (fun x => x.ring == r) = some x) ∧ (s.dev.hst.reads.find? (fun p => p.2.ring == r && !p.2.stale) = some (tag,
      h)) ∧ s.dev.served r = true ∧ (s.dev.posted r ≠ 0) ∧ x.done = true ∧ puntDescOk addr ctl = false) ∧
    (∃ (s : State) (r : Nat) (addr : Nat) (ctl : Nat) (tag : Nat) (x : PuntRec) (h : HostRd), s.Ready ∧ r < 64 ∧
      (s.dev.hst.recs.find? (fun x => x.ring == r) = some x) ∧ (s.dev.hst.reads.find? (fun p => p.2.ring == r && !p.2.stale) = some (tag,
      h)) ∧ s.dev.served r = true ∧ (s.dev.posted r ≠ 0) ∧ x.done = true ∧ puntDescOk addr ctl = true ∧
      x.bytes.length ≤ bits ctl 0 17 - 128 ∧ (s.dev.rd (rHead r) + 1) % s.dev.ringSize r ≠ 0) ∧
    (∃ (s : State) (r : Nat) (x : PuntRec), s.Ready ∧ r < 64 ∧ (s.dev.hst.recs.find? (fun x => x.ring == r) = some x) ∧
      s.dev.rd HST_CTRL.PUNT_WAIT < tickSub s.dev.tck.now x.tick) ∧
    (∃ (s : State) (r : Nat) (x : PuntRec), s.Ready ∧ r < 64 ∧ (s.dev.hst.recs.find? (fun x => x.ring == r) = some x) ∧
      tickSub s.dev.tck.now x.tick ≤ s.dev.rd HST_CTRL.PUNT_WAIT) ∧
    (∃ (s : State) (r : Nat) (tail : Nat), s.Open ∧ r < 64 ∧ tail < 65536 ∧ (s.dev.rd (HST_PUNT_STATE.STATE r) ≠ ringRun)) ∧
    (∃ (s : State) (r : Nat) (tail : Nat), let d := s.dev.wr (HST_PUNT_TAIL.COUNT r) tail; s.Open ∧ r < 64 ∧ tail < 65536 ∧
      s.dev.rd (HST_PUNT_STATE.STATE r) = ringRun ∧ d.ringSize r < d.posted r) ∧
    (∃ (s : State) (r : Nat) (tail : Nat), let d := s.dev.wr (HST_PUNT_TAIL.COUNT r) tail; s.Open ∧ r < 64 ∧ tail < 65536 ∧
      s.dev.rd (HST_PUNT_STATE.STATE r) = ringRun ∧ d.posted r ≤ d.ringSize r) ∧
    (∃ (s : State) (n : Nat) (tail : Nat), s.Open ∧ n < 16 ∧ tail < 65536 ∧ (s.dev.rd (HST_INJ_STATE.STATE n) ≠ ringRun)) ∧
    (∃ (s : State) (n : Nat) (tail : Nat), let d := s.dev.wr (HST_INJ_TAIL.COUNT n) tail; s.Open ∧ n < 16 ∧ tail < 65536 ∧
      s.dev.rd (HST_INJ_STATE.STATE n) = ringRun ∧ d.ringSize (64 + n) < d.posted (64 + n)) ∧
    (∃ (s : State) (n : Nat) (tail : Nat), let d := s.dev.wr (HST_INJ_TAIL.COUNT n) tail; s.Open ∧ n < 16 ∧ tail < 65536 ∧
      s.dev.rd (HST_INJ_STATE.STATE n) = ringRun ∧ d.posted (64 + n) ≤ d.ringSize (64 + n)) ∧
    (∃ (s : State) (tag : Nat) (bs : List Byte), s.Ready ∧ tag < 16384 ∧ SMap.find s.dev.hst.reads tag = none ∧ bs.length = 32) ∧
    (∃ (s : State) (tag : Nat), s.Ready ∧ tag < 16384 ∧ SMap.find s.dev.hst.reads tag = none) ∧
    (∃ (s : State) (tag : Nat) (bs : List Byte) (h : HostRd), s.Ready ∧ tag < 16384 ∧ SMap.find s.dev.hst.reads tag = some h ∧
      h.stale = true ∧ bs.length = 32) ∧
    (∃ (s : State) (tag : Nat) (h : HostRd), s.Ready ∧ tag < 16384 ∧ SMap.find s.dev.hst.reads tag = some h ∧ h.stale = true) ∧
    (∃ (s : State) (tag : Nat) (n : Nat) (bs : List Byte) (h : HostRd), let d := s.dev.endRead tag; s.Ready ∧ tag < 16384 ∧
      bs.length = 32 ∧ SMap.find s.dev.hst.reads tag = some h ∧ h.stale = false ∧ h.frame = false ∧ h.ring = 64 + n ∧
      d.injServed n = false) ∧
    (∃ (s : State) (tag : Nat) (n : Nat) (bs : List Byte) (h : HostRd), let d := s.dev.endRead tag; s.Ready ∧ tag < 16384 ∧
      bs.length = 32 ∧ SMap.find s.dev.hst.reads tag = some h ∧ h.stale = false ∧ h.frame = false ∧ h.ring = 64 + n ∧
      d.injServed n = true ∧ d.on (HST_INJ_CFG.REPLAY n) = false ∧ injParse bs = none) ∧
    (∃ (s : State) (tag : Nat) (n : Nat) (bs : List Byte) (h : HostRd), ∃ y, let d := s.dev.endRead tag; s.Ready ∧ tag < 16384 ∧
      bs.length = 32 ∧ SMap.find s.dev.hst.reads tag = some h ∧ h.stale = false ∧ h.frame = false ∧ h.ring = 64 + n ∧
      d.injServed n = true ∧ d.on (HST_INJ_CFG.REPLAY n) = false ∧ injParse bs = some y) ∧
    (∃ (s : State) (tag : Nat) (n : Nat) (bs : List Byte) (h : HostRd), ∃ y, let d := s.dev.endRead tag; s.Ready ∧ tag < 16384 ∧
      bs.length = 32 ∧ SMap.find s.dev.hst.reads tag = some h ∧ h.stale = false ∧ h.frame = false ∧ h.ring = 64 + n ∧
      d.injServed n = true ∧ d.on (HST_INJ_CFG.REPLAY n) = true ∧ replayParse bs = some y ∧ SMap.find d.hst.order n = none) ∧
    (∃ (s : State) (tag : Nat) (n : Nat) (h : HostRd), s.Ready ∧ tag < 16384 ∧ SMap.find s.dev.hst.reads tag = some h ∧ h.stale = false ∧
      h.frame = true ∧ h.ring = 64 + n) ∧
    (∃ (x : InjDesc), x.prefix_ = false) ∧
    (∃ (s : State) (r : Nat) (v : Nat), s.Open ∧ r < 80 ∧ v < 4294967296 ∧ r < 64) ∧
    (∃ (s : State) (r : Nat) (v : Nat), s.Open ∧ r < 80 ∧ v < 4294967296 ∧ 64 ≤ r) ∧
    (∃ (s : State) (r : Nat), s.Ready ∧ r < 80 ∧
      (s.dev.hst.arming.contains r = false ∨ s.dev.hst.reads.any (fun p => p.2.ring == r) = true)) ∧
    (∃ (s : State) (r : Nat), s.Ready ∧ r < 80 ∧ s.dev.hst.arming.contains r = true ∧
      (s.dev.hst.reads.any (fun p => p.2.ring == r) = false) ∧ r < 64) ∧
    (∃ (s : State) (r : Nat), s.Ready ∧ r < 80 ∧ s.dev.hst.arming.contains r = true ∧
      (s.dev.hst.reads.any (fun p => p.2.ring == r) = false) ∧ 64 ≤ r) :=
  ⟨⟨State.reset, by decide +kernel⟩,
    ⟨(at_ fun d => { d with hst := { d.hst with punts := [punt0] } }), punt0, by decide +kernel⟩,
    ⟨(at_ fun d => { d with hst := { d.hst with punts := [punt0] } }), punt0, by decide +kernel⟩,
    ⟨(at_ fun d => { d.wr (HST_PUNT_STATE.STATE 63) ringRun with hst := { d.hst with pf1 := { d.hst.pf1 with bme := true }, punts := [punt0] } }),
      punt0, by decide +kernel⟩,
    ⟨State.reset, 0, by decide +kernel⟩,
    ⟨(at_ fun d => { (d.wr (HST_PUNT_STATE.STATE 63) ringRun).wr (rTail 63) 65535 with hst := { d.hst with pf1 := { d.hst.pf1 with bme := true }, recs := [{ rec0 with done := true }], reads := [(16383, { hrd0 with ring := 63, frame := false, stale := false })] } }),
      63, 1, 0, 16383, { rec0 with done := true }, { hrd0 with ring := 63, frame := false, stale := false }, by decide +kernel⟩,
    ⟨(at_ fun d => { (d.wr (HST_PUNT_STATE.STATE 63) ringRun).wr (rTail 63) 65535 with hst := { d.hst with pf1 := { d.hst.pf1 with bme := true }, recs := [{ rec0 with done := true }], reads := [(16383, { hrd0 with ring := 63, frame := false, stale := false })] } }),
      63, 128, 256, 16383, { rec0 with done := true }, { hrd0 with ring := 63, frame := false, stale := false }, by decide +kernel⟩,
    ⟨(at_ fun d => { d with hst := { d.hst with recs := [rec0] }, tck := { d.tck with now := 2 ^ 32 } }), 63, rec0, by decide +kernel⟩,
    ⟨(at_ fun d => { d with hst := { d.hst with recs := [rec0] } }), 63, rec0, by decide +kernel⟩,
    ⟨State.reset, 63, 65535, by decide +kernel⟩,
    ⟨(at_ fun d => d.wr (HST_PUNT_STATE.STATE 63) ringRun), 63, 65535, by decide +kernel⟩,
    ⟨(at_ fun d => d.wr (HST_PUNT_STATE.STATE 63) ringRun), 63, 16, by decide +kernel⟩,
    ⟨State.reset, 15, 65535, by decide +kernel⟩,
    ⟨(at_ fun d => d.wr (HST_INJ_STATE.STATE 15) ringRun), 15, 65535, by decide +kernel⟩,
    ⟨(at_ fun d => d.wr (HST_INJ_STATE.STATE 15) ringRun), 15, 16, by decide +kernel⟩,
    ⟨State.reset, 16383, List.replicate 32 0#8, by decide +kernel⟩,
    ⟨State.reset, 0, by decide +kernel⟩,
    ⟨(at_ fun d => { d with hst := { d.hst with reads := [(16383, { hrd0 with ring := 64, frame := true, stale := true })] } }), 16383,
      List.replicate 32 0#8, { hrd0 with ring := 64, frame := true, stale := true }, by decide +kernel⟩,
    ⟨(at_ fun d => { d with hst := { d.hst with reads := [(16383, { hrd0 with ring := 64, frame := true, stale := true })] } }), 16383,
      { hrd0 with ring := 64, frame := true, stale := true }, by decide +kernel⟩,
    ⟨(at_ fun d => { d with hst := { d.hst with reads := [(16383, { hrd0 with ring := 79, frame := false, stale := false })] } }), 16383,
      15, List.replicate 32 0#8, { hrd0 with ring := 79, frame := false, stale := false }, by decide +kernel⟩,
    ⟨(at_ fun d => { d.wr (HST_INJ_STATE.STATE 15) ringRun with hst := { d.hst with pf1 := { d.hst.pf1 with bme := true }, reads := [(16383, { hrd0 with ring := 79, frame := false, stale := false })] } }),
      16383, 15, List.replicate 32 0#8, { hrd0 with ring := 79, frame := false, stale := false }, by decide +kernel⟩,
    ⟨(at_ fun d => { d.wr (HST_INJ_STATE.STATE 15) ringRun with hst := { d.hst with pf1 := { d.hst.pf1 with bme := true }, reads := [(16383, { hrd0 with ring := 79, frame := false, stale := false })] } }),
      16383, 15, (List.replicate 9 0#8 ++ [64#8] ++ List.replicate 22 0#8), { hrd0 with ring := 79, frame := false, stale := false },
      { inj0 with kind := 1, metaBytes := List.replicate 16 0#8 }, by decide +kernel⟩,
    ⟨(at_ fun d => { ((d.wr (HST_INJ_STATE.STATE 15) ringRun).wr (HST_INJ_CFG.REPLAY 15) 1).wr TCK_CTRL.REPLAY 1 with hst := { d.hst with pf1 := { d.hst.pf1 with bme := true }, reads := [(16383, { hrd0 with ring := 79, frame := false, stale := false })] } }),
      16383, 15, (List.replicate 9 0#8 ++ [64#8] ++ List.replicate 22 0#8), { hrd0 with ring := 79, frame := false, stale := false }, inj0,
      by decide +kernel⟩,
    ⟨(at_ fun d => { d with hst := { d.hst with reads := [(16383, { hrd0 with ring := 79, frame := true, stale := false })] } }), 16383,
      15, { hrd0 with ring := 79, frame := true, stale := false }, by decide +kernel⟩,
    ⟨inj0, by decide +kernel⟩,
    ⟨State.reset, 63, 4294967295, by decide +kernel⟩,
    ⟨State.reset, 79, 4294967295, by decide +kernel⟩,
    ⟨State.reset, 0, by decide +kernel⟩,
    ⟨(at_ fun d => { d with hst := { d.hst with arming := [63] } }), 63, by decide +kernel⟩,
    ⟨(at_ fun d => { d with hst := { d.hst with arming := [79] } }), 79, by decide +kernel⟩⟩

/-- The hypotheses of each clause of HostEndpoint can be met. -/
theorem witness_hostEndpoint :
    (∃ (s : State), s.Ready ∧ s.dev.hst.pf1.bme = false) ∧
    (∃ (s : State), s.Ready ∧ s.dev.hst.pf1.bme = true) ∧
    (∃ (s : State) (tag : Nat), s.Ready ∧ SMap.find s.dev.hst.reads tag = none ∧ tag < 16384) ∧
    (∃ (s : State) (tag : Nat) (h : HostRd), s.Ready ∧ tag < 16384 ∧ SMap.find s.dev.hst.reads tag = some h ∧ h.stale = true) ∧
    (∃ (s : State) (tag : Nat) (st : Nat) (h : HostRd), s.Ready ∧ tag < 16384 ∧ SMap.find s.dev.hst.reads tag = some h ∧ h.stale = false ∧
      (st ≠ 0)) ∧
    (∃ (s : State) (tag : Nat) (h : HostRd), s.Ready ∧ tag < 16384 ∧ SMap.find s.dev.hst.reads tag = some h ∧ h.stale = false) ∧
    (∃ (s : State) (tag : Nat) (h : HostRd), let us := timeoutUs s.dev.hst.pf1.timeout; s.Ready ∧ tag < 16384 ∧
      SMap.find s.dev.hst.reads tag = some h ∧ tickSub s.dev.tck.now h.tick < usTicks us) ∧
    (∃ (s : State) (tag : Nat) (h : HostRd), let us := timeoutUs s.dev.hst.pf1.timeout; s.Ready ∧ tag < 16384 ∧
      SMap.find s.dev.hst.reads tag = some h ∧ usTicks us ≤ tickSub s.dev.tck.now h.tick) ∧
    (∃ (s : State) (tag : Nat), s.Ready ∧ tag < 16384) ∧
    (∃ (s : State) (off : Nat) (len : Nat) (a : Nat) (w : Bool), s.Open ∧ off < 14680064 ∧ 1 ≤ len ∧ off % 4096 + len ≤ 4096 ∧
      s.dev.bar2Window off = (a, false, w)) ∧
    (∃ (s : State) (off : Nat) (len : Nat) (a : Nat) (w : Bool), ∃ p, s.Open ∧ off < 14680064 ∧ 1 ≤ len ∧ off % 4096 + len ≤ 4096 ∧
      s.dev.bar2Window off = (a, true, w) ∧ s.dev.cxlPort a = some p ∧ s.dev.cxlUp p = true) ∧
    (∃ (s : State) (off : Nat) (a : Nat) (r : Bool) (w : Bool) (bs : List Byte), s.Open ∧ off < 14680064 ∧ 1 ≤ bs.length ∧
      off % 4096 + bs.length ≤ 4096 ∧ s.dev.bar2Window off = (a, r, w) ∧ (r && w) = false) ∧
    (∃ (s : State) (off : Nat) (a : Nat) (r : Bool) (w : Bool) (bs : List Byte), ∃ p, s.Open ∧ off < 14680064 ∧ 1 ≤ bs.length ∧
      off % 4096 + bs.length ≤ 4096 ∧ s.dev.bar2Window off = (a, r, w) ∧ (r && w) = true ∧ s.dev.cxlPort a = some p ∧
      s.dev.cxlUp p = true) ∧
    (∃ (s : State), s.Open) ∧
    (∃ (s : State), s.Ready) ∧
    (∃ (s : State), s.dev.dead = false) ∧
    (∃ (s : State), s.Ready ∧ s.dev.on HST_STATUS.LINK_UP = false) ∧
    (∃ (s : State), s.Ready ∧ s.dev.on HST_STATUS.LINK_UP = true) ∧
    (∃ (s : State) (q : CfgReq), s.Ready ∧ s.dev.on GLB_BOOT_STATUS.READY = false ∧ s.dev.on GLB_BOOT_STATUS.BOOT_ERR = false ∧ q.fn < 2) ∧
    (∃ (s : State) (fn : Nat), s.Ready ∧ fn < 2 ∧ s.dev.on GLB_BOOT_STATUS.READY = true) ∧
    (∃ (s : State), s.dev.dead = false ∧ s.dev.flt.todo = []) ∧
    (∃ (s : State) (speed : Nat) (width : Nat), s.Ready ∧ speed < 16 ∧ width < 16 ∧ s.dev.flt.recov = [] ∧ s.dev.hst.training = false) ∧
    (∃ (s : State) (speed : Nat) (width : Nat), s.Ready ∧ speed < 16 ∧ width < 16 ∧ s.dev.flt.recov = [] ∧ s.dev.hst.training = true) :=
  ⟨⟨State.reset, by decide +kernel⟩,
    ⟨(at_ fun d => { d with hst := { d.hst with pf1 := { d.hst.pf1 with bme := true } } }), by decide +kernel⟩,
    ⟨State.reset, 0, by decide +kernel⟩,
    ⟨(at_ fun d => { d with hst := { d.hst with reads := [(16383, { hrd0 with ring := 64, frame := true, stale := true })] } }), 16383,
      { hrd0 with ring := 64, frame := true, stale := true }, by decide +kernel⟩,
    ⟨(at_ fun d => { d with hst := { d.hst with reads := [(16383, { hrd0 with ring := 64, frame := false, stale := false })] } }), 16383,
      1, { hrd0 with ring := 64, frame := false, stale := false }, by decide +kernel⟩,
    ⟨(at_ fun d => { d with hst := { d.hst with reads := [(16383, { hrd0 with ring := 64, frame := false, stale := false })] } }), 16383,
      { hrd0 with ring := 64, frame := false, stale := false }, by decide +kernel⟩,
    ⟨(at_ fun d => { d with hst := { d.hst with reads := [(16383, { hrd0 with ring := 64, frame := false, stale := false })] } }), 16383,
      { hrd0 with ring := 64, frame := false, stale := false }, by decide +kernel⟩,
    ⟨(at_ fun d => { d with hst := { d.hst with reads := [(16383, { hrd0 with ring := 64, frame := false, stale := false })] }, tck := { d.tck with now := 26042 } }),
      16383, { hrd0 with ring := 64, frame := false, stale := false }, by decide +kernel⟩,
    ⟨State.reset, 0, by decide +kernel⟩,
    ⟨State.reset, 14680063, 1, 1048575, false, by decide +kernel⟩,
    ⟨(at_ fun d => { ((d.wr (HST_WIN_CUR_CTL.EN 13) 1).wr (HST_WIN_CUR_CTL.WR 13) 1).wr (CXL_PORT_ST.STATE 0) 3 with cxl := { d.cxl with dec := [(0, dec0)] } }),
      14675968, 4096, 1044480, true, 0, by decide +kernel⟩,
    ⟨State.reset, 14675968, 1044480, false, false, List.replicate 4096 0#8, by decide +kernel⟩,
    ⟨(at_ fun d => { ((d.wr (HST_WIN_CUR_CTL.EN 13) 1).wr (HST_WIN_CUR_CTL.WR 13) 1).wr (CXL_PORT_ST.STATE 0) 3 with cxl := { d.cxl with dec := [(0, dec0)] } }),
      14675968, 1044480, true, true, List.replicate 4096 0#8, 0, by decide +kernel⟩,
    ⟨State.reset, by decide +kernel⟩,
    ⟨State.reset, by decide +kernel⟩,
    ⟨State.reset, by decide +kernel⟩,
    ⟨State.reset, by decide +kernel⟩,
    ⟨(at_ fun d => d.wr HST_STATUS.LINK_UP 1), by decide +kernel⟩,
    ⟨State.reset, .read 1 .deviceId, by decide +kernel⟩,
    ⟨(at_ fun d => d.wr GLB_BOOT_STATUS.READY 1), 1, by decide +kernel⟩,
    ⟨State.reset, by decide +kernel⟩,
    ⟨State.reset, 0, 0, by decide +kernel⟩,
    ⟨(at_ fun d => { d with hst := { d.hst with training := true } }), 15, 15, by decide +kernel⟩⟩

/-- The hypotheses of each clause of CagesAndAccesses can be met. -/
theorem witness_cagesAndAccesses :
    (∃ (s : State), s.Ready ∧ s.dev.tck.now % 8 = 0) ∧
    (∃ (s : State), s.Ready ∧ (s.dev.tck.now % 8 ≠ 0)) ∧
    (∃ (s : State), s.Ready ∧ (s.dev.tck.now % 8 ≠ 6)) ∧
    (∃ (s : State), s.Ready ∧ s.dev.tck.now % 8 = 6) ∧
    (∃ (s : State) (c : Nat) (v : Nat), s.Open ∧ c < 32 ∧ v < 4294967296 ∧ s.dev.on (CGE_SLOT_STS.PFLT c) = false) ∧
    (∃ (s : State) (a : Nat) (len : Nat), s.Ready ∧ (a % 4 ≠ 0 ∨ len ≠ 4)) ∧
    (∃ (s : State), s.Ready) ∧
    (∃ (s : State) (a : Nat), s.Ready ∧ 0x3200000 ≤ a ∧ a < 67108864 ∧ a % 4 = 0) ∧
    (∃ (s : State) (a : Nat), s.Open ∧ a < 0x2380000 ∧ a % 4 = 0 ∧ regRow a = none) ∧
    (∃ (s : State) (a : Nat) (r : RegRow), s.Open ∧ a < 0x2380000 ∧ a % 4 = 0 ∧ regRow a = some r) ∧
    (∃ (s : State) (n : Nat), s.Open ∧ n < 80) ∧
    (∃ (s : State) (a : Nat) (v : Nat), s.Open ∧ 0x3200000 ≤ a ∧ a < 67108864 ∧ v < 4294967296) ∧
    (∃ (s : State) (a : Nat) (v : Nat), s.Open ∧ a < 0x2380000 ∧ v < 4294967296 ∧ a % 4 = 0) :=
  ⟨⟨State.reset, by decide +kernel⟩,
    ⟨(at_ fun d => { d with tck := { d.tck with now := 1 } }), by decide +kernel⟩,
    ⟨State.reset, by decide +kernel⟩,
    ⟨(at_ fun d => { d with tck := { d.tck with now := 6 } }), by decide +kernel⟩,
    ⟨State.reset, 0, 0, by decide +kernel⟩,
    ⟨State.reset, 0, 0, by decide +kernel⟩,
    ⟨State.reset, by decide +kernel⟩,
    ⟨State.reset, 67108860, by decide +kernel⟩,
    ⟨State.reset, 0x237FFFC, by decide +kernel⟩,
    ⟨State.reset, 0, _, by decide +kernel, by decide, rfl, rfl⟩,
    ⟨State.reset, 0, by decide +kernel⟩,
    ⟨State.reset, 67108863, 4294967295, by decide +kernel⟩,
    ⟨State.reset, 0, 0, by decide +kernel⟩⟩

/-- The hypotheses of each clause of CxlPorts can be met. -/
theorem witness_cxlPorts :
    (∃ (s : State) (n : Nat) (en : Bool), s.Open ∧ n < 4 ∧ (en = false ∨ s.dev.cxlNext n ≠ 0)) ∧
    (∃ (s : State) (n : Nat), s.Open ∧ n < 4 ∧ SMap.find s.dev.cxl.next n = none ∧ s.dev.rd (CXL_PORT_ST.STATE n) = 0) ∧
    (∃ (s : State) (n : Nat) (sp : Nat) (w : Nat), s.Ready ∧ n < 4 ∧ sp < 16 ∧ w < 32 ∧ (s.dev.rd (CXL_PORT_ST.STATE n) ≠ 1)) ∧
    (∃ (s : State) (n : Nat) (sp : Nat) (w : Nat), s.Ready ∧ n < 4 ∧ sp < 16 ∧ w < 32 ∧ s.dev.rd (CXL_PORT_ST.STATE n) = 1 ∧
      s.dev.cxl.lost = []) ∧
    (∃ (s : State) (n : Nat) (sp : Nat) (w : Nat), s.Ready ∧ n < 4 ∧ sp < 16 ∧ w < 32 ∧ s.dev.rd (CXL_PORT_ST.STATE n) = 1) ∧
    (∃ (s : State) (n : Nat), let waited := tickSub s.dev.tck.now (SMap.get s.dev.tck.now s.dev.cxl.since n); s.Ready ∧ n < 4 ∧
      s.dev.rd (CXL_PORT_ST.STATE n) = 1 ∧ usTicks 1000000 ≤ waited) ∧
    (∃ (s : State) (n : Nat), let waited := tickSub s.dev.tck.now (SMap.get s.dev.tck.now s.dev.cxl.since n); s.Ready ∧ n < 4 ∧
      (s.dev.rd (CXL_PORT_ST.STATE n) ≠ 1 ∨ waited < usTicks 1000000)) ∧
    (∃ (s : State) (n : Nat), s.Open ∧ n < 4 ∧ s.dev.rd (CXL_PORT_ST.STATE n) = 2) ∧
    (∃ (s : State) (n : Nat), s.Open ∧ n < 4 ∧ (s.dev.rd (CXL_PORT_ST.STATE n) ≠ 2)) ∧
    (∃ (s : State) (n : Nat), s.Ready ∧ n < 4 ∧ s.dev.cxl.reads = []) ∧
    (∃ (s : State) (n : Nat) (r : CxlRd), s.Ready ∧ n < 4 ∧ (s.dev.cxl.reads.find? (fun r => r.port = n && r.who = 0) = some r)) ∧
    (∃ (s : State) (n : Nat), s.Ready ∧ n < 4) ∧
    (∃ (s : State) (n : Nat), s.Ready ∧ n < 4 ∧ (s.dev.rd (CXL_PORT_ST.STATE n) = 0 ∨ s.dev.cxl.lost.any (fun p => p.1 == n) = true)) ∧
    (∃ (s : State) (n : Nat), s.Ready ∧ n < 4 ∧ (s.dev.rd (CXL_PORT_ST.STATE n) ≠ 0) ∧ (s.dev.cxl.lost.any (fun p => p.1 == n) = false)) ∧
    (∃ (s : State) (n : Nat), s.Ready ∧ n < 4 ∧ s.dev.t2Outstanding n = [] ∧ s.dev.cxl.reads = []) ∧
    (∃ (s : State) (n : Nat), ∃ r, s.Ready ∧ n < 4 ∧ r ∈ s.dev.cxl.reads ∧ r.port = n ∧
      max 1 (s.dev.rd CXL_TIMEOUT.TICKS) ≤ tickSub s.dev.tck.now r.tick) :=
  ⟨⟨State.reset, 0, false, by decide +kernel⟩,
    ⟨State.reset, 0, by decide +kernel⟩,
    ⟨State.reset, 0, 0, 0, by decide +kernel⟩,
    ⟨(at_ fun d => d.wr (CXL_PORT_ST.STATE 3) 1), 3, 15, 31, by decide +kernel⟩,
    ⟨(at_ fun d => d.wr (CXL_PORT_ST.STATE 3) 1), 3, 15, 31, by decide +kernel⟩,
    ⟨(at_ fun d => { d.wr (CXL_PORT_ST.STATE 3) 1 with cxl := { d.cxl with since := [(3, 0)] }, tck := { d.tck with now := 2604167 } }), 3,
      by decide +kernel⟩,
    ⟨State.reset, 0, by decide +kernel⟩,
    ⟨(at_ fun d => d.wr (CXL_PORT_ST.STATE 3) 2), 3, by decide +kernel⟩,
    ⟨State.reset, 0, by decide +kernel⟩,
    ⟨State.reset, 0, by decide +kernel⟩,
    ⟨(at_ fun d => { d with cxl := { d.cxl with reads := [{ port := 3, addr := 0, len := 8, tick := 0, who := 0 }] } }), 3,
      { port := 3, addr := 0, len := 8, tick := 0, who := 0 }, by decide +kernel⟩,
    ⟨State.reset, 0, by decide +kernel⟩,
    ⟨State.reset, 0, by decide +kernel⟩,
    ⟨(at_ fun d => d.wr (CXL_PORT_ST.STATE 3) 3), 3, by decide +kernel⟩,
    ⟨State.reset, 0, by decide +kernel⟩,
    ⟨(at_ fun d => { d with cxl := { d.cxl with reads := [{ port := 3, addr := 0, len := 8, tick := 0, who := 0 }] }, tck := { d.tck with now := 2 ^ 32 } }),
      3, { port := 3, addr := 0, len := 8, tick := 0, who := 0 }, by decide +kernel⟩⟩

/-- The hypotheses of each clause of ConvoyLinks can be met. -/
theorem witness_convoyLinks :
    (∃ (s : State) (p : Nat), s.dev.dead = false ∧ p < 3 ∧ s.dev.flt.recov = [] ∧ s.dev.flt.todo = [] ∧ ¬ (p = 0 ∧ s.dev.isRoot = true)) ∧
    (∃ (s : State), s.dev.dead = false ∧ s.dev.isRoot = true) ∧
    (∃ (s : State) (p : Nat), s.dev.dead = false ∧ p < 3 ∧ s.dev.flt.todo = [] ∧ ¬ (p = 0 ∧ s.dev.isRoot = false)) ∧
    (∃ (s : State) (p : Nat), s.dev.dead = false ∧ p < 3 ∧ s.dev.flt.todo = [] ∧ s.dev.isRoot = false) ∧
    (∃ (s : State) (p : Nat), s.Open ∧ p < 3 ∧ (p ≠ 0)) ∧
    (∃ (s : State) (p : Nat), s.dev.dead = false ∧ s.dev.flt.todo = [] ∧ p < 3 ∧ s.dev.hears p = false) ∧
    (∃ (s : State) (p : Nat), s.dev.dead = false ∧ p < 3 ∧ s.dev.hears p = true ∧ (p ≠ 0)) ∧
    (∃ (s : State) (p : Nat), s.dev.dead = false ∧ p < 3 ∧ s.dev.hears p = true ∧ p = 0) ∧
    (∃ (s : State) (p : Nat), let d := s.dev.heard p; s.dev.dead = false ∧ p < 3 ∧ s.dev.hears p = true ∧ p = 0 ∧ d.cvy.hops.length < 15) ∧
    (∃ (s : State) (p : Nat), let d := s.dev.heard p; s.dev.dead = false ∧ p < 3 ∧ s.dev.hears p = true ∧ p = 0 ∧
      d.on (CVY_PORT_ST.MEASURED 0) = true ∧ d.cvy.stuck = false ∧ d.cvy.loaded = false) ∧
    (∃ (s : State), s.dev.dead = false ∧ s.dev.flt.todo = [] ∧
      (s.dev.on TCK_STATUS.LOCKED = false ∨ s.dev.tck.running = false ∨ s.dev.tck.now % 16 ≠ 0)) ∧
    (∃ (s : State), s.dev.dead = false ∧ s.dev.flt.todo = [] ∧ s.dev.on TCK_STATUS.LOCKED = true ∧ s.dev.tck.running = true ∧
      s.dev.tck.now % 16 = 0) ∧
    (∃ (s : State), s.dev.dead = false ∧ s.dev.flt.todo = [] ∧
      (s.dev.isRoot = true ∨ s.dev.on TCK_STATUS.LOCKED = false ∨ tickSub s.dev.tck.now s.dev.cvy.lastSync < 64)) ∧
    (∃ (s : State), s.dev.dead = false ∧ s.dev.flt.todo = [] ∧ s.dev.isRoot = false ∧ s.dev.on TCK_STATUS.LOCKED = true ∧
      64 ≤ tickSub s.dev.tck.now s.dev.cvy.lastSync) ∧
    (∃ (s : State), s.dev.dead = false ∧ s.dev.flt.todo = [] ∧ (s.dev.isRoot = true ∨ s.dev.cvy.cal = false)) ∧
    (∃ (s : State), s.dev.dead = false ∧ s.dev.flt.todo = [] ∧ s.dev.isRoot = false ∧ s.dev.cvy.cal = true) ∧
    (∃ (s : State) (p : Nat), s.dev.dead = false ∧ s.dev.flt.todo = [] ∧ p < 3 ∧ s.dev.hears p = true) ∧
    (∃ (d : Dev), d.rd CVY_STATUS.STATE = 1) :=
  ⟨⟨State.reset, 0, by decide +kernel⟩,
    ⟨(at_ fun d => d.wr GLB_BOOT_STATUS.ROOT 1), by decide +kernel⟩,
    ⟨State.reset, 2, by decide +kernel⟩,
    ⟨State.reset, 0, by decide +kernel⟩,
    ⟨State.reset, 2, by decide +kernel⟩,
    ⟨(at_ fun d => (d.wr (CVY_PORT_CTL.EN 2) 0)), 2, by decide +kernel⟩,
    ⟨(at_ fun d => (d.wr (CVY_PORT_CTL.EN 2) 1)), 2, by decide +kernel⟩,
    ⟨State.reset, 0, by decide +kernel⟩,
    ⟨State.reset, 0, by decide +kernel⟩,
    ⟨(at_ fun d => ((d.wr (CVY_PORT_CTL.EN 0) 1).wr (CVY_PORT_ST.MEASURED 0) 1)), 0, by decide +kernel⟩,
    ⟨State.reset, by decide +kernel⟩,
    ⟨(at_ fun d => { (d).wr TCK_STATUS.LOCKED 1 with tck := { d.tck with running := true, now := 16 } }), by decide +kernel⟩,
    ⟨State.reset, by decide +kernel⟩,
    ⟨(at_ fun d => { d.wr TCK_STATUS.LOCKED 1 with tck := { d.tck with now := 64 } }), by decide +kernel⟩,
    ⟨State.reset, by decide +kernel⟩,
    ⟨(at_ fun d => { d with cvy := { d.cvy with cal := true } }), by decide +kernel⟩,
    ⟨State.reset, 0, by decide +kernel⟩,
    ⟨State.reset.dev.wr CVY_STATUS.STATE 1, by decide +kernel⟩⟩

/-- The hypotheses of each clause of ConvoyTree can be met. -/
theorem witness_convoyTree :
    (∃ (s : State) (p : Nat), s.dev.dead = false ∧ s.dev.flt.todo = [] ∧ p < 3 ∧ s.dev.hears p = false) ∧
    (∃ (s : State) (p : Nat), ∃ k, s.dev.dead = false ∧ s.dev.flt.todo = [] ∧ p < 3 ∧ s.dev.hears p = false ∧ k < 256) ∧
    (∃ (s : State) (p : Nat), s.dev.dead = false ∧ p < 3 ∧ s.dev.hears p = true ∧ p = 0) ∧
    (∃ (s : State) (p : Nat) (late : Bool), let d := s.dev.heard p; s.dev.dead = false ∧ p < 3 ∧ s.dev.hears p = true ∧ (p ≠ 0) ∧
      late = false ∧ d.cvy.sent = false) ∧
    (∃ (s : State) (p : Nat) (late : Bool), s.dev.dead = false ∧ p < 3 ∧ s.dev.hears p = true ∧ (p ≠ 0) ∧ late = true ∧
      s.dev.isRoot = true) ∧
    (∃ (s : State) (p : Nat), s.dev.dead = false ∧ p < 3 ∧ s.dev.flt.todo = [] ∧ s.dev.cvy.sizing = none) ∧
    (∃ (s : State) (p : Nat), ∃ t, s.dev.dead = false ∧ p < 3 ∧ s.dev.cvy.sizing = some t ∧ (p ≠ 0) ∧ SMap.find s.dev.cvy.kids p = none ∧
      s.dev.rd CVY_CTRL.WAIT ≤ tickSub s.dev.tck.now t) ∧
    (∃ (s : State) (p : Nat), s.dev.dead = false ∧ p < 3 ∧ s.dev.hears p = true ∧ p = 0) ∧
    (∃ (s : State) (p : Nat), s.dev.dead = false ∧ p < 3 ∧ s.dev.hears p = true ∧ (p ≠ 0)) ∧
    (∃ (s : State) (p : Nat), s.dev.dead = false ∧ p < 3 ∧ s.dev.hears p = true) ∧
    (∃ (s : State), s.Open ∧ s.dev.isRoot = false) ∧
    (∃ (s : State), s.Open ∧ s.dev.isRoot = true) ∧
    (∃ (s : State) (p : Nat) (src : Nat) (seq : Nat) (ac : Nat) (tg : Nat) (arg : Nat), let d := s.dev.heard p;
      let e := ((d.cvyUp.filter (· != p)).foldl (fun d q => d.cvyPut q true 0x08 dstAll src seq 2 (beBytes 1 ac ++ beBytes 6 tg ++ beBytes 4 arg)) d).bump CVY_ACT_RX.COUNT;
      s.dev.dead = false ∧ p < 3 ∧ ac < 256 ∧ s.dev.hears p = true ∧ SMap.find e.cvy.taken src = some seq) ∧
    (∃ (s : State) (p : Nat) (src : Nat) (seq : Nat) (ac : Nat) (tg : Nat) (arg : Nat), let d := s.dev.heard p;
      let e := ((d.cvyUp.filter (· != p)).foldl (fun d q => d.cvyPut q true 0x08 dstAll src seq 2 (beBytes 1 ac ++ beBytes 6 tg ++ beBytes 4 arg)) d).bump CVY_ACT_RX.COUNT;
      s.dev.dead = false ∧ p < 3 ∧ ac < 256 ∧ s.dev.hears p = true ∧ (SMap.find e.cvy.taken src ≠ some seq) ∧ (ac = 0 ∨ 4 ≤ ac)) ∧
    (∃ (s : State) (p : Nat) (src : Nat) (seq : Nat) (ac : Nat) (tg : Nat) (arg : Nat), let d := s.dev.heard p;
      let e := ((d.cvyUp.filter (· != p)).foldl (fun d q => d.cvyPut q true 0x08 dstAll src seq 2 (beBytes 1 ac ++ beBytes 6 tg ++ beBytes 4 arg)) d).bump CVY_ACT_RX.COUNT;
      s.dev.dead = false ∧ p < 3 ∧ ac < 256 ∧ s.dev.hears p = true ∧ (SMap.find e.cvy.taken src ≠ some seq) ∧ ac = 1) ∧
    (∃ (s : State) (p : Nat) (src : Nat) (seq : Nat) (ac : Nat) (tg : Nat) (arg : Nat), let d := s.dev.heard p;
      let e := ((d.cvyUp.filter (· != p)).foldl (fun d q => d.cvyPut q true 0x08 dstAll src seq 2 (beBytes 1 ac ++ beBytes 6 tg ++ beBytes 4 arg)) d).bump CVY_ACT_RX.COUNT;
      s.dev.dead = false ∧ p < 3 ∧ ac < 256 ∧ s.dev.hears p = true ∧ (SMap.find e.cvy.taken src ≠ some seq) ∧ ac = 2) ∧
    (∃ (s : State) (p : Nat) (src : Nat) (seq : Nat) (ac : Nat) (tg : Nat) (arg : Nat), let d := s.dev.heard p;
      let e := ((d.cvyUp.filter (· != p)).foldl (fun d q => d.cvyPut q true 0x08 dstAll src seq 2 (beBytes 1 ac ++ beBytes 6 tg ++ beBytes 4 arg)) d).bump CVY_ACT_RX.COUNT;
      let f := { e with cvy := { e.cvy with taken := SMap.ins e.cvy.taken src seq } }; s.dev.dead = false ∧ p < 3 ∧ ac < 256 ∧
      s.dev.hears p = true ∧ (SMap.find e.cvy.taken src ≠ some seq) ∧ ac = 3 ∧ f.inTime tg = true) ∧
    (∃ (d : Dev) (t : Nat), d.cht.held = none ∧ tickFuture t d.tck.now = true) ∧
    (∃ (s : State) (p : Nat), s.dev.dead = false ∧ p < 3 ∧ s.dev.hears p = true) :=
  ⟨⟨(at_ fun d => (d.wr (CVY_PORT_CTL.EN 2) 0)), 2, by decide +kernel⟩,
    ⟨(at_ fun d => (d.wr (CVY_PORT_CTL.EN 2) 0)), 2, 255, by decide +kernel⟩,
    ⟨State.reset, 0, by decide +kernel⟩,
    ⟨(at_ fun d => (d.wr (CVY_PORT_CTL.EN 2) 1)), 2, false, by decide +kernel⟩,
    ⟨(at_ fun d => ((d.wr GLB_BOOT_STATUS.ROOT 1).wr (CVY_PORT_CTL.EN 2) 1)), 2, true, by decide +kernel⟩,
    ⟨State.reset, 0, by decide +kernel⟩,
    ⟨(at_ fun d => { d with cvy := { d.cvy with sizing := some 0 }, tck := { d.tck with now := 2 ^ 32 } }), 2, 0, by decide +kernel⟩,
    ⟨State.reset, 0, by decide +kernel⟩,
    ⟨(at_ fun d => (d.wr (CVY_PORT_CTL.EN 2) 1)), 2, by decide +kernel⟩,
    ⟨State.reset, 0, by decide +kernel⟩,
    ⟨State.reset, by decide +kernel⟩,
    ⟨(at_ fun d => d.wr GLB_BOOT_STATUS.ROOT 1), by decide +kernel⟩,
    ⟨(at_ fun d => { (d.wr (CVY_PORT_CTL.EN 2) 1) with cvy := { d.cvy with taken := [(0, 7)] } }), 2, 0, 7, 255, 0, 0, by decide +kernel⟩,
    ⟨State.reset, 0, 0, 0, 0, 0, 0, by decide +kernel⟩,
    ⟨(at_ fun d => (d.wr (CVY_PORT_CTL.EN 2) 1)), 2, 0, 0, 1, 0, 0, by decide +kernel⟩,
    ⟨(at_ fun d => (d.wr (CVY_PORT_CTL.EN 2) 1)), 2, 0, 0, 2, 0, 0, by decide +kernel⟩,
    ⟨(at_ fun d => (d.wr (CVY_PORT_CTL.EN 2) 1)), 2, 0, 0, 3, 3, 0, by decide +kernel⟩,
    ⟨State.reset.dev, 1, by decide +kernel⟩,
    ⟨State.reset, 0, by decide +kernel⟩⟩

/-- The hypotheses of each clause of HelmReports can be met. -/
theorem witness_helmReports :
    (∃ (s : State) (p : Nat), s.dev.dead = false ∧ s.dev.flt.todo = [] ∧ p < 3 ∧ s.dev.hears p = false) ∧
    (∃ (s : State) (p : Nat) (src : Nat) (pl : List Byte), let d := s.dev.heard p; let good := src = d.rd HLM_PARTNER.ADDR ∧
      (pl.getD 0 0).toNat / 16 = 1; s.dev.dead = false ∧ p < 3 ∧ s.dev.hears p = true ∧ ¬ good) ∧
    (∃ (s : State) (p : Nat) (src : Nat) (pl : List Byte), let d := s.dev.heard p; let good := src = d.rd HLM_PARTNER.ADDR ∧
      (pl.getD 0 0).toNat / 16 = 1; s.dev.dead = false ∧ p < 3 ∧ s.dev.hears p = true ∧ good) ∧
    (∃ (s : State), s.Ready ∧ (s.dev.tck.now % 256 ≠ 8 ∨ s.dev.rd HLM_PARTNER.ADDR = 0 ∨ s.dev.blockWas 264 = false)) ∧
    (∃ (s : State), ∃ p, s.Ready ∧ s.dev.tck.now % 256 = 8 ∧ (s.dev.rd HLM_PARTNER.ADDR ≠ 0) ∧ s.dev.on GLB_BOOT_STATUS.READY = true ∧
      s.dev.blockWas 264 = true ∧ s.dev.cvyRoute (s.dev.rd HLM_PARTNER.ADDR) = .out p) ∧
    (∃ (s : State), s.Ready ∧ s.dev.tck.now % 256 = 8 ∧ (s.dev.rd HLM_PARTNER.ADDR ≠ 0) ∧ s.dev.on GLB_BOOT_STATUS.READY = true ∧
      s.dev.blockWas 264 = true ∧ s.dev.cvyRoute (s.dev.rd HLM_PARTNER.ADDR) = .lost) ∧
    (∃ (s : State), s.Ready ∧
      (s.dev.tck.now % 256 ≠ 0 ∨ s.dev.rd HLM_PARTNER.ADDR = 0 ∨ (s.dev.hlm.rpt (tickSub s.dev.tck.now 512)).isSome = true ∨ s.dev.blockWas 512 = false)) ∧
    (∃ (s : State), s.Ready ∧ s.dev.tck.now % 256 = 0 ∧ (s.dev.rd HLM_PARTNER.ADDR ≠ 0) ∧
      (s.dev.hlm.rpt (tickSub s.dev.tck.now 512)) = none ∧ s.dev.blockWas 512 = true ∧ s.dev.on HLM_STATUS.PLOST = true) ∧
    (∃ (s : State), s.Ready ∧ s.dev.tck.now % 256 = 0 ∧ (s.dev.rd HLM_PARTNER.ADDR ≠ 0) ∧
      (s.dev.hlm.rpt (tickSub s.dev.tck.now 512)) = none ∧ s.dev.blockWas 512 = true ∧ s.dev.on HLM_STATUS.PLOST = false ∧
      max 1 (s.dev.rd HLM_CTRL.MISS) ≤ s.dev.hlm.misses + 1) :=
  ⟨⟨(at_ fun d => (d.wr (CVY_PORT_CTL.EN 2) 0)), 2, by decide +kernel⟩,
    ⟨State.reset, 0, 0, [], by decide +kernel⟩,
    ⟨(at_ fun d => (d.wr (CVY_PORT_CTL.EN 2) 1)), 2, 0, [0x10#8], by decide +kernel⟩,
    ⟨State.reset, by decide +kernel⟩,
    ⟨(at_ fun d => { (((d.wr HLM_PARTNER.ADDR 5).wr GLB_BOOT_STATUS.READY 1)) with tck := { d.tck with now := 264 } }), 0,
      by decide +kernel⟩,
    ⟨(at_ fun d => { (((d.wr HLM_PARTNER.ADDR 5).wr GLB_BOOT_STATUS.READY 1).wr GLB_BOOT_STATUS.ROOT 1) with tck := { d.tck with now := 264 } }),
      by decide +kernel⟩,
    ⟨State.reset, by decide +kernel⟩,
    ⟨(at_ fun d => { (d.wr HLM_PARTNER.ADDR 5).wr HLM_STATUS.PLOST 1 with tck := { d.tck with now := 1024 } }), by decide +kernel⟩,
    ⟨(at_ fun d => { d.wr HLM_PARTNER.ADDR 5 with tck := { d.tck with now := 1024 }, hlm := { d.hlm with misses := 255 } }),
      by decide +kernel⟩⟩

/-- The hypotheses of each clause of HelmControl can be met. -/
theorem witness_helmControl :
    (∃ (s : State) (pat : Nat), let h := s.dev.hlm; s.dev.dead = false ∧ s.dev.flt.todo = [] ∧ pat < 4 ∧ pat = h.pat) ∧
    (∃ (s : State) (pat : Nat) (at_ : Nat), let h := s.dev.hlm; s.dev.dead = false ∧ s.dev.flt.todo = [] ∧ pat < 4 ∧ (pat ≠ h.pat) ∧
      timeReached (h.since + 80) at_ = true) ∧
    (∃ (s : State) (pat : Nat) (at_ : Nat), let h := s.dev.hlm; s.dev.dead = false ∧ s.dev.flt.todo = [] ∧ pat < 4 ∧ (pat ≠ h.pat) ∧
      timeReached (h.since + 80) at_ = false ∧ pat = h.old) ∧
    (∃ (s : State) (pat : Nat) (at_ : Nat), let h := s.dev.hlm; s.dev.dead = false ∧ s.dev.flt.todo = [] ∧ pat < 4 ∧ (pat ≠ h.pat) ∧
      timeReached (h.since + 80) at_ = false ∧ (pat ≠ h.old)) ∧
    (∃ (s : State), s.Open) ∧
    (∃ (s : State) (key : Nat), s.Open ∧ key < 65536 ∧ key = 0x5A1C) ∧
    (∃ (s : State) (key : Nat), s.Open ∧ key < 65536 ∧ (key ≠ 0x5A1C)) ∧
    (∃ (s : State), s.Ready ∧
      (s.dev.rd HLM_WD.TICKS = 0 ∨ s.dev.hlm.expired = true ∨ tickSub s.dev.tck.now s.dev.hlm.kicked < s.dev.rd HLM_WD.TICKS)) ∧
    (∃ (s : State), s.Ready ∧ (s.dev.rd HLM_WD.TICKS ≠ 0) ∧ s.dev.hlm.expired = false ∧
      s.dev.rd HLM_WD.TICKS ≤ tickSub s.dev.tck.now s.dev.hlm.kicked) ∧
    (∃ (s : State), s.Ready ∧ s.dev.rd HLM_STATUS.STATE = hBackoff ∧ tickReached s.dev.hlm.backoff s.dev.tck.now = true) ∧
    (∃ (s : State), s.Ready ∧ (s.dev.rd HLM_STATUS.STATE ≠ hBackoff)) ∧
    (∃ (s : State), s.Ready ∧ s.dev.on HLM_CTRL.REVERT = false) ∧
    (∃ (s : State) (t : Nat), s.Ready ∧ s.dev.on HLM_CTRL.REVERT = true ∧ s.dev.on HLM_STATUS.PREF = true ∧
      s.dev.rd HLM_STATUS.STATE = hStandby ∧ s.dev.on HLM_STATUS.CLEAN = true ∧ s.dev.hlm.misses = 0 ∧ s.dev.hlm.wtr = some t ∧ (∃ r l,
      s.dev.hlm.reports = r :: l ∧ r.clean = true ∧ r.state = hActive) ∧ s.dev.wtrTicks ≤ tickSub s.dev.tck.now t) ∧
    (∃ (s : State) (t : Nat), s.Ready ∧ s.dev.on HLM_CTRL.REVERT = true ∧ s.dev.on HLM_STATUS.PREF = true ∧
      s.dev.rd HLM_STATUS.STATE = hStandby ∧ s.dev.on HLM_STATUS.CLEAN = true ∧ s.dev.hlm.misses = 0 ∧ s.dev.hlm.wtr = some t ∧ (∃ r l,
      s.dev.hlm.reports = r :: l ∧ r.clean = true ∧ r.state = hActive) ∧ tickSub s.dev.tck.now t < s.dev.wtrTicks) ∧
    (∃ (s : State), let x := s.dev.rdPair HLM_HANDOVER_LO.TICK HLM_HANDOVER_HI.TICK; s.Ready ∧ (x = 0 ∨ x ≠ s.dev.tck.now)) ∧
    (∃ (s : State), let x := s.dev.rdPair HLM_HANDOVER_LO.TICK HLM_HANDOVER_HI.TICK; s.Ready ∧ (x ≠ 0) ∧ x = s.dev.tck.now ∧
      (s.dev.rd HLM_STATUS.STATE ≠ hActive)) ∧
    (∃ (s : State), let x := s.dev.rdPair HLM_HANDOVER_LO.TICK HLM_HANDOVER_HI.TICK; s.Ready ∧ (x ≠ 0) ∧ x = s.dev.tck.now ∧
      s.dev.rd HLM_STATUS.STATE = hActive) ∧
    (∃ (s : State), s.Ready ∧ (s.dev.tck.now % 16777216 ≠ 0 ∨ s.dev.fwu.split = true)) ∧
    (∃ (s : State), s.Ready ∧ s.dev.tck.now % 16777216 = 0 ∧ s.dev.fwu.split = false ∧ s.dev.hlm.navSync = []) ∧
    (∃ (s : State) (die : Nat), s.Ready ∧ die < 2 ∧ s.dev.fwu.split = false) ∧
    (∃ (s : State) (die : Nat), s.Ready ∧ die < 2 ∧ s.dev.flt.recov = [] ∧ s.dev.hlm.navSync.contains die = false) ∧
    (∃ (s : State) (die : Nat), s.Ready ∧ die < 2 ∧ s.dev.flt.recov = [] ∧ s.dev.hlm.navSync.contains die = true) :=
  ⟨⟨State.reset, 1, by decide +kernel⟩,
    ⟨State.reset, 3, 80, by decide +kernel⟩,
    ⟨(at_ fun d => { d with hlm := { d.hlm with pat := 0 } }), 1, 79, by decide +kernel⟩,
    ⟨State.reset, 0, 0, by decide +kernel⟩,
    ⟨State.reset, by decide +kernel⟩,
    ⟨State.reset, 0x5A1C, by decide +kernel⟩,
    ⟨State.reset, 0, by decide +kernel⟩,
    ⟨State.reset, by decide +kernel⟩,
    ⟨(at_ fun d => { d.wr HLM_WD.TICKS 2 with tck := { d.tck with now := 2 } }), by decide +kernel⟩,
    ⟨(at_ fun d => d.wr HLM_STATUS.STATE hBackoff), by decide +kernel⟩,
    ⟨State.reset, by decide +kernel⟩,
    ⟨(at_ fun d => d.wr HLM_CTRL.REVERT 0), by decide +kernel⟩,
    ⟨(at_ fun d => { (((d.wr HLM_CTRL.REVERT 1).wr HLM_STATUS.PREF 1).wr HLM_STATUS.STATE hStandby).wr HLM_STATUS.CLEAN 1 with hlm := { d.hlm with wtr := some 0, reports := [{ block := 0, clean := true, reclaim := false, pref := false, state := hActive, chart := 0, epoch := 0 }] }, tck := { d.tck with now := 2 ^ 40 } }),
      0, by decide +kernel, by decide +kernel, by decide +kernel, by decide +kernel, by decide +kernel, rfl, rfl, ⟨_, _, rfl, rfl, rfl⟩,
      by decide +kernel⟩,
    ⟨(at_ fun d => { (((d.wr HLM_CTRL.REVERT 1).wr HLM_STATUS.PREF 1).wr HLM_STATUS.STATE hStandby).wr HLM_STATUS.CLEAN 1 with hlm := { d.hlm with wtr := some 0, reports := [{ block := 0, clean := true, reclaim := false, pref := false, state := hActive, chart := 0, epoch := 0 }] }, tck := { d.tck with now := 0 } }),
      0, by decide +kernel, by decide +kernel, by decide +kernel, by decide +kernel, by decide +kernel, rfl, rfl, ⟨_, _, rfl, rfl, rfl⟩,
      by decide +kernel⟩,
    ⟨State.reset, by decide +kernel⟩,
    ⟨(at_ fun d => { d.wr HLM_HANDOVER_LO.TICK 5 with tck := { d.tck with now := 5 } }), by decide +kernel⟩,
    ⟨(at_ fun d => { (d.wr HLM_HANDOVER_LO.TICK 5).wr HLM_STATUS.STATE hActive with tck := { d.tck with now := 5 } }), by decide +kernel⟩,
    ⟨(at_ fun d => { d with tck := { d.tck with now := 1 } }), by decide +kernel⟩,
    ⟨State.reset, by decide +kernel⟩,
    ⟨State.reset, 0, by decide +kernel⟩,
    ⟨State.reset, 0, by decide +kernel⟩,
    ⟨(at_ fun d => { d with hlm := { d.hlm with navSync := [1] } }), 1, by decide +kernel⟩⟩

/-- The hypotheses of each clause of FaultDetections can be met. -/
theorem witness_faultDetections :
    (∃ (s : State) (src : Nat) (cls : Nat) (ev : Nat), s.dev.dead = false ∧ s.dev.flt.todo = [] ∧ src < 4096 ∧ cls < 4 ∧ ev < 256 ∧
      faultOk src cls ev = false) ∧
    (∃ (s : State) (src : Nat) (cls : Nat) (ev : Nat), s.dev.dead = false ∧ src < 4096 ∧ cls < 4 ∧ ev < 256 ∧ faultOk src cls ev = true ∧
      (ev ≠ 0x13) ∧ (ev ≠ 0x02 ∨ src ≠ 0x3F0 ∧ src ≠ 0x3F1)) ∧
    (∃ (s : State) (src : Nat) (cls : Nat), s.dev.dead = false ∧ src < 4096 ∧ cls < 4 ∧ faultOk src cls 0x13 = true ∧
      (src = 0x2C0 ∨ src = 0x2C1)) ∧
    (∃ (s : State) (src : Nat) (cls : Nat), s.dev.dead = false ∧ src < 4096 ∧ cls < 4 ∧ faultOk src cls 0x13 = true ∧ (src ≠ 0x2C0) ∧
      (src ≠ 0x2C1)) ∧
    (∃ (s : State) (cls : Nat), s.dev.dead = false ∧ faultOk 0x3F0 cls 0x02 = true ∧ cls < 4) ∧
    (∃ (s : State), s.dev.dead = false ∧ s.dev.flt.todo = [] ∧ (s.dev.flt.pendHalt = 2 ∨ (s.dev.flt.pendHalt = 1 ∧
      s.dev.tck.running = false))) ∧
    (∃ (s : State), s.dev.dead = false ∧ s.dev.flt.todo = [] ∧ (s.dev.flt.pendHalt = 0 ∨ (s.dev.flt.pendHalt = 1 ∧
      s.dev.tck.running = true))) ∧
    (∃ (s : State), s.dev.dead = false ∧ s.dev.flt.todo = []) :=
  ⟨⟨State.reset, 4095, 3, 255, by decide +kernel⟩,
    ⟨State.reset, 0x352, 3, 0x07, by decide +kernel⟩,
    ⟨State.reset, 0x2C1, 2, by decide +kernel⟩,
    ⟨State.reset, 0x352, 2, by decide +kernel⟩,
    ⟨State.reset, 1, by decide +kernel⟩,
    ⟨(at_ fun d => { d with flt := { d.flt with pendHalt := 2 } }), by decide +kernel⟩,
    ⟨State.reset, by decide +kernel⟩,
    ⟨State.reset, by decide +kernel⟩⟩

/-- The hypotheses of each clause of FaultControl can be met. -/
theorem witness_faultControl :
    (∃ (s : State), s.Open) ∧
    (∃ (s : State) (cs : Nat), s.Open ∧ cs < 8) ∧
    (∃ (s : State) (h : Nat) (k : Nat), s.Open ∧ h < 65536 ∧ k < 65536 ∧ k = 0xC3E1 ∧ grantable h = true) ∧
    (∃ (s : State) (h : Nat) (k : Nat), s.Open ∧ h < 65536 ∧ k < 65536 ∧ (k ≠ 0xC3E1 ∨ grantable h = false)) ∧
    (∃ (s : State), s.Ready ∧ s.dev.tck.slot = 0 ∧ s.dev.rd DPT_AUD_STATUS.PHASE = 0 ∧ s.dev.dpt.audWanted = false) ∧
    (∃ (s : State), s.Ready ∧ (s.dev.tck.slot ≠ 0 ∨ s.dev.rd DPT_AUD_STATUS.PHASE ≠ 0 ∨ s.dev.dpt.audWanted = true)) ∧
    (∃ (s : State) (src : Nat) (v : Nat), s.Open ∧ src < 4096 ∧ v < 4294967296 ∧ srcListed src = false) ∧
    (∃ (s : State) (src : Nat) (v : Nat), let good := reactOk src (bits v 0 3) = true ∧ reactOk src (bits v 4 3) = true ∧
      (bits v 8 3 = 4 ∨ bits v 8 3 = 5); s.Open ∧ src < 4096 ∧ v < 4294967296 ∧ srcListed src = true ∧ good) ∧
    (∃ (s : State) (src : Nat) (v : Nat), let good := reactOk src (bits v 0 3) = true ∧ reactOk src (bits v 4 3) = true ∧
      (bits v 8 3 = 4 ∨ bits v 8 3 = 5); s.Open ∧ src < 4096 ∧ v < 4294967296 ∧ srcListed src = true ∧ ¬ good) ∧
    (∃ (s : State) (src : Nat) (cls : Nat) (ev : Nat), s.Open ∧ src < 4096 ∧ cls < 4 ∧ ev < 256 ∧ s.dev.injOpen = false) ∧
    (∃ (s : State) (src : Nat) (cls : Nat) (ev : Nat), s.Open ∧ src < 4096 ∧ cls < 4 ∧ ev < 256 ∧ s.dev.injOpen = true ∧
      faultOk src cls ev = false) ∧
    (∃ (s : State) (src : Nat) (cls : Nat) (ev : Nat), s.Open ∧ src < 4096 ∧ cls < 4 ∧ ev < 256 ∧ s.dev.injOpen = true ∧
      faultOk src cls ev = true) ∧
    (∃ (s : State) (src : Nat) (cls : Nat) (ev : Nat), s.Open ∧ src < 4096 ∧ cls < 4 ∧ ev < 256 ∧ s.dev.injOpen = true ∧
      srcStore src = false) ∧
    (∃ (s : State) (src : Nat) (cls : Nat) (ev : Nat), s.Open ∧ src < 4096 ∧ cls < 4 ∧ ev < 256 ∧ s.dev.injOpen = true ∧
      srcStore src = true) ∧
    (∃ (s : State), s.Open ∧ (s.dev.flt.tokenBusy ≠ none)) ∧
    (∃ (s : State), s.Open ∧ s.dev.flt.tokenBusy = none) ∧
    (∃ (s : State), s.Ready ∧ s.dev.flt.tokenBusy = none) ∧
    (∃ (s : State), ∃ v, s.Ready ∧ s.dev.flt.tokenBusy = some v ∧ v % 256 = 0) ∧
    (∃ (s : State), ∃ v, s.Ready ∧ s.dev.flt.tokenBusy = some v ∧ (v % 256 ≠ 0)) :=
  ⟨⟨State.reset, by decide +kernel⟩,
    ⟨State.reset, 0, by decide +kernel⟩,
    ⟨State.reset, 0x0411, 0xC3E1, by decide +kernel⟩,
    ⟨State.reset, 0, 0, by decide +kernel⟩,
    ⟨(at_ fun d => { d with tck := { d.tck with slot := 0 } }), by decide +kernel⟩,
    ⟨State.reset, by decide +kernel⟩,
    ⟨State.reset, 4095, 4294967295, by decide +kernel⟩,
    ⟨State.reset, 0x352, 0x500, by decide +kernel⟩,
    ⟨State.reset, 0x3F1, 4294967295, by decide +kernel⟩,
    ⟨State.reset, 0, 0, 0, by decide +kernel⟩,
    ⟨(at_ fun d => { d.wr FLT_STATUS.TESTMODE 1 with flt := { d.flt with perms := 1 } }), 4095, 3, 255, by decide +kernel⟩,
    ⟨(at_ fun d => { d.wr FLT_STATUS.TESTMODE 1 with flt := { d.flt with perms := 1 } }), 0x3F1, 3, 0x13, by decide +kernel⟩,
    ⟨(at_ fun d => { d.wr FLT_STATUS.TESTMODE 1 with flt := { d.flt with perms := 1 } }), 4095, 3, 255, by decide +kernel⟩,
    ⟨(at_ fun d => { d.wr FLT_STATUS.TESTMODE 1 with flt := { d.flt with perms := 1 } }), 0x3F1, 3, 255, by decide +kernel⟩,
    ⟨(at_ fun d => { d with flt := { d.flt with tokenBusy := some 0 } }), by decide +kernel⟩,
    ⟨State.reset, by decide +kernel⟩,
    ⟨State.reset, by decide +kernel⟩,
    ⟨(at_ fun d => { d with flt := { d.flt with tokenBusy := some 0 } }), 0, by decide +kernel⟩,
    ⟨(at_ fun d => { d with flt := { d.flt with tokenBusy := some 1 } }), 1, by decide +kernel⟩⟩

/-- The hypotheses of each clause of SoundingsAndSextant can be met. -/
theorem witness_soundingsAndSextant :
    (∃ (s : State), s.Open ∧ s.dev.on SND_STATUS.BUSY = true) ∧
    (∃ (s : State), s.Open ∧ s.dev.on SND_STATUS.BUSY = false) ∧
    (∃ (s : State), s.Ready ∧ s.dev.sweepDue = false) ∧
    (∃ (s : State), s.Ready ∧ s.dev.sweepDue = true ∧ (s.dev.variantOf s.dev.tck.now ≠ 0)) ∧
    (∃ (s : State), s.Ready ∧ s.dev.sweepDue = true ∧ s.dev.variantOf s.dev.tck.now = 0 ∧ s.dev.snd.sweep = none) ∧
    (∃ (s : State), s.Ready ∧ s.dev.snd.sweep = none) ∧
    (∃ (s : State) (w : Sweep), s.Ready ∧ s.dev.snd.sweep = some w ∧ w.pos < w.len) ∧
    (∃ (s : State) (w : Sweep), s.Ready ∧ s.dev.snd.sweep = some w ∧ w.len ≤ w.pos) ∧
    (∃ (s : State) (off : Nat) (len : Nat), s.Open ∧ 14680064 ≤ off ∧ off < 16777216 ∧ 1 ≤ len ∧
      s.dev.pageOpen ((off - 14680064) / 4096) = false) ∧
    (∃ (s : State) (off : Nat) (len : Nat), s.Open ∧ 14680064 ≤ off ∧ off < 16777216 ∧ 1 ≤ len ∧
      s.dev.pageOpen ((off - 14680064) / 4096) = true ∧ off % 4 = 0 ∧ len = 4) ∧
    (∃ (s : State), s.Open) ∧
    (∃ (s : State) (adj : Nat), s.Open ∧ adj < 4294967296 ∧ s.dev.isRoot = false) ∧
    (∃ (s : State) (adj : Nat), s.Open ∧ adj < 4294967296 ∧ s.dev.isRoot = true) ∧
    (∃ (s : State) (f : Bool), s.dev.dead = false ∧ s.dev.flt.todo = [] ∧ s.dev.on SXT_CTRL.PPS_IN_EN = true ∧
      s.dev.on SXT_CTRL.PPS_IN_POL = f) ∧
    (∃ (s : State) (f : Bool), s.dev.dead = false ∧ s.dev.flt.todo = [] ∧
      (s.dev.on SXT_CTRL.PPS_IN_EN = false ∨ s.dev.on SXT_CTRL.PPS_IN_POL = !f)) ∧
    (∃ (s : State), s.dev.dead = false ∧ s.dev.flt.todo = [] ∧ s.dev.on SXT_CTRL.CLK10M_EN = true) ∧
    (∃ (s : State), s.dev.dead = false ∧ s.dev.flt.todo = [] ∧ s.dev.on SXT_CTRL.CLK10M_EN = false) ∧
    (∃ (s : State), ∃ k, s.dev.dead = false ∧ s.dev.flt.todo = [] ∧ s.dev.on SXT_CTRL.PPS_OUT_EN = true ∧ s.dev.todUnits ≤ 4000000000 * k ∧
      4000000000 * k < s.dev.todUnits + 1536) ∧
    (∃ (s : State), s.dev.dead = false ∧ s.dev.flt.todo = [] ∧ s.dev.on SXT_CTRL.PPS_OUT_EN = false) ∧
    (∃ (s : State), s.dev.dead = false ∧ s.dev.flt.todo = [] ∧ s.dev.sxt.rise = none) ∧
    (∃ (s : State), ∃ t, s.dev.dead = false ∧ s.dev.flt.todo = [] ∧ s.dev.sxt.rise = some t ∧
      max 1 (s.dev.rd SXT_PPS_WIDTH.TICKS) ≤ tickSub s.dev.tck.now t) ∧
    (∃ (s : State), ∃ t, s.dev.dead = false ∧ s.dev.flt.todo = [] ∧ s.dev.sxt.rise = some t ∧
      tickSub s.dev.tck.now t < max 1 (s.dev.rd SXT_PPS_WIDTH.TICKS)) :=
  ⟨⟨(at_ fun d => d.wr SND_STATUS.BUSY 1), by decide +kernel⟩,
    ⟨State.reset, by decide +kernel⟩,
    ⟨State.reset, by decide +kernel⟩,
    ⟨(at_ fun d => { d.wr SND_SWEEP.PERIODIC 1 with nrg := { d.nrg with named := [(0, 1)] } }), by decide +kernel⟩,
    ⟨(at_ fun d => d.wr SND_SWEEP.PERIODIC 1), by decide +kernel⟩,
    ⟨State.reset, by decide +kernel⟩,
    ⟨(at_ fun d => { d with snd := { d.snd with sweep := some sweep0 } }), sweep0, by decide +kernel⟩,
    ⟨(at_ fun d => { d with snd := { d.snd with sweep := some { sweep0 with pos := 1 } } }), { sweep0 with pos := 1 }, by decide +kernel⟩,
    ⟨State.reset, 16777215, 1, by decide +kernel⟩,
    ⟨(at_ fun d => d.wr SND_USER_OPEN2.BITS 2), 14946304, 4, by decide +kernel⟩,
    ⟨State.reset, by decide +kernel⟩,
    ⟨State.reset, 0, by decide +kernel⟩,
    ⟨(at_ fun d => d.wr GLB_BOOT_STATUS.ROOT 1), 4294967295, by decide +kernel⟩,
    ⟨(at_ fun d => (d.wr SXT_CTRL.PPS_IN_EN 1).wr SXT_CTRL.PPS_IN_POL 1), true, by decide +kernel⟩,
    ⟨State.reset, false, by decide +kernel⟩,
    ⟨(at_ fun d => d.wr SXT_CTRL.CLK10M_EN 1), by decide +kernel⟩,
    ⟨State.reset, by decide +kernel⟩,
    ⟨(at_ fun d => d.wr SXT_CTRL.PPS_OUT_EN 1), 0, by decide +kernel⟩,
    ⟨State.reset, by decide +kernel⟩,
    ⟨State.reset, by decide +kernel⟩,
    ⟨(at_ fun d => { d with sxt := { d.sxt with rise := some 0 }, tck := { d.tck with now := 2 ^ 33 } }), 0, by decide +kernel⟩,
    ⟨(at_ fun d => { d with sxt := { d.sxt with rise := some 0 } }), 0, by decide +kernel⟩⟩

/-- The hypotheses of each clause of UpdateStaging can be met. -/
theorem witness_updateStaging :
    (∃ (s : State) (src : Nat), s.Open ∧ src < 4 ∧ (s.dev.rd FWU_STATUS.STATE ≠ fIdle)) ∧
    (∃ (s : State), s.Open ∧ s.dev.rd FWU_STATUS.STATE = fIdle) ∧
    (∃ (s : State), s.Ready ∧ (s.dev.rd FWU_STATUS.STATE ≠ fHdrCheck)) ∧
    (∃ (s : State), s.Ready ∧ s.dev.rd FWU_STATUS.STATE = fHdrCheck ∧ (s.dev.fwu.src ≠ 2) ∧ s.dev.fwu.cxlErr = false ∧
      8192 ≤ s.dev.fwu.hdr.length ∧ (s.dev.hdrCheck s.dev.fwu.boot s.dev.fwu.hdr ≠ 0)) ∧
    (∃ (s : State) (b : Nat), s.Open ∧ b < 8192 ∧ (s.dev.rd FWU_STATUS.STATE ≠ fStaging ∨ s.dev.fwu.src ≠ 0)) ∧
    (∃ (s : State) (b : Nat), s.Open ∧ b < 8192 ∧ s.dev.rd FWU_STATUS.STATE = fStaging ∧ s.dev.fwu.src = 0 ∧
      (hdrImg s.dev.fwu.hdr).payload ≤ 4096 * b) ∧
    (∃ (s : State) (b : Nat), s.Open ∧ b < 8192 ∧ s.dev.rd FWU_STATUS.STATE = fStaging ∧ s.dev.fwu.src = 0 ∧
      4096 * b < (hdrImg s.dev.fwu.hdr).payload) ∧
    (∃ (s : State), s.Ready ∧ (s.dev.rd FWU_STATUS.STATE ≠ fStaging)) ∧
    (∃ (s : State), s.Ready ∧ s.dev.rd FWU_STATUS.STATE = fStaging ∧ s.dev.fwu.cxlErr = false ∧ s.dev.payloadIn = false) ∧
    (∃ (s : State), s.Ready ∧ s.dev.rd FWU_STATUS.STATE = fStaging ∧ s.dev.fwu.cxlErr = false ∧ s.dev.payloadIn = true ∧
      s.dev.fwu.boot = false ∧ (s.dev.fwu.src ≠ 2) ∧ digestOk s.dev.fwu.hdr s.dev.payloadMoved = false) ∧
    (∃ (s : State), s.Ready ∧ s.dev.rd FWU_STATUS.STATE = fStaging ∧ s.dev.fwu.cxlErr = false ∧ s.dev.payloadIn = true ∧
      s.dev.fwu.boot = false ∧ (s.dev.fwu.src ≠ 2) ∧ digestOk s.dev.fwu.hdr s.dev.payloadMoved = true) ∧
    (∃ (s : State) (a : Nat), ∃ c, s.Open ∧ a < 268435456 ∧ s.dev.on FWU_FL_STATUS.BUSY = true ∧
      c ∈ [Instr.flashRead a, .flashProgram a, .flashErase a]) ∧
    (∃ (s : State) (a : Nat), ∃ p, s.Open ∧ a < 268435456 ∧ s.dev.on FWU_FL_STATUS.BUSY = false ∧
      p ∈ [(Instr.flashRead a, 1), (.flashProgram a, 2), (.flashErase a, 3)]) ∧
    (∃ (s : State), s.Ready ∧ s.dev.fwu.fl = none) ∧
    (∃ (s : State), ∃ c, s.Ready ∧ s.dev.fwu.fl = some c ∧ (c.code ≠ 0)) ∧
    (∃ (s : State), ∃ c, s.Ready ∧ s.dev.fwu.fl = some c ∧ c.code = 0) ∧
    (∃ (s : State), ∃ c, s.Ready ∧ s.dev.fwu.fl = some c ∧ c.code = 0 ∧ c.op = 2) ∧
    (∃ (s : State), ∃ c, s.Ready ∧ s.dev.fwu.fl = some c ∧ c.code = 0 ∧ c.op = 3) :=
  ⟨⟨(at_ fun d => d.wr FWU_STATUS.STATE fHandover), 3, by decide +kernel⟩,
    ⟨State.reset, by decide +kernel⟩,
    ⟨State.reset, by decide +kernel⟩,
    ⟨(at_ fun d => { d.wr FWU_STATUS.STATE fHdrCheck with fwu := { d.fwu with hdr := List.replicate 8192 0#8 } }), by decide +kernel⟩,
    ⟨State.reset, 0, by decide +kernel⟩,
    ⟨(at_ fun d => d.wr FWU_STATUS.STATE fStaging), 8191, by decide +kernel⟩,
    ⟨(at_ fun d => { d.wr FWU_STATUS.STATE fStaging with fwu := { d.fwu with hdr := List.replicate 44 0#8 ++ [2#8] } }), 8191,
      by decide +kernel⟩,
    ⟨State.reset, by decide +kernel⟩,
    ⟨(at_ fun d => { d.wr FWU_STATUS.STATE fStaging with fwu := { d.fwu with hdr := List.replicate 44 0#8 ++ [1#8] } }), by decide +kernel⟩,
    ⟨stagedDigest badDigest, ⟨rfl, rfl, rfl⟩, by decide +kernel, rfl, (staged_ok _).1, rfl, by decide, (staged_ok _).2.trans bad_digest⟩,
    ⟨stagedDigest goodDigest, ⟨rfl, rfl, rfl⟩, by decide +kernel, rfl, (staged_ok _).1, rfl, by decide, (staged_ok _).2.trans good_digest⟩,
    ⟨(at_ fun d => d.wr FWU_FL_STATUS.BUSY 1), 268435455, .flashErase 268435455, by decide +kernel⟩,
    ⟨State.reset, 268435455, (.flashErase 268435455, 3), by decide +kernel⟩,
    ⟨State.reset, by decide +kernel⟩,
    ⟨(at_ fun d => { d with fwu := { d.fwu with fl := some { op := 2, addr := 0x4000000, data := [], code := 3 } } }),
      { op := 2, addr := 0x4000000, data := [], code := 3 }, by decide +kernel⟩,
    ⟨(at_ fun d => { d with fwu := { d.fwu with fl := some { op := 1, addr := 0x4000000, data := [], code := 0 } } }),
      { op := 1, addr := 0x4000000, data := [], code := 0 }, by decide +kernel⟩,
    ⟨(at_ fun d => { d with fwu := { d.fwu with fl := some { op := 2, addr := 0x4000000, data := [], code := 0 } } }),
      { op := 2, addr := 0x4000000, data := [], code := 0 }, by decide +kernel⟩,
    ⟨(at_ fun d => { d with fwu := { d.fwu with fl := some { op := 3, addr := 0x4000000, data := [], code := 0 } } }),
      { op := 3, addr := 0x4000000, data := [], code := 0 }, by decide +kernel⟩⟩

/-- The hypotheses of each clause of UpdateActivation can be met. -/
theorem witness_updateActivation :
    (∃ (s : State), s.Open ∧ s.dev.rd FWU_STATUS.STATE = fStaged) ∧
    (∃ (s : State), s.Open ∧ (s.dev.rd FWU_STATUS.STATE ≠ fStaged)) ∧
    (∃ (s : State), s.Ready ∧ (s.dev.rd FWU_STATUS.STATE ≠ fLoading)) ∧
    (∃ (s : State), s.Ready ∧ s.dev.rd FWU_STATUS.STATE = fLoading) ∧
    (∃ (s : State), let h := s.dev.bankHdr s.dev.loadBank; s.Ready ∧ s.dev.rd FWU_STATUS.STATE = fLoading ∧
      digestOk h (s.dev.bankPayload s.dev.loadBank) = false) ∧
    (∃ (s : State), let h := s.dev.bankHdr s.dev.loadBank; s.Ready ∧ s.dev.rd FWU_STATUS.STATE = fLoading ∧
      digestOk h (s.dev.bankPayload s.dev.loadBank) = true) ∧
    (∃ (s : State), s.Open ∧ (s.dev.fwu.load = none ∨ s.dev.rd FWU_STATUS.STATE ≠ fLoaded)) ∧
    (∃ (s : State), ∃ i, let x := s.dev.rdPair FWU_ACT_TICK_LO.TICK FWU_ACT_TICK_HI.TICK; s.Open ∧ s.dev.fwu.load = some i ∧
      s.dev.rd FWU_STATUS.STATE = fLoaded ∧ s.dev.hdrCheckEnv i = 0 ∧
      (tickFuture x s.dev.tck.now = false ∨ tickSub x s.dev.tck.now < s.dev.holead + 2)) ∧
    (∃ (s : State), ∃ i, let x := s.dev.rdPair FWU_ACT_TICK_LO.TICK FWU_ACT_TICK_HI.TICK; s.Open ∧ s.dev.fwu.load = some i ∧
      s.dev.rd FWU_STATUS.STATE = fLoaded ∧ s.dev.hdrCheckEnv i = 0 ∧ tickFuture x s.dev.tck.now = true ∧
      s.dev.holead + 2 ≤ tickSub x s.dev.tck.now) ∧
    (∃ (s : State), s.Open ∧ s.dev.rd FWU_STATUS.STATE = fIdle) ∧
    (∃ (s : State), s.Open ∧ s.dev.rd FWU_STATUS.STATE = fStaging ∧ (s.dev.fwu.src ≠ 2)) ∧
    (∃ (s : State), s.Open ∧
      (s.dev.rd FWU_STATUS.STATE = fLoading ∨ s.dev.rd FWU_STATUS.STATE = fLoaded ∨ s.dev.rd FWU_STATUS.STATE = fHandover)) ∧
    (∃ (s : State), s.Open ∧ (s.dev.rd FWU_STATUS.STATE ≠ fTrial)) ∧
    (∃ (s : State), ∃ o r, s.Open ∧ s.dev.rd FWU_STATUS.STATE = fTrial ∧ s.dev.fwu.old = some o ∧ s.dev.fwu.run = some r ∧
      o.setfLow ≤ r.setfProd ∧ r.setfProd ≤ o.setfHigh) ∧
    (∃ (s : State), ∃ o r, s.Open ∧ s.dev.rd FWU_STATUS.STATE = fTrial ∧ s.dev.fwu.old = some o ∧ s.dev.fwu.run = some r ∧
      (r.setfProd < o.setfLow ∨ o.setfHigh < r.setfProd)) ∧
    (∃ (s : State) (dst : Nat) (b : Nat), s.Open ∧ dst < 65536 ∧ b < 2 ∧ (s.dev.fwu.tx ≠ none)) ∧
    (∃ (s : State) (dst : Nat) (b : Nat), s.Open ∧ dst < 65536 ∧ b < 2 ∧ s.dev.fwu.tx = none) ∧
    (∃ (s : State), s.Ready ∧ s.dev.fwu.x = none) ∧
    (∃ (s : State), s.Ready ∧ s.dev.rd FWU_STATUS.STATE = fLoaded ∧ s.dev.fwu.x = some (tickAdd s.dev.tck.now s.dev.holead)) ∧
    (∃ (s : State) (r : List Byte), s.Ready ∧ r.length ≤ 4194304 ∧ s.dev.rd FWU_STATUS.STATE = fHandover) ∧
    (∃ (s : State), s.Ready ∧ (s.dev.rd FWU_STATUS.STATE ≠ fHandover ∨ s.dev.fwu.x ≠ some s.dev.tck.now)) ∧
    (∃ (s : State), s.Ready ∧ s.dev.rd FWU_STATUS.STATE = fHandover ∧ s.dev.fwu.x = some s.dev.tck.now ∧
      (s.dev.on FWU_HO.READY_A = false ∨ s.dev.on FWU_HO.READY_T = false)) ∧
    (∃ (s : State), ∃ i, s.Ready ∧ s.dev.rd FWU_STATUS.STATE = fHandover ∧ s.dev.fwu.x = some s.dev.tck.now ∧
      s.dev.on FWU_HO.READY_A = true ∧ s.dev.on FWU_HO.READY_T = true ∧ s.dev.fwu.load = some i ∧ s.dev.fwu.revert = false) ∧
    (∃ (s : State), s.Ready ∧ (s.dev.rd FWU_STATUS.STATE ≠ fResync)) ∧
    (∃ (s : State), s.Ready ∧ s.dev.rd FWU_STATUS.STATE = fResync ∧ s.dev.fwu.revert = false) ∧
    (∃ (s : State) (k : Nat), s.Open ∧ k < 65536 ∧ (k ≠ 0x7E3B)) ∧
    (∃ (s : State) (k : Nat), s.Open ∧ k < 65536 ∧ k = 0x7E3B ∧ s.dev.rd FWU_STATUS.STATE = fTrial) ∧
    (∃ (s : State), s.Ready ∧ (s.dev.rd FWU_STATUS.STATE ≠ fConfirming)) ∧
    (∃ (s : State), s.Ready ∧ s.dev.rd FWU_STATUS.STATE = fConfirming) :=
  ⟨⟨(at_ fun d => d.wr FWU_STATUS.STATE fStaged), by decide +kernel⟩,
    ⟨State.reset, by decide +kernel⟩,
    ⟨State.reset, by decide +kernel⟩,
    ⟨(at_ fun d => d.wr FWU_STATUS.STATE fLoading), by decide +kernel⟩,
    ⟨loadedDigest badDigest, ⟨rfl, rfl, rfl⟩, by decide +kernel, (loaded_ok _).trans bad_digest⟩,
    ⟨loadedDigest goodDigest, ⟨rfl, rfl, rfl⟩, by decide +kernel, (loaded_ok _).trans good_digest⟩,
    ⟨State.reset, by decide +kernel⟩,
    ⟨(at_ fun d => { d.wr FWU_STATUS.STATE fLoaded with fwu := { d.fwu with load := some { version := 0, minPeer := 0, proto := 0, setfProd := 0, setfLow := 0, setfHigh := 0, svn := 0, revoke := 0, aLen := 0, tLen := 0 } } }),
      { version := 0, minPeer := 0, proto := 0, setfProd := 0, setfLow := 0, setfHigh := 0, svn := 0, revoke := 0, aLen := 0, tLen := 0 },
      by decide +kernel⟩,
    ⟨(at_ fun d => { ((d.wr FWU_STATUS.STATE fLoaded).wr FWU_ACT_TICK_LO.TICK 0xFFFFFFFF) with fwu := { d.fwu with load := some { version := 0, minPeer := 0, proto := 0, setfProd := 0, setfLow := 0, setfHigh := 0, svn := 0, revoke := 0, aLen := 0, tLen := 0 } } }),
      { version := 0, minPeer := 0, proto := 0, setfProd := 0, setfLow := 0, setfHigh := 0, svn := 0, revoke := 0, aLen := 0, tLen := 0 },
      by decide +kernel⟩,
    ⟨State.reset, by decide +kernel⟩,
    ⟨(at_ fun d => d.wr FWU_STATUS.STATE fStaging), by decide +kernel⟩,
    ⟨(at_ fun d => d.wr FWU_STATUS.STATE fHandover), by decide +kernel⟩,
    ⟨State.reset, by decide +kernel⟩,
    ⟨(at_ fun d => { d.wr FWU_STATUS.STATE fTrial with fwu := { d.fwu with old := some { version := 0, minPeer := 0, proto := 0, setfProd := 0, setfLow := 0, setfHigh := 0, svn := 0, revoke := 0, aLen := 0, tLen := 0 }, run := some { version := 0, minPeer := 0, proto := 0, setfProd := 0, setfLow := 0, setfHigh := 0, svn := 0, revoke := 0, aLen := 0, tLen := 0 } } }),
      { version := 0, minPeer := 0, proto := 0, setfProd := 0, setfLow := 0, setfHigh := 0, svn := 0, revoke := 0, aLen := 0, tLen := 0 },
      { version := 0, minPeer := 0, proto := 0, setfProd := 0, setfLow := 0, setfHigh := 0, svn := 0, revoke := 0, aLen := 0, tLen := 0 },
      by decide +kernel⟩,
    ⟨(at_ fun d => { d.wr FWU_STATUS.STATE fTrial with fwu := { d.fwu with old := some { version := 0, minPeer := 0, proto := 0, setfProd := 0, setfLow := 1, setfHigh := 1, svn := 0, revoke := 0, aLen := 0, tLen := 0 }, run := some { version := 0, minPeer := 0, proto := 0, setfProd := 0, setfLow := 0, setfHigh := 0, svn := 0, revoke := 0, aLen := 0, tLen := 0 } } }),
      { version := 0, minPeer := 0, proto := 0, setfProd := 0, setfLow := 1, setfHigh := 1, svn := 0, revoke := 0, aLen := 0, tLen := 0 },
      { version := 0, minPeer := 0, proto := 0, setfProd := 0, setfLow := 0, setfHigh := 0, svn := 0, revoke := 0, aLen := 0, tLen := 0 },
      by decide +kernel⟩,
    ⟨(at_ fun d => { d with fwu := { d.fwu with tx := some { peer := 1, xid := 0, bank := 0, len := 0, next := 0, acked := 0, accepted := false, last := 0, tries := 0 } } }),
      65535, 1, by decide +kernel⟩,
    ⟨State.reset, 0, 0, by decide +kernel⟩,
    ⟨State.reset, by decide +kernel⟩,
    ⟨(at_ fun d => { (d.wr FWU_STATUS.STATE fLoaded).wr FWU_HOLEAD.TICKS 16 with fwu := { d.fwu with x := some 16 } }), by decide +kernel⟩,
    ⟨(at_ fun d => d.wr FWU_STATUS.STATE fHandover), [1#8], by decide +kernel⟩,
    ⟨State.reset, by decide +kernel⟩,
    ⟨(at_ fun d => { d.wr FWU_STATUS.STATE fHandover with fwu := { d.fwu with x := some 0 } }), by decide +kernel⟩,
    ⟨(at_ fun d => { ((d.wr FWU_STATUS.STATE fHandover).wr FWU_HO.READY_A 1).wr FWU_HO.READY_T 1 with fwu := { d.fwu with x := some 0, load := some { version := 0, minPeer := 0, proto := 0, setfProd := 0, setfLow := 0, setfHigh := 0, svn := 0, revoke := 0, aLen := 0, tLen := 0 } } }),
      { version := 0, minPeer := 0, proto := 0, setfProd := 0, setfLow := 0, setfHigh := 0, svn := 0, revoke := 0, aLen := 0, tLen := 0 },
      by decide +kernel⟩,
    ⟨State.reset, by decide +kernel⟩,
    ⟨(at_ fun d => d.wr FWU_STATUS.STATE fResync), by decide +kernel⟩,
    ⟨State.reset, 0, by decide +kernel⟩,
    ⟨(at_ fun d => d.wr FWU_STATUS.STATE fTrial), 0x7E3B, by decide +kernel⟩,
    ⟨State.reset, by decide +kernel⟩,
    ⟨(at_ fun d => d.wr FWU_STATUS.STATE fConfirming), by decide +kernel⟩⟩

/-- The hypotheses of each clause of Relay can be met. -/
theorem witness_relay :
    (∃ (s : State) (m : FwrMsg), ∃ c, s.dev.dead = false ∧ s.dev.flt.todo = [] ∧ m.port < 3 ∧ s.dev.hears m.port = false ∧
      c ∈ [Instr.fwrVersion m, .fwrOffer m, .fwrAccept m, .fwrRefuse m, .fwrData m, .fwrAck m, .fwrDone m, .fwrAbort m, .fwrRequest m]) ∧
    (∃ (s : State) (m : FwrMsg), let d := s.dev.heard m.port; s.dev.dead = false ∧ m.port < 3 ∧ s.dev.hears m.port = true ∧ m.dst = 0 ∧
      d.nbrPort m.src = none) ∧
    (∃ (s : State) (m : FwrMsg), ∃ n, let d := s.dev.heard m.port; s.dev.dead = false ∧ m.port < 3 ∧ s.dev.hears m.port = true ∧
      m.dst = 0 ∧ d.nbrPort m.src = some n ∧ d.fwu.run = none) ∧
    (∃ (s : State) (m : FwrMsg), ∃ n, let d := s.dev.heard m.port; s.dev.dead = false ∧ m.port < 3 ∧ s.dev.hears m.port = true ∧
      m.dst = 0 ∧ d.rxOf m = none ∧ d.nbrPort m.src = some n ∧ d.fwu.rx = none ∧ d.rd FWU_STATUS.STATE = fIdle ∧ m.offset = 0) ∧
    (∃ (s : State) (m : FwrMsg), ∃ r, let d := s.dev.heard m.port; let p := (hdrImg d.fwu.hdr).payload;
      let next := d.fwu.next + (m.data.take (p - d.fwu.next)).length; s.dev.dead = false ∧ m.port < 3 ∧ s.dev.hears m.port = true ∧
      m.dst = 0 ∧ d.rxOf m = some r ∧ d.rd FWU_STATUS.STATE = fStaging ∧ d.fwu.src = 2 ∧ m.offset = 8192 + d.fwu.next ∧ next < p ∧
      (r.chunks ≠ 15)) ∧
    (∃ (s : State) (m : FwrMsg), let d := s.dev.heard m.port; s.dev.dead = false ∧ m.port < 3 ∧ s.dev.hears m.port = true ∧ m.dst = 0 ∧
      d.rxOf m = none ∧ d.nbrPort m.src = none) ∧
    (∃ (s : State) (m : FwrMsg), let d := s.dev.heard m.port; s.dev.dead = false ∧ m.port < 3 ∧ s.dev.hears m.port = true ∧ m.dst = 0 ∧
      d.txOf m = none) ∧
    (∃ (s : State) (m : FwrMsg), let d := s.dev.heard m.port; s.dev.dead = false ∧ m.port < 3 ∧ s.dev.hears m.port = true ∧ m.dst = 0 ∧
      d.rxOf m = none) ∧
    (∃ (s : State) (m : FwrMsg), let d := s.dev.heard m.port; s.dev.dead = false ∧ m.port < 3 ∧ s.dev.hears m.port = true ∧ m.dst = 0 ∧
      d.txOf m = none ∧ d.rxOf m = none) ∧
    (∃ (s : State) (m : FwrMsg), ∃ x, let d := s.dev.heard m.port; s.dev.dead = false ∧ m.port < 3 ∧ s.dev.hears m.port = true ∧
      m.dst = 0 ∧ d.txOf m = some x ∧ x.accepted = false) ∧
    (∃ (s : State) (m : FwrMsg), ∃ x, let d := s.dev.heard m.port; s.dev.dead = false ∧ m.port < 3 ∧ s.dev.hears m.port = true ∧
      m.dst = 0 ∧ d.txOf m = some x ∧ x.accepted = true) ∧
    (∃ (s : State) (m : FwrMsg), ∃ x, let d := s.dev.heard m.port; s.dev.dead = false ∧ m.port < 3 ∧ s.dev.hears m.port = true ∧
      m.dst = 0 ∧ d.txOf m = some x) ∧
    (∃ (s : State) (m : FwrMsg), ∃ x, let d := s.dev.heard m.port; s.dev.dead = false ∧ m.port < 3 ∧ s.dev.hears m.port = true ∧
      m.dst = 0 ∧ d.txOf m = some x ∧ d.rxOf m = none) ∧
    (∃ (s : State) (m : FwrMsg), ∃ x, let d := s.dev.heard m.port; s.dev.dead = false ∧ m.port < 3 ∧ s.dev.hears m.port = true ∧
      m.dst = 0 ∧ d.txOf m = some x ∧ x.acked < m.arg ∧ m.arg ≤ x.len) ∧
    (∃ (s : State) (m : FwrMsg), ∃ r, let d := s.dev.heard m.port; s.dev.dead = false ∧ m.port < 3 ∧ s.dev.hears m.port = true ∧
      m.dst = 0 ∧ d.rxOf m = some r ∧ (d.rd FWU_STATUS.STATE ≠ fStaging)) ∧
    (∃ (s : State) (m : FwrMsg), ∃ r, let d := s.dev.heard m.port; s.dev.dead = false ∧ m.port < 3 ∧ s.dev.hears m.port = true ∧
      m.dst = 0 ∧ d.rxOf m = some r ∧ d.rd FWU_STATUS.STATE = fHdrCheck ∧ m.offset = d.fwu.hdr.length) ∧
    (∃ (s : State) (m : FwrMsg), let d := s.dev.heard m.port; s.dev.dead = false ∧ m.port < 3 ∧ s.dev.hears m.port = true ∧ m.dst = 0 ∧
      (d.fwu.tx ≠ none)) ∧
    (∃ (s : State) (m : FwrMsg), let d := s.dev.heard m.port; s.dev.dead = false ∧ m.port < 3 ∧ s.dev.hears m.port = true ∧ m.dst = 0 ∧
      d.fwu.tx = none) ∧
    (∃ (s : State), s.Ready ∧ s.dev.fwu.tx = none) ∧
    (∃ (s : State), ∃ x, s.Ready ∧ s.dev.fwu.tx = some x ∧ tickSub s.dev.tck.now x.last < s.dev.rto) ∧
    (∃ (s : State), ∃ x, s.Ready ∧ s.dev.fwu.tx = some x ∧ s.dev.rto ≤ tickSub s.dev.tck.now x.last ∧ x.tries < s.dev.rd FWU_RELAY.RETRY) ∧
    (∃ (s : State), ∃ x, s.Ready ∧ s.dev.fwu.tx = some x ∧ s.dev.rto ≤ tickSub s.dev.tck.now x.last ∧ s.dev.rd FWU_RELAY.RETRY ≤ x.tries) ∧
    (∃ (s : State), s.Ready ∧ s.dev.fwu.rx = none) ∧
    (∃ (s : State), ∃ r, s.Ready ∧ s.dev.fwu.rx = some r ∧ tickSub s.dev.tck.now r.last < (s.dev.rd FWU_RELAY.RETRY + 1) * s.dev.rto) ∧
    (∃ (s : State), ∃ r, s.Ready ∧ s.dev.fwu.rx = some r ∧ (s.dev.rd FWU_RELAY.RETRY + 1) * s.dev.rto ≤ tickSub s.dev.tck.now r.last) :=
  ⟨⟨(at_ fun d => (d.wr (CVY_PORT_CTL.EN 2) 0)), { fwr0 with port := 2 }, .fwrRequest { fwr0 with port := 2 }, by decide +kernel⟩,
    ⟨State.reset, fwr0, by decide +kernel⟩,
    ⟨(at_ fun d => { ((d.wr (CVY_PORT_CTL.EN 2) 1).wr CVY_ADDR.ADDR 1) with cvy := { d.cvy with kids := [(2, { count := 1, height := 0, hopmax := 0 })] } }),
      { fwr0 with port := 2, src := 2 }, 2, by decide +kernel⟩,
    ⟨(at_ fun d => { ((d.wr (CVY_PORT_CTL.EN 2) 1).wr CVY_ADDR.ADDR 1) with cvy := { d.cvy with kids := [(2, { count := 1, height := 0, hopmax := 0 })] } }),
      { fwr0 with port := 2, src := 2 }, 2, by decide +kernel⟩,
    ⟨(at_ fun d => { ((d.wr (CVY_PORT_CTL.EN 2) 1).wr FWU_STATUS.STATE fStaging) with fwu := { d.fwu with rx := some { peer := 0, xid := 0, last := 0, chunks := 14 }, src := 2, hdr := List.replicate 44 0#8 ++ [1#8] } }),
      { fwr0 with port := 2, offset := 8192, data := List.replicate 112 0#8 }, { peer := 0, xid := 0, last := 0, chunks := 14 },
      by decide +kernel⟩,
    ⟨State.reset, fwr0, by decide +kernel⟩,
    ⟨State.reset, fwr0, by decide +kernel⟩,
    ⟨State.reset, fwr0, by decide +kernel⟩,
    ⟨State.reset, fwr0, by decide +kernel⟩,
    ⟨(at_ fun d => { (d.wr (CVY_PORT_CTL.EN 2) 1) with fwu := { d.fwu with tx := some { peer := 0, xid := 0, bank := 0, len := 0, next := 112, acked := 0, accepted := false, last := 0, tries := 0 } } }),
      { fwr0 with port := 2 },
      { peer := 0, xid := 0, bank := 0, len := 0, next := 112, acked := 0, accepted := false, last := 0, tries := 0 }, by decide +kernel⟩,
    ⟨(at_ fun d => { (d.wr (CVY_PORT_CTL.EN 2) 1) with fwu := { d.fwu with tx := some { peer := 0, xid := 0, bank := 0, len := 112, next := 112, acked := 0, accepted := true, last := 0, tries := 0 } } }),
      { fwr0 with port := 2 },
      { peer := 0, xid := 0, bank := 0, len := 112, next := 112, acked := 0, accepted := true, last := 0, tries := 0 }, by decide +kernel⟩,
    ⟨(at_ fun d => { (d.wr (CVY_PORT_CTL.EN 2) 1) with fwu := { d.fwu with tx := some { peer := 0, xid := 0, bank := 0, len := 0, next := 112, acked := 0, accepted := false, last := 0, tries := 0 } } }),
      { fwr0 with port := 2 },
      { peer := 0, xid := 0, bank := 0, len := 0, next := 112, acked := 0, accepted := false, last := 0, tries := 0 }, by decide +kernel⟩,
    ⟨(at_ fun d => { (d.wr (CVY_PORT_CTL.EN 2) 1) with fwu := { d.fwu with tx := some { peer := 0, xid := 0, bank := 0, len := 0, next := 112, acked := 0, accepted := false, last := 0, tries := 0 } } }),
      { fwr0 with port := 2 },
      { peer := 0, xid := 0, bank := 0, len := 0, next := 112, acked := 0, accepted := false, last := 0, tries := 0 }, by decide +kernel⟩,
    ⟨(at_ fun d => { (d.wr (CVY_PORT_CTL.EN 2) 1) with fwu := { d.fwu with tx := some { peer := 0, xid := 0, bank := 0, len := 112, next := 112, acked := 0, accepted := false, last := 0, tries := 0 } } }),
      { fwr0 with port := 2, arg := 112 },
      { peer := 0, xid := 0, bank := 0, len := 112, next := 112, acked := 0, accepted := false, last := 0, tries := 0 }, by decide +kernel⟩,
    ⟨(at_ fun d => { ((d.wr (CVY_PORT_CTL.EN 2) 1).wr FWU_STATUS.STATE fIdle) with fwu := { d.fwu with rx := some { peer := 0, xid := 0, last := 0, chunks := 14 } } }),
      { fwr0 with port := 2 }, { peer := 0, xid := 0, last := 0, chunks := 14 }, by decide +kernel⟩,
    ⟨(at_ fun d => { ((d.wr (CVY_PORT_CTL.EN 2) 1).wr FWU_STATUS.STATE fHdrCheck) with fwu := { d.fwu with rx := some { peer := 0, xid := 0, last := 0, chunks := 14 } } }),
      { fwr0 with port := 2 }, { peer := 0, xid := 0, last := 0, chunks := 14 }, by decide +kernel⟩,
    ⟨(at_ fun d => { (d.wr (CVY_PORT_CTL.EN 2) 1) with fwu := { d.fwu with tx := some { peer := 0, xid := 0, bank := 0, len := 0, next := 112, acked := 0, accepted := false, last := 0, tries := 0 } } }),
      { fwr0 with port := 2 }, by decide +kernel⟩,
    ⟨State.reset, fwr0, by decide +kernel⟩,
    ⟨State.reset, by decide +kernel⟩,
    ⟨(at_ fun d => { d with fwu := { d.fwu with tx := some { peer := 1, xid := 0, bank := 0, len := 0, next := 0, acked := 0, accepted := false, last := 0, tries := 0 } }, tck := { d.tck with now := 0 } }),
      { peer := 1, xid := 0, bank := 0, len := 0, next := 0, acked := 0, accepted := false, last := 0, tries := 0 }, by decide +kernel⟩,
    ⟨(at_ fun d => { d.wr FWU_RELAY.RETRY 1 with fwu := { d.fwu with tx := some { peer := 1, xid := 0, bank := 0, len := 0, next := 0, acked := 0, accepted := false, last := 0, tries := 0 } }, tck := { d.tck with now := 8589934592 } }),
      { peer := 1, xid := 0, bank := 0, len := 0, next := 0, acked := 0, accepted := false, last := 0, tries := 0 }, by decide +kernel⟩,
    ⟨(at_ fun d => { d with fwu := { d.fwu with tx := some { peer := 1, xid := 0, bank := 0, len := 0, next := 0, acked := 0, accepted := false, last := 0, tries := 15 } }, tck := { d.tck with now := 8589934592 } }),
      { peer := 1, xid := 0, bank := 0, len := 0, next := 0, acked := 0, accepted := false, last := 0, tries := 15 }, by decide +kernel⟩,
    ⟨State.reset, by decide +kernel⟩,
    ⟨(at_ fun d => { d with fwu := { d.fwu with rx := some { peer := 0, xid := 0, last := 0, chunks := 14 } }, tck := { d.tck with now := 0 } }),
      { peer := 0, xid := 0, last := 0, chunks := 14 }, by decide +kernel⟩,
    ⟨(at_ fun d => { d with fwu := { d.fwu with rx := some { peer := 0, xid := 0, last := 0, chunks := 14 } }, tck := { d.tck with now := 1099511627776 } }),
      { peer := 0, xid := 0, last := 0, chunks := 14 }, by decide +kernel⟩⟩

/-- The hypotheses of each clause of ShadowBankRefuses can be met. -/
theorem witness_shadowBankRefuses :
    (∃ (s : State) (c : LoadCmd), s.Ready ∧ s.dev.cht.ld = some c ∧ c.go = true ∧ c.rd = false ∧
      (s.dev.on CHT_STATUS.OLD_BUSY = true ∨ s.dev.on CHT_STATUS.CHECKING = true ∨ s.dev.on CHT_STATUS.ARMED = true)) ∧
    (∃ (s : State) (c : LoadCmd), s.Ready ∧ s.dev.cht.prsLd = some c ∧ c.go = true ∧ c.rd = false ∧
      (s.dev.on CHT_STATUS.OLD_BUSY = true ∨ s.dev.on CHT_STATUS.CHECKING = true ∨ s.dev.on CHT_STATUS.ARMED = true)) ∧
    (∃ (s : State) (c : LoadCmd), s.Ready ∧ s.dev.cht.ld = some c ∧ c.go = false ∧ c.rd = true ∧ checkTarget c.addr = none) ∧
    (∃ (s : State) (c : LoadCmd), s.Ready ∧ s.dev.cht.prsLd = some c ∧ c.go = false ∧ c.rd = true ∧ prsTarget c.addr = 0) :=
  ⟨⟨(at_ fun d => { d.wr CHT_STATUS.OLD_BUSY 1 with cht := { d.cht with ld := some { go := true, rd := false, addr := 0#32, data := 0#256 } } }),
      { go := true, rd := false, addr := 0#32, data := 0#256 }, by decide +kernel⟩,
    ⟨(at_ fun d => { d.wr CHT_STATUS.CHECKING 1 with cht := { d.cht with prsLd := some { go := true, rd := false, addr := 0#32, data := 0#256 } } }),
      { go := true, rd := false, addr := 0#32, data := 0#256 }, by decide +kernel⟩,
    ⟨(at_ fun d => { d with cht := { d.cht with ld := some { go := false, rd := true, addr := 0#32, data := 0#256 } } }),
      { go := false, rd := true, addr := 0#32, data := 0#256 }, by decide +kernel⟩,
    ⟨(at_ fun d => { d with cht := { d.cht with prsLd := some { go := false, rd := true, addr := 0#32, data := 0#256 } } }),
      { go := false, rd := true, addr := 0#32, data := 0#256 }, by decide +kernel⟩⟩

/-- The hypotheses of each clause of LeastEnergyClass can be met. -/
theorem witness_leastEnergyClass :
    ∃ (row : BitVec 256) (egress : Bool) (stage : Nat), rowValid row = true ∧ checkRow row egress stage = none :=
  ⟨goodRow, false, 6, by decide +kernel⟩

/-- The hypotheses of each clause of ArithmeticWraps can be met. -/
theorem witness_arithmeticWraps :
    (∃ (s : AluSlot), s.w < 4 ∧ s.dst + s.bytes ≤ 512 ∧ s.opc = 0x10) ∧
    (∃ (s : AluSlot), s.w < 4 ∧ s.dst + s.bytes ≤ 512 ∧ s.opc = 0x11) ∧
    (∃ (s : AluSlot), s.w < 4 ∧ s.dst + s.bytes ≤ 512 ∧ s.opc = 0x12) ∧
    (∃ (s : AluSlot), s.w < 4 ∧ s.dst + s.bytes ≤ 512 ∧ s.opc = 0x20) ∧
    (∃ (s : AluSlot), s.w < 4 ∧ s.dst + s.bytes ≤ 512 ∧ s.opc = 0x21) ∧
    (∃ (s : AluSlot), s.w < 4 ∧ s.dst + s.bytes ≤ 512 ∧ s.opc = 0x22) ∧
    (∃ (s : AluSlot), s.w < 4 ∧ s.dst + s.bytes ≤ 512 ∧ s.opc = 0x23) ∧
    (∃ (s : AluSlot), s.w < 4 ∧ s.dst + s.bytes ≤ 512 ∧ s.opc = 0x24) ∧
    (∃ (s : AluSlot), s.w < 4 ∧ s.dst + s.bytes ≤ 512 ∧ s.opc = 0x25) ∧
    (∃ (m : Manifest) (s : AluSlot), let b := mget m s.b s.bytes; s.w < 4 ∧ s.dst + s.bytes ≤ 512 ∧ (s.opc = 0x19 ∨ s.opc = 0x1A) ∧
      8 * s.bytes ≤ b % 64) ∧
    (∃ (i : Nat) (raw : Nat), checkSlot i raw = none ∧ ((aluSlot raw).opc = 0x1B ∨ (aluSlot raw).opc = 0x1C)) :=
  ⟨⟨{ opc := 16, w := 3, dst := 504, a := 0, b := 8, aux := 0 }, by decide +kernel⟩,
    ⟨{ opc := 17, w := 3, dst := 504, a := 0, b := 8, aux := 0 }, by decide +kernel⟩,
    ⟨{ opc := 18, w := 3, dst := 504, a := 0, b := 8, aux := 0 }, by decide +kernel⟩,
    ⟨{ opc := 32, w := 3, dst := 504, a := 0, b := 8, aux := 0 }, by decide +kernel⟩,
    ⟨{ opc := 33, w := 3, dst := 504, a := 0, b := 8, aux := 0 }, by decide +kernel⟩,
    ⟨{ opc := 34, w := 3, dst := 504, a := 0, b := 8, aux := 0 }, by decide +kernel⟩,
    ⟨{ opc := 35, w := 3, dst := 504, a := 0, b := 8, aux := 0 }, by decide +kernel⟩,
    ⟨{ opc := 36, w := 3, dst := 504, a := 0, b := 8, aux := 0 }, by decide +kernel⟩,
    ⟨{ opc := 37, w := 3, dst := 504, a := 0, b := 8, aux := 0 }, by decide +kernel⟩,
    ⟨1#4096 <<< 4091, { opc := 0x19, w := 0, dst := 511, a := 0, b := 0, aux := 0 }, by decide +kernel⟩,
    ⟨0, shiftSlot, by decide +kernel⟩⟩

/-- The hypotheses of each clause of EnergyAtReset can be met. -/
theorem witness_energyAtReset :
    (∃ (i : ColdIn), i.mode < 3 ∧ i.bootSrc < 4 ∧ i.fuseOk = true) ∧
    (∃ (s : State), s.dev.dead = false ∧ s.dev.held = false) :=
  ⟨⟨cold0, by decide +kernel⟩,
    ⟨State.reset, by decide +kernel⟩⟩

/-! ### Witnesses that need more than evaluation -/

/-- A state in which a header's check is due. -/
def checking (boot : Bool) (h : List Byte) : State :=
  at_ fun d => { d.wr FWU_STATUS.STATE fHdrCheck with fwu := { d.fwu with boot, hdr := h } }

/-- The signatures' checks are opaque (Config.verifies), so no header can be shown to pass; every header that does meets the hypotheses. -/
theorem witness_headerPasses (boot : Bool) (h : List Byte) (len : 8192 ≤ h.length) (ok : (checking boot h).dev.hdrCheck boot h = 0) :
    ∃ s : State, s.Ready ∧ s.dev.rd FWU_STATUS.STATE = fHdrCheck ∧ s.dev.fwu.src ≠ 2 ∧ s.dev.fwu.cxlErr = false ∧
      8192 ≤ s.dev.fwu.hdr.length ∧ s.dev.hdrCheck s.dev.fwu.boot s.dev.fwu.hdr = 0 ∧ s.dev.fwu.boot = boot :=
  ⟨checking boot h, ⟨rfl, rfl, rfl⟩,
    show (State.reset.dev.wr FWU_STATUS.STATE fHdrCheck).rd FWU_STATUS.STATE = fHdrCheck by decide +kernel, show 0 ≠ 2 by decide, rfl, len, ok,
    rfl⟩

/-- A tick number that is not the last. -/
theorem witness_futureTicks : ∃ n k : Nat, n < 0xFFFFFFFFFFFF ∧ 2 ^ 47 ≤ k ∧ k < 2 ^ 48 := ⟨0xFFFFFFFFFFFE, 2 ^ 48 - 1, by decide +kernel⟩

/-- A counting context. -/
theorem witness_contextCounts : ∃ (d : Dev) (q : LkReq), q.tbl = 0 ∧ q.ok = true ∧ d.ueAt 0x181 .ctx (ofBe (fitBytes q.key 3) % 2 ^ 18) = false ∧
    SMap.wf 0 d.lku.ctx = true ∧ bit (cget (SMap.get 0 d.lku.ctx (ofBe (fitBytes q.key 3) % 2 ^ 18)) 30 1) 7 = true ∧ 2 ≤ bits q.opt 0 2 :=
  ⟨{ State.reset.dev with lku := { State.reset.dev.lku with ctx := [(5, cset 0 30 1 0x80)] } },
    { eng := 6, ok := true, klen := 3, maskp := 0, key := [0#8, 0#8, 5#8], tbl := 0, opt := 3, rdst := 0, words := 1 }, by decide +kernel⟩

/-! ### The spec's worked examples -/

/-- Table 2.23: the assembled rows, with their NXT and LKP, each of which the loader accepts at its stage. -/
theorem test_assembled_rows :
    (let r := 0x68000000410000000009D00000001D3356150000194D185400008274C0008847#256
     rowNxt r = 0x41 ∧ rowLkp r = 0 ∧ rowEclass r = 6 ∧ checkRow r false 4 = none) ∧
    (let r := 0x0820074642431802000000000000000000000000000000000000000000000000#256
     rowNxt r = 0x20074642 ∧ rowLkp r = 0x43180200 ∧ checkRow r false 5 = none) := by decide +kernel

/-- Table 2.23, row 0x0C4: its class, its last slot (OR, W 0b10, DST and SRCA 0x1A8, SRCB 0x1C8) and its NXT. -/
theorem test_slot_packing :
    let r := 0x4880000000000000000700730000001811D40000006FA710000009B51A8E4000#256
    rowEclass r = 4 ∧ rowNxt r = 0x80000000 ∧ checkRow r false 19 = none ∧
      aluSlot (rowSlot r 3) = { opc := 0x09, w := 2, dst := 0x1A8, a := 0x1A8, b := 0x1C8, aux := 0 } := by decide +kernel

/-- Table 2.24: SPLICE 0x0604_9860 cuts 12 bytes, deletes 2 and inserts the 6 at offset 0x26. -/
theorem test_splice : (spCut 0x06049860, spDel 0x06049860, spOff 0x06049860, spLen 0x06049860) = (12, 2, 0x26, 6) := by decide +kernel

/-- Table 2.8 and R49: an ADD of two bytes wraps, a SUB wraps, ADDS saturates. -/
theorem test_add_wraps :
    let m := mset (mset 0 0 1 0xF0) 1 1 0x20
    let s : AluSlot := { opc := 0x10, w := 0, dst := 2, a := 0, b := 1, aux := 0 }
    let run (opc : Nat) := mget (aluWrite (fun _ => 0) m m { s with opc }) 2 1
    run 0x10 = 0x10 ∧ run 0x11 = 0xD0 ∧ run 0x14 = 0xFF ∧ run 0x16 = 0x20 := by decide +kernel

/-- Section 4: transition state 2 of the reference graph as R106 assembles it. -/
theorem test_parse_state :
    let s := pState 0x800190100000000040802061D1000000#128
    [s.htype, s.slot, s.baselen, s.selHi, s.selLo, s.tbase, s.tcount, s.dflt, s.clsBit] = [3, 2, 4, 2, 4, 8, 3, 14, 2] ∧
      s.clsEn = true := by decide +kernel

/-- Table 6.8: the walk for 2001:db8:7e40:1c00::9. -/
theorem test_tier2_walk :
    let a := 0x20010db87e401c000000000000000009
    t2Next true 1 a 18 0 0xBC00000400000000 = .read 0x40001B708 34 ∧
    t2Next true 1 a 34 1 0xBC00000400080000 = .read 0x4000FC800 50 ∧
    t2Next true 1 a 50 2 0x9C00000400100000 = .read 0x400100380 58 ∧
    t2Next true 1 a 58 3 0x403800000001F0A2 = .done (beBytes 8 0x803800000001F0A2) := by decide +kernel

/-- The example of R348 to R351: with height 2 and a largest hop of 49 ns the least announce lead is 4. -/
theorem test_announce_lead : kMin 2 (4 * 49) = 4 := by decide

/-- R7: the last tick number is followed by 0, and targets are compared across the wrap. -/
theorem test_tick_wraps : tickAdd 0xFFFFFFFFFFFF 1 = 0 ∧ tickFuture 2 0xFFFFFFFFFFFF = true ∧ tickFuture 0xFFFFFFFFFFFF 2 = false := by decide

/-- Section 18: the record of Table 18.5's sweep, the 42nd of its stream, and the pair's value. -/
theorem test_counters_record :
    recHeader 0x01 1 0 0 42 9000000 0 ++ [0x0000000800000001, 0x3E8].flatMap (beBytes 8) =
      [0x01, 0x01, 0, 0, 0, 0, 0, 0x2A, 0, 0, 0, 0x89, 0x54, 0x40, 0, 0, 0, 0, 0, 8, 0, 0, 0, 1, 0, 0, 0, 0, 0, 0, 3, 0xE8] := by decide +kernel

/-- R457's examples: HST_PUNT5_STATE and CGE_SLOTc_CTL at reset; Table 21.2: GLB_ID, TCK_CYC, FLT and others. -/
theorem test_reset_values :
    State.reset.dev.reg 0x023010AC = 0x00010000#32 ∧ State.reset.dev.reg (CGE_SLOT_CTL.addr 31) = 0x00001FC0#32 ∧
    State.reset.dev.reg 0 = 0x512000B1#32 ∧ State.reset.dev.reg 0x00100010 = 0x03FF0000#32 ∧
    State.reset.dev.reg 0x01C00024 = 0x1007F281#32 ∧ State.reset.dev.reg 0x0180000C = 0x00100000#32 := by decide +kernel

/-- Table 8.5: the tags' increments for 1,520 wire bytes at weight 3 and 84 at weight 1, and without the overhead. -/
theorem test_tag_increments : (1496 + 24) * 256 / 3 = 129706 ∧ State.reset.dev.wireLen 700 1496 = 1520 ∧ State.reset.dev.wireLen 700 60 = 84 := by
  decide +kernel

/-! ### Single commands -/

/-- The device after a command; the device before it where there is none. -/
def after (c : Instr) (s : State) : Dev := match exec c s with
  | .next t => t.dev
  | _ => s.dev

/-- R4: a write of an RWT register (DPT_TRANSIT_RSV) waits for the boundary. -/
theorem test_rwt_write_waits :
    let d := after (.registerWrite 0 0x01800004 0xFFFFFFFF) State.reset
    d.reg 0x01800004 = 0x4000#32 ∧ SMap.find d.rwt 0x01800004 ≠ none := by decide +kernel

/-- R3: an unaligned access counts in HST_BAD_ACCESS. -/
theorem test_bad_access : (after (.hostBadAccess 0 2 4) State.reset).rd HST_BAD_ACCESS.COUNT = 1 := by decide +kernel

/-- R2: a reserved MODE holds the device in cold reset. -/
theorem test_reserved_mode : (after (.coldReset { cold0 with mode := 3 }) State.reset).dead = true := by decide +kernel

/-- R14: a frame with 64 bytes on a port that exists waits for its boundary; a runt does not. -/
theorem test_frame_receive :
    let s := at_ fun d => d.wr (WAN_CAGE.MODE 31) 4
    (after (.frameReceive 255 7 false (List.replicate 64 0#8)) s).tck.rx.length = 1 ∧
    (after (.frameReceive 255 7 false (List.replicate 63 0#8)) s).tck.rx.length = 0 := by decide +kernel

/-- Table 17.7: a record is written in the Trelier half and opens a quench window. -/
theorem test_fault_logged :
    let d := after (.faultDetect 0x225 2 0x05 0 false []) (at_ fun d => d.wr (FLT_REACT.CONT 0x225) 3)
    d.flt.logT.length = 1 ∧ d.rd FLT_STATUS.QUENCH = 1 ∧ d.rd FLT_STATUS.FAULTN = 1 := by decide +kernel

/-- R444: without the standby supply a command does nothing. -/
theorem test_dead_device_ignores :
    let s := at_ fun d => { d with pwr := { d.pwr with standby := false } }
    (after (.warmReset) s).rd GLB_RST_CAUSE.LAST = 0 ∧ (after (.warmReset) State.reset).rd GLB_RST_CAUSE.LAST = 1 := by decide +kernel

end Sys2Proof.Tests
end

section
/-!
Tick numbers (spec/00_scope.md, R7): what `tickAdd`, `tickSub`, `tickFuture` and `tickReached` answer, and the obligation on them.
-/
namespace Sys2Proof.Machine

theorem tickAdd_lt (n k : Nat) : tickAdd n k < 2 ^ 48 := Nat.mod_lt _ (by decide)

theorem tickAdd_mod (n k : Nat) : tickAdd n k % 2 ^ 48 = (n + k) % 2 ^ 48 := Nat.mod_mod _ _

/-- Short of the wrap, ticks add as numbers do. -/
theorem tickAdd_eq_add_of_lt {n k : Nat} (h : n + k < 2 ^ 48) : tickAdd n k = n + k := Nat.mod_eq_of_lt h

theorem tickAdd_last_one : tickAdd 0xFFFFFFFFFFFF 1 = 0 := rfl

/-- `tickSub` is R7's "(T − N) modulo 2^48" over the integers: its added `tickMod` keeps the subtraction of `Nat` from stopping at 0. -/
theorem cast_tickSub (t n : Nat) : (tickSub t n : Int) = ((t : Int) - n) % 2 ^ 48 := by
  unfold tickSub tickMod
  omega

/-- The distance from tick `n` to the tick `k` later is `k`, up to the wrap. -/
theorem tickSub_add_left (n k : Nat) : tickSub (n + k) n = k % 2 ^ 48 := by
  have h := cast_tickSub (n + k) n
  rw [Nat.cast_add, add_sub_cancel_left] at h
  exact_mod_cast h

@[simp] theorem tickSub_self (n : Nat) : tickSub n n = 0 := tickSub_add_left n 0

theorem tickFuture_iff (t n : Nat) : tickFuture t n = true ↔ 1 ≤ tickSub t n ∧ tickSub t n ≤ 2 ^ 47 - 1 := by
  simp only [tickFuture, Bool.and_eq_true, decide_eq_true_eq]

/-- R7's comparison as the manual writes it, over the integers. -/
theorem tickFuture_iff_intMod (t n : Nat) :
    tickFuture t n = true ↔ 1 ≤ ((t : Int) - n) % 2 ^ 48 ∧ ((t : Int) - n) % 2 ^ 48 ≤ 2 ^ 47 - 1 := by
  rw [tickFuture_iff, ← cast_tickSub]
  omega

/-- The tick in progress has already begun. -/
@[simp] theorem tickFuture_self (n : Nat) : tickFuture n n = false := by
  simp [← Bool.not_eq_true, tickFuture_iff]

/-- A target half the range of tick numbers ahead, or further, counts as past. -/
theorem tickFuture_add_eq_false {k : Nat} (n : Nat) (hlo : 2 ^ 47 ≤ k) (hhi : k < 2 ^ 48) : tickFuture (n + k) n = false := by
  have hsub : tickSub (n + k) n = k := (tickSub_add_left n k).trans (Nat.mod_eq_of_lt hhi)
  rw [← Bool.not_eq_true, tickFuture_iff, hsub]
  omega

theorem tickReached_iff (t n : Nat) : tickReached t n = true ↔ tickFuture t n = false := by
  rw [tickReached, Bool.not_eq_true']

/-- Settles O47: `tickSub` is the difference modulo 2^48 that R7 compares (`cast_tickSub`), and `tickAdd` wraps at 2^48. -/
theorem futureTicks : Obligations.FutureTicks := by
  refine ⟨⟨tickAdd_last_one, fun n hn => tickAdd_eq_add_of_lt (by omega)⟩, tickFuture_iff_intMod, tickFuture_self, ?_, ?_⟩
  · intro n k hlo hhi
    have hpast := tickFuture_add_eq_false n hlo hhi
    exact ⟨hpast, (tickReached_iff _ _).mpr hpast⟩
  · exact fun n k => ⟨tickAdd_lt n k, tickAdd_mod n k⟩

end Sys2Proof.Machine
end

section
/-!
Energy class of a stage row (spec/02_chart_instruction_set.md, R68): what an opcode weighs, what a row's least class is, and what the loader's
check of a row has found when it accepts.
-/
namespace Sys2Proof.Machine

/-! ### Weights -/

/-- One line of Table 2.8 keeps a bound on the weights when its own opcodes and the lines below it do. -/
theorem weight_le_of_ite {c : Prop} [Decidable c] {u : OpcUse} {rest : Option OpcUse} {n : Nat} (hu : u.weight ≤ n)
    (hrest : ∀ v ∈ rest, v.weight ≤ n) : ∀ v ∈ (if c then some u else rest), v.weight ≤ n := by
  split
  · simpa using hu
  · exact hrest

/-- Table 2.8 gives no opcode a weight above 2. -/
theorem opcUse_weight_le (opc : Nat) : ∀ u ∈ opcUse opc, u.weight ≤ 2 := by
  unfold opcUse
  repeat refine weight_le_of_ite (by decide) ?_
  exact fun _ hnone => nomatch hnone

/-- The weight that counts for an opcode field, reserved opcodes among them, is at most 2. -/
theorem getD_opcUse_weight_le (opc : Nat) : ((opcUse opc).map OpcUse.weight).getD 0 ≤ 2 := by
  cases h : opcUse opc with
  | none => exact Nat.zero_le _
  | some u => exact opcUse_weight_le opc u h

theorem b2n_le_one (c : Bool) : b2n c ≤ 1 := by cases c <;> decide

/-- R68's sum, written out over the four slots. -/
theorem minClass_eq (row : BitVec 256) :
    minClass row = ((opcUse (aluSlot (rowSlot row 0)).opc).map OpcUse.weight).getD 0 +
      ((opcUse (aluSlot (rowSlot row 1)).opc).map OpcUse.weight).getD 0 +
      ((opcUse (aluSlot (rowSlot row 2)).opc).map OpcUse.weight).getD 0 +
      ((opcUse (aluSlot (rowSlot row 3)).opc).map OpcUse.weight).getD 0 + b2n (bits (rowNxt row) 29 3 == 2) := by
  simp only [minClass, List.range, List.range.loop, List.map_cons, List.map_nil, List.sum_cons, List.sum_nil]
  omega

/-- Four opcodes of weight 2 and a MATCH make the largest class. -/
theorem minClass_le (row : BitVec 256) : minClass row ≤ 9 := by
  have hslot (i : Nat) := getD_opcUse_weight_le (aluSlot (rowSlot row i)).opc
  have hmatch := b2n_le_one (bits (rowNxt row) 29 3 == 2)
  rw [minClass_eq]
  linarith [hslot 0, hslot 1, hslot 2, hslot 3]

/-! ### The loader's checks -/

/-- A list of checks passes exactly when none of its conditions holds. -/
theorem firstFail_eq_none_iff (eslot : Nat) : ∀ l : List (Bool × Nat), firstFail eslot l = none ↔ ∀ p ∈ l, p.1 = false
  | [] => by simp [firstFail]
  | (true, code) :: l => by simp [firstFail]
  | (false, code) :: l => by simp [firstFail, firstFail_eq_none_iff eslot l]

/-- What the loader has found of a VALID row that it accepts: each part of R74's checks passes, the energy class last. -/
theorem checkRow_eq_none_iff {row : BitVec 256} (egress : Bool) (stage : Nat) (hvalid : rowValid row = true) :
    checkRow row egress stage = none ↔ bit (rowFlags row) 2 = false ∧
      checkNxt (rowNxt row) egress (stage = (if egress then 31 else 47)) = none ∧ checkLkp (rowLkp row) egress stage = none ∧
      checkSlot 0 (rowSlot row 0) = none ∧ checkSlot 1 (rowSlot row 1) = none ∧ checkSlot 2 (rowSlot row 2) = none ∧
      checkSlot 3 (rowSlot row 3) = none ∧ minClass row ≤ rowEclass row := by
  simp [checkRow, hvalid, Option.or_eq_none_iff, firstFail_eq_none_iff]

/-- Settles O49: no opcode weighs more than 2 (`opcUse_weight_le`), and an accepted row has passed the check of its class
(`checkRow_eq_none_iff`). -/
theorem leastEnergyClass : Obligations.LeastEnergyClass := by
  refine ⟨fun row => ⟨minClass_le row, minClass_eq row⟩, fun row egress stage hvalid haccept => ?_⟩
  obtain ⟨_, _, _, _, _, _, _, hclass⟩ := (checkRow_eq_none_iff egress stage hvalid).mp haccept
  exact hclass

end Sys2Proof.Machine
end

section
/-!
Arithmetic of an ALU slot (spec/02_chart_instruction_set.md, R35, R47 and R49): what an operand of the manifest reads after it is written, the
value of each opcode that R49 speaks of, and the loader's check of an immediate shift amount.
-/
namespace Sys2Proof.Machine

/-! ### Operands of the manifest -/

/-- A bit vector holds the bits of a number below its width. -/
theorem bits_toNat_ofNat (n : Nat) {low width k : Nat} (h : low + width ≤ k) :
    bits (BitVec.ofNat k n).toNat low width = bits n low width := by
  obtain ⟨j, rfl⟩ := Nat.le.dest h
  simp only [bits, BitVec.toNat_ofNat, Nat.shiftRight_eq_div_pow]
  rw [Nat.add_assoc, Nat.pow_add, Nat.mod_mul_right_div_self, Nat.pow_add, Nat.mod_mul_right_mod]

theorem mget_lt (m : Manifest) (o w : Nat) : mget m o w < 2 ^ (8 * w) := bits_lt _ _ _

/-- An operand within the manifest reads back the low bytes of what was written to it. -/
theorem mget_mset_same (m : Manifest) {o w : Nat} (v : Nat) (h : o + w ≤ 512) : mget (mset m o w v) o w = v % 2 ^ (8 * w) := by
  have hbits : 8 * (512 - o - w) + 8 * w ≤ 4096 := by omega
  rw [mget, mset, bits_toNat_ofNat _ hbits, bits_setBits_same]

/-! ### Values of the opcodes -/

section
variable {const : Nat → BitVec 64} {m0 : Manifest} {s : AluSlot}

theorem aluValue_setx (h : s.opc = 0x38) : aluValue const m0 s = none := by cases s; cases h; rfl

theorem aluValue_add (h : s.opc = 0x10) : aluValue const m0 s = some (mget m0 s.a s.bytes + mget m0 s.b s.bytes) := by
  cases s; cases h; rfl

theorem aluValue_sub (h : s.opc = 0x11) :
    aluValue const m0 s = some (mget m0 s.a s.bytes + 2 ^ (8 * s.bytes) - mget m0 s.b s.bytes) := by
  cases s; cases h; rfl

theorem aluValue_addi (h : s.opc = 0x12) : aluValue const m0 s = some (mget m0 s.a s.bytes + s.immS) := by
  cases s; cases h; rfl

theorem aluValue_seq (h : s.opc = 0x20) : aluValue const m0 s = some (b2n (mget m0 s.a s.bytes == mget m0 s.b s.bytes)) := by
  cases s; cases h; rfl

theorem aluValue_sne (h : s.opc = 0x21) : aluValue const m0 s = some (b2n (mget m0 s.a s.bytes != mget m0 s.b s.bytes)) := by
  cases s; cases h; rfl

theorem aluValue_slt (h : s.opc = 0x22) : aluValue const m0 s = some (b2n (mget m0 s.a s.bytes < mget m0 s.b s.bytes)) := by
  cases s; cases h; rfl

theorem aluValue_sle (h : s.opc = 0x23) : aluValue const m0 s = some (b2n (mget m0 s.a s.bytes ≤ mget m0 s.b s.bytes)) := by
  cases s; cases h; rfl

theorem aluValue_seqi (h : s.opc = 0x24) : aluValue const m0 s = some (b2n (mget m0 s.a s.bytes == s.imm20)) := by
  cases s; cases h; rfl

theorem aluValue_slti (h : s.opc = 0x25) : aluValue const m0 s = some (b2n (mget m0 s.a s.bytes < s.imm20)) := by
  cases s; cases h; rfl

/-- A shift, either way, by a register amount of the operand's width or more. -/
theorem aluValue_shift_long (h : s.opc = 0x19 ∨ s.opc = 0x1A) (hlong : 8 * s.bytes ≤ mget m0 s.b s.bytes % 64) :
    aluValue const m0 s = some 0 := by
  cases s
  rcases h with h | h <;> cases h <;> exact congrArg some (if_pos hlong)

/-! ### What a slot leaves in its destination -/

theorem aluWrite_of_aluValue {v : Nat} (m : Manifest) (h : aluValue const m0 s = some v) :
    aluWrite const m0 m s = mset m s.dst s.bytes v := by
  have hsetx : s.opc ≠ 0x38 := fun hopc => by simp [aluValue_setx hopc] at h
  simp only [aluWrite, if_neg hsetx, h]

/-- R49: the destination takes the opcode's value modulo 2^(8W). -/
theorem mget_aluWrite {v : Nat} (m : Manifest) (hdst : s.dst + s.bytes ≤ 512) (h : aluValue const m0 s = some v) :
    mget (aluWrite const m0 m s) s.dst s.bytes = v % 2 ^ (8 * s.bytes) := by
  rw [aluWrite_of_aluValue m h, mget_mset_same m v hdst]

end

/-- The result of a comparison fits in every width. -/
theorem b2n_mod_width (c : Bool) (s : AluSlot) : b2n c % 2 ^ (8 * s.bytes) = b2n c := by
  have hwidth : 8 * s.bytes ≠ 0 := Nat.mul_ne_zero (by decide) (Nat.two_pow_pos _).ne'
  exact Nat.mod_eq_of_lt ((b2n_le_one c).trans_lt (Nat.one_lt_two_pow hwidth))

/-- A comparison writes 1 or 0 over the whole of its destination. -/
theorem mget_aluWrite_b2n {const : Nat → BitVec 64} {m0 : Manifest} {s : AluSlot} {c : Bool} (m : Manifest)
    (hdst : s.dst + s.bytes ≤ 512) (h : aluValue const m0 s = some (b2n c)) :
    mget (aluWrite const m0 m s) s.dst s.bytes = if c then 1 else 0 := by
  rw [mget_aluWrite m hdst h, b2n_mod_width, b2n]

/-- R47: the sign-extended immediate, truncated to W bytes. -/
theorem cast_immS (s : AluSlot) : (s.immS : Int) = sInt 20 s.imm20 % 2 ^ (8 * s.bytes) := by
  have hpos : (0 : Int) < 2 ^ (8 * s.bytes) := by positivity
  simp [AluSlot.immS, ofInt, Int.toNat_of_nonneg (Int.emod_nonneg _ hpos.ne')]

/-- The `top` that the model adds in SUB keeps the subtraction of `Nat` from stopping at 0. -/
theorem cast_add_sub_mod {a b top : Nat} (hb : b < top) : (((a + top - b) % top : Nat) : Int) = ((a : Int) - b) % top := by
  have hcast : ((a + top - b : Nat) : Int) = (a : Int) - b + top := by omega
  rw [Int.natCast_mod, hcast, Int.add_emod_right]

/-! ### The loader's check of a shift -/

/-- Of an immediate shift that the loader accepts, the amount lies below the operand's width. -/
theorem shift_amount_lt_of_checkSlot {i raw : Nat} (haccept : checkSlot i raw = none)
    (hopc : (aluSlot raw).opc = 0x1B ∨ (aluSlot raw).opc = 0x1C) : bits (aluSlot raw).aux 0 6 < 8 * (aluSlot raw).bytes := by
  unfold checkSlot at haccept
  cases huse : opcUse (aluSlot raw).opc with
  | none => simp [huse] at haccept
  | some u =>
    simp only [huse, firstFail_eq_none_iff, List.forall_mem_cons, decide_eq_false_iff_not] at haccept
    obtain ⟨_, _, _, _, _, himm, _⟩ := haccept
    exact not_le.mp fun hlong => himm (.inr (.inl ⟨hopc, hlong⟩))

/-- Settles O50: the destination takes the opcode's value modulo 2^(8W) (`mget_aluWrite`), read off Table 2.8 opcode by opcode. -/
theorem arithmeticWraps : Obligations.ArithmeticWraps := by
  refine ⟨?_, fun i raw => shift_amount_lt_of_checkSlot⟩
  intro k m s _ hdst
  refine ⟨fun h => ?add, fun h => ?sub, fun h => ?addi, fun h => ?seq, fun h => ?sne, fun h => ?slt, fun h => ?sle, fun h => ?seqi,
    fun h => ?slti, fun h hlong => ?shift⟩
  case add => exact mget_aluWrite m hdst (aluValue_add h)
  case sub =>
    rw [mget_aluWrite m hdst (aluValue_sub h), cast_add_sub_mod (mget_lt m s.b s.bytes)]
    norm_cast
  case addi =>
    rw [mget_aluWrite m hdst (aluValue_addi h), Int.natCast_mod, Nat.cast_add, cast_immS]
    simp
  case seq => simpa using mget_aluWrite_b2n m hdst (aluValue_seq h)
  case sne => simpa using mget_aluWrite_b2n m hdst (aluValue_sne h)
  case slt => simpa using mget_aluWrite_b2n m hdst (aluValue_slt h)
  case sle => simpa using mget_aluWrite_b2n m hdst (aluValue_sle h)
  case seqi => simpa using mget_aluWrite_b2n m hdst (aluValue_seqi h)
  case slti => simpa using mget_aluWrite_b2n m hdst (aluValue_slti h)
  case shift => rw [mget_aluWrite m hdst (aluValue_shift_long h hlong), Nat.zero_mod]

end Sys2Proof.Machine
end

section
/-!
The two load windows of the shadow bank (spec/03_waypoints_passes_and_chart_swap.md, R72 to R75 and R98; spec/04_parser.md, R118): how a
command of each window completes when the bank is closed and when it is read, and the obligation on them. A window's own registers lie apart
from CHT_STATUS, CHT_REFUSED and the banks (`BankView`), so what a refusal writes there is what the command leaves there.
-/
namespace Sys2Proof.Machine

/-! ### Registers written in a row -/

/-- A list of writes leaves every register that none of them names. -/
theorem Dev.reg_wrs_ne (d : Dev) (l : List (Field × Nat)) {a : Nat} (h : ∀ p ∈ l, a ≠ p.1.addr) : (d.wrs l).reg a = d.reg a := by
  induction l generalizing d with
  | nil => rfl
  | cons p l ih =>
    rw [List.forall_mem_cons] at h
    rw [Dev.wrs_cons, ih _ h.2, Dev.reg_wr_ne d p.1 p.2 h.1]

theorem Dev.rd_wrs_addr (d : Dev) (l : List (Field × Nat)) {g : Field} (h : ∀ p ∈ l, g.addr ≠ p.1.addr) :
    (d.wrs l).rd g = d.rd g := by
  unfold Dev.rd; rw [Dev.reg_wrs_ne d l h]

/-! ### What the windows leave of the banks -/

/-- Both devices show the same chart banks, CHT_STATUS and CHT_REFUSED, and have the same fault collector. -/
structure BankView (d e : Dev) : Prop where
  status : e.reg CHT_STATUS.addr = d.reg CHT_STATUS.addr
  refused : e.reg CHT_REFUSED.addr = d.reg CHT_REFUSED.addr
  bank : ∀ n, e.cht.bank n = d.cht.bank n
  flt : e.flt = d.flt

theorem BankView.trans {a b c : Dev} (h : BankView a b) (k : BankView b c) : BankView a c :=
  ⟨k.status.trans h.status, k.refused.trans h.refused, fun n => (k.bank n).trans (h.bank n), k.flt.trans h.flt⟩

/-- Writes of other registers. -/
theorem BankView.wrs (d : Dev) (l : List (Field × Nat)) (h : ∀ p ∈ l, CHT_STATUS.addr ≠ p.1.addr ∧ CHT_REFUSED.addr ≠ p.1.addr) :
    BankView d (d.wrs l) :=
  ⟨d.reg_wrs_ne l fun p hp => (h p hp).1, d.reg_wrs_ne l fun p hp => (h p hp).2, fun n => by rw [Dev.wrs_cht], Dev.wrs_flt d l⟩

/-- The end of a command writes neither CHT_STATUS nor CHT_REFUSED. -/
theorem settleField_addr_ne {f : Field} (h : settleField f) : CHT_STATUS.addr ≠ f.addr ∧ CHT_REFUSED.addr ≠ f.addr := by
  rcases h with hlisted | ⟨hcounter, -⟩
  · have hall : ∀ f ∈ settleFields, CHT_STATUS.addr ≠ f.addr ∧ CHT_REFUSED.addr ≠ f.addr := by decide
    exact hall f hlisted
  · constructor <;> simp only [CHT_STATUS.addr, CHT_REFUSED.addr] <;> omega

theorem Calm.bankView {d e : Dev} (h : Calm d e) : BankView d e :=
  ⟨h.regs _ fun _ hf => (settleField_addr_ne hf).1, h.regs _ fun _ hf => (settleField_addr_ne hf).2, fun n => by rw [h.cht], h.flt⟩

theorem BankView.rd_status {d e : Dev} (h : BankView d e) {g : Field} (hg : g.addr = CHT_STATUS.addr) : e.rd g = d.rd g := by
  unfold Dev.rd; rw [hg, h.status]

theorem BankView.rd_refused {d e : Dev} (h : BankView d e) : e.rd CHT_REFUSED.COUNT = d.rd CHT_REFUSED.COUNT := by
  unfold Dev.rd; rw [h.refused]

/-- The shadow bank is found from the banks and ACTIVE alone. -/
theorem Dev.shadow_congr {d e : Dev} (hbank : ∀ n, e.cht.bank n = d.cht.bank n)
    (hactive : e.rd CHT_STATUS.ACTIVE = d.rd CHT_STATUS.ACTIVE) : e.shadow = d.shadow := by
  unfold Dev.shadow Dev.activeNo; rw [hbank, hactive]

theorem BankView.shadow {d e : Dev} (h : BankView d e) : e.shadow = d.shadow := Dev.shadow_congr h.bank (h.rd_status rfl)

theorem BankView.shadowBusy {d e : Dev} (h : BankView d e) : e.shadowBusy = d.shadowBusy := by
  unfold Dev.shadowBusy Dev.on
  rw [h.rd_status rfl, h.rd_status rfl, h.rd_status rfl]

theorem Dev.shadowBusy_iff (d : Dev) : d.shadowBusy = true ↔
    d.on CHT_STATUS.OLD_BUSY = true ∨ d.on CHT_STATUS.CHECKING = true ∨ d.on CHT_STATUS.ARMED = true := by
  simp only [Dev.shadowBusy, Bool.or_eq_true, or_assoc]

/-! ### A refused shadow write (R98) -/

/-- `e` is what a refusal leaves of `d` beside the window's own code: it is shown and counted, and the shadow bank stays. -/
def Dev.RefusedTo (d e : Dev) : Prop :=
  e.rd CHT_STATUS.REFUSED = 1 ∧ e.rd CHT_REFUSED.COUNT = min (d.rd CHT_REFUSED.COUNT + 1) 0xFFFFFFFF ∧ e.shadow = d.shadow

theorem Dev.shadowRefuse_flt (d : Dev) : d.shadowRefuse.flt = d.flt := rfl

theorem Dev.refusedTo_shadowRefuse (d : Dev) : d.RefusedTo d.shadowRefuse := by
  unfold Dev.RefusedTo Dev.shadowRefuse
  refine ⟨?refused, ?count, Dev.shadow_congr (fun _ => rfl) ?active⟩
  case refused => exact (Dev.rd_bump_addr _ _ _ _ (by decide)).trans (Dev.rd_wr_same _ _ _ (by decide))
  case count =>
    rw [Dev.rd_bump_same _ _ _ (by decide), Dev.rd_wr_addr _ _ _ _ (by decide)]
    rfl
  case active => rw [Dev.rd_bump_addr _ _ _ _ (by decide), Dev.rd_wr_apart _ _ _ _ (by decide) (by decide)]

/-- A refusal between changes that the banks do not show. -/
theorem BankView.refusedTo {d a b e : Dev} (hda : BankView d a) (hab : a.RefusedTo b) (hbe : BankView b e) : d.RefusedTo e := by
  obtain ⟨hrefused, hcount, hshadow⟩ := hab
  exact ⟨(hbe.rd_status rfl).trans hrefused, by rw [hbe.rd_refused, hcount, hda.rd_refused], by rw [hbe.shadow, hshadow, hda.shadow]⟩

/-! ### The chart load window -/

/-- The chart window's command is taken: BUSY falls and DONE rises. -/
def Dev.chartTaken (d : Dev) : Dev :=
  { d with cht := { d.cht with ld := none } }.wrs [(CHT_LD_STATUS.BUSY, 0), (CHT_LD_STATUS.DONE, 1)]

/-- CHT_LD_DATA0 to 7 as they show an entry. -/
def chartDataWords (v : Nat) : List (Field × Nat) := (List.range 8).map fun n => (CHT_LD_DATA.DATA n, v / 2 ^ (32 * n))

theorem BankView.chartTaken (d : Dev) : BankView d d.chartTaken :=
  have hld : BankView d { d with cht := { d.cht with ld := none } } := ⟨rfl, rfl, fun _ => rfl, rfl⟩
  hld.trans (BankView.wrs _ _ (by simp))

theorem BankView.chartResult (d : Dev) (code eslot : Nat) : BankView d (d.chartResult code eslot) := BankView.wrs _ _ (by simp)

theorem Dev.chartResult_code (d : Dev) (code eslot : Nat) : (d.chartResult code eslot).rd CHT_LD_STATUS.CODE = code % 256 := by
  simp only [Dev.chartResult, Dev.wrs_cons, Dev.wrs_nil]
  rw [Dev.rd_wr_apart _ _ _ _ (by decide) (by decide), Dev.rd_wr_apart _ _ _ _ (by decide) (by decide)]
  exact Dev.rd_wr_same _ _ _ (by decide)

theorem Dev.chartResult_rd_data (d : Dev) (code eslot n : Nat) :
    (d.chartResult code eslot).rd (CHT_LD_DATA.DATA n) = d.rd (CHT_LD_DATA.DATA n) :=
  Dev.rd_wrs_addr _ _ (by simp +arith)

theorem Dev.wrs_chartDataWords_first (d : Dev) (v : Nat) : (d.wrs (chartDataWords v)).rd (CHT_LD_DATA.DATA 0) = v % 2 ^ 32 := by
  rw [chartDataWords, show List.range 8 = 0 :: (List.range 7).map Nat.succ from rfl, List.map_cons, Dev.wrs_cons,
    Dev.rd_wrs_addr _ _ (by simp)]
  simpa using Dev.rd_wr_same d (CHT_LD_DATA.DATA 0) v (by decide)

/-- R98: a GO at a closed bank. -/
theorem Dev.chartDone_refused {d : Dev} {c : LoadCmd} (hld : d.cht.ld = some c) (hgo : c.go = true) (hrd : c.rd = false)
    (hbusy : d.shadowBusy = true) : d.chartDone = d.chartTaken.shadowRefuse.chartResult 0x01 7 := by
  have htaken : d.chartTaken.shadowBusy = true := (BankView.chartTaken d).shadowBusy.trans hbusy
  simp only [Dev.chartDone, hld, hgo, hrd, Bool.and_false, Bool.false_eq_true, if_false, if_true]
  exact if_pos htaken

/-- R75: an RD of a target that exists, whatever the state of the bank. -/
theorem Dev.chartDone_read {d : Dev} {c : LoadCmd} (hld : d.cht.ld = some c) (hgo : c.go = false) (hrd : c.rd = true)
    (htarget : checkTarget c.addr = none) :
    d.chartDone = (d.chartTaken.wrs (chartDataWords (readEntry d.shadow c.addr).toNat)).chartResult 0 7 := by
  rw [← (BankView.chartTaken d).shadow, Dev.wrs, chartDataWords, List.foldl_map]
  unfold Dev.chartTaken
  simp [Dev.chartDone, hld, hgo, hrd, htarget]

/-- CHART_LOAD_COMPLETE, from its effect. -/
theorem State.chartLoadComplete_gets {s : State} {e : Dev} {p : Dev → Prop} (h : s.Ready) (he : s.dev.chartDone = e)
    (hflt : e.flt = s.dev.flt) (k : ∀ x, Calm e x → p x) : s.Gets .chartLoadComplete p := by
  subst he
  exact (State.does_core (f := Dev.chartDone) h rfl rfl (hflt ▸ h.2.2)).gets k

/-! ### The parse graph load window -/

/-- The parse window's command is taken: BUSY falls and DONE rises. -/
def Dev.prsTaken (d : Dev) : Dev :=
  { d with cht := { d.cht with prsLd := none } }.wrs [(PRS_LD_STATUS.BUSY, 0), (PRS_LD_STATUS.DONE, 1)]

/-- PRS_LD_DATA0 to 3 as they show an entry. -/
def prsDataWords (v : Nat) : List (Field × Nat) := (List.range 4).map fun n => (PRS_LD_DATA.DATA n, v / 2 ^ (32 * n))

theorem BankView.prsTaken (d : Dev) : BankView d d.prsTaken :=
  have hld : BankView d { d with cht := { d.cht with prsLd := none } } := ⟨rfl, rfl, fun _ => rfl, rfl⟩
  hld.trans (BankView.wrs _ _ (by simp))

theorem BankView.prsResult (d : Dev) (code : Nat) : BankView d (d.prsResult code) := BankView.wrs _ _ (by simp)

theorem Dev.prsResult_code (d : Dev) (code : Nat) : (d.prsResult code).rd PRS_LD_STATUS.CODE = code % 256 := by
  simp only [Dev.prsResult, Dev.wrs_cons, Dev.wrs_nil]
  rw [Dev.rd_wr_apart _ _ _ _ (by decide) (by decide)]
  exact Dev.rd_wr_same _ _ _ (by decide)

/-- R98: a GO at a closed bank. -/
theorem Dev.prsDone_refused {d : Dev} {c : LoadCmd} (hld : d.cht.prsLd = some c) (hgo : c.go = true) (hrd : c.rd = false)
    (hbusy : d.shadowBusy = true) : d.prsDone = d.prsTaken.shadowRefuse.prsResult 0x01 := by
  have htaken : d.prsTaken.shadowBusy = true := (BankView.prsTaken d).shadowBusy.trans hbusy
  simp only [Dev.prsDone, hld, hgo, hrd, Bool.and_false, Bool.false_eq_true, if_false, if_true]
  exact if_pos htaken

/-- An RD of a graph entry that exists, whatever the state of the bank. -/
theorem Dev.prsDone_read {d : Dev} {c : LoadCmd} (hld : d.cht.prsLd = some c) (hgo : c.go = false) (hrd : c.rd = true)
    (htarget : prsTarget c.addr = 0) : d.prsDone = (d.prsTaken.wrs (prsDataWords (readGraph d.shadow c.addr))).prsResult 0 := by
  rw [← (BankView.prsTaken d).shadow, Dev.wrs, prsDataWords, List.foldl_map]
  unfold Dev.prsTaken
  simp [Dev.prsDone, hld, hgo, hrd, htarget]

/-- PARSE_LOAD_COMPLETE, from its effect. -/
theorem State.parseLoadComplete_gets {s : State} {e : Dev} {p : Dev → Prop} (h : s.Ready) (he : s.dev.prsDone = e)
    (hflt : e.flt = s.dev.flt) (k : ∀ x, Calm e x → p x) : s.Gets .parseLoadComplete p := by
  subst he
  exact (State.does_core (f := Dev.prsDone) h rfl rfl (hflt ▸ h.2.2)).gets k

/-! ### The obligation -/

/-- Settles O48: the command's effect is named (`chartDone_refused`, `chartDone_read` and their like), and neither the window's registers nor
the end of the command reach what a refusal writes (`BankView.refusedTo`). -/
theorem shadowBankRefuses : Obligations.ShadowBankRefuses := by
  refine ⟨?chartGo, ?prsGo, ?chartRead, ?prsRead⟩
  case chartGo =>
    intro s c h hld hgo hrd hbusy
    have hdone := Dev.chartDone_refused hld hgo hrd ((Dev.shadowBusy_iff _).mpr hbusy)
    have htaken := BankView.chartTaken s.dev
    have hresult := BankView.chartResult s.dev.chartTaken.shadowRefuse 0x01 7
    refine State.chartLoadComplete_gets h hdone (hresult.flt.trans ((Dev.shadowRefuse_flt _).trans htaken.flt)) fun e he => ⟨?_, ?_⟩
    · rw [he.rd CHT_LD_STATUS.CODE (by decide), Dev.chartResult_code]
    · exact htaken.refusedTo (Dev.refusedTo_shadowRefuse _) (hresult.trans he.bankView)
  case prsGo =>
    intro s c h hld hgo hrd hbusy
    have hdone := Dev.prsDone_refused hld hgo hrd ((Dev.shadowBusy_iff _).mpr hbusy)
    have htaken := BankView.prsTaken s.dev
    have hresult := BankView.prsResult s.dev.prsTaken.shadowRefuse 0x01
    refine State.parseLoadComplete_gets h hdone (hresult.flt.trans ((Dev.shadowRefuse_flt _).trans htaken.flt)) fun e he => ⟨?_, ?_⟩
    · rw [he.rd PRS_LD_STATUS.CODE (by decide), Dev.prsResult_code]
    · exact htaken.refusedTo (Dev.refusedTo_shadowRefuse _) (hresult.trans he.bankView)
  case chartRead =>
    intro s c h hld hgo hrd htarget
    have hflt : ((s.dev.chartTaken.wrs (chartDataWords (readEntry s.dev.shadow c.addr).toNat)).chartResult 0 7).flt = s.dev.flt := by
      rw [(BankView.chartResult _ 0 7).flt, Dev.wrs_flt, (BankView.chartTaken s.dev).flt]
    refine State.chartLoadComplete_gets h (Dev.chartDone_read hld hgo hrd htarget) hflt fun e he => ⟨?_, ?_⟩
    · rw [he.rd CHT_LD_STATUS.CODE (by decide), Dev.chartResult_code]
    · rw [he.rd (CHT_LD_DATA.DATA 0) (by decide), Dev.chartResult_rd_data, Dev.wrs_chartDataWords_first]
  case prsRead =>
    intro s c h hld hgo hrd htarget
    have hflt : ((s.dev.prsTaken.wrs (prsDataWords (readGraph s.dev.shadow c.addr))).prsResult 0).flt = s.dev.flt := by
      rw [(BankView.prsResult _ 0).flt, Dev.wrs_flt, (BankView.prsTaken s.dev).flt]
    refine State.parseLoadComplete_gets h (Dev.prsDone_read hld hgo hrd htarget) hflt fun e he => ?_
    rw [he.rd PRS_LD_STATUS.CODE (by decide), Dev.prsResult_code]

end Sys2Proof.Machine
end

section
/-!
Flow contexts (spec/06_lookup_engines_and_contexts.md, R161 to R165): the byte fields of a context, what the meter and the count leave in
them, what a lookup's read of a stored word can change, and the obligation on the counters. A read may correct single-bit errors, each of
which is a fault that is logged and reacted to; all of that stays in the registers and the fault collector (`RegsFlt`), so the context and
the tick that the lookup works on are the ones before it.
-/
namespace Sys2Proof.Machine

/-! ### Byte fields of a context -/

/-- Bytes within the context read back what was written to them. -/
theorem cget_cset_same (c : BitVec 512) {o w : Nat} (v : Nat) (h : o + w ≤ 64) : cget (cset c o w v) o w = v % 2 ^ (8 * w) := by
  have hbits : 8 * (64 - o - w) + 8 * w ≤ 512 := by omega
  rw [cget, cset, bits_toNat_ofNat _ hbits, bits_setBits_same]

/-- Bytes behind or before the written ones stay. -/
theorem cget_cset_apart (c : BitVec 512) {o w o' w' : Nat} (v : Nat) (h : o + w ≤ 64) (h' : o' + w' ≤ 64)
    (hapart : o + w ≤ o' ∨ o' + w' ≤ o) : cget (cset c o w v) o' w' = cget c o' w' := by
  have hbits : 8 * (64 - o' - w') + 8 * w' ≤ 512 := by omega
  rw [cget, cset, bits_toNat_ofNat _ hbits, cget]
  rcases hapart with hbehind | hbefore
  · exact bits_setBits_below _ _ _ _ _ _ (by omega)
  · exact bits_setBits_above _ _ _ _ _ _ (by omega)

/-! ### The meter and the count -/

/-- The meter writes the buckets and their time, bytes 16 to 29 of the context, and leaves the flags and the counters behind them. -/
theorem cget_ctxMeter (c : BitVec 512) (tick colourIn len : Nat) {o w : Nat} (ho : 30 ≤ o) (h : o + w ≤ 64) :
    cget (ctxMeter c tick colourIn len).2 o w = cget c o w := by
  unfold ctxMeter
  dsimp only
  split
  · rfl
  · rw [cget_cset_apart _ _ (by decide) h (by omega), cget_cset_apart _ _ (by decide) h (by omega),
      cget_cset_apart _ _ (by decide) h (by omega)]

section
variable (c : BitVec 512) (len : Nat) (red : Bool)

theorem cget_ctxCount_pkts : cget (ctxCount c len red) 32 8 = (cget c 32 8 + 1) % 2 ^ 64 := by
  rw [ctxCount, cget_cset_apart _ _ (by decide) (by decide) (by decide), cget_cset_apart _ _ (by decide) (by decide) (by decide),
    cget_cset_same _ _ (by decide)]

theorem cget_ctxCount_bytes : cget (ctxCount c len red) 40 8 = (cget c 40 8 + len) % 2 ^ 64 := by
  rw [ctxCount, cget_cset_apart _ _ (by decide) (by decide) (by decide), cget_cset_same _ _ (by decide)]

theorem cget_ctxCount_red : cget (ctxCount c len red) 48 8 = (cget c 48 8 + b2n red) % 2 ^ 64 := by
  rw [ctxCount, cget_cset_same _ _ (by decide)]

end

/-- The colour and the context of a lookup of option `op` before it counts: of the meter (R163) where the option asks for it. -/
def ctxMetered (c : BitVec 512) (op tick colourIn len : Nat) : Nat × BitVec 512 :=
  if bit op 0 then ctxMeter c tick colourIn len else (0, c)

/-- What a lookup of option `op` stores over a valid context: metered, and counted (R164) where the option asks for it. -/
def ctxServed (c : BitVec 512) (op tick colourIn len : Nat) : BitVec 512 :=
  let r := ctxMetered c op tick colourIn len
  if bit op 1 then ctxCount r.2 len (op = 3 && r.1 == 2) else r.2

/-- A count operation counts over a context whose flags and counters are those before the lookup, metered first or not. -/
theorem ctxServed_of_count (c : BitVec 512) {op : Nat} (tick colourIn len : Nat) (hcount : 2 ≤ op) (hop : op < 4) :
    ∃ c₁, ctxServed c op tick colourIn len = ctxCount c₁ len (op == 3 && (ctxMeter c tick colourIn len).1 == 2) ∧
      ∀ o w, 30 ≤ o → o + w ≤ 64 → cget c₁ o w = cget c o w := by
  obtain rfl | rfl : op = 2 ∨ op = 3 := by omega
  · exact ⟨c, rfl, fun _ _ _ _ => rfl⟩
  · exact ⟨(ctxMeter c tick colourIn len).2, rfl, fun _ _ => cget_ctxMeter c tick colourIn len⟩

/-! ### What reading a stored word changes -/

/-- `e` is `d` but for registers and the fault collector. -/
def RegsFlt (d e : Dev) : Prop := ∃ regs flt, e = { d with regs, flt }

theorem RegsFlt.refl (d : Dev) : RegsFlt d d := ⟨_, _, rfl⟩

theorem RegsFlt.trans {a b c : Dev} (h : RegsFlt a b) (k : RegsFlt b c) : RegsFlt a c := by
  obtain ⟨_, _, rfl⟩ := h
  obtain ⟨_, _, rfl⟩ := k
  exact ⟨_, _, rfl⟩

theorem RegsFlt.lku {d e : Dev} (h : RegsFlt d e) : e.lku = d.lku := by obtain ⟨_, _, rfl⟩ := h; rfl

theorem RegsFlt.tck {d e : Dev} (h : RegsFlt d e) : e.tck = d.tck := by obtain ⟨_, _, rfl⟩ := h; rfl

theorem RegsFlt.wr (d : Dev) (f : Field) (v : Nat) : RegsFlt d (d.wr f v) := ⟨_, _, rfl⟩

theorem RegsFlt.bump (d : Dev) (f : Field) : RegsFlt d (d.bump f) := .wr d f _

theorem RegsFlt.flt (d : Dev) (f : Flt) : RegsFlt d { d with flt := f } := ⟨_, _, rfl⟩

theorem RegsFlt.ite {d a b : Dev} (p : Prop) [Decidable p] (h : RegsFlt d a) (k : RegsFlt d b) : RegsFlt d (if p then a else b) := by
  split
  · exact h
  · exact k

/-- One detection, and the storm record that it may set off. -/
theorem RegsFlt.faultInj (d : Dev) (src cls event detail : Nat) (inj : Bool) : RegsFlt d (d.faultInj src cls event detail inj) := by
  have hrecord (e : Dev) (cls event detail : Nat) : RegsFlt e (e.faultRecord src cls event detail inj) :=
    (FltOnly.faultRecord e src cls event detail inj).rest
  unfold Dev.faultInj
  refine (hrecord d cls event detail).trans ?_
  dsimp only
  split
  · split
    · exact ((RegsFlt.flt _ _).trans (.flt _ _)).trans (hrecord _ _ _ _)
    · exact .flt _ _
  · exact .refl _

theorem RegsFlt.lkuCe (d : Dev) (st : Store) (i n : Nat) : RegsFlt d (d.lkuCe st i n) := by
  unfold Dev.lkuCe
  induction List.range n generalizing d with
  | nil => exact .refl d
  | cons _ _ ih =>
    refine RegsFlt.trans ?_ (ih _)
    refine RegsFlt.trans (RegsFlt.faultInj d (lkuSrc st) corrected 0x01 0 (d.injAt (lkuSrc st) st i)) ?_
    dsimp only
    split
    · exact .bump _ _
    · exact .refl _
    · exact .bump _ _

theorem RegsFlt.lkuUe (d : Dev) (st : Store) (i : Nat) : RegsFlt d (d.lkuUe st i) := by
  unfold Dev.lkuUe
  split
  · exact (RegsFlt.wr _ _ _).trans (.faultInj _ _ _ _ _ _)
  · exact .faultInj _ _ _ _ _ _
  · exact ((RegsFlt.wr _ _ _).trans (.wr _ _ _)).trans (.faultInj _ _ _ _ _ _)

/-- A lookup's read, whatever errors it meets. -/
theorem RegsFlt.lkuRead (d : Dev) (st : Store) (i lo n : Nat) : RegsFlt d (d.lkuRead st i lo n).2 := by
  unfold Dev.lkuRead
  dsimp only
  split
  · exact ((RegsFlt.lkuCe d st i _).trans (.ite _ (.refl _) (.flt _ _))).trans (.lkuUe _ st i)
  · exact (RegsFlt.lkuCe d st i _).trans (.ite _ (.refl _) (.flt _ _))

theorem Dev.lkuRead_fst (d : Dev) (st : Store) (i lo n : Nat) : (d.lkuRead st i lo n).1 = d.ueIn (lkuSrc st) st i lo n := by
  unfold Dev.lkuRead
  dsimp only
  split
  · next hue => exact hue.symm
  · next hue => exact (Bool.eq_false_iff.mpr hue).symm

/-- An entry without an uncorrectable word has none among any of its words. -/
theorem Dev.ueIn_eq_false_of_ueAt {d : Dev} {src : Nat} {st : Store} {i : Nat} (h : d.ueAt src st i = false) (lo n : Nat) :
    d.ueIn src st i lo n = false := by
  rw [Dev.ueAt, List.any_eq_false] at h
  rw [Dev.ueIn, List.any_eq_false]
  exact fun e he hin => h e he (Bool.and_eq_true_iff.mp hin).1

/-! ### A lookup's effect on the contexts -/

theorem RegsFlt.wrote (d : Dev) (src : Nat) (st : Store) (i : Nat) : RegsFlt d (d.wrote src st i) := by
  have hinjected (e : Dev) : RegsFlt e (e.injectInto src src st i) := by
    unfold Dev.injectInto
    split
    · exact .flt _ _
    · exact .refl _
  exact (RegsFlt.flt d _).trans (hinjected (d.eccClear src st i))

@[simp] theorem Dev.wrote_lku (d : Dev) (src : Nat) (st : Store) (i : Nat) : (d.wrote src st i).lku = d.lku :=
  (RegsFlt.wrote d src st i).lku

@[simp] theorem Dev.evt_lku (d : Dev) (g code : Nat) (sub : Option Nat) (k : Nat) : (d.evt g code sub k).lku = d.lku :=
  (Calm.evt d g code sub k).lku

/-- What a served lookup leaves beside the context it stored: its events, and the errors of an entry that was written. -/
def Dev.ctxReport (d : Dev) (op colour id : Nat) : Dev :=
  let d := if bit op 0 then d.evt 0x22 0x20 else d
  let d := if bit op 1 then d.evt 0x22 0x21 else d
  let d := if colour = 2 then d.evt 0x22 0x22 else d
  if op = 0 then d else d.wrote 0x181 .ctx id

@[simp] theorem Dev.ctxReport_lku (d : Dev) (op colour id : Nat) : (d.ctxReport op colour id).lku = d.lku := by
  simp only [Dev.ctxReport, apply_ite Dev.lku, Dev.wrote_lku, Dev.evt_lku, ite_self]

section
variable {d : Dev} (m : Manifest) {q : LkReq} {id : Nat}

/-- A lookup of a valid context that is read without error, step by step: the read, the context stored, and the report. -/
theorem Dev.ctxLookup_eq (hid : ofBe (fitBytes q.key 3) % 2 ^ 18 = id) (htbl : q.tbl = 0) (hok : q.ok = true)
    (hread : (d.lkuRead .ctx id 0 8).1 = false)
    (hvalid : bit (cget (SMap.get 0 (d.lkuRead .ctx id 0 8).2.lku.ctx id) 30 1) 7 = true) :
    (d.ctxLookup m q).2 =
      let e := (d.lkuRead .ctx id 0 8).2
      let c := SMap.get 0 e.lku.ctx id
      let op := bits q.opt 0 2
      let colourIn := bits (mFWD m) 28 2
      let len := ctxLen c (mLEN m)
      { e with lku := { e.lku with ctx := SMap.set 0 e.lku.ctx id (ctxServed c op e.tck.now colourIn len) } }.ctxReport op
        (ctxMetered c op e.tck.now colourIn len).1 id := by
  subst hid
  rw [Dev.ctxLookup, if_neg (not_not.mpr htbl), if_neg (by rw [hok]; decide)]
  dsimp only
  rw [if_neg (Bool.eq_false_iff.mp hread), if_neg (by rw [hvalid]; decide)]
  rfl

/-- A lookup that is served, of any option, stores the context that `ctxServed` gives and touches no other. -/
theorem Dev.ctxLookup_served (hid : ofBe (fitBytes q.key 3) % 2 ^ 18 = id) (htbl : q.tbl = 0) (hok : q.ok = true)
    (hue : d.ueAt 0x181 .ctx id = false) (hvalid : bit (cget (SMap.get 0 d.lku.ctx id) 30 1) 7 = true) :
    (d.ctxLookup m q).2.lku.ctx = SMap.set 0 d.lku.ctx id (ctxServed (SMap.get 0 d.lku.ctx id) (bits q.opt 0 2) d.tck.now
      (bits (mFWD m) 28 2) (ctxLen (SMap.get 0 d.lku.ctx id) (mLEN m))) := by
  have hkeep := RegsFlt.lkuRead d .ctx id 0 8
  have hread : (d.lkuRead .ctx id 0 8).1 = false := (d.lkuRead_fst .ctx id 0 8).trans (Dev.ueIn_eq_false_of_ueAt hue 0 8)
  rw [Dev.ctxLookup_eq m hid htbl hok hread (by rw [hkeep.lku]; exact hvalid)]
  simp only [Dev.ctxReport_lku, hkeep.lku, hkeep.tck]

end

/-- Settles O51: the lookup stores `ctxServed` of the context (`ctxLookup_served`), which a count operation makes with `ctxCount` over
unchanged counters (`ctxServed_of_count`). -/
theorem contextCounts : Obligations.ContextCounts := by
  intro d m q id c r c' len _ htbl hok hue hvalid hcount
  have hstore : r.2.lku.ctx = _ := Dev.ctxLookup_served m rfl htbl hok hue hvalid
  have hc' : c' = _ := (congrArg (SMap.get 0 · id) hstore).trans (SMap.get_set_same _ _ _ _)
  obtain ⟨c₁, hserved, hkeep⟩ :=
    ctxServed_of_count c d.tck.now (bits (mFWD m) 28 2) len hcount (bits_lt q.opt 0 2)
  rw [hc', hserved, cget_ctxCount_pkts, cget_ctxCount_bytes, cget_ctxCount_red, hkeep 32 8 (by decide) (by decide),
    hkeep 40 8 (by decide) (by decide), hkeep 48 8 (by decide) (by decide)]
  exact ⟨rfl, rfl, rfl, fun j hj => by rw [hstore, SMap.get_set_ne 0 0 _ _ hj]⟩

end Sys2Proof.Machine
end

section
/-!
Scheduled length (spec/08_queues_scheduling_and_shaping.md, R208): the signed byte of an overhead profile, the profiles' reset value, and the
obligation on the length that the scheduler measures.
-/
namespace Sys2Proof.Machine

/-- A byte from 128 up stands for the byte less 256. -/
theorem sInt_eight {o : Nat} (h : o < 2 ^ 8) : sInt 8 o = if o < 128 then (o : Int) else (o : Int) - 256 := by
  unfold sInt
  rw [Nat.mod_eq_of_lt h]
  split <;> split <;> omega

/-- The model stops a negative sum at 0 (`Int.toNat`), which the least length of 1 hides. -/
theorem Dev.cast_wireLen (d : Dev) (n len : Nat) :
    (d.wireLen n len : Int) = max 1 ((len : Int) + sInt 8 (d.rd (QUE_OVH.OVH (dfield (d.desc (3, n)) 0 15 4)))) := by
  unfold Dev.wireLen
  omega

/-- Table 8.7 lists 16 overhead profiles, QUE_OVH0 to QUE_OVH15. -/
theorem State.reset_rd_ovh : ∀ k < 16, State.reset.dev.rd (QUE_OVH.OVH k) = 24 := by decide +kernel

/-- Settles O52: the measure over the integers is `cast_wireLen`; OVPROF has four bits, so it names one of the 16 profiles that are 24 at
reset (`reset_rd_ovh`). -/
theorem scheduledLength : Obligations.ScheduledLength := by
  refine ⟨fun d n len => ?measure, fun n len => ?atReset⟩
  case measure =>
    intro o
    have hbyte : o < 2 ^ 8 := bits_lt _ _ _
    rw [Dev.cast_wireLen, sInt_eight hbyte]
  case atReset =>
    have hprofile : dfield (State.reset.dev.desc (3, n)) 0 15 4 < 16 := bits_lt _ _ _
    have hmeasure := State.reset.dev.cast_wireLen n len
    rw [State.reset_rd_ovh _ hprofile, sInt_eight (by decide)] at hmeasure
    omega

end Sys2Proof.Machine
end

section
/-!
The energy reckoner at reset (spec/12_energy_reckoning_and_supply_sag.md, R291). The full balance is the reset value of NRG_BAL and the cap
that of NRG_CAP, so what is to be shown is that no later part of a reset reaches those registers or the reckoner's reservations and names.
At the cold start a regulator that does not acknowledge logs a fault. The log record is the only reaction while the source's FLT_REACT entry
is at reset, so there that entry is followed too (a warm reset keeps it).
-/
namespace Sys2Proof.Machine

/-! ### Registers after a warm reset -/

/-- A register of which a warm reset keeps no bit is no longer listed, so it reads its cold-reset value. -/
theorem get_warmRegs_of_keepMask_eq_zero (regs : SMap (BitVec 32)) {a : Nat} (h : keepMask a = 0) :
    SMap.get (regReset a) (warmRegs regs) a = regReset a := by
  unfold warmRegs
  induction regs with
  | nil => rfl
  | cons p r ih =>
    rw [List.filterMap_cons]
    dsimp only
    split
    next => exact ih
    next q hlisted =>
      split at hlisted
      · cases hlisted
      next hdiffers =>
        cases hlisted
        have hne : p.1 ≠ a := by
          rintro rfl
          exact hdiffers (by rw [h, show ~~~BitVec.ofNat 32 0 = BitVec.allOnes 32 from rfl, BitVec.and_allOnes]; simp)
        rw [SMap.get, if_neg hne, ih]

/-! ### What a reset leaves of the reckoner -/

/-- The reckoner's reservations and names and the registers `l` are at reset, and no reaction to a fault waits. -/
structure Dev.ResetIn (l : List Nat) (d : Dev) : Prop where
  regs : ∀ a ∈ l, d.reg a = regReset a
  rsv : d.nrg.rsv = []
  named : d.nrg.named = []
  todo : d.flt.todo = []

/-- The cap and the two words of the balance. -/
def balanceRegs : List Nat := [NRG_CAP.addr, NRG_BAL_LO.addr, NRG_BAL_HI.addr]

/-- With them, what decides the reaction to a fault of the Atkor's and of the Trelier's voltage regulator. -/
def coldRegs : List Nat := balanceRegs ++ [FLT_REACT.addr 0x350, FLT_REACT.addr 0x351]

namespace Dev.ResetIn

section
variable {d : Dev} {l : List Nat} (h : d.ResetIn l)
include h

theorem rd (f : Field) (hf : f.addr ∈ l) : d.rd f = bits (regReset f.addr).toNat f.low f.width := by
  unfold Dev.rd; rw [h.regs _ hf]

theorem mono {l' : List Nat} (hsub : l' ⊆ l) : d.ResetIn l' := ⟨fun a ha => h.regs a (hsub ha), h.rsv, h.named, h.todo⟩

theorem wr (f : Field) (v : Nat) (hf : f.addr ∉ l) : (d.wr f v).ResetIn l where
  regs a ha := (d.reg_wr_ne f v (ne_of_mem_of_not_mem ha hf)).trans (h.regs a ha)
  rsv := h.rsv
  named := h.named
  todo := h.todo

theorem foldl {α : Type} {f : Dev → α → Dev} (w : List α) (hf : ∀ x ∈ w, ∀ e : Dev, e.ResetIn l → (f e x).ResetIn l) :
    (w.foldl f d).ResetIn l := by
  induction w generalizing d with
  | nil => exact h
  | cons x w ih =>
    rw [List.forall_mem_cons] at hf
    exact ih (hf.1 d h) hf.2

theorem wrs (w : List (Field × Nat)) (hw : ∀ p ∈ w, p.1.addr ∉ l) : (d.wrs w).ResetIn l :=
  h.foldl w fun p hp _ he => he.wr p.1 p.2 (hw p hp)

theorem emit (x : Emit) : (d.emit x).ResetIn l := ⟨h.regs, h.rsv, h.named, h.todo⟩

theorem setPwr (pwr : Pwr) : Dev.ResetIn l { d with pwr } := ⟨h.regs, h.rsv, h.named, h.todo⟩

theorem setSag (die : Nat) (x : Sag) : (d.setSag die x).ResetIn l := by
  unfold Dev.setSag
  split <;> exact ⟨h.regs, h.rsv, h.named, h.todo⟩

theorem draw : d.draw.2.ResetIn l := ⟨h.regs, h.rsv, h.named, h.todo⟩

theorem testStrap (low : Bool) : Dev.ResetIn l { d with flt := { d.flt with testStrap := low } } := ⟨h.regs, h.rsv, h.named, h.todo⟩

end

/-! ### The cold start -/

theorem cold (l : List Nat) (free : Nat) (out : List Emit) (fwu : Fwu) (pwr : Pwr) : (Dev.cold free out fwu pwr).ResetIn l :=
  ⟨fun _ _ => rfl, rfl, rfl, rfl⟩

section
variable {d : Dev} (h : d.ResetIn coldRegs) {die : Nat} (hdie : die = 0 ∨ die = 1)
include h hdie

/-- The fault of a voltage regulator is logged and leaves no reaction (FLT_REACT at reset: LOG of CONTAINED). -/
theorem avsFault (event : Nat) : (d.fault (0x350 + die) contained event).ResetIn coldRegs := by
  have hkeep := FltOnly.fault d (0x350 + die) contained event 0
  have hapart : ∀ a ∈ coldRegs, ¬ fltReg a := by unfold fltReg; decide
  have hcode : d.reactCode (0x350 + die) contained ≤ 1 := by
    rcases hdie with rfl | rfl
    · exact (h.rd (FLT_REACT.CONT 0x350) (by decide)).trans_le (by decide +kernel)
    · exact (h.rd (FLT_REACT.CONT 0x351) (by decide)).trans_le (by decide +kernel)
  have hnrg : (d.fault (0x350 + die) contained event).nrg = d.nrg := by
    obtain ⟨_, _, heq⟩ := hkeep.rest
    rw [heq]
  exact {
    regs := fun a ha => (hkeep.reg a (hapart a ha)).trans (h.regs a ha)
    rsv := by rw [hnrg, h.rsv]
    named := by rw [hnrg, h.named]
    todo := (Dev.fault_todo d _ _ _ _ hcode fun _ => hcode).trans h.todo }

/-- A setpoint command of a die, acknowledged or not. -/
theorem avsCmd (mv : Nat) (ack : Bool) : (d.avsCmd die mv ack).ResetIn coldRegs := by
  have hset : (avsSet die).addr ∉ coldRegs := by rcases hdie with rfl | rfl <;> decide
  have herr : (avsErr die).addr ∉ coldRegs := by rcases hdie with rfl | rfl <;> decide
  unfold Dev.avsCmd
  dsimp only
  split
  case isTrue =>
    have hack (pwr : Pwr) := ((h.emit (.avs die mv)).setPwr pwr).wr (avsSet die) mv hset
    split
    · exact (hack _).setSag _ _
    · exact hack _
  case isFalse => exact (((h.emit _).emit _).wr _ _ herr).avsFault hdie _

end

/-- The reckoner and the registers start anew, and what the start sequence writes is elsewhere. -/
theorem coldReset (d : Dev) (i : ColdIn) (hmode : i.mode < 3) (hfuse : i.fuseOk = true) : (d.coldReset i).ResetIn coldRegs := by
  unfold Dev.coldReset
  dsimp only
  rw [if_neg (by omega), if_neg (by rw [hfuse]; decide)]
  refine (avsCmd (wrs (testStrap (wrs (draw (wrs (cold coldRegs _ _ _ _) _ ?straps)) _ ?nonce) _) _ ?fuses) (.inl rfl) _ _).avsCmd
    (.inr rfl) _ _
  case straps | nonce | fuses => simp [coldRegs, balanceRegs, FLT_REACT.addr]

/-! ### The warm reset -/

theorem cleared (d : Dev) : d.cleared.ResetIn balanceRegs where
  regs a ha := get_warmRegs_of_keepMask_eq_zero d.regs ((by decide +kernel : ∀ a ∈ balanceRegs, keepMask a = 0) a ha)
  rsv := rfl
  named := rfl
  todo := rfl

theorem stackState_not_mem_balanceRegs {stack : Nat} (h : stack < 8) : (YRD_STK_STATUS.STATE stack).addr ∉ balanceRegs :=
  (by decide : ∀ n < 8, (YRD_STK_STATUS.STATE n).addr ∉ balanceRegs) stack h

/-- The balance and the cap are cleared, and what a reset of the core dies writes after that is elsewhere. -/
theorem coreReset (d : Dev) (cause : Nat) : (d.coreReset cause).ResetIn balanceRegs := by
  have hcause (fell : Nat) := ((cleared d).wrs [(GLB_RST_CAUSE.LAST, cause), (GLB_BOOT_STATUS.STEP, 4), (FWU_STATUS.FELLBACK, fell)]
    (by simp [balanceRegs])).wr GLB_RST_CAUSE.WARM_CNT
  unfold Dev.coreReset
  dsimp only
  refine foldl ?held _ fun stack hfailed e he => he.wr _ _ (stackState_not_mem_balanceRegs ?stack)
  case held =>
    split
    · exact (hcause _ _ (by decide)).wr _ _ (by decide)
    · exact hcause _ _ (by decide)
  case stack =>
    split at hfailed
    · cases hfailed
    · exact List.mem_range.mp (List.mem_filter.mp hfailed).1

end Dev.ResetIn

/-! ### The obligation -/

/-- A command that leaves the reckoner at its reset is answered with a full balance. -/
theorem State.Runs.fullBalance {s : State} {c : Instr} {e : Dev} (hrun : s.Runs c e) (h : e.ResetIn balanceRegs) :
    s.Gets c fun x => x.bal = 64 * x.rd NRG_CAP.EU ∧ x.nrg.rsv = [] ∧ ∀ t, x.variantOf t = 0 := by
  refine (hrun.does h.todo).gets fun x hx => ?_
  have hcap : x.rd NRG_CAP.EU = 2 ^ 26 := (hx.rd _ (by decide)).trans ((h.rd _ (by decide)).trans (by decide +kernel))
  have hlo : x.rd NRG_BAL_LO.BAL = 0 := (hx.rd _ (by decide)).trans ((h.rd _ (by decide)).trans (by decide +kernel))
  have hhi : x.rd NRG_BAL_HI.BAL = 1 := (hx.rd _ (by decide)).trans ((h.rd _ (by decide)).trans (by decide +kernel))
  refine ⟨?balance, hx.nrg ▸ h.rsv, fun t => ?variant⟩
  case balance =>
    rw [Dev.bal, Dev.rdPair, hlo, hhi, hcap]
    decide
  case variant =>
    rw [Dev.variantOf, hx.nrg, h.named]
    rfl

/-- Settles O53: both resets leave the reckoner at its reset (`coldReset`, `coreReset`), and the end of the command does not reach it
(`fullBalance`). -/
theorem energyAtReset : Obligations.EnergyAtReset := by
  refine ⟨fun s i hmode hboot hfuse => ?cold, fun s hdead hheld => ?warm⟩
  case cold =>
    have hrun : s.Runs (.coldReset i) (s.dev.coldReset i) := congrArg Host.Outcome.next (if_pos (decide_eq_true ⟨by omega, hboot⟩))
    exact hrun.fullBalance ((Dev.ResetIn.coldReset s.dev i hmode hfuse).mono (List.subset_append_left _ _))
  case warm =>
    have hrun : s.Runs .warmReset s.dev.warmReset := State.runs (f := Dev.warmReset) hdead rfl rfl
    refine hrun.fullBalance ?_
    rw [Dev.warmReset, if_neg (by rw [hheld]; decide)]
    exact Dev.ResetIn.coreReset _ 1

end Sys2Proof.Machine
end

section
/-!
How a command is answered, for any command: that it is answered, what a dead and a held device make of it (log entries 3 to 5), and, for the
obligations on single commands, the rules that turn an equation of a command's effect into its answer.
-/
namespace Sys2Proof.Machine

/-! ### From the effect of a command to its answer -/

/-- On a device ready for commands, an event of the core dies leaves what its effect leaves. -/
theorem State.Ready.does {s : State} {c : Instr} {f : Dev → Dev} {e : Dev} (h : s.Ready)
    (hexec : exec c s = s.act c fun d => d.core f) (hwf : Instr.wf c = true) (heff : f s.dev = e) (htodo : e.flt.todo = s.dev.flt.todo) :
    s.Does c e :=
  heff ▸ State.does_core h hexec hwf (heff ▸ htodo.trans h.2.2)

/-- An event of the core dies whose effect may log a fault. -/
theorem State.Ready.runs {s : State} {c : Instr} {f : Dev → Dev} {e : Dev} (h : s.Ready)
    (hexec : exec c s = s.act c fun d => d.core f) (hwf : Instr.wf c = true) (heff : f s.dev = e) : s.Runs c e :=
  heff ▸ State.runs_core h hexec hwf

/-- A command of the host, on a device that serves it, leaves what its effect leaves. -/
theorem State.Open.does {s : State} {c : Instr} {a : Nat} {f : Dev → Dev} {e : Dev} (h : s.Open)
    (hexec : exec c s = s.act c fun d => d.host a f) (hwf : Instr.wf c = true) (heff : f s.dev = e)
    (htodo : e.flt.todo = s.dev.flt.todo) : s.Does c e :=
  heff ▸ State.does_host h hexec hwf (heff ▸ htodo.trans h.1.2.2)

/-- A command of the host whose effect may log a fault. -/
theorem State.Open.runs {s : State} {c : Instr} {a : Nat} {f : Dev → Dev} {e : Dev} (h : s.Open)
    (hexec : exec c s = s.act c fun d => d.host a f) (hwf : Instr.wf c = true) (heff : f s.dev = e) : s.Runs c e :=
  heff ▸ State.runs_host h hexec hwf

/-- A read of the host that the device acts on. -/
theorem State.Open.doesGet {s : State} {c : Instr} {a : Nat} {f : Dev → Dev} {e : Dev} (h : s.Open)
    (hexec : exec c s = s.act c fun d => d.hostGet a f) (hwf : Instr.wf c = true) (heff : f s.dev = e)
    (htodo : e.flt.todo = s.dev.flt.todo) : s.Does c e :=
  heff ▸ State.does_hostGet h hexec hwf (heff ▸ htodo.trans h.1.2.2)

/-- An event outside the core dies, in a device with its supply. -/
theorem State.does_of_alive {s : State} {c : Instr} {f : Dev → Dev} {e : Dev} (hdead : s.dev.dead = false) (htodo : s.dev.flt.todo = [])
    (hexec : exec c s = s.act c f) (hwf : Instr.wf c = true) (heff : f s.dev = e) (hkeep : e.flt.todo = s.dev.flt.todo) : s.Does c e :=
  heff ▸ State.does hdead hexec hwf (heff ▸ hkeep.trans htodo)

/-- An event outside the core dies whose effect may log a fault. -/
theorem State.runs_of_alive {s : State} {c : Instr} {f : Dev → Dev} {e : Dev} (hdead : s.dev.dead = false)
    (hexec : exec c s = s.act c f) (hwf : Instr.wf c = true) (heff : f s.dev = e) : s.Runs c e :=
  heff ▸ State.runs hdead hexec hwf

/-- A register write leaves no reaction to wait for. -/
theorem Dev.todo_wr (d : Dev) (f : Field) (v : Nat) : (d.wr f v).flt.todo = d.flt.todo := congrArg Flt.todo (d.wr_flt f v)

theorem Dev.todo_wrs (d : Dev) (l : List (Field × Nat)) : (d.wrs l).flt.todo = d.flt.todo := congrArg Flt.todo (d.wrs_flt l)

/-! ### Any command -/

/-- A command leaves the state as it is, or a device that a command's end has left; and if the device was alive and the command names
what it has, the latter. -/
theorem exec_cases (c : Instr) (s : State) :
    exec c s = .next s ∧ (Instr.wf c = false ∨ s.dev.dead = true) ∨ ∃ d : Dev, exec c s = .next { s with dev := d.settle } := by
  rcases exec_form c with ⟨cold, rfl⟩ | ⟨f, hexec⟩
  case inl =>
    cases hwf : Instr.wf (.coldReset cold)
    case false => exact .inl ⟨congrArg Host.Outcome.next (if_neg (by simp [hwf])), .inl rfl⟩
    case true => exact .inr ⟨_, congrArg Host.Outcome.next (if_pos hwf)⟩
  case inr =>
    rw [hexec]
    cases hwf : Instr.wf c
    case false => exact .inl ⟨State.act_ill s c f hwf, .inl rfl⟩
    case true =>
      rw [State.act_next s c f hwf]
      cases hdead : s.dev.dead
      case false => exact .inr ⟨f s.dev, by simp [State.run, hdead]⟩
      case true => exact .inl ⟨by rw [State.run_dead s f hdead], .inr rfl⟩

/-- Settles O1: `step` is `exec` of the front, and of the empty queue nothing. -/
theorem stepRunsFront : Obligations.StepRunsFront := by
  refine ⟨fun s c r hfront => ?front, fun s hempty => ?idle⟩
  case front => rw [step, hfront]
  case idle => rw [step, hempty]

/-- Settles O2: both cases of `exec_cases` keep the queue, and an ill-formed command is answered by `State.act_ill`. -/
theorem everyCommandAnswers : Obligations.EveryCommandAnswers := by
  refine ⟨fun c s => ?answered, fun c s hwf => ?ill⟩
  case answered =>
    rcases exec_cases c s with ⟨hsame, _⟩ | ⟨d, hsettled⟩
    · exact ⟨s, hsame, rfl⟩
    · exact ⟨_, hsettled, rfl⟩
  case ill =>
    rcases exec_form c with ⟨cold, rfl⟩ | ⟨f, hexec⟩
    · exact congrArg Host.Outcome.next (if_neg (by simp [hwf]))
    · rw [hexec, State.act_ill s c f hwf]

/-- Settles O3: `State.run` of a dead device is the device. -/
theorem deadDeviceIgnores : Obligations.DeadDeviceIgnores := by
  intro c s hwf hdead hcold
  rcases exec_form c with ⟨cold, rfl⟩ | ⟨f, hexec⟩
  · exact absurd rfl (hcold cold)
  · rw [hexec, State.act_next s c f hwf, State.run_dead s f hdead]

end Sys2Proof.Machine
end

section
/-!
A device held in warm reset (R356, R445, R447; log entry 5): every gate to the core dies is the test `if held then nothing`.
-/
namespace Sys2Proof.Machine

theorem Calm.coreSame {d e : Dev} (h : Calm d e) : Dev.CoreSame d e :=
  ⟨h.rwt, h.tck, h.flt, h.cht, h.asx, h.lku, h.pipe, h.dpt, h.nrg, h.que, h.yrd, h.wan, h.fab, h.cge, h.hlm, h.sxt, h.pwr⟩

/-- The command has no effect on a held device: its gate is shut. -/
def State.Gates (s : State) (c : Instr) : Prop := 
  ∃ f : Dev → Dev, exec c s = s.act c f ∧ ∃ e, f s.dev = if s.dev.held then s.dev else e

/-- A command whose gate is shut leaves a held device to the end of every command. -/
theorem State.Gates.coreSame {c : Instr} {s : State} (h : s.Gates c) (hheld : s.dev.held = true) (htodo : s.dev.flt.todo = [])
    (hwf : Instr.wf c = true) : ∃ t, exec c s = .next t ∧ t.pending = s.pending ∧ Dev.CoreSame s.dev t.dev := by
  obtain ⟨f, hexec, _, hgate⟩ := h
  rw [if_pos hheld] at hgate
  cases hdead : s.dev.dead
  case false =>
    obtain ⟨t, hnext, hpending, hcalm⟩ := State.does hdead hexec hwf ((congrArg (·.flt.todo) hgate).trans htodo)
    rw [hgate] at hcalm
    exact ⟨t, hnext, hpending, hcalm.coreSame⟩
  case true =>
    rw [hexec, State.act_next s c f hwf, State.run_dead s f hdead]
    exact ⟨s, rfl, rfl, (Calm.refl s.dev).coreSame⟩

/-- Settles O4: each of the commands named acts through a gate, which is shut (`State.Gates.coreSame`). -/
theorem heldCoreUnchanged : Obligations.HeldCoreUnchanged := by
  intro c s hheld htodo hwf hc
  suffices hgate : s.Gates c from hgate.coreSame hheld htodo hwf
  rcases hc with hc | ⟨errs, fails, rfl⟩ | ⟨errs, words, rfl⟩ | ⟨port, h, bad, bytes, rfl⟩ | ⟨a, v, rfl⟩
  case inl =>
    clear hwf
    revert c
    simp only [List.mem_cons, List.not_mem_nil, or_false, forall_eq_or_imp, forall_eq]
    and_intros
    all_goals exact ⟨_, rfl, _, rfl⟩
  all_goals exact ⟨_, rfl, _, rfl⟩

end Sys2Proof.Machine
end

section
/-!
The collector's flags (R384, R389) and the reactions that wait (R383): the end of a command carries out every reaction and then sets the two
flags, and what follows in it, the interrupts, reaches neither. And the announce lead of R351.
-/
namespace Sys2Proof.Machine

/-! ### What drives FAULT_N -/

/-- A record's part in FAULT_N is read from the masks alone. -/
theorem Dev.drives_congr {d e : Dev} (hnmask : e.rd FLT_CTRL.NMASK = d.rd FLT_CTRL.NMASK)
    (hmask : ∀ src, e.on (FLT_REACT.MASK src) = d.on (FLT_REACT.MASK src)) : e.drives = d.drives := by
  funext r
  unfold Dev.drives
  rw [hnmask, hmask]

/-- A write of FLT_STATUS that spares HALTED leaves FAULT_N as it is driven. -/
theorem Dev.faultN_wr_status (d : Dev) (low width v : Nat) (hword : low + width ≤ 32) (hhalted : low + width ≤ 6 ∨ 7 ≤ low) :
    (d.wr ⟨FLT_STATUS.addr, low, width⟩ v).faultN = d.faultN := by
  have hother (g : Field) (hne : g.addr ≠ FLT_STATUS.addr) : (d.wr ⟨FLT_STATUS.addr, low, width⟩ v).rd g = d.rd g :=
    Dev.rd_wr_addr d _ g v hne
  have hreact (src : Nat) : (FLT_REACT.MASK src).addr ≠ FLT_STATUS.addr := by
    show 0x02804000 + 4 * src ≠ 0x02800000
    omega
  have hdrives := Dev.drives_congr (hother FLT_CTRL.NMASK (by decide)) fun src => by
    rw [Dev.on, Dev.on, hother _ (hreact src)]
  have hhalt : (d.wr ⟨FLT_STATUS.addr, low, width⟩ v).on FLT_STATUS.HALTED = d.on FLT_STATUS.HALTED :=
    Dev.on_wr_apart d _ _ v hword (.inr hhalted)
  have hboot : (d.wr ⟨FLT_STATUS.addr, low, width⟩ v).bootFailed = d.bootFailed := by
    rw [Dev.bootFailed, Dev.bootFailed, Dev.on, Dev.on, hother _ (by decide), hother _ (by decide)]
  rw [Dev.faultN, Dev.faultN, hdrives, hhalt, hboot]
  rfl

/-! ### The flags agree -/

/-- No reaction waits, and FLT_STATUS.QUENCH and FAULTN agree with the windows and the records. -/
structure Dev.FlagsAgree (d : Dev) : Prop where
  todo : d.flt.todo = []
  quench : d.rd FLT_STATUS.QUENCH = b2n (!d.flt.windows.isEmpty)
  faultN : d.rd FLT_STATUS.FAULTN = b2n d.faultN

/-- A flag fits a field of one bit. -/
theorem b2n_mod_two (b : Bool) : b2n b % 2 ^ 1 = b2n b := by cases b <;> rfl

/-- FAULT_N is read from the registers and the collector. -/
theorem Dev.faultN_congr {d e : Dev} (hregs : e.regs = d.regs) (hflt : e.flt = d.flt) : e.faultN = d.faultN := by
  have hrd := Dev.rd_of_regs hregs
  have hon := Dev.on_of_regs hregs
  rw [Dev.faultN, Dev.faultN, Dev.drives_congr (hrd _) fun src => hon _, hflt, hon, Dev.bootFailed, Dev.bootFailed, hon, hrd]

theorem Dev.FlagsAgree.congr {d e : Dev} (h : d.FlagsAgree) (hregs : e.regs = d.regs) (hflt : e.flt = d.flt) : e.FlagsAgree where
  todo := by rw [hflt, h.todo]
  quench := by rw [Dev.rd_of_regs hregs, hflt, h.quench]
  faultN := by rw [Dev.rd_of_regs hregs, Dev.faultN_congr hregs hflt, h.faultN]

/-- Setting the two flags makes them agree. -/
theorem Dev.flagsAgree_faultViews (d : Dev) (htodo : d.flt.todo = []) : d.faultViews.FlagsAgree where
  todo := htodo
  quench := by
    unfold Dev.faultViews
    rw [Dev.rd_wr_apart _ _ _ _ (by decide) (by decide), Dev.rd_wr_same _ _ _ (by decide)]
    exact b2n_mod_two _
  faultN := by
    have hviews : d.faultViews.faultN = d.faultN := (Dev.faultN_wr_status _ 0 1 _ (by decide) (by decide)).trans
      (Dev.faultN_wr_status d 5 1 _ (by decide) (by decide))
    rw [hviews]
    unfold Dev.faultViews
    rw [Dev.rd_wr_same _ _ _ (by decide)]
    exact b2n_mod_two _

/-- Every command ends with the flags in agreement, whatever it did. -/
theorem Dev.flagsAgree_settle (d : Dev) : d.settle.FlagsAgree := by
  obtain ⟨e, heq⟩ : ∃ e : Dev, d.settle = e.faultViews.irqs := ⟨_, rfl⟩
  have hirqs := e.faultViews.irqs_regs
  have htodo := d.settle_todo
  rw [heq, hirqs.2] at htodo
  rw [heq]
  exact (e.flagsAgree_faultViews htodo).congr hirqs.1 hirqs.2

theorem Dev.FlagsAgree.settled {s : State} (h : s.dev.FlagsAgree) : s.Settled := .inr ⟨h.todo, h.quench, h.faultN⟩

/-- Settles O5: a command leaves the state as it is or ends it with the flags in agreement (`exec_cases`, `Dev.flagsAgree_settle`). -/
theorem noReactionWaits : Obligations.NoReactionWaits := by
  refine ⟨fun s t hs hstep => ?step, fun c s t hwf hdead hexec => ?command⟩
  case step =>
    unfold step at hstep
    split at hstep
    next => exact Host.Outcome.next.inj hstep ▸ hs
    next c r hfront =>
      rcases exec_cases c { s with pending := r } with ⟨hsame, _⟩ | ⟨d, hsettled⟩
      · exact Host.Outcome.next.inj (hsame.symm.trans hstep) ▸ hs
      · exact Host.Outcome.next.inj (hsettled.symm.trans hstep) ▸ Dev.FlagsAgree.settled d.flagsAgree_settle
  case command =>
    rcases exec_cases c s with ⟨_, hill | hdead'⟩ | ⟨d, hsettled⟩
    · simp [hwf] at hill
    · simp [hdead] at hdead'
    · exact Host.Outcome.next.inj (hsettled.symm.trans hexec) ▸ Dev.FlagsAgree.settled d.flagsAgree_settle

/-- Settles O6: the reset values of the two flags, and of the start's status. -/
theorem settledAtReset : Obligations.SettledAtReset :=
  ⟨.inr ⟨rfl, by decide +kernel, by decide +kernel⟩, rfl, ⟨by decide, by decide, by decide⟩, by decide +kernel, by decide⟩

/-! ### The announce lead -/

/-- Settles O38: `kMin` is three ticks more than the travel bound divided by the tick, rounding up. -/
theorem announceLead : Obligations.AnnounceLead := by
  refine ⟨fun height hopmax => ?least, by decide⟩
  intro b
  have hb : 256 ≤ b := Nat.le_add_left _ _
  have hkMin : kMin height hopmax = 3 + (b + 7679) / 7680 := rfl
  rw [hkMin]
  omega

end Sys2Proof.Machine
end

section
/-!
The register file by itself: a field's value is a function of the registers alone, so that a read after a row of writes is computed there,
whatever else of the device changed in between.
-/
namespace Sys2Proof.Machine

/-- A field's value in a register file. -/
def regsRd (r : SMap (BitVec 32)) (f : Field) : Nat := bits (SMap.get (regReset f.addr) r f.addr).toNat f.low f.width

/-- A register file with a field set. -/
def regsWr (r : SMap (BitVec 32)) (f : Field) (v : Nat) : SMap (BitVec 32) :=
  SMap.set (regReset f.addr) r f.addr (BitVec.ofNat 32 (setBits (SMap.get (regReset f.addr) r f.addr).toNat f.low f.width v))

theorem Dev.rd_eq_regsRd (d : Dev) (f : Field) : d.rd f = regsRd d.regs f := rfl

theorem Dev.wr_regs (d : Dev) (f : Field) (v : Nat) : (d.wr f v).regs = regsWr d.regs f v := rfl

/-- Two fields share no bit, as a test. -/
def Field.apartB (f g : Field) : Bool := g.addr != f.addr || decide (f.low + f.width ≤ g.low) || decide (g.low + g.width ≤ f.low)

theorem Field.apart_of_apartB {f g : Field} (h : f.apartB g = true) : f.apart g := by
  simpa [Field.apartB, Field.apart, or_assoc] using h

/-- A field reads what it was set to. -/
theorem regsRd_regsWr_same (r : SMap (BitVec 32)) (f : Field) (v : Nat) (h : f.low + f.width ≤ 32) :
    regsRd (regsWr r f v) f = v % 2 ^ f.width :=
  Dev.rd_wr_same { State.reset.dev with regs := r } f v h

/-- A field keeps its value when one that shares no bit with it is set. -/
theorem regsRd_regsWr_apart (r : SMap (BitVec 32)) (f g : Field) (v : Nat) (h : f.low + f.width ≤ 32) (hapart : f.apartB g = true) :
    regsRd (regsWr r f v) g = regsRd r g :=
  Dev.rd_wr_free (d := { State.reset.dev with regs := r }) (Field.apart_of_apartB hapart) h

/-- A field keeps its value when one that shares no bit with it is set. -/
theorem Dev.rd_wr_of_apartB (d : Dev) (f g : Field) (v : Nat) (h : f.low + f.width ≤ 32) (hapart : f.apartB g = true) :
    (d.wr f v).rd g = d.rd g := regsRd_regsWr_apart d.regs f g v h hapart

end Sys2Proof.Machine
end

section
/-!
The start of the device, warm resets and lost supplies (spec/15_convoy_and_start_up.md, spec/20_package_power_and_clocks.md): what a release
of the helm and a reset of the core dies leave as it was, and the obligations on these commands.
-/
namespace Sys2Proof.Machine

/-! ### What a release of the helm leaves alone -/

/-- Stopping the transmitters writes counters of the WAN ports and no register below them. -/
theorem Dev.cutFrames_reg (d : Dev) {a : Nat} (ha : a < 0x01C10000) : d.cutFrames.reg a = d.reg a := by
  unfold Dev.cutFrames
  dsimp only
  rw [Dev.emit_reg]
  refine List.foldlRecOn (motive := fun e : Dev => e.reg a = d.reg a) _ _ rfl fun e he p _ => ?_
  have hbump : (e.wanBump p.1 11).reg a = e.reg a := Dev.reg_bump_ne e _ _ (by show a ≠ 0x01C10000 + 64 * p.1 + 4 * 11; omega)
  split <;> split
  · exact hbump.trans he
  · exact he
  · exact hbump.trans he
  · exact he

/-- A release of the helm writes no register below those of the WAN ports. -/
theorem Dev.helmRelease_reg (d : Dev) (cause hold : Nat) {a : Nat} (ha : a < 0x01C10000) : (d.helmRelease cause hold).reg a = d.reg a := by
  have hwr (e : Dev) (f : Field) (v : Nat) (hf : 0x01C10000 ≤ f.addr) : (e.wr f v).reg a = e.reg a := Dev.reg_wr_ne e f v (by omega)
  have hcut : (if d.helmState = hActive then d.cutFrames else d).reg a = d.reg a := by
    split
    · exact d.cutFrames_reg ha
    · rfl
  unfold Dev.helmRelease Dev.setHelm Dev.bump Dev.wrTick
  split
  · rfl
  · dsimp only
    split
    · rw [hwr _ _ _ (by decide), Dev.emit_reg, hwr _ _ _ (by decide), hwr _ _ _ (by decide), hwr _ _ _ (by decide), hwr _ _ _ (by decide),
        hcut]
    · rw [hwr _ _ _ (by decide)]
      exact (hwr _ _ _ (by decide)).trans ((hwr _ _ _ (by decide)).trans ((hwr _ _ _ (by decide)).trans ((hwr _ _ _ (by decide)).trans hcut)))

theorem HelmOnly.pwr {d e : Dev} (h : HelmOnly d e) : e.pwr = d.pwr := by
  obtain ⟨_, _, _, _, rfl⟩ := h
  rfl

theorem HelmOnly.flt {d e : Dev} (h : HelmOnly d e) : e.flt = d.flt := by
  obtain ⟨_, _, _, _, rfl⟩ := h
  rfl

theorem FltOnly.pwr {d e : Dev} (h : FltOnly d e) : e.pwr = d.pwr := by
  obtain ⟨_, _, rfl⟩ := h.rest
  rfl

theorem FltOnly.cvy {d e : Dev} (h : FltOnly d e) : e.cvy = d.cvy := by
  obtain ⟨_, _, rfl⟩ := h.rest
  rfl

/-- A FATAL fault followed by a release of the helm touches no supply. -/
theorem Dev.pwr_helmRelease_fault (d : Dev) (src cls event cause : Nat) :
    ((d.fault src cls event).helmRelease cause 0).pwr = d.pwr :=
  (HelmOnly.release _ _ _).pwr.trans (FltOnly.fault _ _ _ _ _).pwr

/-! ### Steps of the start -/

/-- Locking the convoy starts the size phase and leaves the host endpoint alone. -/
theorem Dev.cvyLock_hst (d : Dev) : d.cvyLock.hst = d.hst := by
  unfold Dev.cvyLock
  dsimp only
  split <;> rfl

/-- The calibration of the start goes on once, without BOOT_ERR. -/
theorem Dev.serdesDone_of_calibrating (d : Dev) (hcal : d.cvy.cal = false) (herr : d.on GLB_BOOT_STATUS.BOOT_ERR = false) :
    d.serdesDone =
      let e := (d.wr GLB_BOOT_STATUS.STEP (max 5 (d.rd GLB_BOOT_STATUS.STEP))).cvyCalibrated
      { e with hst := { e.hst with cal := true, training := !e.hst.perst } } := by
  rw [Dev.serdesDone, if_neg (by simp [hcal, herr])]

theorem Dev.cvyCalibrated_of_root (d : Dev) (h : d.isRoot = true) :
    d.cvyCalibrated = { d with cvy := { d.cvy with cal := true, loaded := true } }.cvyLock := if_pos h

theorem Dev.cvyCalibrated_of_member (d : Dev) (h : d.isRoot = false) : d.cvyCalibrated = { d with cvy := { d.cvy with cal := true } } :=
  if_neg (Bool.eq_false_iff.mp h)

/-- The number of the start's step shares its register with the straps and leaves them. -/
theorem Dev.isRoot_wr_step (d : Dev) (v : Nat) : (d.wr GLB_BOOT_STATUS.STEP v).isRoot = d.isRoot :=
  Dev.on_wr_apart d _ GLB_BOOT_STATUS.ROOT v (by decide) (by decide)

/-- The start's third step goes on while the device waits for its image. -/
theorem Dev.bootImage_of_waiting (d : Dev) (hstep : d.pwr.step3 = false) (herr : d.on GLB_BOOT_STATUS.BOOT_ERR = false)
    (hheld : d.held = false) : ¬ (d.pwr.step3 = true ∨ d.on GLB_BOOT_STATUS.BOOT_ERR = true ∨ d.held = true) := by
  simp [hstep, herr, hheld]

/-- Settles O8: step 2 goes on as `Dev.serdesDone_of_calibrating` says, and step 3 by the source of the image. -/
theorem startSteps : Obligations.StartSteps := by
  refine ⟨fun s hdead htodo hcal herr hroot => ?member, fun s hdead hcal herr hroot => ?root, fun s h hstep herr hsrc hmem => ?image,
    fun s h hstep herr hsrc hprimary hsecondary => ?noBank⟩
  case member =>
    refine State.does_of_alive hdead htodo rfl rfl ?_ rfl
    rw [Dev.serdesDone_of_calibrating _ hcal herr, Dev.cvyCalibrated_of_member _ ((s.dev.isRoot_wr_step _).trans hroot)]
    rfl
  case root =>
    refine State.runs_of_alive hdead rfl rfl ?_
    rw [Dev.serdesDone_of_calibrating _ hcal herr, Dev.cvyCalibrated_of_root _ ((s.dev.isRoot_wr_step _).trans hroot)]
    dsimp only
    rw [Dev.cvyLock_hst]
    rfl
  case image =>
    refine State.runs_of_alive h.1 rfl rfl ?_
    rw [Dev.bootImage, if_neg (s.dev.bootImage_of_waiting hstep herr h.2.1), if_pos hsrc, if_pos hmem]
  case noBank =>
    refine State.does_of_alive h.1 h.2.2 rfl rfl ?_ rfl
    rw [Dev.bootImage, if_neg (s.dev.bootImage_of_waiting hstep herr h.2.1), if_neg (by omega)]
    simp only [hprimary, hsecondary, Bool.false_eq_true, if_false]

end Sys2Proof.Machine
end

section
/-!
Warm resets and lost supplies (spec/15_convoy_and_start_up.md, R355 to R357; spec/20_package_power_and_clocks.md, R444 to R447): what a reset
of the core dies leaves, and the obligations on the commands that cause and end one.
-/
namespace Sys2Proof.Machine

/-! ### A reset of the core dies -/

/-- `x` is `d` in what a reset of the core dies keeps. -/
def Dev.SameKept (d x : Dev) : Prop :=
  ∃ regs out hlm wan pwr, x = { d with regs, out, hlm, wan, pwr }

theorem HelmOnly.sameKept {d x : Dev} (h : HelmOnly d x) : d.SameKept x := by
  obtain ⟨regs, out, hlm, wan, rfl⟩ := h
  exact ⟨regs, out, hlm, wan, d.pwr, rfl⟩

theorem Dev.sameKept_pwr (d : Dev) (pwr : Pwr) : d.SameKept { d with pwr } := ⟨d.regs, d.out, d.hlm, d.wan, pwr, rfl⟩

/-- The cause of a reset stands in its register: what the reset writes after it is elsewhere. -/
theorem Dev.rd_last_coreReset (d : Dev) (cause : Nat) : (d.coreReset cause).rd GLB_RST_CAUSE.LAST = cause % 8 := by
  unfold Dev.coreReset
  dsimp only
  refine List.foldlRecOn (motive := fun e : Dev => e.rd GLB_RST_CAUSE.LAST = cause % 8) _ _ ?written fun e he stack _ => ?failed
  case written =>
    have hwritten (fell : Nat) : ((d.cleared.wrs [(GLB_RST_CAUSE.LAST, cause), (GLB_BOOT_STATUS.STEP, 4), (FWU_STATUS.FELLBACK, fell)]).bump
        GLB_RST_CAUSE.WARM_CNT).rd GLB_RST_CAUSE.LAST = cause % 8 := by
      simp only [Dev.wrs_cons, Dev.wrs_nil, Dev.bump]
      rw [Dev.rd_wr_apart _ _ _ _ (by decide) (by decide), Dev.rd_wr_addr _ _ _ _ (by decide), Dev.rd_wr_addr _ _ _ _ (by decide),
        Dev.rd_wr_same _ _ _ (by decide)]
      rfl
    split
    · exact (Dev.rd_wr_addr _ _ _ _ (by decide)).trans (hwritten _)
    · exact hwritten _
  case failed =>
    exact (Dev.rd_wr_addr _ _ _ _ (by show 0x14 ≠ 0x00C00100 + 16 * stack; omega)).trans he

/-- What a command leaves that resets the core dies. -/
theorem Dev.warm_coreReset {d x : Dev} (hkept : d.SameKept x) (hheld : x.held = false) (cause : Nat) {e : Dev}
    (hcalm : Calm (x.coreReset cause) e) : d.Warm e (cause % 8) := by
  obtain ⟨regs, heq⟩ := RegOnly.coreReset x cause
  have hlast : e.rd GLB_RST_CAUSE.LAST = cause % 8 := (hcalm.rd _ (by decide)).trans (x.rd_last_coreReset cause)
  rw [heq] at hcalm
  have hpwr : e.pwr = { x.pwr with step3 := false, retrain := false } := hcalm.pwr
  have hheld' : e.held = x.held := by rw [Dev.held, hpwr]; rfl
  have htck := hcalm.tck
  have hflt := hcalm.flt
  obtain ⟨cxlErr, reading, hfwu⟩ := hcalm.fwu
  obtain ⟨_, _, _, _, _, rfl⟩ := hkept
  exact ⟨hlast, hheld'.trans hheld, hcalm.cht, hcalm.asx, hcalm.lku, hcalm.pipe, hcalm.dpt, hcalm.que, hcalm.yrd, hcalm.wan, hcalm.fab,
    hcalm.cge, by rw [htck]; rfl, by rw [htck]; rfl, by rw [htck]; rfl, by rw [hflt]; rfl, by rw [hflt]; rfl, by rw [hflt]; rfl,
    by rw [htck]; rfl, by rw [htck]; rfl, hcalm.sxt, by rw [hflt]; rfl, by rw [hflt]; rfl, by rw [hflt]; rfl, by rw [hflt]; rfl,
    by rw [hflt]; rfl, by rw [hfwu]; rfl, by rw [hfwu]; rfl, by rw [hfwu]; rfl⟩

/-- A reset of the core dies leaves no reaction waiting. -/
theorem Dev.coreReset_todo (d : Dev) (cause : Nat) : (d.coreReset cause).flt.todo = [] := by
  obtain ⟨_, heq⟩ := RegOnly.coreReset d cause
  rw [heq]
  rfl

/-- A command that resets the core dies of a device not held leaves them reset. -/
theorem State.Runs.warm {s : State} {c : Instr} {x : Dev} {cause : Nat} (h : s.Runs c (x.coreReset cause)) (hkept : s.dev.SameKept x)
    (hheld : x.held = false) : s.Gets c fun e => s.dev.Warm e (cause % 8) :=
  (h.does (x.coreReset_todo cause)).gets fun _ hcalm => Dev.warm_coreReset hkept hheld cause hcalm

/-- The end of a hold resets the core dies once nothing else holds them. -/
theorem Dev.holdEnd_of_held (d : Dev) (h : d.held = true) : d.holdEnd = d := if_pos h

theorem Dev.holdEnd_of_not_held (d : Dev) (h : d.held = false) : d.holdEnd = d.coreReset d.pwr.cause := if_neg (Bool.eq_false_iff.mp h)

theorem Dev.held_eq_false {d : Dev} (hbrown : d.pwr.brown = []) (hrails : d.pwr.rails = []) (href : d.pwr.refLost = false) :
    d.held = false := by
  rw [Dev.held, hbrown, hrails, href]
  rfl

theorem Dev.held_of_brown {d : Dev} (h : d.pwr.brown ≠ []) : d.held = true := by
  cases hb : d.pwr.brown with
  | nil => exact absurd hb h
  | cons die r => simp [Dev.held, hb]

/-- A warm reset releases the helm and resets the core dies. -/
theorem Dev.warmReset_of_not_held (d : Dev) (h : d.held = false) : d.warmReset = (d.helmRelease 2 0).coreReset 1 :=
  if_neg (Bool.eq_false_iff.mp h)

/-- WARM_RESET and GLB_RST_CTRL.WARM alike. -/
theorem State.Runs.warmReset {s : State} {c : Instr} (h : s.Runs c s.dev.warmReset) (hheld : s.dev.held = false) :
    s.Gets c fun e => s.dev.Warm e 1 := by
  have hrelease := HelmOnly.release s.dev 2 0
  rw [Dev.warmReset_of_not_held _ hheld] at h
  exact h.warm hrelease.sameKept (by rw [Dev.held, hrelease.pwr]; exact hheld)

/-- Settles O9: each of these commands resets the core dies of a device that nothing holds (`State.Runs.warm`), or only ends its hold. -/
theorem warmResets : Obligations.WarmResets := by
  refine ⟨fun s hdead hheld => ?warm, fun s h => ?command, fun s warm key h hkey hno => ?ignored,
    fun s hdead hbrown hrails href => ?brown, fun s rail hdead htodo hlo hhi hlost hbrown => ?stillHeld,
    fun s rail hdead hlo hhi hrails hbrown href => ?rail, fun s hdead href hbrown hrails => ?clock⟩
  case warm => exact (State.runs_of_alive hdead rfl rfl rfl : s.Runs .warmReset s.dev.warmReset).warmReset hheld
  case command => exact (h.runs rfl rfl (if_pos rfl) : s.Runs (.glbWarmResetCmd true 0xA5C3) s.dev.warmReset).warmReset h.1.2.1
  case ignored => exact h.does rfl (decide_eq_true hkey) (if_neg (by simpa using hno)) rfl
  case brown =>
    have hrun : s.Runs .brownOutRecovery (Dev.holdEnd { s.dev with pwr := { s.dev.pwr with brown := [] } }) :=
      State.runs_of_alive hdead rfl rfl (if_neg (by simpa using hbrown))
    have hheld : Dev.held { s.dev with pwr := { s.dev.pwr with brown := [] } } = false := Dev.held_eq_false rfl hrails href
    rw [Dev.holdEnd_of_not_held _ hheld] at hrun
    exact hrun.warm (Dev.sameKept_pwr _ _) hheld
  case stillHeld =>
    exact State.does_of_alive hdead htodo rfl (decide_eq_true ⟨hlo, hhi⟩)
      ((if_pos hlost).trans (Dev.holdEnd_of_held _ (Dev.held_of_brown hbrown))) rfl
  case rail =>
    have hrun : s.Runs (.supervisedRailReturn rail)
        (Dev.holdEnd { s.dev with pwr := { s.dev.pwr with rails := s.dev.pwr.rails.filter (· != rail) } }) :=
      State.runs_of_alive hdead rfl (decide_eq_true ⟨hlo, hhi⟩) (if_pos (by simp [hrails]))
    have hheld : Dev.held { s.dev with pwr := { s.dev.pwr with rails := s.dev.pwr.rails.filter (· != rail) } } = false :=
      Dev.held_eq_false hbrown (by simp [hrails]) href
    rw [Dev.holdEnd_of_not_held _ hheld] at hrun
    exact hrun.warm (Dev.sameKept_pwr _ _) hheld
  case clock =>
    have hrun : s.Runs .refclkReturn (Dev.holdEnd { s.dev with pwr := { s.dev.pwr with refLost := false, cause := 1 } }) :=
      State.runs_of_alive hdead rfl rfl (if_pos href)
    have hheld : Dev.held { s.dev with pwr := { s.dev.pwr with refLost := false, cause := 1 } } = false :=
      Dev.held_eq_false hbrown hrails rfl
    rw [Dev.holdEnd_of_not_held _ hheld] at hrun
    exact hrun.warm (Dev.sameKept_pwr _ _) hheld

/-! ### Lost supplies -/

/-- Counting a fault of a class does not change what the source reacts with. -/
theorem Dev.reactCode_bump_clsCounter (d : Dev) (die src cls : Nat) : (d.bump (clsCounter die cls)).reactCode src cls = d.reactCode src cls := by
  have hapart : ¬ fltReg (FLT_REACT.addr src) := by simp [fltReg, FLT_REACT.addr]; omega
  have hrd := (FltOnly.bump d _ (clsCounter_addr die cls)).rd
  rw [Dev.reactCode, Dev.reactCode, hrd (FLT_REACT.CORR src) hapart, hrd (FLT_REACT.CONT src) hapart, hrd (FLT_REACT.FATAL src) hapart]

/-- What the reaction codes 4 and 5 leave waiting is the release of the helm. -/
theorem Dev.react_todo_of_release (d : Dev) (src : Nat) {code : Nat} (hcode : code = 4 ∨ code = 5) :
    (d.react src code).flt.todo = d.flt.todo ++ [.releaseHelm 1] := by
  rcases hcode with rfl | rfl <;> rfl

/-- After a detection whose reaction releases the helm, that release is what may wait. -/
theorem Dev.faultRecord_todo_of_release (d : Dev) (src cls event detail : Nat) (inj : Bool)
    (hcode : d.reactCode src cls = 4 ∨ d.reactCode src cls = 5) (htodo : d.flt.todo = []) :
    ∀ p ∈ (d.faultRecord src cls event detail inj).flt.todo, p = Pend.releaseHelm 1 := by
  unfold Dev.faultRecord
  dsimp only
  rw [Dev.reactCode_bump_clsCounter]
  split
  · simp [htodo]
  · split
    · simp [htodo]
    · split
      · simp [htodo]
      · simp [Dev.react_todo_of_release _ _ hcode, htodo]

/-- The reactions that wait are releases of the helm: carrying them out touches no supply. -/
theorem Dev.carryAll_pwr (d : Dev) (n : Nat) (h : ∀ p ∈ d.flt.todo, p = Pend.releaseHelm 1) : (d.carryAll n).pwr = d.pwr := by
  induction n generalizing d with
  | zero => rfl
  | succ n ih =>
    unfold Dev.carryAll
    split
    next => rfl
    next p r htodo =>
      rw [htodo, List.forall_mem_cons] at h
      obtain ⟨rfl, hrest⟩ := h
      have hrelease := HelmOnly.release { d with flt := { d.flt with todo := r } } 1 0
      exact (ih _ (by rw [Dev.carryOut, hrelease.flt]; exact hrest)).trans hrelease.pwr

/-- The supplies after a command's end, when only releases of the helm waited. -/
theorem Dev.settle_pwr (d : Dev) (h : ∀ p ∈ d.flt.todo, p = Pend.releaseHelm 1) : d.settle.pwr = d.pwr :=
  (Calm.settleAfter d).pwr.trans (d.carryAll_pwr _ h)

/-- A brown-out of a die that has none. -/
theorem Dev.coreBrown_of_new (d : Dev) (die : Nat) (h : d.pwr.brown.contains die = false) :
    d.coreBrown die = { (d.fault (0x352 + die) fatal 0x0D).helmRelease 3 0 with
      pwr := { d.pwr with cause := 2 + die, retrain := d.pwr.retrain || die == 1, brown := die :: d.pwr.brown } } := by
  rw [Dev.coreBrown, if_neg (Bool.eq_false_iff.mp h), Dev.brownOut]
  dsimp only
  rw [Dev.pwr_helmRelease_fault]

/-- The root keeps its lock when its reference clock is lost. -/
theorem Dev.refLoss_of_root (d : Dev) (href : d.pwr.refLost = false) (hroot : d.isRoot = true) :
    d.refLoss = { ((d.fault 0x1C0 fatal 0x05).wr GLB_PWR_STATUS.REFCLK_LOST 1).helmRelease 1 0 with
      pwr := { d.pwr with refLost := true, cause := 1 } } := by
  have hreg : (((d.fault 0x1C0 fatal 0x05).wr GLB_PWR_STATUS.REFCLK_LOST 1).helmRelease 1 0).reg GLB_BOOT_STATUS.addr =
      d.reg GLB_BOOT_STATUS.addr :=
    (Dev.helmRelease_reg _ _ _ (by decide)).trans ((Dev.reg_wr_ne _ _ _ (by decide)).trans
      ((FltOnly.fault d _ _ _ _).reg _ (by unfold fltReg; decide)))
  have hpwr : (((d.fault 0x1C0 fatal 0x05).wr GLB_PWR_STATUS.REFCLK_LOST 1).helmRelease 1 0).pwr = d.pwr :=
    (HelmOnly.release _ _ _).pwr.trans (FltOnly.fault d _ _ _ _).pwr
  rw [Dev.refLoss, if_neg (Bool.eq_false_iff.mp href)]
  generalize ((d.fault 0x1C0 fatal 0x05).wr GLB_PWR_STATUS.REFCLK_LOST 1).helmRelease 1 0 = x at hreg hpwr ⊢
  have hroot' : x.isRoot = true := by
    rw [← hroot, Dev.isRoot, Dev.isRoot, Dev.on, Dev.on, Dev.rd, Dev.rd, hreg]
  dsimp only
  rw [if_pos (.inl hroot'), hpwr]

/-- Settles O10: the supplies are those of the state before, since neither the fault nor the release of the helm touches them
(`Dev.pwr_helmRelease_fault`, `Dev.settle_pwr`). -/
theorem supplyLosses : Obligations.SupplyLosses := by
  refine ⟨fun s die hdead hdie hnew => ?brown, fun s die hdead hdie hnew htodo hcode => ?held, fun s rail hdead hlo hhi hnew => ?rail,
    fun s hdead href hroot => ?clock, fun s hdead htodo hidle => ?standby, fun s hdead htodo hhelm => ?standbyHelm⟩
  case brown => exact State.runs_of_alive hdead rfl (decide_eq_true hdie) (s.dev.coreBrown_of_new die hnew)
  case held =>
    refine ⟨_, State.runs_of_alive hdead rfl (decide_eq_true hdie) (s.dev.coreBrown_of_new die hnew), rfl, ?_⟩
    have hwaits := s.dev.faultRecord_todo_of_release (0x352 + die) fatal 0x0D 0 false hcode htodo
    have hpwr := Dev.settle_pwr { (s.dev.fault (0x352 + die) fatal 0x0D).helmRelease 3 0 with
      pwr := { s.dev.pwr with cause := 2 + die, retrain := s.dev.pwr.retrain || die == 1, brown := die :: s.dev.pwr.brown } }
      (by rw [(HelmOnly.release _ 3 0).flt]; exact hwaits)
    exact ⟨Dev.held_of_brown (by rw [hpwr]; exact List.cons_ne_nil _ _), by rw [hpwr], by rw [hpwr]⟩
  case rail =>
    refine State.runs_of_alive hdead rfl (decide_eq_true ⟨hlo, hhi⟩) ?_
    have hpwr := s.dev.pwr_helmRelease_fault (0x352 + railDie rail) fatal 0x0D 3
    rw [Dev.railLoss, if_neg (by rw [hnew, Bool.false_eq_true, or_false]; omega), Dev.brownOut]
    generalize (s.dev.fault (0x352 + railDie rail) fatal 0x0D).helmRelease 3 0 = x at hpwr ⊢
    rw [← hpwr]
    rfl
  case clock => exact State.runs_of_alive hdead rfl rfl (s.dev.refLoss_of_root href hroot)
  case standby => exact State.does_of_alive hdead htodo rfl rfl (by rw [Dev.standbyLoss, hidle]; rfl) rfl
  case standbyHelm => exact State.does_of_alive hdead htodo rfl rfl (by rw [Dev.standbyLoss, hhelm]; rfl) rfl

end Sys2Proof.Machine
end

section
/-!
The cold start (spec/15_convoy_and_start_up.md, R352; spec/00_scope.md, R2): the device after each of its three ends, and what the end of the
command leaves of it.
-/
namespace Sys2Proof.Machine

/-- A setpoint command that is acknowledged is in force; of the sag responders it may move the levels. -/
theorem Dev.avsCmd_acknowledged (d : Dev) (die mv : Nat) :
    ∃ nrg, d.avsCmd die mv true =
      { ({ d.emit (.avs die mv) with pwr := if die = 0 then { d.pwr with mvA := mv } else { d.pwr with mvT := mv } } : Dev).wr (avsSet die)
        mv with nrg } := by
  unfold Dev.avsCmd Dev.setSag
  dsimp only
  rw [if_pos rfl]
  split
  · split <;> exact ⟨_, rfl⟩
  · exact ⟨_, rfl⟩

/-- A setpoint lies within 0.700 V to 0.800 V. -/
theorem mvClamp_le (x : Int) : mvClamp x ≤ 800 := by unfold mvClamp; omega

/-- A cold reset answers with the device it leaves, after the end of a command. -/
theorem State.runs_coldReset (s : State) (i : ColdIn) (hmode : i.mode < 4) (hboot : i.bootSrc < 4) :
    s.Runs (.coldReset i) (s.dev.coldReset i) := congrArg Host.Outcome.next (if_pos (decide_eq_true ⟨hmode, hboot⟩))

/-- The device once its straps are sampled. -/
def Dev.strapped (d : Dev) (i : ColdIn) : Dev :=
  let keep := { Fwu.reset with flash := d.fwu.flash, svn := d.fwu.svn, revoked := d.fwu.revoked }
  let e := Dev.cold d.free d.out keep { Pwr.reset with bootSrc := i.bootSrc % 4 }
  e.wrs [(GLB_BOOT_STATUS.MODE, i.mode), (GLB_BOOT_STATUS.ROOT, b2n i.root), (GLB_BOOT_STATUS.PREF, b2n i.pref),
    (CVY_STATUS.ROOT, b2n i.root), (HLM_STATUS.PREF, b2n i.pref), (HLM_STATUS.LINE, e.hlm.pat), (GLB_BOOT_STATUS.STEP, 1)]

/-- A reserved MODE ends the start at its straps. -/
theorem Dev.coldReset_of_reserved (d : Dev) (i : ColdIn) (h : i.mode = 3) :
    d.coldReset i = Dev.wr { d.strapped i with flt := { (d.strapped i).flt with strapFault := true } } GLB_BOOT_STATUS.STRAP_ERR 1 :=
  if_pos (by rw [h])

/-- The device with its test nonce drawn and its test strap sampled. -/
def Dev.nonced (d : Dev) (low : Bool) : Dev :=
  let r := d.draw
  let n := (Config.nonce r.1).toNat
  let e := r.2.wrs [(FLT_TEST_NONCE_LO.NONCE, n), (FLT_TEST_NONCE_HI.NONCE, n / 2 ^ 32)]
  { e with flt := { e.flt with testStrap := low } }

/-- A fuse error ends the start with BOOT_ERR. -/
theorem Dev.coldReset_of_fuseError (d : Dev) (i : ColdIn) (hmode : i.mode < 3) (hfuse : i.fuseOk = false) :
    d.coldReset i = ((d.strapped i).nonced i.testLow).wr GLB_BOOT_STATUS.BOOT_ERR 1 :=
  (if_neg (by omega)).trans (if_pos (by rw [hfuse]; rfl))

/-- With good fuses the fuses show and the setpoints are commanded. -/
theorem Dev.coldReset_of_good (d : Dev) (i : ColdIn) (hmode : i.mode < 3) (hfuse : i.fuseOk = true) :
    d.coldReset i = ((((d.strapped i).nonced i.testLow).wrs [(FWU_FUSE.SVN, d.fwu.svn), (FWU_FUSE.REVOKED, d.fwu.revoked),
      (GLB_BOOT_STATUS.STEP, 4)]).avsCmd 0 (mvClamp (Config.voltTable 0 (ofInt 8 i.tjA))) i.ackA).avsCmd 1
        (mvClamp (Config.voltTable 1 (ofInt 8 i.tjT))) i.ackT :=
  (if_neg (by omega)).trans (if_neg (by rw [hfuse]; decide))

/-- Settles O7: the device that each end of the start leaves is named (`Dev.coldReset_of_good` and its like), and the end of the command
reaches none of what is asked. -/
theorem coldStart : Obligations.ColdStart := by
  refine ⟨fun s i hmode hboot hfuse hackA hackT => ?good, fun s i hmode hboot hfuse => ?fuse, fun s i hmode hboot => ?strap⟩
  case good =>
    have hrun := s.runs_coldReset i (by omega) hboot
    rw [Dev.coldReset_of_good _ _ hmode hfuse, hackA, hackT] at hrun
    obtain ⟨nrgA, hA⟩ := Dev.avsCmd_acknowledged (((s.dev.strapped i).nonced i.testLow).wrs [(FWU_FUSE.SVN, s.dev.fwu.svn),
      (FWU_FUSE.REVOKED, s.dev.fwu.revoked), (GLB_BOOT_STATUS.STEP, 4)]) 0 (mvClamp (Config.voltTable 0 (ofInt 8 i.tjA)))
    rw [hA] at hrun
    obtain ⟨nrgT, hT⟩ := Dev.avsCmd_acknowledged _ 1 (mvClamp (Config.voltTable 1 (ofInt 8 i.tjT)))
    rw [hT] at hrun
    refine (hrun.does rfl).gets fun e hcalm => ?_
    have hmode4 : i.mode % 2 ^ 2 = i.mode := by omega
    have hclamp (x : Int) : mvClamp x % 2 ^ 10 = mvClamp x := Nat.mod_eq_of_lt (by have := mvClamp_le x; omega)
    refine ⟨(hcalm.rd _ (by decide)).trans ?mode, (hcalm.rd _ (by decide)).trans ?root, (hcalm.rd _ (by decide)).trans ?pref,
      (hcalm.rd _ (by decide)).trans ?helmPref, ?bootSrc, by rw [hcalm.flt]; rfl, by rw [Dev.dead, hcalm.pwr, hcalm.flt]; rfl,
      by rw [Dev.held, hcalm.pwr]; rfl, by rw [hcalm.flt]; rfl, (hcalm.rd _ (by decide)).trans ?setA, (hcalm.rd _ (by decide)).trans ?setT,
      hcalm.rwt, hcalm.tck, hcalm.cht, hcalm.asx, hcalm.lku, hcalm.pipe, hcalm.dpt, hcalm.que, hcalm.yrd, hcalm.wan, hcalm.fab, hcalm.cge,
      hcalm.hlm, hcalm.sxt, ?flash, ?svn, ?revoked⟩
    case bootSrc =>
      rw [hcalm.pwr]
      exact Nat.mod_eq_of_lt hboot
    case flash | svn | revoked =>
      obtain ⟨_, _, hfwu⟩ := hcalm.fwu
      rw [hfwu]
      rfl
    case mode | root | pref | helmPref | setA | setT =>
      simp (disch := decide) only [Dev.rd_eq_regsRd, Dev.wr_regs, Dev.emit_regs, Dev.wrs_cons, Dev.wrs_nil, Dev.nonced, Dev.strapped, Dev.draw,
        avsSet, if_true, one_ne_zero, if_false, regsRd_regsWr_apart, regsRd_regsWr_same, b2n_mod_two, hmode4, hclamp]
  case fuse =>
    have hrun := s.runs_coldReset i (by omega) hboot
    rw [Dev.coldReset_of_fuseError _ _ hmode hfuse] at hrun
    refine (hrun.does rfl).gets fun e hcalm => ?_
    have herr : e.rd GLB_BOOT_STATUS.BOOT_ERR = 1 := (hcalm.rd _ (by decide)).trans (Dev.rd_wr_same _ _ _ (by decide))
    refine ⟨herr, ?_, ?_⟩
    · rw [Dev.dead, hcalm.pwr, hcalm.flt]
      rfl
    · simp [Dev.halted, Dev.on, herr]
  case strap =>
    have hrun := s.runs_coldReset i (by omega) hboot
    rw [Dev.coldReset_of_reserved _ _ hmode] at hrun
    set x := Dev.wr { s.dev.strapped i with flt := { (s.dev.strapped i).flt with strapFault := true } } GLB_BOOT_STATUS.STRAP_ERR 1 with hx
    have hcalm : Calm x x.settle := Calm.settle x rfl
    have hstrap : x.settle.flt.strapFault = true := by rw [hcalm.flt]; rfl
    refine ⟨_, hrun, rfl, (hcalm.rd _ (by decide)).trans (Dev.rd_wr_same _ _ _ (by decide)), ?_, ?_⟩
    · rw [x.flagsAgree_settle.faultN, Dev.faultN, hstrap]
      simp [b2n]
    · rw [Dev.dead, hstrap, Bool.or_true]

end Sys2Proof.Machine
end

section
/-!
Temperatures, voltages and block resets (spec/20_package_power_and_clocks.md, R442, R448; spec/12_energy_reckoning_and_supply_sag.md, R303;
spec/15_convoy_and_start_up.md, R358): what one die's reading or step does, and the obligations on these commands.
-/
namespace Sys2Proof.Machine

/-! ### Junction readings -/

/-- A reading below every threshold takes the die off the lists of hot dies. -/
theorem Dev.dieTemp_of_below (d : Dev) (die : Nat) (t : Int) (h : t < (min 150 (d.rd GLB_THERM.WARN) : Nat)) :
    d.dieTemp die t = { d with pwr := { d.pwr with hot := d.pwr.hot.filter (· != die), overs := d.pwr.overs.filter (· != die),
                                                   tripped := d.pwr.tripped.filter (· != die) } } := by
  have hhot : decide (((min 150 (d.rd GLB_THERM.WARN) : Nat) : Int) ≤ t) = false := by simpa using h
  have hhigh : decide (150 < t) = false := by simp; omega
  have htrip : decide (155 ≤ t) = false := by simp; omega
  unfold Dev.dieTemp
  simp only [hhot, hhigh, htrip, Bool.false_and, Bool.false_eq_true, if_false]

/-- A reading from WARN to 150 degrees, of a die that was not hot, sets its flag and logs a CORRECTED fault. -/
theorem Dev.dieTemp_of_warm (d : Dev) (die : Nat) (t : Int) (hwarn : (min 150 (d.rd GLB_THERM.WARN) : Nat) ≤ t) (hmax : t ≤ 150)
    (hnew : d.pwr.hot.contains die = false) :
    d.dieTemp die t = (({ d with pwr := { d.pwr with hot := die :: d.pwr.hot.filter (· != die), overs := d.pwr.overs.filter (· != die),
                                                     tripped := d.pwr.tripped.filter (· != die) } } : Dev).wr
      (if die = 0 then GLB_THERM.WARN_A else GLB_THERM.WARN_T) 1).fault (0x350 + die) corrected 0x08 := by
  have hhot : decide (((min 150 (d.rd GLB_THERM.WARN) : Nat) : Int) ≤ t) = true := by simpa using hwarn
  have hhigh : decide (150 < t) = false := by simpa using hmax
  have htrip : decide (155 ≤ t) = false := by simp; omega
  unfold Dev.dieTemp
  simp only [hhot, hhigh, htrip, hnew, Bool.false_and, Bool.true_and, Bool.not_false, Bool.false_eq_true, if_false, if_true]

/-- Showing the readings leaves the thresholds. -/
theorem Dev.rd_warn_of_shown (d : Dev) (a t : Nat) : ((d.wr GLB_TEMP.TJ_A a).wr GLB_TEMP.TJ_T t).rd GLB_THERM.WARN = d.rd GLB_THERM.WARN :=
  (Dev.rd_wr_of_apartB _ _ _ _ (by decide) (by decide)).trans (Dev.rd_wr_of_apartB _ _ _ _ (by decide) (by decide))

/-! ### Setpoints -/

/-- The levels of a setpoint in force stay. -/
theorem Dev.sagFollow_of_base (d : Dev) (die mv lo hi : Nat) (h : mv ≤ (d.sag die).base) : d.sagFollow die mv lo hi = d :=
  if_neg (by omega)

/-- The voltage that a die's readings and trim ask for (R442). -/
def Dev.avsTarget (d : Dev) (die : Nat) : Nat :=
  mvClamp (Config.voltTable die (d.rd (if die = 0 then GLB_TEMP.TJ_A else GLB_TEMP.TJ_T)) + 5 * max (-4) (min 4 (sInt 4 (d.rd (avsTrim die)))))

/-- A setpoint at its target stays. -/
theorem Dev.avsStep_of_target (d : Dev) (die : Nat) (ack : Bool) (h : d.avsTarget die = d.mv die) : d.avsStep die ack = d := if_pos h

/-- The Atkor's setpoint below its target rises by at most 5 mV, once the regulator acknowledges. -/
theorem Dev.avsStep_of_below (d : Dev) (h : d.pwr.mvA < d.avsTarget 0) :
    d.avsStep 0 true = Dev.wr { d.emit (.avs 0 (min (d.avsTarget 0) (d.pwr.mvA + 5))) with
      pwr := { d.pwr with mvA := min (d.avsTarget 0) (d.pwr.mvA + 5) } } GLB_AVS_A.SETPT (min (d.avsTarget 0) (d.pwr.mvA + 5)) := by
  have hstep : d.avsStep 0 true = d.avsCmd 0 (min (d.avsTarget 0) (d.pwr.mvA + 5)) true :=
    (if_neg (by show ¬ d.avsTarget 0 = d.pwr.mvA; omega)).trans (congrArg (d.avsCmd 0 · true) (if_pos h))
  rw [hstep, Dev.avsCmd]
  exact if_neg (by show ¬ min (d.avsTarget 0) (d.pwr.mvA + 5) < d.pwr.mvA; omega)

/-- With the levels of both dies at their setpoints, the adjustment is a step of each at its tick. -/
theorem Dev.avsAdjust_of_followed (d : Dev) (a t : Bool) (x y : Nat × Nat) (hA : (d.sag 0).base = d.pwr.mvA) (hT : (d.sag 1).base = d.pwr.mvT) :
    d.avsAdjust a t x y = if d.tck.now % 4194304 ≠ 0 then d else (d.avsStep 0 a).avsStep 1 t := by
  have hfollow : d.sagFollow 0 (d.mv 0) x.1 x.2 = d := d.sagFollow_of_base _ _ _ _ hA.ge
  have hfollow' : d.sagFollow 1 (d.mv 1) y.1 y.2 = d := d.sagFollow_of_base _ _ _ _ hT.ge
  unfold Dev.avsAdjust
  dsimp only
  rw [hfollow, hfollow']

/-- Settles O11: one die's reading (`Dev.dieTemp_of_below`, `Dev.dieTemp_of_warm`) after the other's, and one die's step
(`Dev.avsStep_of_below`). -/
theorem temperatureAndVoltage : Obligations.TemperatureAndVoltage := by
  refine ⟨fun s a t hdead htodo ha ha' ht ht' hwa hwt => ?below, fun s a t hdead ha ha' ht' hwa hwt hmax hhot hovers htripped => ?warm,
    fun s a t x y hdead htodo htick hA hT => ?offTick, fun s a t x y hdead htodo htick hA hlo hhi hT => ?follow,
    fun s a t x y hdead htodo htick hA hT htA htT => ?atTarget, fun s t x y v hdead htodo htick hA hT hv hlow htT => ?rise⟩
  case below =>
    refine State.does_of_alive hdead htodo rfl (decide_eq_true ⟨ha, ha', ht, ht'⟩) ?_ rfl
    have hshown := s.dev.rd_warn_of_shown (ofInt 8 a) (ofInt 8 t)
    exact (congrArg (Dev.dieTemp · 1 t) (Dev.dieTemp_of_below _ 0 a (hshown ▸ hwa))).trans (Dev.dieTemp_of_below _ 1 t (hshown.symm ▸ hwt))
  case warm =>
    refine State.runs_of_alive hdead rfl (decide_eq_true ⟨ha, ha', by omega, ht'⟩) ?_
    have hshown := s.dev.rd_warn_of_shown (ofInt 8 a) (ofInt 8 t)
    refine (congrArg (Dev.dieTemp · 1 t) (Dev.dieTemp_of_below _ 0 a (hshown ▸ hwa))).trans ?_
    rw [Dev.dieTemp_of_warm _ 1 t (hshown.symm ▸ hwt) hmax (by simp [hhot])]
    simp [hhot, hovers, htripped]
  case offTick =>
    exact State.does_of_alive hdead htodo rfl rfl ((s.dev.avsAdjust_of_followed a t x y hA hT).trans (if_pos htick)) rfl
  case follow =>
    refine State.does_of_alive hdead htodo rfl rfl ?_ rfl
    have hfollow : s.dev.sagFollow 0 (s.dev.mv 0) x.1 x.2 = s.dev.setSag 0 { s.dev.sag 0 with base := s.dev.pwr.mvA } :=
      if_pos ⟨hA, hlo, hhi⟩
    have hkeep : (s.dev.setSag 0 { s.dev.sag 0 with base := s.dev.pwr.mvA }).sagFollow 1 (s.dev.mv 1) y.1 y.2 =
        s.dev.setSag 0 { s.dev.sag 0 with base := s.dev.pwr.mvA } := Dev.sagFollow_of_base _ 1 _ _ _ (le_of_eq hT.symm)
    unfold Dev.avsAdjust
    dsimp only
    rw [hfollow]
    exact (congrArg (fun e : Dev => if e.tck.now % 4194304 ≠ 0 then e else _) hkeep).trans (if_pos htick)
  case atTarget =>
    refine State.does_of_alive hdead htodo rfl rfl ?_ rfl
    rw [Dev.avsAdjust_of_followed _ _ _ _ _ hA hT, if_neg (by simpa using htick), Dev.avsStep_of_target _ 0 _ htA,
      Dev.avsStep_of_target _ 1 _ htT]
  case rise =>
    refine State.does_of_alive hdead htodo rfl rfl ?_ rfl
    have hv' : s.dev.avsTarget 0 = v := hv
    rw [Dev.avsAdjust_of_followed _ _ _ _ _ hA hT, if_neg (by simpa using htick), Dev.avsStep_of_below _ (hv' ▸ hlow), hv']
    refine Dev.avsStep_of_target _ 1 _ ?_
    have hread (g : Field) (hg : GLB_AVS_A.SETPT.apartB g = true) (e : Dev) (n : Nat) : (e.wr GLB_AVS_A.SETPT n).rd g = e.rd g :=
      Dev.rd_wr_of_apartB _ _ _ _ (by decide) hg
    rw [Dev.avsTarget, if_neg (by decide), hread _ (by decide), hread _ (by decide)]
    exact htT

/-! ### Block resets -/

/-- A block reset that a boundary has let start waits no longer. -/
theorem Dev.blockReset_of_due (d : Dev) (src : Nat) (h : d.flt.dueReset.contains src = true) :
    d.blockReset src = Dev.blockRestart { d with flt := { d.flt with
      dueReset := d.flt.dueReset.filter (· != src), pendReset := d.flt.pendReset.filter (· != src) } } src := if_pos (.inl h)

/-- Settles O12: the two rows of Table 15.9 are branches of `Dev.blockRestart`. -/
theorem blockResets : Obligations.BlockResets := by
  refine ⟨fun s src hdead htodo hlo hhi hdue => ?sequencer, fun s src hdead htodo hsrc hdue => ?navigator,
    fun s src hdead htodo hsrc hdue hpend => ?none⟩
  case sequencer =>
    refine State.does_of_alive hdead htodo rfl (decide_eq_true (by omega)) ?_ rfl
    rw [Dev.blockReset_of_due _ _ hdue]
    exact if_pos ⟨hlo, hhi⟩
  case navigator =>
    refine State.does_of_alive hdead htodo rfl (decide_eq_true (by omega)) ?_ rfl
    rw [Dev.blockReset_of_due _ _ hdue, Dev.blockRestart, if_neg (by omega), if_neg (by omega), if_neg (by omega), if_neg (by omega),
      if_neg (by omega), if_neg (by omega), if_neg (by omega), if_neg (by omega), if_pos hsrc]
  case none =>
    refine State.does_of_alive hdead htodo rfl (decide_eq_true hsrc) ?_ rfl
    exact if_neg (by rw [hdue, hpend]; simp)

end Sys2Proof.Machine
end

section
/-!
Ticks and slot cycles (spec/01_the_tick_and_the_promise.md): the order of a boundary's and a slot cycle's steps, what each step of a slot cycle
does when nothing is in flight, and the obligations on these commands, on frames and results, and on the cycle and digest registers.
-/
namespace Sys2Proof.Machine

/-! ### Ticks -/

/-- After the tick before ended in a device that its end leaves running, the number goes on and the boundary is made. -/
theorem Dev.tickStart_of_running (d : Dev) (n : Nat) (fec : List (Nat × Nat × Nat)) (hdead : d.dead = false) (hloaded : d.cvy.loaded = true)
    (hrun : d.tck.running = true) (hheld : d.held = false) (hend : (d.tickEnd n fec).held = false) :
    d.tickStart n fec =
      ((d.tickEnd n fec).tickNext (tickAdd d.tck.now 1)).stepsReset.sweepBoundary.boundaryBlocks.boundaryAdmit.boundaryRound := by
  have hnext : ((d.tickEnd n fec).tickNext (tickAdd d.tck.now 1)).held = false := hend
  simp [Dev.tickStart, hdead, hloaded, hrun, hheld, hnext]

/-- The first tick ends none before it. -/
theorem Dev.tickStart_of_stopped (d : Dev) (n : Nat) (fec : List (Nat × Nat × Nat)) (hdead : d.dead = false) (hloaded : d.cvy.loaded = true)
    (hrun : d.tck.running = false) (hheld : d.held = false) :
    d.tickStart n fec = (d.tickNext (if d.isRoot then d.tck.now else
      tickAdd d.tck.now 1)).stepsReset.sweepBoundary.boundaryBlocks.boundaryAdmit.boundaryRound := by
  have hnext (k : Nat) : (d.tickNext k).held = false := hheld
  simp [Dev.tickStart, hdead, hloaded, hrun, hnext]

/-- In a held device only the number and the sextant go on. -/
theorem Dev.tickStart_of_held (d : Dev) (n : Nat) (fec : List (Nat × Nat × Nat)) (hdead : d.dead = false) (hloaded : d.cvy.loaded = true)
    (hrun : d.tck.running = true) (hheld : d.held = true) : d.tickStart n fec = (d.tickNext (tickAdd d.tck.now 1)).sxtBoundary := by
  have hnext : (d.tickNext (tickAdd d.tck.now 1)).held = true := hheld
  simp [Dev.tickStart, hdead, hloaded, hrun, hheld, hnext]

/-- Settles O13: the four branches of `Dev.tickStart`. -/
theorem tickStarts : Obligations.TickStarts := by
  refine ⟨fun s hdead htodo hloaded => ?unloaded, fun s n hdead _ hloaded hheld hrun => ?held,
    fun s n fec hready hfec hloaded hrun hend => ?next, fun s n hready hloaded hrun => ?first⟩
  case unloaded => exact State.does_of_alive hdead htodo rfl rfl (if_pos (by simp [hloaded])) rfl
  case held =>
    refine State.runs_of_alive hdead rfl rfl ((s.dev.tickStart_of_held n [] hdead hloaded hrun hheld).trans ?_)
    simp only [Dev.tickNext, hrun]
  case next =>
    exact State.runs_of_alive hready.1 rfl (decide_eq_true hfec)
      (s.dev.tickStart_of_running n fec hready.1 hloaded hrun hready.2.1 hend)
  case first => exact State.runs_of_alive hready.1 rfl rfl (s.dev.tickStart_of_stopped n [] hready.1 hloaded hrun hready.2.1)

/-! ### Slot cycles with nothing in flight -/

/-- With no event selected, no counter counts. -/
theorem Dev.evtAll_of_none (d : Dev) (code k lo hi : Nat) (h : d.selections = []) : d.evtAll code k lo hi = d := by
  rw [Dev.evtAll, h, List.foldl_nil]

theorem Dev.occCount_of_none (d : Dev) (mode lo hi : Nat) (h : d.selections = []) : d.occCount mode lo hi = d := by
  rw [Dev.occCount, h, List.foldl_nil]

/-- Without a pass in flight no result lands and no pass advances. -/
theorem Dev.landDue_of_none (d : Dev) (h : d.pipe.passes = []) : d.landDue = d := by
  rw [Dev.landDue, h, List.map_nil, ← h]

theorem Dev.advance_of_none (d : Dev) (h : d.pipe.passes = []) : d.advance = d := by
  rw [Dev.advance, h, List.map_nil, ← h]

theorem Dev.finish_of_none (d : Dev) (h : d.pipe.passes = []) : d.finish = d := by
  have hended : d.pipe.ended ++ [] = d.pipe.ended := List.append_nil _
  simp only [Dev.finish, h, List.filter_nil, sortKey, List.foldl_nil, List.map_nil, Dev.growAll, hended]
  rw [← h]

theorem Dev.stages_of_none (d : Dev) (h : d.pipe.passes = []) : d.stages = d := by
  simp only [Dev.stages, h, sortKey, List.foldl_nil, Dev.runStages]
  rw [← h]

/-- Without a departure under way nothing leaves a port or a fabric group. -/
theorem Dev.txFinishAll_of_none (d : Dev) (h : d.wan.tx = []) : d.txFinishAll = d := by
  simp only [Dev.txFinishAll, h, List.filter_nil, List.foldl_nil]
  rw [← h]

theorem Dev.fabFinishAll_of_none (d : Dev) (htails : d.fab.tails = []) (hsent : d.fab.sent = []) : d.fabFinishAll = d := by
  simp only [Dev.fabFinishAll, htails, hsent, List.filter_nil, List.foldl_nil]
  conv_rhs => rw [show d = { d with fab := { d.fab with tails := d.fab.tails, sent := d.fab.sent } } from rfl, htails, hsent]

theorem Dev.creditAll_of_none (d : Dev) (h : d.dpt.credit = []) : d.creditAll = d := by
  rw [Dev.creditAll, h, List.foldl_nil, ← h]

theorem Dev.lkuCycle_of_none (d : Dev) (h : d.lku.t2old = []) : d.lkuCycle = d := by
  rw [Dev.lkuCycle, ← h]

theorem Dev.placeDue_of_none (d : Dev) (h : d.dpt.place = []) : d.placeDue = d := by
  rw [Dev.placeDue, h]
  rfl

theorem Dev.readIssue_of_none (d : Dev) (h : d.dpt.readQ = []) : d.readIssue = d := by
  rw [Dev.readIssue, h]
  rfl

theorem Dev.readTouch_of_none (d : Dev) (h : d.dpt.reads = []) : d.readTouch = d := by
  simp only [Dev.readTouch, h, List.filter_nil, List.foldl_nil]

theorem Dev.chartSwap_of_unarmed (d : Dev) (h : d.on CHT_STATUS.ARMED = false) : d.chartSwap = d :=
  if_pos (by simp [Dev.swapDue, Dev.swapsAt, h])

/-- Nothing falls due at the end of a cycle that nothing waits for. -/
theorem Dev.cycleEnd_of_none (d : Dev) (harmed : d.on CHT_STATUS.ARMED = false) (hpasses : d.pipe.passes = []) (hplace : d.dpt.place = [])
    (hreads : d.dpt.reads = []) (htx : d.wan.tx = []) (htails : d.fab.tails = []) (hsent : d.fab.sent = []) : d.cycleEnd = d := by
  simp only [Dev.cycleEnd, d.chartSwap_of_unarmed harmed, d.landDue_of_none hpasses, d.placeDue_of_none hplace, hreads, List.foldl_nil,
    d.txFinishAll_of_none htx, d.fabFinishAll_of_none htails hsent]

/-- A core cycle at full clock, with no counter selected and no sweep, is counted. -/
theorem Dev.cycle_of_none (d : Dev) (hsel : d.selections = []) (hsweep : d.snd.sweep = none) (hA : d.nrg.sagA.gated = false)
    (hT : d.nrg.sagT.gated = false) : d.cycle = d.gateCycle := by
  have hsel' : d.gateCycle.selections = [] := hsel
  have hsweep' : d.gateCycle.snd.sweep = none := hsweep
  simp [Dev.cycle, hA, hT, Dev.evtAll_of_none _ _ _ _ _ hsel', Dev.occCount_of_none _ _ _ _ hsel', Dev.sweepEdge, hsweep']

/-- At full clock no cycle is gated, and one cycle reaches the next slot. -/
theorem Sag.gated_of_full (s : Sag) (h : s.level = 0) : s.gated = false := by simp [Sag.gated, h]

theorem Sag.cycle_done (s : Sag) (h : s.level = 0) : s.cycle.done = s.done + 1 := by simp [Sag.cycle, s.gated_of_full h, b2n]

/-- From dies at the slot's own number, one core cycle reaches the next slot. -/
theorem Dev.cyclesTo_of_full (d : Dev) (k n : Nat) (hA : d.nrg.sagA.level = 0) (hT : d.nrg.sagT.level = 0) (hdA : d.nrg.sagA.done = k)
    (hdT : d.nrg.sagT.done = k) (hsel : d.selections = []) (hsweep : d.snd.sweep = none) : d.cyclesTo (k + 1) (n + 2) = d.gateCycle := by
  have hbefore : d.reached (k + 1) = false := by simp [Dev.reached, hdA]
  have hafter : d.gateCycle.reached (k + 1) = true := by
    simp [Dev.reached, Dev.gateCycle, Sag.cycle_done _ hA, Sag.cycle_done _ hT, hdA, hdT]
  have hcycle := d.cycle_of_none hsel hsweep (Sag.gated_of_full _ hA) (Sag.gated_of_full _ hT)
  rw [Dev.cyclesTo, hbefore, if_neg Bool.false_ne_true, hcycle, Dev.cyclesTo, if_pos hafter]

/-- A slot cycle of a halted device with nothing in flight. -/
theorem Dev.slotCycle_of_idle (d : Dev) (hdead : d.dead = false) (hrun : d.tck.running = true) (hslot : d.tck.slot < 504)
    (hne : d.tck.slot ≠ 87) (hmod : d.tck.slot % 252 ≠ 0) (hhalt : d.on FLT_STATUS.HALTED = true) (hend : d.cycleEnd = d)
    (hcyc : d.cyclesTo (d.tck.slot + 1) 8 = d.gateCycle) (hpasses : d.pipe.passes = []) (hcredit : d.dpt.credit = [])
    (hplaced : d.dpt.placed = []) (hreads : d.dpt.reads = []) (hreadQ : d.dpt.readQ = []) (hold : d.lku.t2old = [])
    (hsel : d.selections = []) :
    d.slotCycle [] 0 = { d with
      tck := { d.tck with slot := d.tck.slot + 1, cyc := d.tck.cyc + 1 },
      nrg := { d.nrg with sagA := d.nrg.sagA.cycle, sagT := d.nrg.sagT.cycle } } := by
  have hfail : d.gateCycle.asxFailAll = d.gateCycle := if_neg (show ¬ d.tck.slot = 0 from fun h0 => hmod (by rw [h0]))
  have hnext : ({ d.gateCycle with tck := { d.gateCycle.tck with slot := d.tck.slot + 1 }, dpt := { d.gateCycle.dpt with placed := [] } } : Dev)
      = { d.gateCycle with tck := { d.gateCycle.tck with slot := d.tck.slot + 1 } } := by
    rw [show ([] : List Nat) = d.gateCycle.dpt.placed from hplaced.symm]
  have hhalt' (e : Dev) (h : e.regs = d.regs) : e.halted = true := by
    have : e.on FLT_STATUS.HALTED = true := (Dev.on_of_regs h _).trans hhalt
    simp [Dev.halted, this]
  have hstrike : d.strike [] = d := rfl
  have hcredit' : d.gateCycle.creditAll = d.gateCycle := Dev.creditAll_of_none _ hcredit
  have hlku : d.gateCycle.lkuCycle = d.gateCycle := Dev.lkuCycle_of_none _ hold
  unfold Dev.slotCycle
  rw [if_neg (by simp [hdead, hrun, hslot])]
  dsimp only
  rw [hend, hstrike, hcyc, hcredit', hfail, hlku, if_neg hmod, hnext]
  generalize he : ({ d.gateCycle with tck := { d.gateCycle.tck with slot := d.tck.slot + 1 } } : Dev) = e
  have hregs : e.regs = d.regs := he ▸ rfl
  have hpasses' : e.pipe.passes = [] := he ▸ hpasses
  have hissue : e.issueSlot d.tck.slot = e := by
    rw [Dev.issueSlot, if_neg hne]
    exact (if_pos (hhalt' e hregs)).trans (e.finish_of_none hpasses')
  have hsel' : e.selections = [] := he ▸ hsel
  rw [e.advance_of_none hpasses', e.readIssue_of_none (he ▸ hreadQ), e.readTouch_of_none (he ▸ hreads), hissue, e.stages_of_none hpasses',
    if_pos (hhalt' e hregs), List.range_zero, List.foldl_nil, e.evtAll_of_none _ _ _ _ hsel', e.occCount_of_none _ _ _ hsel', ← he]
  rfl

/-- Settles O14: the guards of `Dev.slotCycle` and `Dev.slackCycle`, and `Dev.slotCycle_of_idle`. -/
theorem cyclesAdvance : Obligations.CyclesAdvance := by
  refine ⟨fun s errs hready hrun hslot hmod => ?slot, fun s hready hrun hslot hne hmod hhalt harmed hA hT hdA hdT hpasses hcredit hplace hplaced
    hreads hreadQ htx htails hsent hold hsel hsweep => ?idle, fun s errs fails hready hrun hslot => ?past,
    fun s errs words hready hrun hslot => ?slack, fun s errs hready hslot => ?early⟩
  case slot =>
    refine hready.runs rfl rfl ?_
    unfold Dev.slotCycle
    rw [if_neg (by simp [hready.1, hrun, hslot])]
    dsimp only
    rw [if_neg hmod]
    rfl
  case idle =>
    have hend := s.dev.cycleEnd_of_none harmed hpasses hplace hreads htx htails hsent
    have hcyc := s.dev.cyclesTo_of_full _ 6 hA hT hdA hdT hsel hsweep
    exact hready.does rfl rfl (s.dev.slotCycle_of_idle hready.1 hrun hslot hne hmod hhalt hend hcyc hpasses hcredit hplaced hreads hreadQ hold
      hsel) rfl
  case past => exact hready.does rfl rfl (if_pos (by simp [hslot])) rfl
  case slack =>
    refine hready.runs rfl rfl ?_
    unfold Dev.slackCycle
    rw [if_neg (by simp [hready.1, hrun]; omega)]
  case early => exact hready.does rfl rfl (if_pos (by simp [hslot])) rfl

/-! ### Frames, results and ended passes -/

/-- A frame without an FCS error on a port that exists is counted; what its length makes of it. -/
theorem Dev.frameIn_of_good (d : Dev) (port h : Nat) (bytes : List Byte) (hport : d.wanExists port = true) (hlen : 64 ≤ bytes.length)
    (hmax : bytes.length ≤ min 16000 (((d.wanAdd port 0 1).wanAdd port 2 bytes.length).rd (WAN_PORT_CFG.MAXF port)))
    (hreplay : ((d.wanAdd port 0 1).wanAdd port 2 bytes.length).on TCK_CTRL.REPLAY = false) :
    d.frameIn port h false bytes = { (d.wanAdd port 0 1).wanAdd port 2 bytes.length with
      tck := { d.tck with rx := d.tck.rx ++ [{ port, h, fcsBad := false, bytes }] } } := by
  unfold Dev.frameIn
  rw [if_neg (by simp [hport])]
  dsimp only
  rw [if_neg Bool.false_ne_true, if_neg (by omega), if_neg (by omega), if_neg (by simp [hreplay])]
  rfl

theorem Dev.frameIn_of_runt (d : Dev) (port h : Nat) (bytes : List Byte) (hport : d.wanExists port = true) (hlen : bytes.length < 64) :
    d.frameIn port h false bytes = ((d.wanAdd port 0 1).wanAdd port 2 bytes.length).wanBump port 10 := by
  unfold Dev.frameIn
  rw [if_neg (by simp [hport])]
  dsimp only
  rw [if_neg Bool.false_ne_true, if_pos hlen]

/-- The counters of a frame leave every field but a port's counts. -/
theorem Dev.rd_wanAdd (d : Dev) (port k n : Nat) (f : Field) (h : f.addr < 0x01C10000) : (d.wanAdd port k n).rd f = d.rd f := by
  have haddr (j : Nat) : f.addr ≠ (WAN_CNT.COUNT port j).addr := by
    show f.addr ≠ 0x01C10000 + 64 * port + 4 * j
    omega
  rw [Dev.wanAdd, Dev.rd_wr_addr _ _ _ _ (haddr _), Dev.rd_wr_addr _ _ _ _ (haddr _)]

/-- Settles O15: the branches of a frame, of a result and of `Dev.endOfPass`, each under its own condition. -/
theorem framesAndResults : Obligations.FramesAndResults := by
  refine ⟨fun s port h bytes hready hport hexists hlen hmax hreplay hloop => ?good, fun s port h bytes hready hport hexists hlen hloop => ?runt,
    fun s port h bad bytes hready hport hexists => ?missing, fun s port h bad bytes hready hport hloop => ?loopback, fun s hready => ?results,
    fun s hready hnone => ?noEnd, fun s e r hready hended => ?ended⟩
  case good =>
    have hrd (f : Field) (hf : f.addr < 0x01C10000) : ((s.dev.wanAdd port 0 1).wanAdd port 2 bytes.length).rd f = s.dev.rd f := by
      rw [Dev.rd_wanAdd _ _ _ _ _ hf, Dev.rd_wanAdd _ _ _ _ _ hf]
    refine hready.does rfl (decide_eq_true hport) ((if_neg (by simp [hloop])).trans (s.dev.frameIn_of_good port h bytes hexists hlen ?_ ?_)) rfl
    · rwa [hrd _ (show 0x01C00400 + 4 * port < 0x01C10000 by omega)]
    · rw [Dev.on, hrd _ (by decide)]
      exact hreplay
  case runt =>
    exact hready.does rfl (decide_eq_true hport) ((if_neg (by simp [hloop])).trans (s.dev.frameIn_of_runt port h bytes hexists hlen)) rfl
  case missing =>
    refine hready.does rfl (decide_eq_true hport) ?_ rfl
    exact ite_eq_left_iff.mpr fun _ => if_pos (by simp [hexists])
  case loopback => exact hready.does rfl (decide_eq_true hport) (if_pos hloop) rfl
  case results => exact hready.does rfl rfl rfl rfl
  case noEnd => exact hready.does rfl rfl (by rw [Dev.endOfPass, hnone]) rfl
  case ended => exact hready.runs rfl rfl (by rw [Dev.endOfPass, hended])

/-! ### The cycle minimum and the digest registers -/

/-- The first read of a tick's digest latches the set. -/
theorem Dev.digestRead_of_free (d : Dev) (h : d.tck.digLatch = none) :
    d.digestRead false = { d with tck := { d.tck with digLatch := some [] } } := by
  rw [Dev.digestRead, if_neg Bool.false_ne_true, h]
  rfl

/-- A later one leaves the set as it is, and without a latched set the last read does nothing. -/
theorem Dev.digestRead_of_latched (d : Dev) (l : List (BitVec 32)) (h : d.tck.digLatch = some l) : d.digestRead false = d := by
  rw [Dev.digestRead, if_neg Bool.false_ne_true, h]
  rfl

theorem Dev.digestRead_last_of_free (d : Dev) (h : d.tck.digLatch = none) : d.digestRead true = d := by
  rw [Dev.digestRead, if_pos rfl, h]

/-- Settles O16: a write, and the branches of `Dev.digestRead`. -/
theorem cyclesAndDigestReads : Obligations.CyclesAndDigestReads := by
  refine ⟨fun s hopen => ?min, fun s hopen hfree => ?latch, fun s l hopen hlatch => ?latched, fun s hopen hfree => ?none,
    fun s a b c d e hopen hlatch => ?release⟩
  case min => exact hopen.does rfl rfl rfl (s.dev.todo_wr _ _)
  case latch => exact hopen.doesGet rfl rfl (s.dev.digestRead_of_free hfree) rfl
  case latched => exact hopen.doesGet rfl rfl (s.dev.digestRead_of_latched l hlatch) rfl
  case none => exact hopen.doesGet rfl rfl (s.dev.digestRead_last_of_free hfree) rfl
  case release =>
    refine hopen.doesGet rfl rfl ?_ rfl
    simp only [Dev.digestRead, if_true, hlatch, digRegs, List.zip_cons_cons, List.zip_nil_left, List.foldl_cons, List.foldl_nil]

end Sys2Proof.Machine
end

section
/-!
Chart loads, chart swaps and twin sequencers (spec/02_chart_instruction_set.md, R72 to R75; spec/03_waypoints_passes_and_chart_swap.md, R86 to
R103; spec/04_parser.md, R118): how a load window takes and completes a command, the branches of an arm, and the obligations on these commands.
-/
namespace Sys2Proof.Machine

/-! ### The load windows -/

theorem Dev.chartCmd_of_idle (d : Dev) (go rd : Bool) (h : d.on CHT_LD_STATUS.BUSY = false) :
    d.chartCmd go rd = { d with cht := { d.cht with
      ld := some { go, rd, addr := d.reg CHT_LD_ADDR.addr, data := d.chtData } } }.wr CHT_LD_STATUS.BUSY 1 := if_neg (by simp [h])

theorem Dev.chartCmd_of_busy (d : Dev) (go rd : Bool) (h : d.on CHT_LD_STATUS.BUSY = true) :
    d.chartCmd go rd = d.wr CHT_LD_STATUS.OVERLAP 1 := if_pos h

theorem Dev.prsCmd_of_idle (d : Dev) (go rd : Bool) (h : d.on PRS_LD_STATUS.BUSY = false) :
    d.prsCmd go rd = { d with cht := { d.cht with
      prsLd := some { go, rd, addr := d.reg PRS_LD_ADDR.addr, data := d.prsData } } }.wr PRS_LD_STATUS.BUSY 1 := if_neg (by simp [h])

theorem Dev.prsCmd_of_busy (d : Dev) (go rd : Bool) (h : d.on PRS_LD_STATUS.BUSY = true) :
    d.prsCmd go rd = d.wr PRS_LD_STATUS.OVERLAP 1 := if_pos h

/-- A GO at an open shadow bank: the first check that fails, if any, decides. -/
theorem Dev.chartDone_of_open {d : Dev} {c : LoadCmd} (hld : d.cht.ld = some c) (hgo : c.go = true) (hrd : c.rd = false)
    (hbusy : d.shadowBusy = false) :
    d.chartDone = match (checkTarget c.addr).or (checkData c.addr c.data) with
      | some e => d.chartTaken.chartResult e.1 e.2
      | none => ((d.chartTaken.setShadow (loadEntry d.chartTaken.shadow c.addr c.data)).rowsWrote c).chartResult 0 7 := by
  have htaken : ¬ d.chartTaken.shadowBusy = true := by simp [(BankView.chartTaken d).shadowBusy.trans hbusy]
  simp only [Dev.chartDone, hld, hgo, hrd, Bool.and_false, Bool.false_eq_true, if_false, if_true]
  exact (if_neg htaken).trans (by cases (checkTarget c.addr).or (checkData c.addr c.data) <;> rfl)

theorem Dev.prsDone_of_open {d : Dev} {c : LoadCmd} (hld : d.cht.prsLd = some c) (hgo : c.go = true) (hrd : c.rd = false)
    (hbusy : d.shadowBusy = false) :
    d.prsDone = if checkPrs c.addr (BitVec.ofNat 128 c.data.toNat) ≠ 0 then
        d.prsTaken.prsResult (checkPrs c.addr (BitVec.ofNat 128 c.data.toNat))
      else ((d.prsTaken.setShadow (loadGraph d.prsTaken.shadow c.addr (BitVec.ofNat 128 c.data.toNat))).graphWrote c).prsResult 0 := by
  have htaken : ¬ d.prsTaken.shadowBusy = true := by simp [(BankView.prsTaken d).shadowBusy.trans hbusy]
  simp only [Dev.prsDone, hld, hgo, hrd, Bool.and_false, Bool.false_eq_true, if_false, if_true]
  exact if_neg htaken

/-- Settles O17: the window idle or busy, then the branches of `Dev.chartDone` and `Dev.prsDone`. -/
theorem chartLoads : Obligations.ChartLoads := by
  refine ⟨fun s rd hopen hidle => ?go, fun s hopen hidle => ?read, fun s rd hopen hbusy => ?overlap, fun s rd hopen hidle => ?prsGo,
    fun s hopen hidle => ?prsRead, fun s rd hopen hbusy => ?prsOverlap,
    fun s c hready hld hgo hrd hbusy htarget hdata => ?written, fun s c f hready hld hgo hrd hbusy hcheck => ?failed,
    fun s c hready hld hgo hrd hbusy => ?refused, fun s hready hnone => ?none,
    fun s c hready hld hgo hrd hbusy hcheck => ?prsWritten, fun s c hready hld hgo hrd hbusy hcheck => ?prsFailed,
    fun s hready hnone => ?prsNone⟩
  case go => exact hopen.does rfl rfl (s.dev.chartCmd_of_idle _ _ hidle) rfl
  case read => exact hopen.does rfl rfl (s.dev.chartCmd_of_idle _ _ hidle) rfl
  case overlap =>
    exact ⟨hopen.does rfl rfl (s.dev.chartCmd_of_busy _ _ hbusy) (s.dev.todo_wr _ _),
      hopen.does rfl rfl (s.dev.chartCmd_of_busy _ _ hbusy) (s.dev.todo_wr _ _)⟩
  case prsGo => exact hopen.does rfl rfl (s.dev.prsCmd_of_idle _ _ hidle) rfl
  case prsRead => exact hopen.does rfl rfl (s.dev.prsCmd_of_idle _ _ hidle) rfl
  case prsOverlap =>
    exact ⟨hopen.does rfl rfl (s.dev.prsCmd_of_busy _ _ hbusy) (s.dev.todo_wr _ _),
      hopen.does rfl rfl (s.dev.prsCmd_of_busy _ _ hbusy) (s.dev.todo_wr _ _)⟩
  case written =>
    refine hready.runs rfl rfl ((Dev.chartDone_of_open hld hgo hrd hbusy).trans ?_)
    rw [htarget, hdata]
    rfl
  case failed =>
    refine hready.does rfl rfl ((Dev.chartDone_of_open hld hgo hrd hbusy).trans ?_) ?_
    · rw [hcheck]
      rfl
    · exact congrArg Flt.todo ((BankView.chartResult _ _ _).flt.trans (BankView.chartTaken s.dev).flt)
  case refused =>
    exact hready.does rfl rfl (Dev.chartDone_refused hld hgo hrd hbusy)
      (congrArg Flt.todo ((BankView.chartResult _ _ _).flt.trans (BankView.chartTaken s.dev).flt))
  case none => exact hready.does rfl rfl (by rw [Dev.chartDone, hnone]) rfl
  case prsWritten => exact hready.runs rfl rfl ((Dev.prsDone_of_open hld hgo hrd hbusy).trans (if_neg (not_not.mpr hcheck)))
  case prsFailed =>
    exact hready.does rfl rfl ((Dev.prsDone_of_open hld hgo hrd hbusy).trans (if_pos hcheck))
      (congrArg Flt.todo ((BankView.prsResult _ _).flt.trans (BankView.prsTaken s.dev).flt))
  case prsNone => exact hready.does rfl rfl (by rw [Dev.prsDone, hnone]) rfl

/-! ### Chart swaps -/

/-- The SCOPE that an arm writes leaves what it looks at. -/
theorem Dev.on_status_wr_scope (d : Dev) (scope : Nat) (f : Field) (h : f.addr = CHT_STATUS.addr) :
    (d.wr CHT_SWAP_CTRL.SCOPE scope).on f = d.on f := by
  rw [Dev.on, Dev.on, Dev.rd_wr_addr _ _ _ _ (by rw [h]; decide)]

/-- An own-tick arm that no condition refuses keeps its target and is checked. -/
theorem Dev.arm_of_free (d : Dev) (hold : d.on CHT_STATUS.OLD_BUSY = false) (harmed : d.on CHT_STATUS.ARMED = false)
    (hchecking : d.on CHT_STATUS.CHECKING = false) :
    d.arm 0 = { d.wr CHT_SWAP_CTRL.SCOPE 0 with
      cht := { d.cht with armScope := 0, armTarget := d.rdPair CHT_SWAP_TICK_LO.TICK CHT_SWAP_TICK_HI.TICK } }.wr CHT_STATUS.CHECKING 1 := by
  have hread : (d.wr CHT_SWAP_CTRL.SCOPE 0).rdPair CHT_SWAP_TICK_LO.TICK CHT_SWAP_TICK_HI.TICK =
      d.rdPair CHT_SWAP_TICK_LO.TICK CHT_SWAP_TICK_HI.TICK := by
    rw [Dev.rdPair, Dev.rd_wr_addr _ _ _ _ (by decide), Dev.rd_wr_addr _ _ _ _ (by decide), Dev.rdPair]
  unfold Dev.arm
  dsimp only
  rw [d.on_status_wr_scope _ CHT_STATUS.OLD_BUSY rfl, d.on_status_wr_scope _ CHT_STATUS.ARMED rfl,
    d.on_status_wr_scope _ CHT_STATUS.CHECKING rfl, hold, harmed, hchecking, hread]
  rfl

/-- An arm while one is armed is refused with code 0x02. -/
theorem Dev.arm_of_armed (d : Dev) (scope : Nat) (hold : d.on CHT_STATUS.OLD_BUSY = false) (harmed : d.on CHT_STATUS.ARMED = true) :
    d.arm scope = ((d.wr CHT_SWAP_CTRL.SCOPE scope).wrs [(CHT_STATUS.ARM_ERR, 1), (CHT_STATUS.ARM_CODE, 0x02)]).setReg
      CHT_ARM_WHERE.addr 0 := by
  unfold Dev.arm
  dsimp only
  rw [d.on_status_wr_scope _ CHT_STATUS.OLD_BUSY rfl, d.on_status_wr_scope _ CHT_STATUS.ARMED rfl, hold, harmed, Bool.true_or,
    if_neg Bool.false_ne_true, if_pos rfl]

/-- The check of an arm, up to its first failure. -/
theorem Dev.armChecked_of_invalid (d : Dev) (hchecking : d.on CHT_STATUS.CHECKING = true) (hvalid : d.shadow.valid = false) :
    d.armChecked = d.armFail 0x05 0 := by
  unfold Dev.armChecked
  rw [if_neg (by simp [hchecking])]
  exact if_pos (by simp [hvalid])

/-- An own-tick arm that passes its check in time is armed. -/
theorem Dev.armChecked_of_passed (d : Dev) (hchecking : d.on CHT_STATUS.CHECKING = true) (hvalid : d.shadow.valid = true)
    (hepoch : d.shadow.epoch ≠ d.active.epoch) (hscan : d.shadow.scan = none) (hscope : d.cht.armScope = 0)
    (hfuture : tickFuture d.cht.armTarget d.tck.now = true) (hlead : 3 ≤ tickSub d.cht.armTarget d.tck.now) :
    d.armChecked = (d.wrs [(CHT_STATUS.CHECKING, 0), (CHT_STATUS.ARMED, 1), (CHT_STATUS.ARM_CODE, 0)]).setReg CHT_ARM_WHERE.addr 0 := by
  unfold Dev.armChecked
  rw [if_neg (by simp [hchecking])]
  dsimp only
  rw [if_neg (by simp [hvalid]), if_neg hepoch, hscan]
  dsimp only
  rw [hscope, hfuture]
  simp [hlead]

/-- A swap that is due makes the banks change places. -/
theorem Dev.chartSwap_of_due (d : Dev) (h : d.swapDue = true) :
    d.chartSwap = ({ (d.wrs [(CHT_STATUS.ACTIVE, 1 - d.activeNo), (CHT_STATUS.ACT_EPOCH, d.shadow.epoch), (CHT_STATUS.ARMED, 0),
      (CHT_STATUS.SWAPPED, 1), (CHT_STATUS.OLD_BUSY, 1)]).wrTick CHT_LAST_SWAP_LO.TICK CHT_LAST_SWAP_HI.TICK d.tck.now with
      cht := { d.cht with held := none } } : Dev).nrgApply := by
  unfold Dev.chartSwap
  rw [if_neg (by simp [h])]
  rfl

/-- Settles O18: the arm free or refused (`Dev.arm_of_free`, `Dev.arm_of_armed`), its check, and the swap at its tick (`Dev.chartSwap_of_due`). -/
theorem chartSwaps : Obligations.ChartSwaps := by
  refine ⟨fun s hopen hold harmed hchecking => ?arm, fun s scope hopen hscope hold harmed => ?armed, fun s hopen harmed => ?nothingArmed,
    fun s hopen harmed hscope hfuture hlead => ?disarm, fun s hready hchecking => ?unchecked, fun s hready hchecking hvalid => ?invalid,
    fun s hready hchecking hvalid hepoch hscan hscope hfuture hlead => ?passed, fun s hready hdue => ?notDue, fun s hready hdue => ?swap⟩
  case arm => exact hopen.does rfl rfl (s.dev.arm_of_free hold harmed hchecking) (by simp)
  case armed => exact hopen.does rfl (decide_eq_true hscope) (s.dev.arm_of_armed scope hold harmed) (by simp)
  case nothingArmed => exact hopen.does rfl rfl (if_neg (by simp [harmed])) rfl
  case disarm => exact hopen.does rfl rfl (if_pos (by simp [harmed, hscope, hfuture, hlead])) (s.dev.todo_wr _ _)
  case unchecked => exact hready.does rfl rfl (if_pos (by simp [hchecking])) rfl
  case invalid => exact hready.does rfl rfl (s.dev.armChecked_of_invalid hchecking hvalid) (by simp [Dev.armFail])
  case passed => exact hready.does rfl rfl (s.dev.armChecked_of_passed hchecking hvalid hepoch hscan hscope hfuture hlead) (by simp)
  case notDue => exact hready.does rfl rfl (if_pos (by simp [hdue])) rfl
  case swap => exact hready.runs rfl rfl (s.dev.chartSwap_of_due hdue)

/-! ### Twin sequencers -/

/-- A role swap with no pair resynchronising flips every pair: a flip makes none resynchronise. -/
theorem Dev.foldl_seqFlip_of_none (l : List Nat) (d : Dev) (hresync : d.cht.resync = []) :
    l.foldl (fun (d : Dev) k => if d.seqBusy k then d else d.seqFlip k) d = l.foldl Dev.seqFlip d := by
  induction l generalizing d with
  | nil => rfl
  | cons k l ih =>
    have hfree : ¬ d.seqBusy k = true := by simp [Dev.seqBusy, hresync]
    rw [List.foldl_cons, if_neg hfree, ih (d.seqFlip k) hresync, List.foldl_cons]

/-- A mismatch without uncorrectable words, with twin A driving: twin B is the faulty one. -/
theorem Dev.seqMismatch_of_shadow (d : Dev) {pair : Nat} (hpair : pair < 32) (hdriver : d.cht.driverB.getD pair false = false) :
    d.seqMismatch pair false false =
      (({ (d.bump CHT_SEQ_FAULT.COUNT).wr CHT_SEQ_STATUS.LAST_PAIR pair with
        cht := { d.cht with resync := (pair, tickAdd d.tck.now 1) :: d.cht.resync.filter fun p => p.1 != pair } } : Dev).fault
        (0x010 + pair) corrected 0x04) := by
  unfold Dev.seqMismatch
  dsimp only
  rw [Nat.mod_eq_of_lt hpair, Bool.or_false, Bool.and_false, if_neg Bool.false_ne_true, if_neg Bool.false_ne_true, if_neg]
  · rfl
  · show ¬ ((!(d.cht.driverB.getD pair false)) == d.cht.driverB.getD pair false) = true
    rw [hdriver]
    decide

/-- A reloaded twin that has waited its two ticks rejoins. -/
theorem Dev.seqResync_of_last (d : Dev) {pair t : Nat} (hresync : d.cht.resync = [(pair, t)])
    (hreached : tickReached (tickAdd t 2) d.tck.now = true) :
    d.seqResync pair = { d with cht := { d.cht with resync := [] } }.wr CHT_SEQ_STATUS.RESYNC 0 := by
  unfold Dev.seqResync
  rw [hresync]
  refine (if_pos (by simp [hreached])).trans ?_
  simp [b2n]

theorem Dev.seqResync_of_none (d : Dev) (pair : Nat) (hresync : d.cht.resync = []) : d.seqResync pair = d :=
  if_neg (by simp [hresync])

/-- With no recovery waiting, none ends. -/
theorem Dev.recovered_of_none (d : Dev) (src : Nat) (h : d.flt.recov = []) : d.recovered src = d := if_neg (by simp [h])

/-- Settles O19: the role swap over the sixteen pairs at once (`Dev.foldl_seqFlip_of_none`), and the branches of a mismatch and of a rejoin. -/
theorem sequencers : Obligations.Sequencers := by
  refine ⟨fun s hready hoff => ?offTick, fun s hready htick hnone => ?swap, fun s pair hready hpair hdriver => ?shadow,
    fun s pair hready hpair => ?both, fun s pair t hready hpair hresync hreached hrecov => ?rejoin,
    fun s pair hready hpair hresync hrecov => ?idle⟩
  case offTick => exact hready.does rfl rfl (if_pos hoff) rfl
  case swap => exact hready.runs rfl rfl ((if_neg (not_not.mpr htick)).trans (Dev.foldl_seqFlip_of_none _ _ hnone))
  case shadow => exact hready.runs rfl (decide_eq_true hpair) (s.dev.seqMismatch_of_shadow hpair hdriver)
  case both =>
    refine hready.runs rfl (decide_eq_true hpair) ?_
    unfold Dev.seqMismatch
    dsimp only
    rw [Nat.mod_eq_of_lt hpair, Bool.and_self, if_pos rfl]
  case rejoin =>
    exact hready.does rfl (decide_eq_true hpair)
      ((congrArg (Dev.recovered · _) (s.dev.seqResync_of_last hresync hreached)).trans (Dev.recovered_of_none _ _ hrecov)) rfl
  case idle =>
    exact hready.does rfl (decide_eq_true hpair)
      ((congrArg (Dev.recovered · _) (s.dev.seqResync_of_none _ hresync)).trans (Dev.recovered_of_none _ _ hrecov)) rfl

end Sys2Proof.Machine
end

section
/-!
Submissions to the operation queues (spec/05_associative_search.md, R129; spec/06_lookup_engines_and_contexts.md, R149;
spec/08_queues_scheduling_and_shaping.md, R203): what loading an operation's registers leaves, what the operation then reads from them, and the
obligations on the submissions.
-/
namespace Sys2Proof.Machine

/-! ### Registers loaded with data words -/

/-- `e` is `d` but for registers from `lo` on. -/
structure LoadedFrom (lo : Nat) (d e : Dev) : Prop where
  below : ∀ a < lo, e.reg a = d.reg a
  rest : ∃ regs, e = { d with regs }

namespace LoadedFrom

theorem setReg (lo : Nat) (d : Dev) {a : Nat} (v : BitVec 32) (h : lo ≤ a) : LoadedFrom lo d (d.setReg a v) :=
  ⟨fun _ hb => Dev.reg_setReg_ne d v (by omega), _, rfl⟩

theorem refl (lo : Nat) (d : Dev) : LoadedFrom lo d d := ⟨fun _ _ => rfl, d.regs, rfl⟩

theorem trans {lo : Nat} {a b c : Dev} (h : LoadedFrom lo a b) (k : LoadedFrom lo b c) : LoadedFrom lo a c := by
  obtain ⟨regs, rfl⟩ := h.rest
  obtain ⟨regs', rfl⟩ := k.rest
  exact ⟨fun x hx => (k.below x hx).trans (h.below x hx), regs', rfl⟩

/-- A row of data words, each at or above `lo`. -/
theorem foldl {α : Type} {lo : Nat} (f : Dev → α → Dev) (hf : ∀ d x, LoadedFrom lo d (f d x)) (l : List α) (d : Dev) :
    LoadedFrom lo d (l.foldl f d) := by
  induction l generalizing d with
  | nil => exact refl lo d
  | cons x l ih => exact (hf d x).trans (ih _)

theorem rd {lo : Nat} {d e : Dev} (h : LoadedFrom lo d e) (f : Field) (hf : f.addr < lo) : e.rd f = d.rd f := by
  rw [Dev.rd, Dev.rd, h.below _ hf]

end LoadedFrom

/-- What a device read through another's registers shares with it. -/
theorem Dev.rest_wrs (d : Dev) (l : List (Field × Nat)) : ∃ regs, d.wrs l = { d with regs } := by
  induction l generalizing d with
  | nil => exact ⟨d.regs, rfl⟩
  | cons p l ih =>
    obtain ⟨regs, hregs⟩ := ih (d.wr p.1 p.2)
    exact ⟨regs, by rw [Dev.wrs_cons, hregs]; rfl⟩

/-! ### The associative search banks -/

/-- The search banks' operation registers, written. -/
def asxOpRegs (op tbl entry : Nat) : List (Field × Nat) := [(ASX_OP_ADDR.OP, op), (ASX_OP_ADDR.TBL, tbl), (ASX_OP_ADDR.ENTRY, entry)]

theorem LoadedFrom.asxLoad (d : Dev) (op tbl entry : Nat) (data : List (BitVec 32)) :
    LoadedFrom 0x00600100 (d.wrs (asxOpRegs op tbl entry)) (d.asxLoad op tbl entry data) := by
  refine LoadedFrom.foldl _ (fun e x => ?_) _ _
  split
  · exact LoadedFrom.setReg _ _ _ (Nat.le_add_right _ _)
  · exact LoadedFrom.refl _ _

theorem Dev.rest_asxLoad (d : Dev) (op tbl entry : Nat) (data : List (BitVec 32)) : ∃ regs, d.asxLoad op tbl entry data = { d with regs } := by
  obtain ⟨regs, hregs⟩ := (LoadedFrom.asxLoad d op tbl entry data).rest
  obtain ⟨regs', hregs'⟩ := d.rest_wrs (asxOpRegs op tbl entry)
  exact ⟨regs, by rw [hregs, hregs']⟩

/-- The operation takes its holder's name and what the registers were loaded with. -/
theorem Dev.asxOpOf_asxLoad (d : Dev) (holder : Nat) {op tbl entry : Nat} (data : List (BitVec 32)) (hop : op < 16) (htbl : tbl < 64)
    (hentry : entry < 262144) : let o := (d.asxLoad op tbl entry data).asxOpOf holder
    o.holder = holder ∧ o.op = op ∧ o.tbl = tbl ∧ o.entry = entry := by
  have hload := LoadedFrom.asxLoad d op tbl entry data
  refine ⟨rfl, (hload.rd _ (by decide)).trans ?_, (hload.rd _ (by decide)).trans ?_, (hload.rd _ (by decide)).trans ?_⟩
  · simp (disch := decide) only [asxOpRegs, Dev.wrs_cons, Dev.wrs_nil, Dev.rd_wr_of_apartB, Dev.rd_wr_same]
    exact Nat.mod_eq_of_lt hop
  · simp (disch := decide) only [asxOpRegs, Dev.wrs_cons, Dev.wrs_nil, Dev.rd_wr_of_apartB, Dev.rd_wr_same]
    exact Nat.mod_eq_of_lt htbl
  · simp (disch := decide) only [asxOpRegs, Dev.wrs_cons, Dev.wrs_nil, Dev.rd_wr_same]
    exact Nat.mod_eq_of_lt hentry

/-- One submission to the search banks, whichever command makes it. -/
theorem State.asxSubmission {s : State} {c : Instr} {holder op tbl entry : Nat} {data : List (BitVec 32)} (hopen : s.Open)
    (hagent : s.Agent holder) (hop : op < 16) (htbl : tbl < 64) (hentry : entry < 262144) (hwf : Instr.wf c = true)
    (hexec : exec c s = s.act c fun d => d.agent holder ASX_OP_CMD.addr fun d => d.asxSubmit holder op tbl entry data) :
    let d := s.dev.asxLoad op tbl entry data
    let o := d.asxOpOf holder
    (d.asxGoCheck o = 0 → s.Does c { d with asx := { s.dev.asx with queue := s.dev.asx.queue ++ [o] } }.asxCount) ∧
    (d.asxGoCheck o ≠ 0 → s.Does c ((d.wr ASX_OP_STATUS.ERR 1).wr ASX_OP_STATUS.CODE (d.asxGoCheck o))) ∧
    (o.holder = holder ∧ o.op = op ∧ o.tbl = tbl ∧ o.entry = entry) ∧ (s.dev.isRevoked holder = true → d.asxGoCheck o = 0x07) := by
  intro d o
  obtain ⟨regs, hrest⟩ : ∃ regs, d = { s.dev with regs } := s.dev.rest_asxLoad op tbl entry data
  have hasx : d.asx = s.dev.asx := by rw [hrest]
  have hflt : d.flt = s.dev.flt := by rw [hrest]
  have hdoes {e : Dev} (heff : d.asxGo holder = e) (htodo : e.flt = d.flt) : s.Does c e := by
    subst heff
    exact State.does_agent hopen hagent hexec hwf ((congrArg Flt.todo (htodo.trans hflt)).trans hopen.1.2.2)
  refine ⟨fun hpass => hdoes ?_ ?_, fun hfail => hdoes ?_ ?_, s.dev.asxOpOf_asxLoad holder data hop htbl hentry, fun hrevoked => ?_⟩
  · rw [← hasx]
    exact if_neg (not_not.mpr hpass)
  · simp [Dev.asxCount]
  · exact if_pos hfail
  · simp
  · have hrevoked' : d.isRevoked o.holder = true := by
      rw [Dev.isRevoked, hflt]
      exact hrevoked
    exact if_pos hrevoked'

/-- Settles O20: the five commands are one submission (`State.asxSubmission`). -/
theorem searchSubmissions : Obligations.SearchSubmissions := by
  intro s holder tbl entry data hopen hagent htbl hentry hdata
  simp only [List.forall_mem_cons, List.not_mem_nil, false_implies, implies_true, and_true]
  exact ⟨State.asxSubmission hopen hagent (by decide) htbl hentry (decide_eq_true ⟨htbl, hentry, hdata⟩) rfl,
    State.asxSubmission hopen hagent (by decide) htbl hentry (decide_eq_true ⟨htbl, hentry⟩) rfl,
    State.asxSubmission hopen hagent (by decide) htbl hentry (decide_eq_true ⟨htbl, hentry, hdata⟩) rfl,
    State.asxSubmission hopen hagent (by decide) htbl hentry (decide_eq_true ⟨htbl, hentry, hdata⟩) rfl,
    State.asxSubmission hopen hagent (by decide) htbl hentry (decide_eq_true ⟨htbl, hentry⟩) rfl⟩

/-! ### The lookup engines -/

/-- The lookup engines' operation registers, written. -/
def lkuOpRegs (op tbl index : Nat) : List (Field × Nat) := [(LKU_WR_ADDR.OP, op), (LKU_WR_ADDR.TBL, tbl), (LKU_WR_INDEX.INDEX, index)]

theorem LoadedFrom.lkuLoad (d : Dev) (op tbl index : Nat) (data : List (BitVec 32)) :
    LoadedFrom 0x00800100 (d.wrs (lkuOpRegs op tbl index)) (d.lkuLoad op tbl index data) := by
  refine LoadedFrom.foldl _ (fun e x => ?_) _ _
  split
  · exact LoadedFrom.setReg _ _ _ (Nat.le_add_right _ _)
  · exact LoadedFrom.refl _ _

theorem Dev.rest_lkuLoad (d : Dev) (op tbl index : Nat) (data : List (BitVec 32)) : ∃ regs, d.lkuLoad op tbl index data = { d with regs } := by
  obtain ⟨regs, hregs⟩ := (LoadedFrom.lkuLoad d op tbl index data).rest
  obtain ⟨regs', hregs'⟩ := d.rest_wrs (lkuOpRegs op tbl index)
  exact ⟨regs, by rw [hregs, hregs']⟩

/-- The operation takes its holder's name and what the registers were loaded with; the count of those pending stays. -/
theorem Dev.lkuOpOf_lkuLoad (d : Dev) (holder : Nat) {op tbl index : Nat} (data : List (BitVec 32)) (hop : op < 16) (htbl : tbl < 16)
    (hindex : index < 8388608) : let o := (d.lkuLoad op tbl index data).lkuOpOf holder
    o.holder = holder ∧ o.op = op ∧ o.tbl = tbl ∧ o.index = index := by
  have hload := LoadedFrom.lkuLoad d op tbl index data
  refine ⟨rfl, (hload.rd _ (by decide)).trans ?_, (hload.rd _ (by decide)).trans ?_, (hload.rd _ (by decide)).trans ?_⟩
  · simp (disch := decide) only [lkuOpRegs, Dev.wrs_cons, Dev.wrs_nil, Dev.rd_wr_of_apartB, Dev.rd_wr_same]
    exact Nat.mod_eq_of_lt hop
  · simp (disch := decide) only [lkuOpRegs, Dev.wrs_cons, Dev.wrs_nil, Dev.rd_wr_of_apartB, Dev.rd_wr_same]
    exact Nat.mod_eq_of_lt htbl
  · simp (disch := decide) only [lkuOpRegs, Dev.wrs_cons, Dev.wrs_nil, Dev.rd_wr_same]
    exact Nat.mod_eq_of_lt hindex

theorem Dev.lkuPending_lkuLoad (d : Dev) (op tbl index : Nat) (data : List (BitVec 32)) :
    (d.lkuLoad op tbl index data).rd LKU_WR_STATUS.PENDING = d.rd LKU_WR_STATUS.PENDING := by
  rw [(LoadedFrom.lkuLoad d op tbl index data).rd _ (by decide)]
  simp (disch := decide) only [lkuOpRegs, Dev.wrs_cons, Dev.wrs_nil, Dev.rd_wr_of_apartB]

/-- One submission to the lookup engines, whichever command makes it. -/
theorem State.lkuSubmission {s : State} {c : Instr} {holder op tbl index : Nat} {data : List (BitVec 32)} (hopen : s.Open)
    (hagent : s.Agent holder) (hop : 1 ≤ op ∧ op < 14) (htbl : tbl < 16) (hindex : index < 8388608) (hwf : Instr.wf c = true)
    (hexec : exec c s = s.act c fun d => d.agent holder LKU_WR_CMD.addr fun d => d.lkuSubmit holder op tbl index data) :
    let d := s.dev.lkuLoad op tbl index data
    let o := d.lkuOpOf holder
    (s.dev.isRevoked holder = false → s.dev.rd LKU_WR_STATUS.PENDING < 256 →
      s.Does c { d with lku := { s.dev.lku with queue := s.dev.lku.queue ++ [o] } }.lkuCount) ∧
    (s.dev.isRevoked holder = true → s.Does c ((d.wr LKU_WR_STATUS.ERR 1).wr LKU_WR_STATUS.CODE 0x0A)) ∧
    (s.dev.isRevoked holder = false → 256 ≤ s.dev.rd LKU_WR_STATUS.PENDING →
      s.Does c ((d.wr LKU_WR_STATUS.ERR 1).wr LKU_WR_STATUS.CODE 0x01)) ∧
    (o.holder = holder ∧ o.op = op ∧ o.tbl = tbl ∧ o.index = index) := by
  intro d o
  obtain ⟨regs, hrest⟩ : ∃ regs, d = { s.dev with regs } := s.dev.rest_lkuLoad op tbl index data
  have hlku : d.lku = s.dev.lku := by rw [hrest]
  have hflt : d.flt = s.dev.flt := by rw [hrest]
  have hnamed := s.dev.lkuOpOf_lkuLoad holder data (by omega : op < 16) htbl hindex
  have ⟨_, ho, _⟩ := hnamed
  have hcheck : d.lkuGoCheck o =
      if s.dev.isRevoked holder then 0x0A else if 256 ≤ s.dev.rd LKU_WR_STATUS.PENDING then 0x01 else 0 := by
    have hop' : ¬ (o.op = 0 ∨ 0xE ≤ o.op) := by
      rw [show o.op = op from ho]
      omega
    rw [Dev.lkuGoCheck, if_neg hop', Dev.isRevoked, hflt, s.dev.lkuPending_lkuLoad op tbl index data]
    rfl
  have hdoes {e : Dev} (heff : d.lkuGo holder = e) (htodo : e.flt = d.flt) : s.Does c e := by
    subst heff
    exact State.does_agent hopen hagent hexec hwf ((congrArg Flt.todo (htodo.trans hflt)).trans hopen.1.2.2)
  have hrefused {code : Nat} (hcode : d.lkuGoCheck o = code) (hne : code ≠ 0) :
      s.Does c ((d.wr LKU_WR_STATUS.ERR 1).wr LKU_WR_STATUS.CODE code) := by
    subst hcode
    exact hdoes (if_pos hne) (by simp)
  refine ⟨fun hfree hroom => hdoes ?_ ?_, fun hrevoked => hrefused ?_ (by decide), fun hfree hfull => hrefused ?_ (by decide), hnamed⟩
  · rw [← hlku]
    exact if_neg (not_not.mpr (by rw [hcheck, hfree, if_neg Bool.false_ne_true, if_neg (by omega)]))
  · simp [Dev.lkuCount]
  · rw [hcheck, if_pos hrevoked]
  · rw [hcheck, hfree, if_neg Bool.false_ne_true, if_pos hfull]

/-- Settles O21: the thirteen commands are one submission (`State.lkuSubmission`). -/
theorem lookupSubmissions : Obligations.LookupSubmissions := by
  intro s holder tbl index data hopen hagent htbl hindex hdata
  have hwith {c : Instr} {op : Nat} (hop : 1 ≤ op ∧ op < 14) (hwf : Instr.wf c = decide (tbl < 16 ∧ index < 8388608 ∧ data.length ≤ 16)) :=
    State.lkuSubmission (c := c) (data := data) hopen hagent hop htbl hindex (hwf.trans (decide_eq_true ⟨htbl, hindex, hdata⟩))
  have hbare {c : Instr} {op : Nat} (hop : 1 ≤ op ∧ op < 14) (hwf : Instr.wf c = decide (tbl < 16 ∧ index < 8388608)) :=
    State.lkuSubmission (c := c) (data := []) hopen hagent hop htbl hindex (hwf.trans (decide_eq_true ⟨htbl, hindex⟩))
  simp only [List.forall_mem_cons, List.not_mem_nil, false_implies, implies_true, and_true]
  exact ⟨hwith (by decide) rfl rfl, hwith (by decide) rfl rfl, hwith (by decide) rfl rfl, hwith (by decide) rfl rfl,
    hwith (by decide) rfl rfl, hwith (by decide) rfl rfl, hwith (by decide) rfl rfl, hwith (by decide) rfl rfl, hbare (by decide) rfl rfl,
    hbare (by decide) rfl rfl, hwith (by decide) rfl rfl, hwith (by decide) rfl rfl, hbare (by decide) rfl rfl⟩

/-! ### The queues -/

/-- The queues' operation registers, written. -/
def queOpRegs (op type index : Nat) (timed : Bool) (tick : Nat) : List (Field × Nat) :=
  [(QUE_CFG_ADDR.INDEX, index), (QUE_CFG_ADDR.TYPE, type), (QUE_CFG_ADDR.OP, op), (QUE_CFG_ADDR.AT, b2n timed),
    (QUE_CFG_TICK_LO.TICK, tick), (QUE_CFG_TICK_HI.TICK, tick / 2 ^ 32)]

theorem LoadedFrom.queLoad (d : Dev) (op type index : Nat) (timed : Bool) (tick : Nat) (data : List (BitVec 32)) :
    LoadedFrom 0x01000100 (d.wrs (queOpRegs op type index timed tick)) (d.queLoad op type index timed tick data) :=
  LoadedFrom.foldl _ (fun _ _ => LoadedFrom.setReg _ _ _ (Nat.le_add_right _ _)) _ _

theorem Dev.rest_queLoad (d : Dev) (op type index : Nat) (timed : Bool) (tick : Nat) (data : List (BitVec 32)) :
    ∃ regs, d.queLoad op type index timed tick data = { d with regs } := by
  obtain ⟨regs, hregs⟩ := (LoadedFrom.queLoad d op type index timed tick data).rest
  obtain ⟨regs', hregs'⟩ := d.rest_wrs (queOpRegs op type index timed tick)
  exact ⟨regs, by rw [hregs, hregs']⟩

/-- The operation takes its holder's name and what the registers were loaded with. -/
theorem Dev.queOpOf_queLoad (d : Dev) (holder : Nat) {op type index tick : Nat} (timed : Bool) (data : List (BitVec 32)) (hop : op < 16)
    (htype : type < 16) (hindex : index < 262144) (htick : tick < 2 ^ 48) :
    let o := (d.queLoad op type index timed tick data).queOpOf holder
    o.holder = holder ∧ o.op = op ∧ o.type = type ∧ o.index = index ∧ o.timed = timed ∧ o.tick = tick := by
  have hload := LoadedFrom.queLoad d op type index timed tick data
  have hop' : (d.wrs (queOpRegs op type index timed tick)).rd QUE_CFG_ADDR.OP = op := by
    simp (disch := decide) only [queOpRegs, Dev.wrs_cons, Dev.wrs_nil, Dev.rd_wr_of_apartB, Dev.rd_wr_same]
    exact Nat.mod_eq_of_lt hop
  have htype' : (d.wrs (queOpRegs op type index timed tick)).rd QUE_CFG_ADDR.TYPE = type := by
    simp (disch := decide) only [queOpRegs, Dev.wrs_cons, Dev.wrs_nil, Dev.rd_wr_of_apartB, Dev.rd_wr_same]
    exact Nat.mod_eq_of_lt htype
  have hindex' : (d.wrs (queOpRegs op type index timed tick)).rd QUE_CFG_ADDR.INDEX = index := by
    simp (disch := decide) only [queOpRegs, Dev.wrs_cons, Dev.wrs_nil, Dev.rd_wr_of_apartB, Dev.rd_wr_same]
    exact Nat.mod_eq_of_lt hindex
  have htimed' : (d.wrs (queOpRegs op type index timed tick)).rd QUE_CFG_ADDR.AT = b2n timed := by
    simp (disch := decide) only [queOpRegs, Dev.wrs_cons, Dev.wrs_nil, Dev.rd_wr_of_apartB, Dev.rd_wr_same]
    cases timed <;> rfl
  have hlo : (d.wrs (queOpRegs op type index timed tick)).rd QUE_CFG_TICK_LO.TICK = tick % 2 ^ 32 := by
    simp (disch := decide) only [queOpRegs, Dev.wrs_cons, Dev.wrs_nil, Dev.rd_wr_of_apartB, Dev.rd_wr_same]
  have hhi : (d.wrs (queOpRegs op type index timed tick)).rd QUE_CFG_TICK_HI.TICK = tick / 2 ^ 32 := by
    simp (disch := decide) only [queOpRegs, Dev.wrs_cons, Dev.wrs_nil, Dev.rd_wr_same]
    omega
  refine ⟨rfl, (hload.rd _ (by decide)).trans hop', (hload.rd _ (by decide)).trans htype', (hload.rd _ (by decide)).trans hindex', ?_, ?_⟩
  · show decide ((d.queLoad op type index timed tick data).rd QUE_CFG_ADDR.AT = 1) = timed
    rw [hload.rd _ (by decide), htimed']
    cases timed <;> rfl
  · show (d.queLoad op type index timed tick data).rdPair _ _ = tick
    rw [Dev.rdPair, hload.rd _ (by decide), hload.rd _ (by decide), hlo, hhi]
    omega

/-- One submission to the queues, whichever command makes it. -/
theorem State.queSubmission {s : State} {c : Instr} {holder op type index tick : Nat} {timed : Bool} {data : List (BitVec 32)} (hopen : s.Open)
    (hagent : s.Agent holder) (hop : op < 16) (htype : type < 16) (hindex : index < 262144) (htick : tick < 2 ^ 48) (hwf : Instr.wf c = true)
    (hexec : exec c s = s.act c fun d => d.agent holder QUE_CFG_CMD.addr fun d => d.queSubmit holder op type index timed tick data) :
    let d := s.dev.queLoad op type index timed tick data
    let o := d.queOpOf holder
    (d.queGoCheck o = 0 → s.Does c { d with que := { s.dev.que with ops := s.dev.que.ops ++ [o] } }.queCount) ∧
    (d.queGoCheck o ≠ 0 → s.Does c (d.wrs [(QUE_CFG_STATUS.ERR, 1), (QUE_CFG_STATUS.CODE, d.queGoCheck o)])) ∧
    (o.holder = holder ∧ o.op = op ∧ o.type = type ∧ o.index = index ∧ o.timed = timed ∧ o.tick = tick) ∧
    (256 ≤ s.dev.que.ops.length → d.queGoCheck o = 0x01) := by
  intro d o
  obtain ⟨regs, hrest⟩ : ∃ regs, d = { s.dev with regs } := s.dev.rest_queLoad op type index timed tick data
  have hque : d.que = s.dev.que := by rw [hrest]
  have hflt : d.flt = s.dev.flt := by rw [hrest]
  have hdoes {e : Dev} (heff : d.queGo holder = e) (htodo : e.flt = d.flt) : s.Does c e := by
    subst heff
    exact State.does_agent hopen hagent hexec hwf ((congrArg Flt.todo (htodo.trans hflt)).trans hopen.1.2.2)
  refine ⟨fun hpass => hdoes ?_ ?_, fun hfail => hdoes (if_neg hfail) (by simp),
    s.dev.queOpOf_queLoad holder timed data hop htype hindex htick, fun hfull => if_pos (hque ▸ hfull)⟩
  · rw [← hque]
    exact if_pos hpass
  · simp [Dev.queCount]

/-- Settles O22: the three commands are one submission (`State.queSubmission`). -/
theorem queueSubmissions : Obligations.QueueSubmissions := by
  intro s holder type index tick timed data hopen hagent htype hindex htick hdata
  simp only [List.forall_mem_cons, List.not_mem_nil, false_implies, implies_true, and_true]
  exact ⟨State.queSubmission hopen hagent (by decide) htype hindex htick (decide_eq_true ⟨htype, hindex, htick, hdata⟩) rfl,
    State.queSubmission hopen hagent (by decide) htype hindex htick (decide_eq_true ⟨htype, hindex, htick⟩) rfl,
    State.queSubmission hopen hagent (by decide) htype hindex htick (decide_eq_true ⟨htype, hindex, htick⟩) rfl⟩

end Sys2Proof.Machine
end

section
/-!
Operations of the search banks and the lookup engines (spec/05_associative_search.md, R129 to R142;
spec/06_lookup_engines_and_contexts.md, R149 to R169): how an operation starts, what a tier-2 read's return does, and the obligations on them.
-/
namespace Sys2Proof.Machine

/-! ### Search bank operations -/

/-- With no operation running, the head of the queue leaves it: a MASKP starts at once, and of any other its table is looked at first. -/
theorem Dev.asxOpStart_of_maskp {d : Dev} {o : AsxOp} {r : List AsxOp} (hrate : d.rd ASX_OP_CTRL.RATE ≠ 0) (hrun : d.asx.run = none)
    (hqueue : d.asx.queue = o :: r) (hop : o.op = 4) :
    d.asxOpStart = { d with asx := { d.asx with
      queue := r, run := some { op := o, steps := [.maskp o.entry o.prof], moved := none } } }.asxCount := by
  unfold Dev.asxOpStart
  rw [hrun, hqueue]
  exact (if_neg hrate).trans (if_pos hop)

theorem Dev.asxOpStart_of_clear {d : Dev} {o : AsxOp} {r : List AsxOp} (hrate : d.rd ASX_OP_CTRL.RATE ≠ 0) (hrun : d.asx.run = none)
    (hqueue : d.asx.queue = o :: r) (hop : o.op = 2) (hvalid : (d.asx.tbl o.tbl).valid = true) (hentry : o.entry < d.asx.capacity o.tbl) :
    d.asxOpStart = { d with asx := { d.asx with
      queue := r, run := some { op := o, steps := [.write o.entry AsxEntry.free], moved := none } } }.asxCount := by
  unfold Dev.asxOpStart
  rw [hrun, hqueue]
  refine (if_neg hrate).trans ((if_neg (by omega)).trans ((if_neg ?_).trans ((if_neg (Nat.not_le.mpr hentry)).trans
    ((if_neg (by omega)).trans ((if_neg (by omega)).trans (if_pos hop))))))
  show ¬ (!(d.asx.tbl o.tbl).valid) = true
  rw [hvalid]
  decide

theorem Dev.asxOpStart_of_invalid {d : Dev} {o : AsxOp} {r : List AsxOp} (hrate : d.rd ASX_OP_CTRL.RATE ≠ 0) (hrun : d.asx.run = none)
    (hqueue : d.asx.queue = o :: r) (hop : o.op ≠ 4) (hvalid : (d.asx.tbl o.tbl).valid = false) :
    d.asxOpStart = (({ d with asx := { d.asx with queue := r } } : Dev).asxDone 0x03).asxCount := by
  unfold Dev.asxOpStart
  rw [hrun, hqueue]
  refine (if_neg hrate).trans ((if_neg hop).trans (if_pos ?_))
  show (!(d.asx.tbl o.tbl).valid) = true
  rw [hvalid]
  rfl

theorem Dev.asxOpStart_of_beyond {d : Dev} {o : AsxOp} {r : List AsxOp} (hrate : d.rd ASX_OP_CTRL.RATE ≠ 0) (hrun : d.asx.run = none)
    (hqueue : d.asx.queue = o :: r) (hop : o.op ≠ 4) (hvalid : (d.asx.tbl o.tbl).valid = true) (hentry : d.asx.capacity o.tbl ≤ o.entry) :
    d.asxOpStart = (({ d with asx := { d.asx with queue := r } } : Dev).asxDone 0x04).asxCount := by
  unfold Dev.asxOpStart
  rw [hrun, hqueue]
  refine (if_neg hrate).trans ((if_neg hop).trans ((if_neg ?_).trans (if_pos hentry)))
  show ¬ (!(d.asx.tbl o.tbl).valid) = true
  rw [hvalid]
  decide

/-- With RATE 0, an operation running or none waiting, none starts. -/
theorem Dev.asxOpStart_of_none {d : Dev} (h : d.rd ASX_OP_CTRL.RATE = 0 ∨ d.asx.run ≠ none ∨ d.asx.queue = []) : d.asxOpStart = d := by
  unfold Dev.asxOpStart
  split
  case h_1 hrun hqueue => exact if_pos (h.resolve_right (not_or.mpr ⟨not_not.mpr hrun, hqueue ▸ List.cons_ne_nil _ _⟩))
  case h_2 => rfl

/-- A quarantined bank's copy goes to the table's spare where that is enabled, free and sound. -/
theorem Dev.asxFailover_of_spare {d : Dev} {bank t c : Nat} (hslot : d.tck.slot = 0) (hdue : d.asx.quarDue.contains bank = true)
    (howner : d.asx.owner bank = some t) (hcopy : (d.asx.tbl t).copyOf bank = some c) (hquar : d.on (ASX_BANK.QUAR bank) = true)
    (hen : (d.asx.tbl t).spareEn = true) (hused : d.on (ASX_TBL_B.SPARE_USED t) = false)
    (hsound : d.asxQuarIn (d.asx.tbl t).spareBank (d.asx.tbl t).span = false) :
    d.asxFailover bank = ((({ d with asx := { d.asx with quarDue := d.asx.quarDue.filter (· != bank) } } : Dev).wr
      (ASX_TBL_B.SPARE_USED t) 1).wr (ASX_TBL_B.SPARE_COPY t) c).wr ASX_STATUS.SPARE_ACTIVE 1 := by
  unfold Dev.asxFailover
  rw [if_neg (not_or.mpr ⟨not_not.mpr hslot, not_not.mpr hdue⟩)]
  generalize he : ({ d with asx := { d.asx with quarDue := d.asx.quarDue.filter (· != bank) } } : Dev) = e
  have howner' : e.asx.owner bank = some t := he ▸ howner
  have hcopy' : (e.asx.tbl t).copyOf bank = some c := he ▸ hcopy
  have hquar' : e.on (ASX_BANK.QUAR bank) = true := he ▸ hquar
  have hen' : (e.asx.tbl t).spareEn = true := he ▸ hen
  have hused' : e.on (ASX_TBL_B.SPARE_USED t) = false := he ▸ hused
  have hsound' : e.asxQuarIn (e.asx.tbl t).spareBank (e.asx.tbl t).span = false := he ▸ hsound
  simp only [howner', hcopy', hquar', hen', hused', hsound', Bool.false_eq_true, not_false_eq_true, and_self, if_true]

/-- Settles O23: an operation's start, a failover and a return, by the branches of each. -/
theorem searchOperations : Obligations.SearchOperations := by
  refine ⟨fun s o r hready hrate hrun hqueue hop => ?maskp, fun s o r hready hrate hrun hqueue hop hvalid hentry => ?clear,
    fun s o r hready hrate hrun hqueue hop hvalid => ?invalid, fun s o r hready hrate hrun hqueue hop hvalid hentry => ?beyond,
    fun s hready hnone => ?noStart,
    fun s bank t c hready hbank howner hcopy hquar hen hused hsound hslot hdue => ?failover, fun s bank hready hbank hdue => ?noFailover,
    fun s bank hopen hbank hue hquar => ?reload, fun s bank hopen hbank hbad => ?refused, fun s bank hready hbank hret => ?returned,
    fun s bank hready hbank hret => ?readBackBad, fun s bank ok hready hbank hret => ?notReturning⟩
  case maskp => exact hready.does rfl rfl (Dev.asxOpStart_of_maskp hrate hrun hqueue hop) (by simp [Dev.asxCount])
  case clear => exact hready.does rfl rfl (Dev.asxOpStart_of_clear hrate hrun hqueue hop hvalid hentry) (by simp [Dev.asxCount])
  case invalid => exact hready.does rfl rfl (Dev.asxOpStart_of_invalid hrate hrun hqueue hop hvalid) (by simp [Dev.asxCount, Dev.asxDone])
  case beyond => exact hready.does rfl rfl (Dev.asxOpStart_of_beyond hrate hrun hqueue hop hvalid hentry) (by simp [Dev.asxCount, Dev.asxDone])
  case noStart => exact hready.does rfl rfl (Dev.asxOpStart_of_none hnone) rfl
  case failover =>
    exact hready.does rfl (decide_eq_true hbank) (Dev.asxFailover_of_spare hslot hdue howner hcopy hquar hen hused hsound) (by simp)
  case noFailover => exact hready.does rfl (decide_eq_true hbank) (if_pos (.inr (Bool.eq_false_iff.mp hdue))) rfl
  case reload => exact hopen.does rfl (decide_eq_true hbank) (if_neg (by simp [hue, hquar])) rfl
  case refused =>
    refine hopen.does rfl (decide_eq_true hbank) (if_pos (hbad.imp id fun h => by simp [h])) ?_
    simp [Dev.asxCfgErr]
  case returned => exact hready.does rfl (decide_eq_true hbank) (if_pos hret) rfl
  case readBackBad => exact hready.runs rfl (decide_eq_true hbank) (if_pos hret)
  case notReturning => exact hready.does rfl (decide_eq_true hbank) (if_neg (Bool.eq_false_iff.mp hret)) rfl

/-! ### Lookup engine operations -/

/-- With no operation running, the head of the queue leaves it, and its check decides. -/
theorem Dev.lkuOpStart_of_failed {d : Dev} {o : LkuOp} {r : List LkuOp} {c : Nat} (hrate : d.rd LKU_WR_CTRL.RATE ≠ 0)
    (hrun : d.lku.run = none) (hqueue : d.lku.queue = o :: r) (hcheck : d.lkuCheck o = .inl c) :
    d.lkuOpStart = (({ d with lku := { d.lku with queue := r }, free := d.free + 1 } : Dev).lkuDone c).lkuCount := by
  unfold Dev.lkuOpStart
  rw [hrun, hqueue]
  exact (if_neg hrate).trans (by rw [hcheck])

theorem Dev.lkuOpStart_of_passed {d : Dev} {o : LkuOp} {r : List LkuOp} {st : List LkuStep} (hrate : d.rd LKU_WR_CTRL.RATE ≠ 0)
    (hrun : d.lku.run = none) (hqueue : d.lku.queue = o :: r) (hcheck : d.lkuCheck o = .inr st) :
    d.lkuOpStart = { d with lku := { d.lku with queue := r, run := some { op := o, steps := st } }, free := d.free + 1 }.lkuCount := by
  unfold Dev.lkuOpStart
  rw [hrun, hqueue]
  exact (if_neg hrate).trans (by rw [hcheck])

theorem Dev.lkuOpStart_of_none {d : Dev} (h : d.rd LKU_WR_CTRL.RATE = 0 ∨ d.lku.run ≠ none ∨ d.lku.queue = []) : d.lkuOpStart = d := by
  unfold Dev.lkuOpStart
  split
  case h_1 hrun hqueue => exact if_pos (h.resolve_right (not_or.mpr ⟨not_not.mpr hrun, hqueue ▸ List.cons_ne_nil _ _⟩))
  case h_2 => rfl

/-- The check of a member write, and of a read of a context in another table than 0. -/
theorem Dev.lkuCheck_of_member (d : Dev) {o : LkuOp} (hop : o.op = 7) (htbl : o.tbl = 0) (hindex : o.index < 2097152)
    (hrest : o.rest 2 = false) : d.lkuCheck o = .inr [.member o.index (BitVec.ofNat 64 (o.num 0 2))] := by
  unfold Dev.lkuCheck
  dsimp only
  rw [if_neg (by omega), if_neg (by omega), if_neg (by omega), if_neg (by omega), if_pos hop, if_neg (by omega), hrest]
  rfl

theorem Dev.lkuCheck_of_table (d : Dev) {o : LkuOp} (hop : o.op = 9) (htbl : o.tbl ≠ 0) : d.lkuCheck o = .inl 0x03 := by
  unfold Dev.lkuCheck
  exact if_pos ⟨by omega, htbl⟩

/-! ### Tier-2 walks -/

theorem Dev.t2Return_of_free {d : Dev} {entry : Nat} (data : BitVec 64) (poison err : Bool) (ns : Nat)
    (h : SMap.find d.lku.layby entry = none) : d.t2Return entry data poison err ns = d := by rw [Dev.t2Return, h]

/-- A good read of a walk goes on from the entry that it read. -/
theorem Dev.t2Return_of_good {d : Dev} {entry : Nat} (data : BitVec 64) (ns : Nat) {p : Parked} {w : T2Walk}
    (h : SMap.find d.lku.layby entry = some p) (hst : p.st = .walking w) :
    let r := (d.cxlLat w.port ns).t2Go p.at_ w.v6 p.req.words w.addr 4 w.used w.reads data.toNat
    d.t2Return entry data false false ns =
      { r.2 with lku := { r.2.lku with layby := SMap.ins r.2.lku.layby entry { p with st := r.1 } } } := by
  intro r
  unfold Dev.t2Return
  simp only [h, hst, Bool.false_eq_true, or_self, if_false]
  rfl

/-- A poisoned one ends it with an error. -/
theorem Dev.t2Return_of_poison {d : Dev} {entry : Nat} (data : BitVec 64) (err : Bool) (ns : Nat) {p : Parked} {w : T2Walk}
    (h : SMap.find d.lku.layby entry = some p) (hst : p.st = .walking w) :
    let e := (d.cxlLat w.port ns).cxlError w.port
    d.t2Return entry data true err ns =
      { e with lku := { e.lku with layby := SMap.ins e.lku.layby entry { p with st := t2Err p.req.words 0x02 } } } := by
  intro e
  unfold Dev.t2Return
  rw [h]
  dsimp only
  rw [hst]
  dsimp only
  rw [if_pos (rfl : true = true), if_pos (Or.inl rfl : true = true ∨ err = true)]

/-- A leaf ends a walk with a hit. -/
theorem Dev.t2Go_of_leaf (d : Dev) (at_ : Nat) (v6 : Bool) (words addr fuel used reads e : Nat) (h : bits e 62 2 = 1) :
    d.t2Go at_ v6 words addr (fuel + 1) used reads e = (.done (t2Hit words e) none, d) := by
  have hnext : t2Next v6 words addr used reads e = .done (t2Hit words e) := by
    unfold t2Next
    dsimp only
    rw [if_neg (by omega), if_pos h]
  rw [Dev.t2Go, hnext]

/-- The only buffered write not yet issued goes to its port. -/
theorem Dev.t2BufIssue_of_one {d : Dev} {b : T2Buf} {p : Nat} (hbuf : d.lku.t2buf = [b]) (hissued : b.issued = false)
    (hlayby : d.lku.layby = []) (hport : d.cxlPort b.addr = some p) (hup : d.cxlUp p = true) :
    d.t2BufIssue = { d with lku := { d.lku with t2buf := [{ b with issued := true }] } }.emit
      (.cxlWrite p b.addr (beBytes 8 b.data.toNat)) := by
  have hfind : d.lku.t2buf.find? (fun b => !b.issued) = some b := by simp [hbuf, hissued]
  have hmap : (d.lku.t2buf.map fun c => if c = b then { c with issued := true } else c) = [{ b with issued := true }] := by simp [hbuf]
  unfold Dev.t2BufIssue
  rw [hfind]
  refine (if_neg (by simp [Lku.t2BufFree, hlayby])).trans ?_
  rw [hmap]
  dsimp only
  split
  case h_1 q hq =>
    obtain rfl : p = q := Option.some.inj (hport.symm.trans hq)
    exact if_pos hup
  case h_2 hq => exact absurd (hport.symm.trans hq) (Option.some_ne_none p)

/-- The only issued write, completed, leaves the buffer. -/
theorem Dev.t2BufDone_of_one {d : Dev} {b : T2Buf} (hbuf : d.lku.t2buf = [b]) (hissued : b.issued = true) :
    d.t2BufDone 0 false = Dev.lkuCount { d with lku := { d.lku with t2buf := [] } } := by
  have hfilter : (d.lku.t2buf.filter T2Buf.issued)[0]? = some b := by simp [hbuf, hissued]
  have herase : d.lku.t2buf.erase b = [] := by simp [hbuf]
  unfold Dev.t2BufDone
  rw [hfilter]
  dsimp only
  rw [herase]
  split
  · rfl
  · rfl

theorem Dev.t2Deadline_of_one {d : Dev} {i : Nat} {p : Parked} (hlayby : d.lku.layby = [(i, p)]) (hlanded : p.landed = false)
    (hdue : tickReached (tickAdd p.tick 6) d.tck.now = true) : d.t2Deadline = d.t2Land i p := by
  rw [Dev.t2Deadline, hlayby, List.foldl_cons, List.foldl_nil, if_pos (by simp [hlanded, hdue])]

/-- Settles O24: an operation's start, then the returns, the deadline and the write buffer, by the branches of each. -/
theorem lookupOperations : Obligations.LookupOperations := by
  refine ⟨fun s o r c hready hrate hrun hqueue hcheck => ?failed, fun s o r st hready hrate hrun hqueue hcheck => ?passed,
    fun s hready hnone => ?noStart, fun s o hop htbl hindex hrest => s.dev.lkuCheck_of_member hop htbl hindex hrest,
    fun s o hop htbl => s.dev.lkuCheck_of_table hop htbl, fun s entry ns data poison err hready hentry hfree => ?unparked,
    fun s entry ns data p w hready hentry hfind hst hleaf => ?leaf, fun s entry ns data p w hready hentry hfind hst => ?good,
    fun s entry ns data err p w hready hentry hfind hst => ?poison, fun s port addr ns data poison err w hready hwf hfind => ?late,
    fun s hready hlayby => ?noDeadline, fun s i p hready hlayby hlanded hdue => ?deadline, fun s hready hbuf => ?noBuf,
    fun s b p hready hbuf hissued hlayby hport hup => ?issue, fun s b hready hbuf hissued hport => ?unmapped,
    fun s b p hready hbuf hissued hport => ?written⟩
  case failed => exact hready.does rfl rfl (Dev.lkuOpStart_of_failed hrate hrun hqueue hcheck) (by simp [Dev.lkuCount, Dev.lkuDone]; split <;> simp)
  case passed => exact hready.does rfl rfl (Dev.lkuOpStart_of_passed hrate hrun hqueue hcheck) (by simp [Dev.lkuCount])
  case noStart => exact hready.does rfl rfl (Dev.lkuOpStart_of_none hnone) rfl
  case unparked => exact hready.does rfl (decide_eq_true (decide_eq_true hentry)) (Dev.t2Return_of_free data poison err ns hfree) rfl
  case leaf =>
    refine hready.runs rfl (decide_eq_true (decide_eq_true hentry)) ((Dev.t2Return_of_good data ns hfind hst).trans ?_)
    rw [Dev.t2Go_of_leaf _ _ _ _ _ 3 _ _ _ hleaf]
  case good => exact hready.runs rfl (decide_eq_true (decide_eq_true hentry)) (Dev.t2Return_of_good data ns hfind hst)
  case poison => exact hready.runs rfl (decide_eq_true (decide_eq_true hentry)) (Dev.t2Return_of_poison data err ns hfind hst)
  case late =>
    refine hready.does rfl hwf (e := _) ?_ (Dev.todo_wr _ _ _)
    show s.dev.t2LateReturn port addr = _
    rw [Dev.t2LateReturn, hfind]
  case noDeadline => exact hready.does rfl rfl (by rw [Dev.t2Deadline, hlayby, List.foldl_nil]) rfl
  case deadline => exact hready.runs rfl rfl (Dev.t2Deadline_of_one hlayby hlanded hdue)
  case noBuf =>
    refine ⟨hready.does rfl rfl ?_ rfl, hready.does rfl rfl ?_ rfl⟩
    · rw [Dev.t2BufIssue, hbuf, List.find?_nil]
    · rw [Dev.t2BufDone, hbuf, List.filter_nil, List.getElem?_nil]
  case issue => exact hready.does rfl rfl (Dev.t2BufIssue_of_one hbuf hissued hlayby hport hup) rfl
  case unmapped => exact hready.does rfl rfl (Dev.t2BufDone_of_one hbuf hissued) (by simp [Dev.lkuCount])
  case written => exact hready.runs rfl rfl (Dev.t2BufDone_of_one hbuf hissued)

end Sys2Proof.Machine
end

section
/-!
Carriages, the free lists and the auditor (spec/07_carriages_and_depots.md, R174 to R193).
-/
namespace Sys2Proof.Machine

/-- A port places the next carriage that it holds when its bank has one free. -/
theorem Dev.placeAt_of_free {d : Dev} {port row : Nat} {e : Place} {x : Dpt} {c : Chain} (hnext : d.dpt.nextPlace port = some e)
    (hplaced : d.dpt.placed.contains port = false) (hpop : d.dpt.pop (writeBank port d.sc) = some (row, x))
    (hchain : d.chain e.chain = some c) (hroom : c.ptrs.length < c.ncar) :
    let ptr := row * 128 + writeBank port d.sc
    let y : Dpt := { x with
      place := x.place.erase e, placed := port :: x.placed, mark := SMap.set 0 x.mark ptr (d.rd DPT_AUD_STATUS.COLOUR),
      own := SMap.set 0 x.own ptr e.by_, chains := SMap.ins x.chains e.chain { c with ptrs := c.ptrs ++ [ptr] } }
    let f := ({ d with dpt := y }.wrote 0x200 .carData ptr).wrote 0x200 .carHdr ptr
    d.placeAt port = (f.wr DPT_FREE.COUNT (f.rd DPT_FREE.COUNT - 1)).charge f.tck.now 0x20 1 := by
  intro ptr y f
  unfold Dev.placeAt
  rw [hnext, hplaced]
  dsimp only
  rw [hpop, hchain]
  dsimp only
  rw [if_pos hroom]

theorem Dev.placeAt_of_none {d : Dev} {port : Nat} (h : d.dpt.nextPlace port = none ∨ d.dpt.placed.contains port = true) :
    d.placeAt port = d := by
  unfold Dev.placeAt
  split
  case h_1 e hnext hplaced =>
    exact absurd h (not_or.mpr ⟨hnext ▸ Option.some_ne_none e, Bool.eq_false_iff.mp hplaced⟩)
  case h_2 => rfl

/-- A carriage read that has taken its 128 slot cycles returns. -/
theorem Dev.carReturn_of_due {d : Dev} {port : Nat} {x : InFlight} (hfind : d.dpt.reads.find? (fun x => x.rd.port == port) = some x)
    (hdue : scReached ((x.at_ + 128) % scMod) d.sc = true) :
    d.carReturn port = Dev.readBack { d with dpt := { d.dpt with reads := d.dpt.reads.erase x } } x.rd := by
  have hmem : d.dpt.reads.contains x = true := List.contains_iff_mem.mpr (List.mem_of_find?_eq_some hfind)
  rw [Dev.carReturn, hfind]
  exact if_pos (by rw [hmem, hdue]; rfl)

/-- The phase that an audit leaves shows in both registers. -/
theorem Dev.setAudPhase_eq (d : Dev) (p : Nat) :
    d.setAudPhase p = (d.wr DPT_AUD_STATUS.PHASE p).wr DPT_STATUS.AUD_BUSY (b2n (decide (p ≠ 0))) := rfl

/-- Settles O25: placing, reading back, the free list and the phases of the auditor, by the branches of each. -/
theorem carriagesAndAudit : Obligations.CarriagesAndAudit := by
  refine ⟨fun s port hready hport hnone => ?noPlace, fun s port row e x c hready hport hnext hplaced hpop hchain hroom => ?place,
    fun s port hready hport hnone => ?noRead, fun s port x hready hport hfind hdue => ?return_,
    fun s port id x hready hport hfind hdue hwhy hmore => ?spill, fun s hready => ?rejoin, fun s hopen => ?want,
    fun s hready hwanted hphase hslot => ?start, fun s hready hnot => ?noStart, fun s hready hnot => ?noApply,
    fun s hready hphase hslot => ?apply_⟩
  case noPlace => exact hready.does rfl (decide_eq_true hport) (Dev.placeAt_of_none hnone) rfl
  case place => exact hready.runs rfl (decide_eq_true hport) (Dev.placeAt_of_free hnext hplaced hpop hchain hroom)
  case noRead => exact hready.does rfl (decide_eq_true hport) (by rw [Dev.carReturn, hnone]) rfl
  case return_ => exact hready.runs rfl (decide_eq_true hport) (Dev.carReturn_of_due hfind hdue)
  case spill =>
    refine hready.does rfl (decide_eq_true hport) ((Dev.carReturn_of_due hfind hdue).trans ?_) rfl
    rw [Dev.readBack, hwhy]
    exact if_pos hmore
  case rejoin => exact hready.does rfl rfl rfl (Dev.todo_wr _ _ _)
  case want => exact hopen.does rfl rfl rfl rfl
  case start =>
    refine hready.does rfl rfl ((if_pos ⟨hwanted, hphase, hslot⟩).trans ?_) (by simp)
    exact Dev.setAudPhase_eq _ 1
  case noStart => exact hready.does rfl rfl (if_neg fun ⟨hwanted, hphase, hslot⟩ =>
      hnot.elim (Bool.eq_false_iff.mp · hwanted) (·.elim (· hphase) (· hslot))) rfl
  case noApply => exact hready.does rfl rfl (if_pos hnot) rfl
  case apply_ =>
    refine hready.runs rfl rfl ?_
    unfold Dev.audApply
    exact if_neg fun h => h.elim (· hphase) (· hslot)

end Sys2Proof.Machine
end

section
/-!
The HBM4 stacks (spec/09_deep_tier_memory.md, R233 to R245).
-/
namespace Sys2Proof.Machine

theorem Dev.hbm_setHbm (d : Dev) (k : Nat) (h : Hbm) : (d.setHbm k h).hbm k = h := SMap.get_set_same _ _ _ _

/-- The controller keeps its split while a column issues. -/
theorem Hbm.issue_split (h : Hbm) (r : HReq) : (h.issue r).split = h.split := by
  unfold Hbm.issue Hbm.drained Hbm.fill
  rfl

theorem Dev.splitStep_of_none {d : Dev} {s k : Nat} (h : (d.hbm k).split = none) : d.splitStep s k = d := by
  rw [Dev.splitStep, h]

/-- A column of a read issues as the controller chooses it. -/
theorem Dev.hbmIssue_of_read {d : Dev} {k pc : Nat} {r : HReq} (hstk : d.stk k = stkAwake) (hsplit : (d.hbm (64 * k + pc)).split = none)
    (hnext : (d.hbm (64 * k + pc)).next = some r) (hwhat : r.what ≠ .write) :
    d.hbmIssue k pc = (d.setHbm (64 * k + pc) ((d.hbm (64 * k + pc)).issue r)).evt 0x32 0x22 (some k) := by
  have hafter : (((d.setHbm (64 * k + pc) ((d.hbm (64 * k + pc)).issue r)).evt 0x32 0x22 (some k)).hbm (64 * k + pc)).split = none := by
    rw [Dev.hbm, (Calm.evt _ _ _ _ _).yrd]
    exact (congrArg Hbm.split (Dev.hbm_setHbm _ _ _)).trans ((Hbm.issue_split _ _).trans hsplit)
  unfold Dev.hbmIssue
  dsimp only
  rw [if_neg (not_not.mpr hstk), Dev.splitStep_of_none hsplit, hnext]
  dsimp only
  rw [if_neg fun h => hwhat h.1, Dev.splitStep_of_none hafter]

theorem Dev.hbmIssue_of_none {d : Dev} {k pc : Nat} (h : d.stk k ≠ stkAwake ∨ (d.hbm (64 * k + pc)).split = none ∧
    (d.hbm (64 * k + pc)).next = none) : d.hbmIssue k pc = d := by
  unfold Dev.hbmIssue
  dsimp only
  refine ite_eq_left_iff.mpr fun hawake => ?_
  obtain ⟨hsplit, hnext⟩ := h.resolve_left hawake
  rw [Dev.splitStep_of_none hsplit, hnext]

/-! ### What the flags of the stacks show -/

/-- The flags leave a stack's state and the fault collector as they are. -/
theorem Dev.rd_yrdFlags_state (d : Dev) (k : Nat) : d.yrdFlags.rd (YRD_STK_STATUS.STATE k) = d.rd (YRD_STK_STATUS.STATE k) := by
  unfold Dev.yrdFlags
  dsimp only
  refine List.foldlRecOn (motive := fun e : Dev => e.rd (YRD_STK_STATUS.STATE k) = d.rd (YRD_STK_STATUS.STATE k)) _ _ ?_ fun e he s _ => ?_
  · refine Dev.rd_wrs_addr _ _ ?_
    have haddr : (YRD_STK_STATUS.STATE k).addr ≠ YRD_STATUS.addr := by
      show 0x00C00100 + 16 * k ≠ 0x00C00004
      omega
    simpa using haddr
  · have hapart : (YRD_STK_STATUS.OPEN s).apartB (YRD_STK_STATUS.STATE k) = true := by simp [Field.apartB]
    exact (Dev.rd_wr_of_apartB e _ _ _ (show 3 + 1 ≤ 32 by decide) hapart).trans he

theorem Dev.yrdFlags_flt (d : Dev) : d.yrdFlags.flt = d.flt := by
  unfold Dev.yrdFlags
  exact List.foldlRecOn (motive := fun e : Dev => e.flt = d.flt) _ _ (Dev.wrs_flt _ _) fun e he _ _ => (Dev.wr_flt e _ _).trans he

/-- A stack trained with success has no recovery to end but its own. -/
theorem Dev.stkTrainEnd_of_good {d : Dev} {k : Nat} (hstk : d.stk k = stkTraining) (hrecov : d.flt.recov = []) :
    let y := { d.yrd with
      built := d.yrd.built ++ [k], free := d.yrd.free.filter (fun p => p.1 / 64 != k),
      credits := d.yrd.credits.filter (fun c => wStack c.2 != k) }
    d.stkTrainEnd k true = (({ d with yrd := y }.wr (YRD_STK_FREE.COUNT k) 0x1800000).stkGo k stkAwake).yrdFlags := by
  intro y
  have htrained : d.stkTrained k true = (({ d with yrd := y }.wr (YRD_STK_FREE.COUNT k) 0x1800000).stkGo k stkAwake).yrdFlags :=
    (if_neg (not_not.mpr hstk)).trans (if_pos rfl)
  have hnone := Dev.recovered_of_none (({ d with yrd := y }.wr (YRD_STK_FREE.COUNT k) 0x1800000).stkGo k stkAwake).yrdFlags (0x220 + k)
    (by simp [Dev.yrdFlags_flt, Dev.stkGo, hrecov])
  rw [Dev.stkTrainEnd, htrained, hnone, ite_self]

/-- A stack whose training failed stays failed, whatever reaction its fault has. -/
theorem Dev.stkTrainEnd_of_bad {d : Dev} {k : Nat} (hk : k < 8) (hstk : d.stk k = stkTraining) :
    let y := { d.yrd with built := d.yrd.built.filter (fun x => x != k) }
    d.stkTrainEnd k false =
      ((({ d with yrd := y }.wr (YRD_STK_FREE.COUNT k) 0).stkGo k stkFailed).fault (0x220 + k) contained 0x0E).yrdFlags := by
  intro y
  have htrained : d.stkTrained k false =
      ((({ d with yrd := y }.wr (YRD_STK_FREE.COUNT k) 0).stkGo k stkFailed).fault (0x220 + k) contained 0x0E).yrdFlags :=
    (if_neg (not_not.mpr hstk)).trans (if_neg Bool.false_ne_true)
  have hstate : ((({ d with yrd := y }.wr (YRD_STK_FREE.COUNT k) 0).stkGo k stkFailed).fault (0x220 + k) contained 0x0E).yrdFlags.stk k
      ≠ stkAwake := by
    have hreg : ¬ fltReg (YRD_STK_STATUS.STATE k).addr := by
      show ¬ (0x00C00100 + 16 * k = 0x02800000 ∨ 0x02800020 ≤ 0x00C00100 + 16 * k ∧ 0x00C00100 + 16 * k ≤ 0x02800050)
      omega
    rw [Dev.stk, Dev.rd_yrdFlags_state, (FltOnly.fault _ _ _ _ _).rd _ hreg, Dev.stkGo, Dev.rd_wr_same _ _ _ (show 0 + 3 ≤ 32 by decide)]
    show ¬ stkFailed % 2 ^ 3 = stkAwake
    decide
  rw [Dev.stkTrainEnd, htrained]
  exact if_neg hstate

/-! ### Temperatures, returns and refreshes -/

/-- A reading between the thresholds of a stack neither warm nor closed. -/
theorem Dev.stkTemp_of_mild {d : Dev} {k : Nat} {t : Int} (hlo : 83 < t) (hhi : t ≤ 85) (hwarn : t < (d.rd YRD_THERM.WARN : Int))
    (hwarm : k ∉ d.yrd.warm) (hclosed : d.on (YRD_STK_STATUS.TCLOSE k) = false) :
    d.stkTemp k t = (d.wr (YRD_STK_STATUS.TEMP k) t.toNat).yrdFlags := by
  have hcode : ofInt 8 t = t.toNat := by
    rw [ofInt]
    omega
  have hwarn' : ¬ ((d.wr (YRD_STK_STATUS.TEMP k) t.toNat).rd YRD_THERM.WARN : Int) ≤ t := by
    rw [Dev.rd_wr_addr _ _ _ _ (show 0x00C00014 ≠ 0x00C00100 + 16 * k by omega)]
    omega
  have hclosed' : (d.wr (YRD_STK_STATUS.TEMP k) t.toNat).on (YRD_STK_STATUS.TCLOSE k) = false := by
    rw [Dev.on, Dev.rd_wr_of_apartB _ _ _ _ (show 8 + 8 ≤ 32 by decide) (by simp [Field.apartB])]
    exact hclosed
  have hnew : ¬ (((d.wr (YRD_STK_STATUS.TEMP k) t.toNat).rd YRD_THERM.WARN : Int) ≤ t ∧ ¬ d.yrd.warm.contains k = true) :=
    fun h => hwarn' h.1
  have hwarms : d.yrd.warm.filter (fun x => x != k) = d.yrd.warm :=
    List.filter_eq_self.mpr fun x hx => bne_iff_ne.mpr fun heq => hwarm (heq ▸ hx)
  have hkeep : ({ d.wr (YRD_STK_STATUS.TEMP k) t.toNat with yrd := { d.yrd with warm := d.yrd.warm } } : Dev) =
    d.wr (YRD_STK_STATUS.TEMP k) t.toNat := rfl
  unfold Dev.stkTemp
  dsimp only
  rw [hcode, if_neg (show ¬ 85 < t by omega), if_neg (show ¬ t ≤ 83 by omega), if_neg hwarn', Dev.wr_yrd, hwarms, hkeep,
    if_neg hnew, hclosed', if_neg (by omega), if_neg (by simp)]

/-- What returns from a stack leaves its queue, and what it was for goes on. -/
theorem Dev.hbmReadDone_of_ptr {d : Dev} {k pc : Nat} {r : HReq} (hret : oldest (d.hbm (64 * k + pc)).returning = some r)
    (hwhat : r.what = .ptrRead) : d.hbmReadDone k pc = d.hbmGone k pc r := by
  unfold Dev.hbmReadDone
  rw [hret]
  dsimp only
  rw [hwhat]

theorem Dev.findPkt_hbmGone (d : Dev) (k pc : Nat) (r : HReq) (id : Nat) : (d.hbmGone k pc r).findPkt id = d.findPkt id := rfl

theorem Dev.hbmReadDone_of_rec {d : Dev} {k pc q id q' : Nat} {r : HReq} {p : QPkt} {w : Wag}
    (hret : oldest (d.hbm (64 * k + pc)).returning = some r) (hwhat : r.what = .recRead q id) (hfind : d.findPkt id = some (q', p))
    (hwag : p.wag = some w) (hgood : ((d.hbmGone k pc r).hbmWords k .wagRec (r.ptr * 16 + w.recIdx) 24).1 = false) :
    let x := (d.hbmGone k pc r).hbmWords k .wagRec (r.ptr * 16 + w.recIdx) 24
    d.hbmReadDone k pc = x.2.setQueue q ((x.2.queue q).setMid (p.setWag { w with inStore := true, recUe := false })) := by
  intro x
  unfold Dev.hbmReadDone
  rw [hret]
  dsimp only
  rw [hwhat]
  dsimp only
  rw [Dev.findPkt_hbmGone, hfind]
  dsimp only
  rw [hwag]
  dsimp only
  rw [hgood, if_neg Bool.false_ne_true]

theorem Dev.hbmReadDone_of_data {d : Dev} {k pc q id q' c due : Nat} {r : HReq} {p : QPkt} {w : Wag}
    (hret : oldest (d.hbm (64 * k + pc)).returning = some r) (hwhat : r.what = .dataRead q id) (hfind : d.findPkt id = some (q', p))
    (hloc : p.loc = .refill (some c) w due) :
    let e := (d.hbmGone k pc r).setQueue q (((d.hbmGone k pc r).queue q).setMid
      { p with loc := .refill (some c) { w with toRead := w.toRead.erase r.ptr } due })
    d.hbmReadDone k pc = e.wagonBack k r.ptr c (e.groupOf q) r.cols := by
  intro e
  unfold Dev.hbmReadDone
  rw [hret]
  dsimp only
  rw [hwhat]
  dsimp only
  rw [Dev.findPkt_hbmGone, hfind]
  dsimp only
  rw [hloc]

/-- A refresh that falls in a burst is postponed, and at eight postponed splits it; with no burst it is made. -/
theorem Dev.hbmRefresh_of_burst {d : Dev} {k pc : Nat} {r : HReq} :
    let h := d.hbm (64 * k + pc)
    (h.reads ++ h.writes).find? (fun r => 0 < r.done && !h.stopped r) = some r →
    refreshRun (hbmNb k) (wBank r.ptr) h.bank (h.credit + 1) = 0 →
    d.hbmRefresh k pc = if h.credit < 8 then d.setHbm (64 * k + pc) { h with credit := h.credit + 1 }
      else (((d.setHbm (64 * k + pc)
        { h with split := some { seq := r.seq, stop := min r.cols ((r.done + 3) / 4 * 4), until_ := none } }).bump
        YRD_SPLIT.COUNT).evt 0x32 0x24 (some k)).splitStep k (64 * k + pc) := by
  intro h hburst hrun
  unfold Dev.hbmRefresh
  dsimp only
  rw [hburst]
  dsimp only
  rw [if_pos hrun]

theorem Dev.hbmRefresh_of_idle {d : Dev} {k pc n : Nat} :
    let h := d.hbm (64 * k + pc)
    (h.reads ++ h.writes).find? (fun r => 0 < r.done && !h.stopped r) = none →
    refreshRun (hbmNb k) (hbmNb k) h.bank (h.credit + 1) = n → n ≠ 0 →
    d.hbmRefresh k pc = (d.evt 0x32 0x23 (some k) n).setHbm (64 * k + pc)
      { h with open_ := h.open_.filter (fun p => !((List.range n).map fun i => (h.bank + i) % hbmNb k).contains (wBank p)),
               bank := (h.bank + n) % hbmNb k, credit := h.credit + 1 - n } := by
  intro h hburst hrun hn
  subst hrun
  unfold Dev.hbmRefresh
  dsimp only
  rw [hburst]
  exact if_neg hn

/-- Settles O26: the controller's columns, its read returns by what they were asked for, and its stack states. -/
theorem hbmStacks : Obligations.Stacks := by
  refine ⟨fun s k pc hready hk hpc hnone => ?noColumn, fun s k pc r hready hk hpc hstk hsplit hnext hwhat => ?column,
    fun s k pc hready hk hpc hnone => ?noReturn, fun s k pc r hready hk hpc hret hwhat => ?ptr,
    fun s k pc q id q' r p w hready hk hpc hret hwhat hfind hwag => ?record,
    fun s k pc q id q' c due r p w hready hk hpc hret hwhat hfind hloc => ?data,
    fun s k pc r hready hk hpc => ?postponed, fun s k pc r hready hk hpc => ?split, fun s k pc n hready hk hpc => ?refreshed,
    fun s k hready hk hstk hsince => ⟨fun hreq => ?asleep, fun hreq => ?exiting⟩, fun s k hready hk hstk => ?notEntering,
    fun s k hready hk hstk hsince => ?awake, fun s k hready hk hstk => ?notExiting,
    fun s k t hready hk hlo hhi hwarn hwarm hclosed => ?temp, fun s k ok hready hk hstk => ?notTraining,
    fun s k hready hk hstk hrecov => ?trained, fun s k hready hk hstk => ?failed, fun s k pc hready hk hpc hstk hslack hdue => ?calibrated,
    fun s k pc hready hk hpc hslot => ?notSlack⟩
  case noColumn => exact hready.does rfl (decide_eq_true ⟨hk, hpc⟩) (Dev.hbmIssue_of_none hnone) rfl
  case column => exact hready.runs rfl (decide_eq_true ⟨hk, hpc⟩) (Dev.hbmIssue_of_read hstk hsplit hnext hwhat)
  case noReturn =>
    refine hready.does rfl (decide_eq_true ⟨hk, hpc⟩) ?_ rfl
    unfold Dev.hbmReadDone
    rw [hnone]
    rfl
  case ptr => exact hready.does rfl (decide_eq_true ⟨hk, hpc⟩) (Dev.hbmReadDone_of_ptr hret hwhat) rfl
  case record =>
    intro x hgood
    exact hready.runs rfl (decide_eq_true ⟨hk, hpc⟩) (Dev.hbmReadDone_of_rec hret hwhat hfind hwag hgood)
  case data => exact hready.runs rfl (decide_eq_true ⟨hk, hpc⟩) (Dev.hbmReadDone_of_data hret hwhat hfind hloc)
  case postponed =>
    intro h hburst hrun hcredit
    exact hready.does rfl (decide_eq_true ⟨hk, hpc⟩) ((Dev.hbmRefresh_of_burst hburst hrun).trans (if_pos hcredit)) rfl
  case split =>
    intro h hburst hrun hcredit
    exact hready.runs rfl (decide_eq_true ⟨hk, hpc⟩) ((Dev.hbmRefresh_of_burst hburst hrun).trans (if_neg (Nat.not_lt.mpr hcredit)))
  case refreshed =>
    intro h hburst hrun hn
    exact hready.runs rfl (decide_eq_true ⟨hk, hpc⟩) (Dev.hbmRefresh_of_idle hburst hrun hn)
  case asleep =>
    exact hready.does rfl (decide_eq_true hk) ((if_pos ⟨hstk, hsince⟩).trans (if_neg (by simpa using hreq))) (Dev.todo_wr _ _ _)
  case exiting =>
    exact hready.does rfl (decide_eq_true hk) ((if_pos ⟨hstk, hsince⟩).trans (if_pos (by simpa using hreq))) (Dev.todo_wr _ _ _)
  case notEntering => exact hready.does rfl (decide_eq_true hk) (if_neg fun h => hstk h.1) rfl
  case awake => exact hready.runs rfl (decide_eq_true hk) (if_pos ⟨hstk, hsince⟩)
  case notExiting => exact hready.does rfl (decide_eq_true hk) (if_neg fun h => hstk h.1) rfl
  case temp =>
    exact hready.runs rfl (decide_eq_true ⟨hk, by omega, by omega⟩) (Dev.stkTemp_of_mild hlo hhi hwarn hwarm hclosed)
  case notTraining =>
    have hfailed : s.dev.stk k = stkFailed := hstk
    have hsame : s.dev.stkTrained k ok = s.dev := if_pos (by rw [hfailed]; decide)
    refine hready.does rfl (decide_eq_true hk) ?_ rfl
    show s.dev.stkTrainEnd k ok = s.dev
    rw [Dev.stkTrainEnd, hsame, hfailed]
    rfl
  case trained => exact hready.runs rfl (decide_eq_true hk) (Dev.stkTrainEnd_of_good hstk hrecov)
  case failed => exact hready.runs rfl (decide_eq_true hk) (Dev.stkTrainEnd_of_bad hk hstk)
  case calibrated => exact hready.does rfl (decide_eq_true ⟨hk, hpc⟩) (if_pos ⟨hstk, hslack, hdue⟩) rfl
  case notSlack => exact hready.does rfl (decide_eq_true ⟨hk, hpc⟩) (if_neg fun h => Nat.not_le.mpr hslot h.2.1) rfl

end Sys2Proof.Machine
end

section
/-!
The WAN ports (spec/10_wan_ports_and_margin_steering.md, R248 to R261): departures, the two-step FIFO, the management buses, margin readings and
the link conditions.
-/
namespace Sys2Proof.Machine

/-! ### Departures -/

theorem mem_insertKey {α : Type} (key : α → List Nat) (x y : α) (l : List α) : y ∈ insertKey key x l ↔ y = x ∨ y ∈ l := by
  induction l with
  | nil => simp [insertKey]
  | cons z l ih =>
    rw [insertKey]
    split
    · rw [List.mem_cons, ih, List.mem_cons, or_left_comm]
    · rw [List.mem_cons]

/-- Sorting leaves the members. -/
theorem mem_sortKey {α : Type} (key : α → List Nat) (y : α) (l : List α) : y ∈ sortKey key l ↔ y ∈ l := by
  have hfold (acc : List α) : y ∈ l.foldl (fun acc x => insertKey key x acc) acc ↔ y ∈ l ∨ y ∈ acc := by
    induction l generalizing acc with
    | nil => simp
    | cons z l ih => rw [List.foldl_cons, ih, mem_insertKey, List.mem_cons, ← or_assoc, or_comm (a := y ∈ l)]
  rw [sortKey, hfold]
  simp

/-- The departures due of the WAN ports, first to last (R251). -/
def Dev.wanDue (d : Dev) : List Depart :=
  sortKey (fun x => departKey x d.tck.now) (d.wan.deps.filter fun x => !x.fabric && tickReached x.tick d.tck.now)

theorem Dev.mem_wanDue (d : Dev) (x : Depart) :
    x ∈ d.wanDue ↔ x ∈ d.wan.deps ∧ x.fabric = false ∧ tickReached x.tick d.tck.now = true := by
  simp [Dev.wanDue, mem_sortKey]

theorem Dev.wanDeparture_of_none {d : Dev} {pipe : Nat}
    (h : ∀ x ∈ d.wan.deps, x.pipe = pipe → x.fabric = false → tickReached x.tick d.tck.now = false) : d.wanDeparture pipe = d := by
  have hnone : d.wanDue.find? (fun x => x.pipe = pipe) = none := by
    rw [List.find?_eq_none]
    intro x hx hpipe
    obtain ⟨hmem, hfabric, hdue⟩ := (d.mem_wanDue x).mp hx
    exact Bool.false_ne_true ((h x hmem (of_decide_eq_true hpipe) hfabric).symm.trans hdue)
  unfold Dev.wanDeparture
  change (match (d.wanDue.find? fun x => x.pipe = pipe).bind fun y => d.wanDue.find? fun x => x.port = y.port with
    | none => d
    | some x => _) = d
  rw [hnone]
  rfl

/-- The first due of the pipeline's next port goes, as its port's state has it. -/
theorem Dev.wanDeparture_of_due {d : Dev} {pipe : Nat} {x y : Depart} (hy : d.wanDue.find? (fun x => x.pipe = pipe) = some y)
    (hx : d.wanDue.find? (fun x => x.port = y.port) = some x) :
    let e : Dev := { d with wan := { d.wan with deps := d.wan.deps.erase x } }
    d.wanDeparture pipe = if d.on (WAN_PORT_ST.MASKED x.port) then e.release x.chain (0x0140 + x.pipe)
      else if !d.wanUp x.port then e.departDrop x 0x24 else e.departSend x := by
  intro e
  unfold Dev.wanDeparture
  change (match (d.wanDue.find? fun x => x.pipe = pipe).bind fun y => d.wanDue.find? fun x => x.port = y.port with
    | none => d
    | some x => _) = _
  rw [hy, Option.bind_some, hx]
  rfl

/-! ### The two-step FIFO -/

/-- What the FIFO shows, empty and with a record at its head. -/
theorem Dev.tsShow_of_empty {d : Dev} (h : d.wan.ts = []) :
    d.tsShow = d.wrs [(WAN_TS_STATUS.COUNT, 0), (WAN_TS_ENT0.VALID, 0), (WAN_TS_ENT0.PORT, 0), (WAN_TS_ENT0.TAG, 0), (WAN_TS_ENT1.NS, 0),
       (WAN_TS_ENT2.SEC, 0), (WAN_TS_ENT3.SEC, 0)] := by
  unfold Dev.tsShow
  simp only [Dev.wr_wan, h, List.length_nil, Dev.wrs_cons]

theorem Dev.tsShow_of_head {d : Dev} {q : TsRec} {l : List TsRec} (h : d.wan.ts = q :: l) :
    d.tsShow = d.wrs [(WAN_TS_STATUS.COUNT, l.length + 1), (WAN_TS_ENT0.VALID, 1), (WAN_TS_ENT0.PORT, q.port), (WAN_TS_ENT0.TAG, q.tag),
       (WAN_TS_ENT1.NS, q.ns), (WAN_TS_ENT2.SEC, q.sec), (WAN_TS_ENT3.SEC, q.sec / 2 ^ 32)] := by
  unfold Dev.tsShow
  simp only [Dev.wr_wan, h, List.length_cons, Dev.wrs_cons]

theorem Dev.tsPop_of_last {d : Dev} (h : d.wan.ts.length ≤ 1) :
    d.tsPop = { d with wan := { d.wan with ts := [] } }.wrs
      [(WAN_TS_STATUS.COUNT, 0), (WAN_TS_ENT0.VALID, 0), (WAN_TS_ENT0.PORT, 0), (WAN_TS_ENT0.TAG, 0), (WAN_TS_ENT1.NS, 0),
       (WAN_TS_ENT2.SEC, 0), (WAN_TS_ENT3.SEC, 0)] := by
  rw [Dev.tsPop, List.drop_eq_nil_of_le h]
  exact Dev.tsShow_of_empty rfl

theorem Dev.tsPop_of_more {d : Dev} {r q : TsRec} {l : List TsRec} (h : d.wan.ts = r :: q :: l) :
    d.tsPop = { d with wan := { d.wan with ts := q :: l } }.wrs
      [(WAN_TS_STATUS.COUNT, l.length + 1), (WAN_TS_ENT0.VALID, 1), (WAN_TS_ENT0.PORT, q.port), (WAN_TS_ENT0.TAG, q.tag),
       (WAN_TS_ENT1.NS, q.ns), (WAN_TS_ENT2.SEC, q.sec), (WAN_TS_ENT3.SEC, q.sec / 2 ^ 32)] := by
  rw [Dev.tsPop, h]
  exact Dev.tsShow_of_head rfl

/-! ### The management buses -/

/-- The running transaction of a controller ends, and the next starts. -/
theorem Dev.busDone_of_present {d : Dev} {c : Nat} {o : BusOp} {l : List BusOp} (code : Nat) (data : List Byte) (hq : d.busQ c = o :: l)
    (hhere : d.modulePresent o.cage = true) :
    let r := (d.busEnd o code data).busRun (l ++ o.after code data)
    d.busDone c code data = r.1.setBus c r.2 := by
  intro r
  rw [Dev.busDone, hq]
  dsimp only
  rw [hhere]
  rfl

theorem Dev.busDone_of_gone {d : Dev} {c : Nat} {o : BusOp} {l : List BusOp} (code : Nat) (data : List Byte) (hq : d.busQ c = o :: l)
    (hhere : d.modulePresent o.cage = false) :
    let r := (d.busEnd o 2 data).busRun l
    d.busDone c code data = r.1.setBus c r.2 := by
  intro r
  rw [Dev.busDone, hq]
  dsimp only
  rw [hhere, if_neg Bool.false_ne_true, if_neg Bool.false_ne_true, List.append_nil]

theorem Dev.busDone_of_idle {d : Dev} {c : Nat} (code : Nat) (data : List Byte) (hq : d.busQ c = []) : d.busDone c code data = d := by
  rw [Dev.busDone, hq]

/-- The only transaction of a controller, a poll, ends. -/
theorem Dev.busDone_of_poll {d : Dev} {port : Nat} (hq : d.busQ (port / 32) = [.poll port]) (hhere : d.modulePresent (port / 8) = true) :
    d.busDone (port / 32) 0 [] = d.setBus (port / 32) [] := Dev.busDone_of_present 0 [] hq hhere

/-! ### Margin readings -/

/-- A reading of a poll that runs is taken into the mean. -/
theorem Dev.marginPoll_of_read {d : Dev} {port : Nat} (e : Int) (im : Bool) (hq : d.busQ (port / 32) = [.poll port])
    (hhere : d.modulePresent (port / 8) = true) (hen : d.on (WAN_PORT_CFG.MS_EN port) = true) (hexists : d.wanExists port = true) :
    d.marginPoll port (some e) im = (d.setBus (port / 32) []).marginRead port e im := by
  have hen' : (d.setBus (port / 32) []).on (WAN_PORT_CFG.MS_EN port) = true := hen
  have hexists' : (d.setBus (port / 32) []).wanExists port = true := hexists
  unfold Dev.marginPoll
  rw [if_neg (by simp [hq]), Dev.busDone_of_poll hq hhere]
  exact if_neg (by simp [hen', hexists'])

theorem Dev.marginPoll_of_failed {d : Dev} {port : Nat} {l : List BusOp} (im : Bool) (hq : d.busQ (port / 32) = .poll port :: l) :
    d.marginPoll port none im = d.busDone (port / 32) 0 [] := by
  unfold Dev.marginPoll
  rw [if_neg (by simp [hq])]
  exact ite_self _

/-- A mean that selects the entry in force, with no session, changes what is shown. -/
theorem Dev.marginRead_of_current {d : Dev} {port : Nat} (e : Int) (im : Bool) (hsess : d.sess port = none)
    (hsince : SMap.find d.wan.since port = none) :
    let l := (e :: SMap.get [] d.wan.esnr port).take (2 ^ d.rd WAN_MS_POLL.AVG_LOG2)
    let f := { d with wan := { d.wan with esnr := SMap.set [] d.wan.esnr port l } }.wr (WAN_PORT_ST.ESNR port)
      (ofInt 16 (l.sum / (l.length : Int)))
    f.marginSelect port (l.sum / (l.length : Int)) = f.rd (WAN_PORT_ST.ENTRY port) → d.marginRead port e im = f := by
  intro l f hsel
  have hsess' : f.sess port = none := hsess
  unfold Dev.marginRead
  rw [hsince]
  change (match f.sess port with
    | some _ => _
    | none => if f.marginSelect port (l.sum / (l.length : Int)) = f.rd (WAN_PORT_ST.ENTRY port) ∨ _ then f else _) = f
  rw [hsess']
  exact if_pos (.inl hsel)

/-! ### Link conditions -/

/-- Weighing a port's conditions leaves the fault collector. -/
theorem Dev.faultSend_flt (d : Dev) (port : Nat) : (d.faultSend port).flt = d.flt := by
  unfold Dev.faultSend
  dsimp only
  split
  · rfl
  · rfl

theorem Dev.linkNote_flt (d : Dev) (port : Nat) : (d.linkNote port).flt = d.flt := Dev.faultSend_flt _ _

theorem Dev.wanLock_of_lane {d : Dev} {lane : Nat} (locked : Bool) (hlane : lane < 256) (hmode : d.wanMode lane ≠ 0) :
    d.wanLock 0 lane locked = (d.wr (WAN_LANE.LOCK lane) (b2n locked)).linkNote (d.lanePort lane) :=
  (if_neg (not_or.mpr ⟨hmode, Nat.not_le.mpr hlane⟩)).trans (if_pos rfl)

theorem Dev.wanLock_of_marker {d : Dev} {port : Nat} (locked : Bool) (hport : port < 256) (hmode : d.wanMode port ≠ 0) :
    d.wanLock 1 port locked = Dev.linkNote { d with wan := { d.wan with am :=
      if locked then (if d.wan.am.contains port then d.wan.am else d.wan.am ++ [port]) else d.wan.am.filter fun x => x != port } } port :=
  (if_neg (not_or.mpr ⟨hmode, Nat.not_le.mpr hport⟩)).trans ((if_neg (by decide)).trans (if_pos rfl))

theorem Dev.wanFault_of_port {d : Dev} {port : Nat} (remote present : Bool) (hport : d.wanExists port = true) :
    let rest := d.wan.faults.filter fun x => x != 2 * port + b2n remote
    d.wanFault port remote present =
      Dev.linkNote { d with wan := { d.wan with faults := if present then rest ++ [2 * port + b2n remote] else rest } } port :=
  if_neg (by simp [hport])

/-- Settles O27: each unit of the port has one lemma per branch: departures, FIFO, buses, margin polls and locks. -/
theorem wanPorts : Obligations.WanPorts := by
  refine ⟨fun s pipe hready hpipe hnone => ?noDeparture, fun s pipe x y hready hpipe => ?departure, fun s hopen hts => ?popLast,
    fun s r q l hopen hts => ?pop, fun s cage page off len bank data hopen hwf hbusy => ?mailboxBusy,
    fun s cage page off len bank data hopen hwf hbusy => ?mailbox, fun s c code data hready hc hcode hq => ?idleBus,
    fun s c code data o l hready hc hcode hq => ?busEnd, fun s c code cage bank page off len data w hready hc hcode hq hhere => ?hostWrite,
    fun s port r im hready hport hq => ?noPoll, fun s port l im hready hport hq => ?failedPoll,
    fun s port e im hready hport hq hhere hen hexists => ?reading, fun s port e im hready hport hq hhere hen hexists hsess => ?mean,
    fun s lane hready hlane hmode => ?lane, fun s port hready hport hmode => ?marker, fun s port remote p hready hport hexists => ?noPort,
    fun s port remote hready hport hexists => ?fault⟩
  case noDeparture => exact hready.does rfl (decide_eq_true hpipe) (Dev.wanDeparture_of_none hnone) rfl
  case departure =>
    intro due hy hx d
    have heff := Dev.wanDeparture_of_due (d := s.dev) (pipe := pipe) hy hx
    refine ⟨fun hmasked => ?_, fun hmasked hup => ?_, fun hmasked hup => ?_⟩
    · exact hready.runs rfl (decide_eq_true hpipe) (heff.trans (if_pos hmasked))
    · exact hready.runs rfl (decide_eq_true hpipe) (heff.trans ((if_neg (Bool.eq_false_iff.mp hmasked)).trans (if_pos (by simp [hup]))))
    · exact hready.runs rfl (decide_eq_true hpipe) (heff.trans ((if_neg (Bool.eq_false_iff.mp hmasked)).trans (if_neg (by simp [hup]))))
  case popLast => exact hopen.doesGet rfl rfl (Dev.tsPop_of_last hts) (Dev.todo_wrs _ _)
  case pop => exact hopen.doesGet rfl rfl (Dev.tsPop_of_more hts) (Dev.todo_wrs _ _)
  case mailboxBusy =>
    obtain ⟨hcage, hpage, hoff, hlen, hlen', hbank, hdata⟩ := of_decide_eq_true hwf
    exact ⟨hopen.does rfl (decide_eq_true ⟨hcage, hpage, hoff, hlen, hlen', hbank⟩) (if_pos hbusy) rfl,
      hopen.does rfl hwf (if_pos hbusy) rfl⟩
  case mailbox =>
    obtain ⟨hcage, hpage, hoff, hlen, hlen', hbank, hdata⟩ := of_decide_eq_true hwf
    exact ⟨hopen.runs rfl (decide_eq_true ⟨hcage, hpage, hoff, hlen, hlen', hbank⟩) (if_neg (Bool.eq_false_iff.mp hbusy)),
      hopen.runs rfl hwf (if_neg (Bool.eq_false_iff.mp hbusy))⟩
  case idleBus => exact hready.does rfl (decide_eq_true ⟨hc, hcode⟩) (Dev.busDone_of_idle code data hq) rfl
  case busEnd =>
    exact ⟨fun hhere => hready.runs rfl (decide_eq_true ⟨hc, hcode⟩) (Dev.busDone_of_present code data hq hhere),
      fun hhere => hready.runs rfl (decide_eq_true ⟨hc, hcode⟩) (Dev.busDone_of_gone code data hq hhere)⟩
  case hostWrite =>
    refine hready.does rfl (decide_eq_true ⟨hc, hcode⟩) ((Dev.busDone_of_present code data hq hhere).trans ?_) (Dev.todo_wrs _ _)
    have hend : s.dev.busEnd (.host cage bank page off len (some w)) code data = s.dev.wrs
        [(WAN_CM_STATUS.BUSY, 0), (WAN_CM_STATUS.DONE, 1), (WAN_CM_STATUS.CODE, code),
          (WAN_CM_STATUS.ERR, if code = 0 then s.dev.rd WAN_CM_STATUS.ERR else 1)] := by
      unfold Dev.busEnd
      dsimp only
      rw [if_neg (by simp)]
    rw [hend]
    rfl
  case noPoll => exact hready.does rfl (decide_eq_true hport) (if_pos hq) rfl
  case failedPoll => exact hready.runs rfl (decide_eq_true hport) (Dev.marginPoll_of_failed im hq)
  case reading => exact hready.runs rfl (decide_eq_true hport) (Dev.marginPoll_of_read e im hq hhere hen hexists)
  case mean =>
    intro l d f hsince hsel
    exact hready.does rfl (decide_eq_true hport) ((Dev.marginPoll_of_read e im hq hhere hen hexists).trans
      (Dev.marginRead_of_current (d := s.dev.setBus (port / 32) []) e im hsess hsince hsel)) (Dev.todo_wr _ _ _)
  case lane =>
    have hflt (d : Dev) (v : Nat) : ((d.wr (WAN_LANE.LOCK lane) v).linkNote (d.lanePort lane)).flt.todo = d.flt.todo :=
      congrArg Flt.todo ((Dev.linkNote_flt _ _).trans (Dev.wr_flt _ _ _))
    exact ⟨hready.does rfl (decide_eq_true ⟨by decide, hlane⟩) (Dev.wanLock_of_lane true hlane hmode) (hflt _ _),
      hready.does rfl (decide_eq_true ⟨by decide, hlane⟩) (Dev.wanLock_of_lane false hlane hmode) (hflt _ _)⟩
  case marker =>
    exact ⟨hready.does rfl (decide_eq_true ⟨by decide, hport⟩) (Dev.wanLock_of_marker true hport hmode)
        (congrArg Flt.todo (Dev.linkNote_flt _ _)),
      hready.does rfl (decide_eq_true ⟨by decide, hport⟩) (Dev.wanLock_of_marker false hport hmode)
        (congrArg Flt.todo (Dev.linkNote_flt _ _))⟩
  case noPort => exact hready.does rfl (decide_eq_true hport) (if_pos (by simp [hexists])) rfl
  case fault =>
    intro rest
    exact ⟨hready.does rfl (decide_eq_true hport) (Dev.wanFault_of_port remote true hexists) (congrArg Flt.todo (Dev.linkNote_flt _ _)),
      hready.does rfl (decide_eq_true hport) (Dev.wanFault_of_port remote false hexists) (congrArg Flt.todo (Dev.linkNote_flt _ _))⟩

end Sys2Proof.Machine
end

section
/-!
Bearing sessions (spec/10_wan_ports_and_margin_steering.md, R263 to R270): what the common check of a message finds, the answers to a PROPOSE,
and each end's own steps.
-/
namespace Sys2Proof.Machine

/-! ### The check of a message -/

/-- A message of another punt ring, and one to a port with no session. -/
theorem Dev.brgCheck_of_other {d : Dev} (port : Nat) {m : BrgMsg} (h : m.ring ≠ d.rd WAN_BRG_CTRL.PUNT_RING) :
    d.brgCheck port m = (none, d) := if_pos (by simpa [Dev.brgRing] using h)

theorem Dev.brgCheck_of_none {d : Dev} {port : Nat} {m : BrgMsg} (hring : m.ring = d.rd WAN_BRG_CTRL.PUNT_RING)
    (hsess : d.sess port = none) : d.brgCheck port m = (none, d.bump WAN_BRG_BAD.COUNT) := by
  unfold Dev.brgCheck
  rw [if_neg (by simp [Dev.brgRing, hring]), hsess]

/-- A message that the session names and has not heard is heard. -/
theorem Dev.brgCheck_of_new {d : Dev} {port : Nat} {m : BrgMsg} {x : Sess} (hring : m.ring = d.rd WAN_BRG_CTRL.PUNT_RING)
    (hsess : d.sess port = some x) (hid : m.session = x.id) (hlo : 1 ≤ m.subtype) (hhi : m.subtype ≤ 7)
    (hheard : x.heard.contains m.seq = false) :
    d.brgCheck port m = (some { x with heard := x.heard ++ [m.seq] }, d.setSess port { x with heard := x.heard ++ [m.seq] }) := by
  unfold Dev.brgCheck
  rw [if_neg (by simp [Dev.brgRing, hring]), hsess]
  dsimp only
  rw [if_neg (by omega), if_neg (Bool.eq_false_iff.mp hheard)]

/-! ### What the message's own action is, once the check has passed it -/

section
variable {d e : Dev} {port : Nat} {m : BrgMsg} {y : Sess} (h : d.brgCheck port m = (some y, e))
include h

theorem Dev.bearingAccept_of_adaptive (hstate : e.msState port = msProposed) (hretune : e.msRetune port = false) :
    d.bearingAccept port m = e.wr (WAN_MS_ST.STATE port) msAccepted := by
  rw [Dev.bearingAccept, h]
  exact (if_pos hstate).trans (by rw [hretune, if_neg Bool.false_ne_true])

theorem Dev.bearingAccept_of_retune (hstate : e.msState port = msProposed) (hretune : e.msRetune port = true) :
    d.bearingAccept port m = (e.busAdd (.steer port 0 y.newApp)).wr (WAN_MS_ST.STATE port) msAccepted := by
  rw [Dev.bearingAccept, h]
  exact (if_pos hstate).trans (by rw [hretune, if_pos rfl])

theorem Dev.bearingDrain_of_adaptive (hleads : e.msLeads port = false) (hretune : e.msRetune port = false) :
    d.bearingDrain port m = e.wr (WAN_MS_ST.STATE port) msDrained := by
  rw [Dev.bearingDrain, h]
  exact (if_neg (Bool.eq_false_iff.mp hleads)).trans (if_neg (Bool.eq_false_iff.mp hretune))

theorem Dev.bearingDrain_of_echo (hleads : e.msLeads port = true) (hretune : e.msRetune port = true) :
    d.bearingDrain port m = e.setSess port { y with owd2 := some (tickSub m.adm y.drain - m.delay) } := by
  rw [Dev.bearingDrain, h]
  exact (if_pos hleads).trans (if_pos hretune)

theorem Dev.bearingSwitch_of_adaptive (hleads : e.msLeads port = false) (hretune : e.msRetune port = false) :
    d.bearingSwitch port m =
      (e.wr (WAN_MS_ST.STATE port) (max msSwitched (e.msState port))).setSess port { y with switch_ := some m.adm } := by
  have hretune' : (e.wr (WAN_MS_ST.STATE port) (max msSwitched (e.msState port))).msRetune port = false := by
    rw [Dev.msRetune, Dev.on, Dev.rd_wr_of_apartB _ _ _ _ (show 0 + 3 ≤ 32 by decide) (by simp [Field.apartB])]
    exact hretune
  rw [Dev.bearingSwitch, h]
  exact (if_neg (Bool.eq_false_iff.mp hleads)).trans (if_neg fun hc => Bool.eq_false_iff.mp hretune' hc.1)

theorem Dev.bearingRestore_of_adaptive (hleads : e.msLeads port = false) (hretune : e.msRetune port = false) :
    d.bearingRestore port m = (e.wr (WAN_PORT_ST.ENTRY port) (e.rd (WAN_MS_ST.TARGET port))).sessEnd port := by
  rw [Dev.bearingRestore, h]
  exact (if_neg (Bool.eq_false_iff.mp hleads)).trans (if_neg (Bool.eq_false_iff.mp hretune))

theorem Dev.bearingConfirm_of_adaptive (hleads : e.msLeads port = true) (hretune : e.msRetune port = false) :
    d.bearingConfirm port m = (e.setSess port { y with peerConfirm := true }).startRestore port m.adm := by
  have hleads' : (e.setSess port { y with peerConfirm := true }).msLeads port = true := hleads
  rw [Dev.bearingConfirm, h]
  exact (if_neg (by simp [hleads'])).trans (if_neg fun hc => Bool.eq_false_iff.mp hretune hc.1)

theorem Dev.bearingAbort_of_new : d.bearingAbort port m = (e.wr (WAN_MS_ST.REASON port) m.reason).sessRevert port false := by
  rw [Dev.bearingAbort, h]

end

/-! ### The answers to a PROPOSE -/

section
variable {d : Dev} {port gap : Nat} {m : BrgMsg} (cap : Bool) (hring : m.ring = d.rd WAN_BRG_CTRL.PUNT_RING)
include hring

theorem Dev.brgRing_of_eq : ¬ (!d.brgRing m) = true := by simp [Dev.brgRing, hring]

theorem Dev.bearingPropose_of_version (hver : m.ver / 16 ≠ 1) : d.bearingPropose port m cap gap = d.brgRefuse port m 0x05 :=
  (if_neg (Dev.brgRing_of_eq hring)).trans (if_pos hver)

variable (hver : m.ver / 16 = 1)
include hver

theorem Dev.bearingPropose_of_disabled (hen : d.on (WAN_PORT_CFG.MS_EN port) = false) :
    d.bearingPropose port m cap gap = d.brgRefuse port m 0x04 :=
  (if_neg (Dev.brgRing_of_eq hring)).trans ((if_neg (not_not.mpr hver)).trans (if_pos (by simp [hen])))

/-- At a port with margin steering and no session, another session of the cage refuses the PROPOSE, and without one it is judged. -/
theorem Dev.bearingPropose_of_free (hen : d.on (WAN_PORT_CFG.MS_EN port) = true) (hsess : d.sess port = none) :
    d.bearingPropose port m cap gap =
      if (List.range 8).any fun i => 8 * (port / 8) + i != port && (d.sess (8 * (port / 8) + i)).isSome then d.brgRefuse port m 0x02
      else d.brgJudge port m cap gap := by
  refine (if_neg (Dev.brgRing_of_eq hring)).trans ((if_neg (not_not.mpr hver)).trans ((if_neg (by simp [hen])).trans ?_))
  rw [hsess]

end

/-- No port of a cage has a session, read off its eight ports. -/
theorem Dev.sess_of_cage {d : Dev} {port : Nat} (h : ∀ i < 8, d.sess (8 * (port / 8) + i) = none) :
    d.sess port = none ∧
      ((List.range 8).any fun i => 8 * (port / 8) + i != port && (d.sess (8 * (port / 8) + i)).isSome) = false := by
  refine ⟨?_, ?_⟩
  · have hport := h (port % 8) (Nat.mod_lt _ (by decide))
    rwa [Nat.div_add_mod] at hport
  · rw [List.any_eq_false]
    intro i hi
    rw [h i (List.mem_range.mp hi)]
    simp

/-! ### What a message sent leaves -/

theorem rTail_addr (r : Nat) : 0x02300000 ≤ (rTail r).addr := by
  unfold rTail
  split
  · show 0x02300000 ≤ 0x02301014 + 32 * r
    omega
  · show 0x02300000 ≤ 0x02301814 + 32 * (r - 64)
    omega

/-- A message sent counts up its inject ring's TAIL alone. -/
theorem Dev.rd_navInject (d : Dev) (port : Nat) (bs : List Byte) (f : Field) (h : f.addr < 0x02300000) :
    (d.navInject port bs).rd f = d.rd f := by
  unfold Dev.navInject
  dsimp only
  split
  · rfl
  · have haddr := rTail_addr (64 + d.rd WAN_BRG_CTRL.INJ_RING)
    exact Dev.rd_wr_addr _ _ _ _ (by omega)

theorem Dev.rd_brgSend (d : Dev) (port sub reason delay : Nat) (f : Field) (h : f.addr < 0x02300000) :
    (d.brgSend port sub reason delay).rd f = d.rd f := by
  unfold Dev.brgSend
  split
  · rfl
  · exact Dev.rd_navInject _ _ _ _ h

/-! ### Each end's own steps -/

section
variable {d : Dev} {port : Nat} {x : Sess} (hsess : d.sess port = some x)
include hsess

theorem Dev.bearingResend_of_due (hwaits : d.msWaits port x = true) (hlast : x.last ≠ [])
    (hdue : d.rd WAN_MS_TIMER.RTO ≤ tickSub d.tck.now x.lastTick) :
    d.bearingResend port = if x.tries < d.rd WAN_MS_TIMER.RETRY then
        (d.setSess port { x with tries := x.tries + 1, lastTick := d.tck.now }).navInject port x.last
      else d.sessAbort port 0x06 := by
  rw [Dev.bearingResend, hsess]
  refine if_neg ?_
  rw [hwaits, List.isEmpty_iff]
  simp [hlast, hdue]

theorem Dev.leaderDrain_of_due (hleads : d.msLeads port = true) (hstate : d.msState port = msAccepted) (hfell : x.fell = true)
    (hdue : tickReached x.td d.tck.now = true) :
    d.leaderDrain port =
      ((d.setSess port { x with drain := d.tck.now }).wr (WAN_MS_ST.STATE port) msDrained).brgSend port 0x03 0 0 := by
  rw [Dev.leaderDrain, hsess]
  exact if_pos ⟨hleads, hstate, hfell, hdue⟩

theorem Dev.leaderSwitch_of_due (hleads : d.msLeads port = true) (hretune : d.msRetune port = false) (hstate : d.msState port = msDrained)
    (hgap : d.rd WAN_MS_TIMER2.GAP ≤ tickSub d.tck.now x.td) :
    d.leaderSwitch port = ((d.busAdd (.steer port 1 x.newApp)).wr (WAN_MS_ST.STATE port) msSwitched).brgSend port 0x04 0 0 := by
  rw [Dev.leaderSwitch, hsess]
  exact if_pos ⟨hleads, Bool.eq_false_iff.mp hretune, hstate, hgap⟩

theorem Dev.ceilingRestore_of_due {t : Nat} (hrestore : x.restore = some t) (hdue : tickReached t d.tck.now = true) :
    let e := if d.msLeads port then d.brgSend port 0x06 0 (tickSub d.tck.now t + 3) else d
    d.ceilingRestore port = (e.wr (WAN_PORT_ST.ENTRY port) (e.rd (WAN_MS_ST.TARGET port))).sessEnd port := by
  intro e
  rw [Dev.ceilingRestore, hsess]
  dsimp only
  rw [hrestore]
  exact if_pos hdue

theorem Dev.cleanReceive_of_follower {t : Nat} (hport : port < 256) (hleads : d.msLeads port = false) (hretune : d.msRetune port = false)
    (hswitch : x.switch_ = some t) (hclean : x.ownClean = false) (hstate : d.msState port = msSwitched) (hsince : d.cleanSince port t = true) :
    d.cleanReceive port = ((d.setSess port { x with ownClean := true }).brgSend port 0x05 0 (tickSub d.tck.now t)).wr
      (WAN_MS_ST.STATE port) msConfirmed := by
  have hfrom : (if d.msRetune port then x.applied else if d.msLeads port then none else x.switch_) = some t := by
    rw [hretune, hleads]
    exact hswitch
  have hdelay : (x.switch_.map fun t => tickSub d.tck.now t).getD 0 = tickSub d.tck.now t := by rw [hswitch, Option.map_some, Option.getD_some]
  have hleads' : ((d.setSess port { x with ownClean := true }).brgSend port 0x05 0 (tickSub d.tck.now t)).msLeads port = false := by
    rw [Dev.msLeads, Dev.on, Dev.rd_brgSend _ _ _ _ _ _ (show 0x01C00C00 + 4 * port < 0x02300000 by omega)]
    exact hleads
  rw [Dev.cleanReceive, hsess]
  dsimp only
  rw [hfrom, hdelay]
  dsimp only
  rw [if_neg (by simp [hclean, hstate, hsince, hretune]), if_pos (by rw [hleads']; rfl)]

theorem Dev.retuneDrained_of_empty {o : Nat} (hleads : d.msLeads port = true) (hretune : d.msRetune port = true)
    (hstate : d.msState port = msDrained) (howd : x.owd2 = some o) (hempty : d.fifoEmpty port = true) :
    d.retuneDrained port = ((d.setSess port { x with apply_ := some (tickAdd d.tck.now (4 + ceilDiv o 2 + d.rd WAN_MS_RETUNE.SWDLY)) }).wr
      (WAN_MS_ST.STATE port) msSwitched).brgSend port 0x04 0 (d.rd WAN_MS_RETUNE.SWDLY) := by
  rw [Dev.retuneDrained, hsess]
  dsimp only
  rw [howd]
  exact if_pos ⟨hleads, hretune, hstate, hempty⟩

theorem Dev.retuneApply_of_due {t : Nat} (hretune : d.msRetune port = true) (happlied : x.applied = none) (happly : x.apply_ = some t)
    (hdue : tickReached t d.tck.now = true) :
    d.retuneApply port = ((d.setSess port { x with applied := some d.tck.now, apply_ := none }).wr (WAN_MS_ST.STATE port) msSwitched).busAdd
      (.steer port 2 x.newApp) := by
  rw [Dev.retuneApply, hsess]
  dsimp only
  rw [happly]
  exact if_pos ⟨hretune, by rw [happlied]; rfl, hdue⟩

theorem Dev.retuneTimeout_of_late {t : Nat} (happlied : x.applied = some t) (hmax : d.rd WAN_MS_RETUNE.MAX ≤ tickSub d.tck.now t)
    (hlink : d.on (WAN_PORT_ST.LINK port) = false) (hstate : d.msState port ≠ msReverting) :
    d.retuneTimeout port = d.sessAbort port 0x08 := by
  rw [Dev.retuneTimeout, hsess]
  dsimp only
  rw [happlied]
  exact (if_pos ⟨hmax, Bool.eq_false_iff.mp hlink⟩).trans (if_neg hstate)

end

/-- Settles O28: the checks of a proposal in their order, and of each later message the state of the session that it moves. -/
theorem bearings : Obligations.Bearings := by
  refine ⟨fun s port gap m cap hready hport hring hgap hother => ?other,
    fun s port m hready hport hring hours hsess => ⟨?noSession, ?noSteps⟩, fun s port gap m cap hready hport hring hgap hours => ?propose,
    fun s port m x hready hport hring hours hsess hid hlo hhi hheard => ?message, fun s port x hready hport hsess => ?step⟩
  case other =>
    have hcheck := Dev.brgCheck_of_other port hother
    have hwf : decide (port < 256 ∧ m.ring < 64) = true := decide_eq_true ⟨hport, hring⟩
    simp only [List.forall_mem_cons, List.not_mem_nil, false_implies, implies_true, and_true]
    refine ⟨hready.does rfl (decide_eq_true ⟨hport, hring, hgap⟩) (if_pos (by simpa [Dev.brgRing] using hother)) rfl,
      hready.does rfl hwf ?_ rfl, hready.does rfl hwf ?_ rfl, hready.does rfl hwf ?_ rfl, hready.does rfl hwf ?_ rfl,
      hready.does rfl hwf ?_ rfl, hready.does rfl hwf ?_ rfl⟩
    · rw [Dev.bearingAccept, hcheck]
    · rw [Dev.bearingDrain, hcheck]
    · rw [Dev.bearingSwitch, hcheck]
    · rw [Dev.bearingConfirm, hcheck]
    · rw [Dev.bearingRestore, hcheck]
    · rw [Dev.bearingAbort, hcheck]
  case noSession =>
    have hcheck := Dev.brgCheck_of_none hours hsess
    have hwf : decide (port < 256 ∧ m.ring < 64) = true := decide_eq_true ⟨hport, hring⟩
    have htodo : (s.dev.bump WAN_BRG_BAD.COUNT).flt.todo = s.dev.flt.todo := Dev.todo_wr _ _ _
    simp only [List.forall_mem_cons, List.not_mem_nil, false_implies, implies_true, and_true]
    refine ⟨hready.does rfl hwf ?_ htodo, hready.does rfl hwf ?_ htodo, hready.does rfl hwf ?_ htodo, hready.does rfl hwf ?_ htodo,
      hready.does rfl hwf ?_ htodo, hready.does rfl hwf ?_ htodo⟩
    · rw [Dev.bearingAccept, hcheck]
    · rw [Dev.bearingDrain, hcheck]
    · rw [Dev.bearingSwitch, hcheck]
    · rw [Dev.bearingConfirm, hcheck]
    · rw [Dev.bearingRestore, hcheck]
    · rw [Dev.bearingAbort, hcheck]
  case noSteps =>
    have hwf : decide (port < 256) = true := decide_eq_true hport
    simp only [List.forall_mem_cons, List.not_mem_nil, false_implies, implies_true, and_true]
    refine ⟨hready.does rfl hwf ?_ rfl, hready.does rfl hwf ?_ rfl, hready.does rfl hwf ?_ rfl, hready.does rfl hwf ?_ rfl,
      hready.does rfl hwf ?_ rfl, hready.does rfl hwf ?_ rfl, hready.does rfl hwf ?_ rfl, hready.does rfl hwf ?_ rfl⟩
    · rw [Dev.bearingResend, hsess]
    · rw [Dev.leaderDrain, hsess]
    · rw [Dev.leaderSwitch, hsess]
    · rw [Dev.ceilingRestore, hsess]
    · rw [Dev.cleanReceive, hsess]
    · rw [Dev.retuneDrained, hsess]
    · rw [Dev.retuneApply, hsess]
    · rw [Dev.retuneTimeout, hsess]
  case propose =>
    have hwf : decide (port < 256 ∧ m.ring < 64 ∧ 8 ≤ gap) = true := decide_eq_true ⟨hport, hring, hgap⟩
    refine ⟨fun hver => ?_, fun hver hen => ?_, fun i hver hen hsess hi hne hbusy => ?_, fun hver hen hfree => ?_⟩
    · exact hready.runs rfl hwf (Dev.bearingPropose_of_version cap hours hver)
    · exact hready.runs rfl hwf (Dev.bearingPropose_of_disabled cap hours hver hen)
    · refine hready.runs rfl hwf ((Dev.bearingPropose_of_free cap hours hver hen hsess).trans (if_pos ?_))
      exact List.any_eq_true.mpr ⟨i, List.mem_range.mpr hi, by simp [hne, hbusy]⟩
    · obtain ⟨hsess, hothers⟩ := Dev.sess_of_cage hfree
      have hjudge (cap : Bool) : s.dev.bearingPropose port m cap gap = s.dev.brgJudge port m cap gap :=
        (Dev.bearingPropose_of_free cap hours hver hen hsess).trans (if_neg (Bool.eq_false_iff.mp hothers))
      intro v
      refine ⟨fun hdiffers => ?_, fun hvalid hceil happ => ⟨?_, ?_⟩⟩
      · exact hready.runs rfl hwf ((hjudge cap).trans (if_pos (hdiffers.imp_left fun h => by rw [h]; rfl)))
      · exact hready.runs rfl hwf ((hjudge false).trans ((if_neg (by simp [v, hvalid, hceil, happ])).trans (if_pos rfl)))
      · exact hready.runs rfl hwf ((hjudge true).trans ((if_neg (by simp [v, hvalid, hceil, happ])).trans (if_neg (by decide))))
  case message =>
    have hwf : decide (port < 256 ∧ m.ring < 64) = true := decide_eq_true ⟨hport, hring⟩
    have hcheck := Dev.brgCheck_of_new hours hsess hid hlo hhi hheard
    intro y d
    refine ⟨fun hstate hretune => ?_, fun hstate hretune => ?_, fun hleads hretune => ⟨?_, ?_, ?_⟩, fun hleads hretune => ?_,
      fun hleads hretune => ?_, ?_⟩
    · exact hready.does rfl hwf (Dev.bearingAccept_of_adaptive hcheck hstate hretune) (Dev.todo_wr _ _ _)
    · have haccept := Dev.bearingAccept_of_retune hcheck hstate hretune
      exact hready.runs rfl hwf haccept
    · exact hready.does rfl hwf (Dev.bearingDrain_of_adaptive hcheck hleads hretune) (Dev.todo_wr _ _ _)
    · have hswitch := Dev.bearingSwitch_of_adaptive hcheck hleads hretune
      exact hready.runs rfl hwf hswitch
    · exact hready.runs rfl hwf (Dev.bearingRestore_of_adaptive hcheck hleads hretune)
    · exact hready.does rfl hwf (Dev.bearingDrain_of_echo hcheck hleads hretune) rfl
    · exact hready.runs rfl hwf (Dev.bearingConfirm_of_adaptive hcheck hleads hretune)
    · exact hready.runs rfl hwf (Dev.bearingAbort_of_new hcheck)
  case step =>
    have hwf : decide (port < 256) = true := decide_eq_true hport
    refine ⟨fun hwaits hlast hdue htries => ?_, fun hwaits hlast hdue htries => ?_, fun hleads hstate hfell hdue => ?_,
      fun hleads hretune hstate hgap => ?_, fun t hleads hrestore hdue => ?_, fun t hleads hrestore hdue => ?_,
      fun t hleads hretune hswitch hclean hstate hsince => ?_, fun o hleads hretune hstate howd hempty => ?_,
      fun t hretune happlied happly hdue => ?_, fun t happlied hmax hlink hstate => ?_⟩
    · exact hready.runs rfl hwf ((Dev.bearingResend_of_due hsess hwaits hlast hdue).trans (if_pos htries))
    · exact hready.runs rfl hwf ((Dev.bearingResend_of_due hsess hwaits hlast hdue).trans (if_neg (Nat.not_lt.mpr htries)))
    · exact hready.runs rfl hwf (Dev.leaderDrain_of_due hsess hleads hstate hfell hdue)
    · exact hready.runs rfl hwf (Dev.leaderSwitch_of_due hsess hleads hretune hstate hgap)
    · refine hready.runs rfl hwf ((Dev.ceilingRestore_of_due hsess hrestore hdue).trans ?_)
      rw [hleads, if_neg Bool.false_ne_true]
    · refine hready.runs rfl hwf ((Dev.ceilingRestore_of_due hsess hrestore hdue).trans ?_)
      rw [hleads, if_pos rfl]
    · exact hready.runs rfl hwf (Dev.cleanReceive_of_follower hsess hport hleads hretune hswitch hclean hstate hsince)
    · exact hready.runs rfl hwf (Dev.retuneDrained_of_empty hsess hleads hretune hstate howd hempty)
    · exact hready.runs rfl hwf (Dev.retuneApply_of_due hsess hretune happlied happly hdue)
    · exact hready.runs rfl hwf (Dev.retuneTimeout_of_late hsess happlied hmax hlink hstate)

end Sys2Proof.Machine
end

section
/-!
The fabric interface (spec/11_fabric_interface.md, R272 to R286): cells, codewords, lanes, and the interface's start and stop.
-/
namespace Sys2Proof.Machine

theorem Dev.fabDo_of_unpowered {d : Dev} (f : Dev → Dev) (h : d.fabPowered = false) : d.fabDo f = d := if_neg (Bool.eq_false_iff.mp h)

theorem Dev.fabDo_of_powered {d : Dev} (f : Dev → Dev) (h : d.fabPowered = true) : d.fabDo f = f d := if_pos h

/-- Of an interface without power nothing comes. -/
theorem State.Ready.does_unpowered {s : State} {c : Instr} {f : Dev → Dev} (h : s.Ready) (hoff : s.dev.fabPowered = false)
    (hexec : exec c s = s.act c fun d => d.core fun d => d.fabDo f) (hwf : Instr.wf c = true) : s.Does c s.dev :=
  h.does hexec hwf (Dev.fabDo_of_unpowered f hoff) rfl

/-- What comes over a powered one has its effect. -/
theorem State.Ready.does_powered {s : State} {c : Instr} {f : Dev → Dev} {e : Dev} (h : s.Ready) (hon : s.dev.fabPowered = true)
    (hexec : exec c s = s.act c fun d => d.core fun d => d.fabDo f) (hwf : Instr.wf c = true) (heff : f s.dev = e)
    (htodo : e.flt.todo = s.dev.flt.todo) : s.Does c e :=
  h.does hexec hwf ((Dev.fabDo_of_powered f hon).trans heff) htodo

theorem State.Ready.runs_powered {s : State} {c : Instr} {f : Dev → Dev} {e : Dev} (h : s.Ready) (hon : s.dev.fabPowered = true)
    (hexec : exec c s = s.act c fun d => d.core fun d => d.fabDo f) (hwf : Instr.wf c = true) (heff : f s.dev = e) : s.Runs c e :=
  h.runs hexec hwf ((Dev.fabDo_of_powered f hon).trans heff)

/-! ### Departures -/

/-- The next fabric departure of a pipeline, once due, is made. -/
theorem Dev.fabricDeparture_of_due {d : Dev} {pipe : Nat} {x : Depart} {l : List Depart}
    (h : sortKey (fun x => departKey x d.tck.now) (d.wan.deps.filter fun x => x.pipe = pipe && x.fabric && tickReached x.tick d.tck.now) =
      x :: l) : d.fabricDeparture pipe = Dev.fabDepart { d with wan := { d.wan with deps := d.wan.deps.erase x } } x := by
  rw [Dev.fabricDeparture, h]

theorem Dev.fabricDeparture_of_none {d : Dev} {pipe : Nat}
    (h : (d.wan.deps.filter fun x => x.pipe = pipe && x.fabric && tickReached x.tick d.tck.now) = []) : d.fabricDeparture pipe = d := by
  rw [Dev.fabricDeparture, h]
  rfl

/-! ### Codewords and cells -/

/-- A bad codeword takes the cell in progress. -/
theorem Dev.codeword_of_bad {d : Dev} {lane hdr : Nat} {good : Bool} (st : List Byte) (arr : Nat)
    (h : good = false ∨ popcount 20 hdr % 2 ≠ 0) :
    d.codeword lane good hdr st arr =
      (({ d with fab := { d.fab with part := SMap.erase d.fab.part lane } } : Dev).bump FAB_CW_UNCORR.COUNT).setFabLane lane
        { d.fabLane lane with dirty := true } :=
  if_pos (h.imp_left fun hbad => by rw [hbad]; rfl)

/-- The cells of a good one are walked, from what was left of the last one where a cell is in progress. -/
theorem Dev.codeword_of_good {d : Dev} {lane hdr : Nat} {good : Bool} (st : List Byte) (arr : Nat) (hgood : good = true)
    (hpar : popcount 20 hdr % 2 = 0) :
    let e : Dev := { d with fab := { d.fab with part := SMap.erase d.fab.part lane } }
    d.codeword lane good hdr st arr = match SMap.find d.fab.part lane with
      | some bs => e.cellWalk lane arr 240 (bs ++ st)
      | none => if 640 ≤ bits hdr 1 10 then e else e.cellWalk lane arr 240 (st.drop (bits hdr 1 10)) :=
  if_neg (by simp [hgood, hpar])

/-- A DATA cell whose checks hold: each thing that becomes of it in turn. -/
theorem Dev.dataCell_of_parsed {d : Dev} {bs payload : List Byte} {h : CellHdr} (hparse : cellParse bs = some (h, payload)) :
    let e := d.evt 0x33 0x21 (some h.dpipe)
    let t := departTick e.tck.now h.stick
    d.dataCell bs = if !(e.on FAB_CTRL.EN && e.on FAB_STATUS.UP) then e
      else if tickReached (tickAdd t (e.rd FAB_HOP.L)) e.tck.now then e.fabLost (tickAdd t (e.rd FAB_HOP.L))
      else if e.fab.gathers.any fun g => g.owns h t && g.cells.any fun x => x.cidx == h.cidx then e
      else match e.fab.free with
        | [] => e.bump FAB_NOSTAGE.COUNT
        | p :: rest =>
          let c : FabCell := { cidx := h.cidx, last := h.last, err := h.err, plen := h.plen, dpipe := h.dpipe, payload, ptr := p }
          (Dev.wrote { e with fab := { e.fab with gathers := gatherCell e.fab.gathers h t c, free := rest } } 0x200 .carData p).charge
            e.tck.now 0x20 1 := by
  intro e t
  rw [Dev.dataCell, hparse] <;> rfl

/-! ### Lanes -/

theorem Dev.fabLock_of_loss {d : Dev} (lane : Nat) :
    let e : Dev := { d.wr (FAB_LANE.RXLOCK lane) 0 with fab := { d.fab with part := SMap.erase d.fab.part lane } }
    d.fabLock lane false = match SMap.find d.fab.lanes lane with
      | some s => e.setFabLane lane { s with badNow := true, run := 0 }
      | none => e := rfl

/-- Settles O29: a departure, a codeword and a cell by the check that each fails first, and the lanes by what they show. -/
theorem fabricCells : Obligations.FabricCells := by
  refine ⟨fun s lane arr arg dev hdr good bs st hready hoff hlane hdev hhdr hst => ?unpowered, fun s pipe hready hpipe hnone => ?noDeparture,
    fun s pipe x l hready hpipe hdue => ?departure, fun s lane hdr arr good st hready hon hlane hhdr hst => ?codeword,
    fun s bs hready hon hparse => ?badCell, fun s bs h payload hready hon hparse => ?dataCell,
    fun s dev hready hon hdev => ?ctrl, fun s lane arr arg hready hon hlane hidle => ?notProbing,
    fun s lane arr arg hready hon hlane hprobing => ?probe, fun s lane good hready hon hlane => ?lstat,
    fun s lane hready hon hlane => ?lock⟩
  case unpowered =>
    simp only [List.forall_mem_cons, List.not_mem_nil, false_implies, implies_true, and_true]
    exact ⟨hready.does_unpowered hoff rfl (decide_eq_true ⟨hlane, hhdr, hst⟩), hready.does_unpowered hoff rfl rfl,
      hready.does_unpowered hoff rfl (decide_eq_true hdev), hready.does_unpowered hoff rfl (decide_eq_true hdev),
      hready.does_unpowered hoff rfl (decide_eq_true hdev), hready.does_unpowered hoff rfl (decide_eq_true hdev),
      hready.does_unpowered hoff rfl (decide_eq_true hlane), hready.does_unpowered hoff rfl (decide_eq_true hlane),
      hready.does_unpowered hoff rfl rfl, hready.does_unpowered hoff rfl (decide_eq_true hlane),
      hready.does_unpowered hoff rfl (decide_eq_true hlane)⟩
  case noDeparture => exact hready.does rfl (decide_eq_true hpipe) (Dev.fabricDeparture_of_none hnone) rfl
  case departure =>
    have hdepart := Dev.fabricDeparture_of_due hdue
    intro d queued cells
    refine ⟨fun hdown => ?_, fun hup hfull => ?_, hready.runs rfl (decide_eq_true hpipe) hdepart⟩
    · exact hready.runs rfl (decide_eq_true hpipe) (hdepart.trans (if_pos (congrArg Bool.not hdown)))
    · refine hready.runs rfl (decide_eq_true hpipe) (hdepart.trans ((if_neg ?_).trans (if_pos hfull)))
      exact Bool.eq_false_iff.mp (congrArg Bool.not hup)
  case codeword =>
    have hwf : decide (lane < 320 ∧ hdr < 1048576 ∧ st.length = 640) = true := decide_eq_true ⟨hlane, hhdr, hst⟩
    intro d
    refine ⟨fun hbad => ?_, fun bs hgood hpar hpart => ?_, fun hgood hpar hpart hptr => ?_, fun hgood hpar hpart hptr => ?_⟩
    · exact hready.does_powered hon rfl hwf (Dev.codeword_of_bad st arr hbad) (by simp [d, Dev.setFabLane, Dev.bump])
    · refine hready.runs_powered hon rfl hwf ((Dev.codeword_of_good st arr hgood hpar).trans ?_)
      rw [hpart]
    · refine hready.runs_powered hon rfl hwf ((Dev.codeword_of_good st arr hgood hpar).trans ?_)
      rw [hpart]
      exact if_neg (Nat.not_le.mpr hptr)
    · refine hready.does_powered hon rfl hwf ((Dev.codeword_of_good st arr hgood hpar).trans ?_) rfl
      rw [hpart]
      exact if_pos hptr
  case badCell =>
    refine hready.does_powered hon rfl rfl ?_ (Dev.todo_wr _ _ _)
    rw [Dev.dataCell, hparse]
  case dataCell =>
    have hcell := Dev.dataCell_of_parsed (d := s.dev) hparse
    intro d t late held
    refine ⟨fun hdown => ?_, fun hen hup => ⟨fun hlate => ?_, fun hlate hheld => ?_, fun hlate hheld hfree => ?_,
      fun ptr rest hlate hheld hfree => ?_⟩⟩
    · exact hready.runs_powered hon rfl rfl (hcell.trans (if_pos (by rcases hdown with h | h <;> simp [d, h])))
    · exact hready.runs_powered hon rfl rfl (hcell.trans ((if_neg (by simp [d, hen, hup])).trans (if_pos hlate)))
    · exact hready.runs_powered hon rfl rfl
        (hcell.trans ((if_neg (by simp [d, hen, hup])).trans ((if_neg hlate).trans (if_pos hheld))))
    · refine hready.runs_powered hon rfl rfl
        (hcell.trans ((if_neg (by simp [d, hen, hup])).trans ((if_neg hlate).trans ((if_neg hheld).trans ?_))))
      rw [hfree]
    · refine hready.runs_powered hon rfl rfl
        (hcell.trans ((if_neg (by simp [d, hen, hup])).trans ((if_neg hlate).trans ((if_neg hheld).trans ?_))))
      rw [hfree]
  case ctrl =>
    exact ⟨hready.does_powered hon rfl (decide_eq_true hdev) rfl rfl, hready.does_powered hon rfl (decide_eq_true hdev) rfl rfl,
      hready.does_powered hon rfl (decide_eq_true hdev) rfl rfl, hready.does_powered hon rfl (decide_eq_true hdev) rfl rfl⟩
  case notProbing =>
    exact hready.does_powered hon rfl (decide_eq_true hlane) (if_pos (by rw [hidle]; rfl)) rfl
  case probe =>
    refine hready.does_powered hon rfl (decide_eq_true hlane) (if_neg ?_) (Dev.todo_wr _ _ _)
    simpa using hprobing
  case lstat => exact hready.does_powered hon rfl (decide_eq_true hlane) rfl (by simp [Dev.setFabLane])
  case lock =>
    intro d
    refine ⟨?_, fun hnone => ?_, fun l hfind => ?_⟩
    · exact hready.does_powered hon rfl (decide_eq_true hlane) rfl (Dev.todo_wr _ _ _)
    · refine hready.does_powered hon rfl (decide_eq_true hlane) ((Dev.fabLock_of_loss lane).trans ?_) (by simp [d])
      rw [hnone]
    · refine hready.does_powered hon rfl (decide_eq_true hlane) ((Dev.fabLock_of_loss lane).trans ?_)
        (by simp [d, Dev.setFabLane])
      rw [hfind]

/-! ### Start and stop -/

/-- A revoked holder gets no pool. -/
theorem Dev.fabPool_of_revoked {d : Dev} (h : d.isRevoked 0x0411 = true) : d.fabPool = d := by
  unfold Dev.fabPool
  rw [h]

/-- What is written to registers does not depend on the interface's own state. -/
theorem Dev.wr_wr_fab (d : Dev) (f g : Field) (v w : Nat) (x y : Fab) :
    { (({ d with fab := x } : Dev).wr f v).wr g w with fab := y } = { (d.wr f v).wr g w with fab := y } := rfl

/-- With LOCKED, an enable allocates the pool and goes by the mode. -/
theorem Dev.fabEnable_of_locked {d : Dev} (hen : d.on FAB_CTRL.EN = true) (hoff : d.fab.en = false) (hlocked : d.on TCK_STATUS.LOCKED = true) :
    let e := Dev.fabPool { d with fab := { d.fab with en := true } }
    d.fabEnable = if e.rd GLB_BOOT_STATUS.MODE = 1 then { e with fab := { e.fab with probing := some e.tck.now, probe := [] } }
      else if e.rd FAB_HOP.TICKS = 0 then e.wr FAB_STATUS.HOP_ERR 1 else e.fabStart (e.rd FAB_HOP.TICKS) :=
  (if_neg (by simp [hen, hoff])).trans (if_neg (not_not.mpr hlocked))

/-- The end of probing sets the allowance, or fails. -/
theorem Dev.fabProbeDone_of_over {d : Dev} {t : Nat} (hprobing : d.fab.probing = some t) (hover : 256 ≤ tickSub d.tck.now t) :
    let l := max 1 (ceilDiv (4288 + d.fab.probe.foldl (fun a x => max a x.2) 0) 1536)
    d.fabProbeDone = if 8 < l then ({ d with fab := { d.fab with probing := none } } : Dev).wr FAB_STATUS.HOP_ERR 1 else d.fabStart l := by
  intro l
  rw [Dev.fabProbeDone, hprobing]
  exact if_neg (Nat.not_lt.mpr hover)

theorem Dev.fabProbeDone_of_early {d : Dev} (h : d.fab.probing = none ∨ ∃ t, d.fab.probing = some t ∧ tickSub d.tck.now t < 256) :
    d.fabDo Dev.fabProbeDone = d := by
  refine (ite_eq_right_iff.mpr fun _ => ?_)
  rcases h with hnone | ⟨t, hprobing, hearly⟩
  · rw [Dev.fabProbeDone, hnone]
  · rw [Dev.fabProbeDone, hprobing]
    exact if_pos hearly

/-- The pool's carriages go back. -/
theorem Dev.fabPoolBack_of_granted {d : Dev} (h : d.isRevoked 0x0411 = false) :
    d.fabPoolBack.fab.pool = [] ∧ d.fabPoolBack.dpt.rejoin = d.dpt.rejoin ++ d.fab.pool ∧
      d.fabPoolBack.dpt.credit = d.dpt.credit ++ [(257, d.fab.pool.length)] := by
  unfold Dev.fabPoolBack
  rw [if_neg (Bool.eq_false_iff.mp h)]
  refine ⟨?_, ?_, ?_⟩
  · rw [(Calm.evt _ _ _ _ _).fab]
  · rw [(Calm.evt _ _ _ _ _).dpt]
  · rw [(Calm.evt _ _ _ _ _).dpt]

/-- Settles O30: `Dev.fabEnable_of_locked`, `Dev.fabProbeDone_of_over` and `Dev.fabPoolBack_of_granted`, beside the cases in which nothing happens. -/
theorem fabricStartStop : Obligations.FabricStartStop := by
  refine ⟨fun s hready hnot => ?noEnable, fun s hready hen hoff hlocked => ?unlocked, fun s hready hen hoff hlocked => ?locked,
    fun s hready hen hoff hlocked hrevoked hmode hticks => ?revoked, fun s hready hidle => ?notProbing,
    fun s t hready hprobing hearly => ?early, fun s t hready hon hprobing hover => ?probed, fun s hready hnot => ?noDisable,
    fun s hready hen hoff => ?disable, fun d hgranted => Dev.fabPoolBack_of_granted hgranted⟩
  case noEnable => exact hready.does rfl rfl (if_pos (hnot.imp_left Bool.eq_false_iff.mp)) rfl
  case unlocked =>
    exact hready.does rfl rfl ((if_neg (by simp [hen, hoff])).trans (if_pos (Bool.eq_false_iff.mp hlocked))) (Dev.todo_wr _ _ _)
  case locked =>
    have henable := Dev.fabEnable_of_locked hen hoff hlocked
    intro d
    refine ⟨fun hmode => ?_, fun hmode hticks => ?_, fun hmode hticks => ?_⟩
    · exact hready.runs rfl rfl (henable.trans (if_pos hmode))
    · exact hready.runs rfl rfl (henable.trans ((if_neg hmode).trans (if_pos hticks)))
    · exact hready.runs rfl rfl (henable.trans ((if_neg hmode).trans (if_neg hticks)))
  case revoked =>
    have henable := Dev.fabEnable_of_locked hen hoff hlocked
    have hpool : Dev.fabPool { s.dev with fab := { s.dev.fab with en := true } } = { s.dev with fab := { s.dev.fab with en := true } } :=
      Dev.fabPool_of_revoked hrevoked
    rw [hpool] at henable
    have hstart := henable.trans ((if_neg hmode).trans (if_neg hticks))
    rw [Dev.fabStart, Dev.wr_wr_fab] at hstart
    exact hready.does rfl rfl hstart (by simp)
  case notProbing => exact hready.does rfl rfl (Dev.fabProbeDone_of_early (.inl hidle)) rfl
  case early => exact hready.does rfl rfl (Dev.fabProbeDone_of_early (.inr ⟨t, hprobing, hearly⟩)) rfl
  case probed =>
    have hdone := Dev.fabProbeDone_of_over hprobing hover
    intro p l
    refine ⟨fun hfits => ?_, fun hlong => ?_⟩
    · have hstart := hdone.trans (if_neg (Nat.not_lt.mpr hfits))
      exact hready.does_powered hon rfl rfl hstart (by simp)
    · exact hready.does_powered hon rfl rfl (hdone.trans (if_pos hlong)) (Dev.todo_wr _ _ _)
  case noDisable => exact hready.does rfl rfl (if_pos (hnot.imp_right Bool.eq_false_iff.mp)) rfl
  case disable => exact hready.runs rfl rfl (if_neg (by simp [hen, hoff]))

end Sys2Proof.Machine
end

section
/-!
The energy window and the clocks that a supply sag stretches (spec/12_energy_reckoning_and_supply_sag.md, R294, R297 to R301).
-/
namespace Sys2Proof.Machine

/-! ### A die's controller -/

theorem Dev.sagBelow_of_deep {d : Dev} {die : Nat} (h : (d.sag die).level = 2) : d.sagBelow die = deepBelow := if_pos h

theorem Dev.sagBelow_of_warn {d : Dev} {die : Nat} (h : (d.sag die).level ≠ 2) : d.sagBelow die = d.warnBelow := if_neg h

/-- At full clock a reading is no dip. -/
theorem Dev.sagDip_of_full {d : Dev} {die : Nat} (low : Nat) (h : (d.sag die).level = 0) : d.sagDip die low = d :=
  if_neg fun hdip => hdip.1 h

/-- At 3/4 one that is not above the deep level and HYST restarts the count of clean cycles. -/
theorem Dev.sagDip_of_deep {d : Dev} {die low : Nat} (hlevel : (d.sag die).level = 2)
    (hlow : above (d.sag die).base (deepBelow - d.sagHyst) low = false) :
    d.sagDip die low = d.setSag die { d.sag die with clean := 0 } := by
  refine if_pos ⟨fun h => absurd (hlevel.symm.trans h) (by decide), ?_⟩
  rw [Dev.sagBelow_of_deep hlevel, hlow]
  exact Bool.false_ne_true

/-- A reading above the level and HYST after 256 clean cycles returns the clock a level. -/
theorem Dev.sagReturn_of_clean {d : Dev} {die low : Nat} (hlevel : (d.sag die).level ≠ 0) (hclean : 256 ≤ (d.sag die).clean)
    (habove : above (d.sag die).base (d.sagBelow die - d.sagHyst) low = true) :
    d.sagReturn die low = if (d.sag die).level = 2 then d.sagTo die 1
      else ((d.setSag die { d.sag die with level := 0, deepest := 0, edges := 0, clean := 0 }).sagViews).sagEnd die (d.sag die) :=
  (if_neg hlevel).trans ((if_neg (not_not.mpr habove)).trans (if_neg (Nat.not_lt.mpr hclean)))

@[simp] theorem Dev.setSag_flt (d : Dev) (die : Nat) (x : Sag) : (d.setSag die x).flt = d.flt := by
  unfold Dev.setSag
  split <;> rfl

theorem Dev.sag_setSag_same (d : Dev) (die : Nat) (x : Sag) : (d.setSag die x).sag die = x := by
  unfold Dev.setSag Dev.sag
  split <;> rfl

theorem Dev.sag_setSag_other (d : Dev) {die : Nat} (x : Sag) (h : die < 2) : (d.setSag die x).sag (1 - die) = d.sag (1 - die) := by
  interval_cases die <;> rfl

/-- The views show a die's state and leave it. -/
theorem Dev.sagViews_sag (d : Dev) (die : Nat) : d.sagViews.sag die = d.sag die := by
  rw [Dev.sagViews, Dev.sag, Dev.wrs_nrg]
  rfl

/-- After a move to a level each die's controller is what the move made of it. -/
theorem Dev.sagTo_sag (d : Dev) (die level k : Nat) (x : Sag)
    (hx : x = if (d.sag die).level = 0 then { d.sag die with onset := d.tck.now, cycles := 0, deepest := level } else d.sag die) :
    (d.sagTo die level).sag k =
      (d.setSag die { x with level, deepest := max x.deepest level, edges := 0, clean := 0 }).sag k := by
  subst hx
  exact Dev.sagViews_sag _ k

/-- Settles O31: a sag by its depth (`Dev.sagDip_of_full`, `Dev.sagDip_of_deep`) and the return by the clock's level. -/
theorem energyAndSag : Obligations.EnergyAndSag := by
  refine ⟨fun s m hready hmid => ?mid, fun s m hready hstart hclosing => ?latch, fun s die low hready hdie hfull hlow => ?warned,
    fun s die low hready hdie hfull hhigh => ?fine, fun s die low hready hdie hshallow hlow => ?deep,
    fun s die low hready hdie hdeep hdip => ?dip, fun s die low hready hdie hdeep hclean habove => ?fromDeep,
    fun s die low hready hdie hwarn hclean habove => ?fromWarn, fun s die low hready hdie hwait => ?waits,
    fun d die level hfull hdie => ?stretched⟩
  case mid => exact hready.does rfl rfl (if_neg fun h => hmid h.1) rfl
  case latch =>
    exact hready.does rfl rfl (if_pos ⟨hstart, by rw [hclosing]; rfl⟩) (by simp [Dev.wrTick])
  case warned => exact hready.runs rfl (decide_eq_true hdie) (if_pos ⟨hfull, hlow⟩)
  case fine =>
    refine hready.does rfl (decide_eq_true hdie) ((if_neg ?_).trans (Dev.sagDip_of_full low hfull)) rfl
    exact fun h => Bool.eq_false_iff.mp hhigh h.2
  case deep => exact hready.runs rfl (decide_eq_true hdie) (if_pos ⟨hshallow, hlow⟩)
  case dip =>
    have hdipped := Dev.sagDip_of_deep hdeep hdip
    have htodo : (s.dev.setSag die { s.dev.sag die with clean := 0 }).flt.todo = s.dev.flt.todo := by rw [Dev.setSag_flt]
    have hnot : ¬ above (s.dev.sag die).base (s.dev.sagBelow die - s.dev.sagHyst) low = true := by
      rw [Dev.sagBelow_of_deep hdeep]
      exact Bool.eq_false_iff.mp hdip
    simp only [List.forall_mem_cons, List.not_mem_nil, false_implies, implies_true, and_true]
    refine ⟨?warning, ?deeper, ?back⟩
    case warning => exact hready.does rfl (decide_eq_true hdie) ((if_neg fun h => by omega).trans hdipped) htodo
    case deeper => exact hready.does rfl (decide_eq_true hdie) ((if_neg fun h => by omega).trans hdipped) htodo
    case back => exact hready.does rfl (decide_eq_true hdie) ((if_neg (by omega)).trans ((if_pos hnot).trans hdipped)) htodo
  case fromDeep =>
    rw [← Dev.sagBelow_of_deep hdeep] at habove
    exact hready.runs rfl (decide_eq_true hdie) ((Dev.sagReturn_of_clean (by omega) hclean habove).trans (if_pos hdeep))
  case fromWarn =>
    have hnot : (s.dev.sag die).level ≠ 2 := by omega
    rw [← Dev.sagBelow_of_warn hnot] at habove
    exact hready.runs rfl (decide_eq_true hdie) ((Dev.sagReturn_of_clean (by omega) hclean habove).trans (if_neg hnot))
  case waits =>
    refine hready.does rfl (decide_eq_true hdie) ?_ rfl
    by_cases hlevel : (s.dev.sag die).level = 0
    · exact if_pos hlevel
    · obtain ⟨hclean, habove⟩ := hwait.resolve_left hlevel
      exact (if_neg hlevel).trans ((if_neg (not_not.mpr habove)).trans (if_pos hclean))
  case stretched =>
    have hsag := fun k => Dev.sagTo_sag d die level k _ (if_pos hfull).symm
    rw [hsag die, hsag (1 - die), Dev.sag_setSag_same, Dev.sag_setSag_other _ _ hdie]
    exact ⟨rfl, rfl, rfl, rfl⟩

end Sys2Proof.Machine
end

section
/-!
The punt and inject rings (spec/13_host_endpoint_and_cages.md, R308 to R317).
-/
namespace Sys2Proof.Machine

/-! ### Registers of a ring -/

theorem rState_addr (r : Nat) : 0x02300000 ≤ (rState r).addr := by
  unfold rState
  split
  · show 0x02300000 ≤ 0x0230100C + 32 * r
    omega
  · show 0x02300000 ≤ 0x0230180C + 32 * (r - 64)
    omega

theorem rState_inj (n : Nat) : rState (64 + n) = HST_INJ_STATE.STATE n := by
  rw [rState, if_neg (by omega), Nat.add_sub_cancel_left]

theorem rTail_inj (n : Nat) : rTail (64 + n) = HST_INJ_TAIL.COUNT n := by
  rw [rTail, if_neg (by omega), Nat.add_sub_cancel_left]

/-- A TAIL written leaves the ring's state. -/
theorem Dev.rd_rState_wr_rTail (d : Dev) (r tail : Nat) : (d.wr (rTail r) tail).rd (rState r) = d.rd (rState r) := by
  refine Dev.rd_wr_addr _ _ _ _ ?_
  unfold rState rTail
  split
  · show 0x0230100C + 32 * r ≠ 0x02301014 + 32 * r
    omega
  · show 0x0230180C + 32 * (r - 64) ≠ 0x02301814 + 32 * (r - 64)
    omega

/-! ### Hand-offs -/

/-- `e` has the host unit, the chains and the ring registers of `d`. -/
structure HostKept (d e : Dev) : Prop where
  hst : e.hst = d.hst
  chains : e.dpt.chains = d.dpt.chains
  rd : ∀ f : Field, 0x02300000 ≤ f.addr → e.rd f = d.rd f

theorem HostKept.trans {a b c : Dev} (h : HostKept a b) (k : HostKept b c) : HostKept a c :=
  ⟨k.hst.trans h.hst, k.chains.trans h.chains, fun f hf => (k.rd f hf).trans (h.rd f hf)⟩

theorem HostKept.refl (d : Dev) : HostKept d d := ⟨rfl, rfl, fun _ _ => rfl⟩

theorem HostKept.wr (d : Dev) (f : Field) (v : Nat) (h : f.addr < 0x02300000) : HostKept d (d.wr f v) :=
  ⟨rfl, rfl, fun g hg => Dev.rd_wr_addr _ _ _ _ (by omega)⟩

theorem HostKept.markFault (d : Dev) (tick : Nat) : HostKept d (d.markFault tick) := by
  have htck (e : Dev) (x : Tck) : HostKept e { e with tck := x } := ⟨rfl, rfl, fun _ _ => rfl⟩
  have hlo (e : Dev) (v : Nat) := HostKept.wr e TCK_EXP_TICK_LO.TICK v (by decide)
  have hhi (e : Dev) (v : Nat) := HostKept.wr e TCK_EXP_TICK_HI.TICK v (by decide)
  have hmask (e : Dev) (v : Nat) := HostKept.wr e TCK_EXP_TICK_HI.MASK v (by decide)
  exact (htck d _).trans ((hlo _ _).trans ((hhi _ _).trans (hmask _ _)))

theorem HostKept.payChain (d : Dev) (c holder : Nat) : HostKept d (d.payChain c holder) := by
  unfold Dev.payChain
  split
  case h_1 v _ =>
    split
    · exact HostKept.refl d
    · refine HostKept.trans ?_ (HostKept.wr _ DPT_FREE.COUNT _ (by decide))
      exact ⟨rfl, rfl, fun _ _ => rfl⟩
  case h_2 => exact HostKept.refl d

theorem HostKept.readChain (d : Dev) (port c lo n : Nat) (why : ReadFor) (t : Nat → Nat) :
    HostKept d (d.readChain port c lo n why t) := by
  unfold Dev.readChain
  split
  · exact HostKept.refl d
  · exact ⟨rfl, rfl, fun _ _ => rfl⟩

section
variable {d e : Dev} (h : HostKept d e)
include h

theorem HostKept.served (r : Nat) : e.served r = d.served r := by
  unfold Dev.served
  rw [h.hst, h.rd _ (rState_addr r)]

theorem HostKept.terr (c : Nat) : e.terr c = d.terr c := by
  unfold Dev.terr Dev.chain
  rw [h.chains]

end

/-- The punt's record, its credit and the copy of its carriages: what the hand-off does before the record waits or is dropped. -/
def Dev.puntGone (d : Dev) (p : Punt) : Dev :=
  let d := { d with hst := { d.hst with punts := d.hst.punts.erase p, nextPunt := d.hst.nextPunt + 1 } }
  let d := d.recPunt p.due (if p.egress then 64 + p.pipe else p.pipe) (mATICK p.m) (mASLOT p.m) p.ring p.bytes
  let d := if d.chainUe p.chain then d.markFault p.due else d
  d.payChain p.chain (0x0300 + p.ring)

/-- A due punt leaves the hand-offs. -/
def Dev.puntOut (d : Dev) (p : Punt) : Dev :=
  { d with hst := { d.hst with punts := d.hst.punts.erase p, nextPunt := d.hst.nextPunt + 1 } }

theorem HostKept.puntGone (d : Dev) (p : Punt) : HostKept (d.puntOut p) (d.puntGone p) := by
  have hrec (e : Dev) (tick unit atick aslot ring : Nat) (bs : List Byte) : HostKept e (e.recPunt tick unit atick aslot ring bs) :=
    ⟨rfl, rfl, fun _ _ => rfl⟩
  have hmark (e : Dev) : HostKept e (if e.chainUe p.chain then e.markFault p.due else e) := by
    split
    · exact HostKept.markFault _ _
    · exact HostKept.refl _
  exact (hrec _ _ _ _ _ _ _).trans ((hmark _).trans (HostKept.payChain _ _ _))

/-- The record of a punt that a hand-off makes. -/
def Dev.puntRec (d : Dev) (p : Punt) : PuntRec :=
  PuntRec.mk p.ring d.hst.nextPunt p.due p.egress p.m p.bytes p.chain false (d.terr p.chain)

/-- A hand-off of a due punt: once its carriages are asked for, the record waits or is dropped. -/
theorem Dev.puntHandoff_of_due {d : Dev} {p : Punt} (h : (d.hst.punts.find? fun p => tickReached p.due d.tck.now) = some p) :
    ∃ e, HostKept (d.puntOut p) e ∧ d.puntHandoff =
      if e.served p.ring ∧ (e.hst.recs.map PuntRec.cells).sum + (d.puntRec p).cells ≤ 8192 ∧
          (e.hst.recs.filter fun y => y.ring == p.ring).length < 256 then
        { e with hst := { e.hst with recs := e.hst.recs ++ [d.puntRec p] } }
      else e.bump (HST_PUNT_DROP.COUNT p.ring) := by
  have hgone := HostKept.puntGone d p
  have hterr : (d.puntGone p).terr p.chain = d.terr p.chain := hgone.terr _
  refine ⟨_, hgone.trans (HostKept.readChain _ p.pipe p.chain 0 (carriages p.bytes.length) (.punt p.ring d.hst.nextPunt)
    fun _ => 504 * p.due), ?_⟩
  rw [Dev.puntHandoff, h, Dev.puntRec, ← hterr]
  rfl

/-- The punt leaves the hand-offs, and its record joins the queue of a ring that is served and has room, or is dropped. -/
theorem Dev.puntHandoff_hst {d : Dev} {p : Punt} (h : (d.hst.punts.find? fun p => tickReached p.due d.tck.now) = some p) :
    (d.puntHandoff).hst.punts = d.hst.punts.erase p ∧
    (d.served p.ring = false → (d.puntHandoff).hst.recs = d.hst.recs) ∧
    (d.served p.ring = true → (d.hst.recs.map PuntRec.cells).sum + carriages p.bytes.length ≤ 8192 →
      (d.hst.recs.filter fun y => y.ring == p.ring).length < 256 → (d.puntHandoff).hst.recs = d.hst.recs ++ [d.puntRec p]) := by
  obtain ⟨e, hkept, hhand⟩ := Dev.puntHandoff_of_due h
  have hserved : e.served p.ring = d.served p.ring := hkept.served p.ring
  have hrecs : e.hst.recs = d.hst.recs := by rw [hkept.hst]; rfl
  have hpunts : e.hst.punts = d.hst.punts.erase p := by rw [hkept.hst]; rfl
  rw [hhand, hserved, hrecs]
  refine ⟨?_, fun hoff => ?_, fun hon hcells hroom => ?_⟩
  · split
    · exact hpunts
    · exact hpunts
  · rw [if_neg fun hwaits => Bool.eq_false_iff.mp hoff hwaits.1]
    exact hrecs
  · rw [if_pos ⟨hon, hcells, hroom⟩]

/-! ### Records written -/

theorem Dev.hostWrite_regs (d : Dev) (fn addr : Nat) (bs : List Byte) : (d.hostWrite fn addr bs).regs = d.regs :=
  List.foldlRecOn (motive := fun e : Dev => e.regs = d.regs) _ _ rfl fun _ he _ _ => he

theorem Dev.ringBase_of_regs {d e : Dev} (h : d.regs = e.regs) (r : Nat) : d.ringBase r = e.ringBase r := by
  unfold Dev.ringBase
  simp only [Dev.rd_of_regs h]

/-- A written record leaves its queue, is counted, and the ring fetches again. -/
def Dev.puntFiled (d : Dev) (r : Nat) (x : PuntRec) : Dev :=
  (({ d with hst := { d.hst with recs := d.hst.recs.erase x, wrote := r :: d.hst.wrote.filter (· != r) } }.bump
    (HST_PUNT_PUNT.COUNT r)).evt 0x26 0x20 (some r)).puntFetch r

/-- What the write of a record makes of the device, `n` bytes of the frame fitting into the buffer. -/
def Dev.puntWritten (d : Dev) (r addr tag : Nat) (x : PuntRec) (n : Nat) : Dev :=
  let trunc : Bool := n < x.bytes.length
  let head := d.rd (rHead r)
  let phase := d.rd (HST_PUNT_STATE.PHASE r)
  let wb := phase * 2 ^ 31 + b2n trunc * 2 ^ 30 + b2n x.terr * 2 ^ 29 + (128 + n)
  let a := (d.endRead tag).hostWrite 1 addr (d.puntRecord x trunc ++ x.bytes.take n)
  let e := (a.hostWrite 1 (a.ringBase r + 16 * (head % d.ringSize r) + 12) (beBytes 4 wb)).wr (rHead r) (head + 1)
  (if (head + 1) % d.ringSize r = 0 then e.wr (HST_PUNT_STATE.PHASE r) (1 - phase) else e).puntFiled r x

section
variable {d : Dev} {r addr ctl tag : Nat} {x : PuntRec} {h : HostRd} (hrec : d.hst.recs.find? (fun x => x.ring == r) = some x)
  (hread : d.hst.reads.find? (fun p => p.2.ring == r && !p.2.stale) = some (tag, h)) (hserved : d.served r = true)
  (hposted : d.posted r ≠ 0) (hdone : x.done = true)
include hrec hread hserved hposted hdone

/-- A complete record of a ring that is served goes by the descriptor that was fetched. -/
theorem Dev.puntWrite_of_bad (hbad : puntDescOk addr ctl = false) : d.puntWrite r addr ctl = (d.endRead tag).ringFail r 0x05 := by
  rw [Dev.puntWrite, hrec, hread]
  dsimp only
  rw [if_neg (by simp [hserved, hposted, hdone]), if_pos (by rw [hbad]; rfl)]

/-- A record that fits, with HEAD not coming around. -/
theorem Dev.puntWrite_of_good (hgood : puntDescOk addr ctl = true) (hfits : x.bytes.length ≤ bits ctl 0 17 - 128)
    (hhead : (d.rd (rHead r) + 1) % d.ringSize r ≠ 0) :
    let wb := d.rd (HST_PUNT_STATE.PHASE r) * 2 ^ 31 + b2n x.terr * 2 ^ 29 + (128 + x.bytes.length)
    let a := (d.endRead tag).hostWrite 1 addr (d.puntRecord x false ++ x.bytes)
    let e := (a.hostWrite 1 (d.ringBase r + 16 * (d.rd (rHead r) % d.ringSize r) + 12) (beBytes 4 wb)).wr (rHead r) (d.rd (rHead r) + 1)
    d.puntWrite r addr ctl = e.puntFiled r x := by
  have hmin : min x.bytes.length (bits ctl 0 17 - 128) = x.bytes.length := Nat.min_eq_left hfits
  have hbase (bs : List Byte) : ((d.endRead tag).hostWrite 1 addr bs).ringBase r = d.ringBase r :=
    Dev.ringBase_of_regs (Dev.hostWrite_regs _ _ _ _) r
  intro wb a e
  have hwrite : d.puntWrite r addr ctl = d.puntWritten r addr tag x (min x.bytes.length (bits ctl 0 17 - 128)) := by
    rw [Dev.puntWrite, hrec, hread]
    exact (if_neg (by simp [hserved, hposted, hdone])).trans (if_neg (by rw [hgood]; decide))
  rw [hwrite, hmin, Dev.puntWritten, decide_eq_false (Nat.lt_irrefl x.bytes.length), List.take_length, hbase,
    show b2n false = 0 from rfl, Nat.zero_mul,
    Nat.add_zero (d.rd (HST_PUNT_STATE.PHASE r) * 2 ^ 31), if_neg hhead]

end

/-- The oldest record of a ring is dropped once it has outwaited PUNT_WAIT. -/
theorem Dev.puntExpire_of_record {d : Dev} {r : Nat} {x : PuntRec} (h : d.hst.recs.find? (fun x => x.ring == r) = some x) :
    d.puntExpire r = if d.rd HST_CTRL.PUNT_WAIT < tickSub d.tck.now x.tick then
      ({ d with hst := { d.hst with recs := d.hst.recs.erase x } } : Dev).bump (HST_PUNT_DROP.COUNT r) else d := by
  rw [Dev.puntExpire, h]

/-! ### Doorbells -/

theorem Dev.doorbell_of_stopped {d : Dev} {r : Nat} (tail : Nat) (h : d.rd (rState r) ≠ ringRun) : d.doorbell r tail = d.wr (rTail r) tail :=
  if_pos (by rwa [Dev.rd_rState_wr_rTail])

theorem Dev.doorbell_of_running {d : Dev} {r : Nat} (tail : Nat) (h : d.rd (rState r) = ringRun) :
    let e := d.wr (rTail r) tail
    d.doorbell r tail = if e.ringSize r < e.posted r then e.ringFail r 0x06 else if r < 64 then e.puntFetch r else e.injFetchAll :=
  if_neg (by rw [Dev.rd_rState_wr_rTail]; exact not_not.mpr h)

/-! ### Descriptors and frames of inject rings -/

/-- What a ring that is served makes of the descriptor that was fetched, `l` being its descriptors on their way. -/
def Dev.injTaken (d : Dev) (n : Nat) (l : List InjStage) (replay : Bool) : Option InjDesc → Dev
  | none => d.ringFail (64 + n) 0x05
  | some y =>
    let place := y.tick * 32768 + y.pipe * 512 + y.slot
    let behind : Bool := match SMap.find d.hst.order n with
      | some p => !placeAfter place p
      | none => false
    if replay ∧ behind then d.ringFail (64 + n) 0x05
    else
      ((if replay then { d with hst := { d.hst with order := SMap.ins d.hst.order n place } } else d).setInj n
        (replaceFirst (· = .fetch) (some (.wait y)) l)).injFetchAll

/-- A normal ring's good descriptor waits in its place. -/
theorem Dev.injTaken_of_normal (d : Dev) (n : Nat) (l : List InjStage) (y : InjDesc) :
    d.injTaken n l false (some y) = (d.setInj n (replaceFirst (· = .fetch) (some (.wait y)) l)).injFetchAll := by
  simp only [Dev.injTaken, Bool.false_eq_true, false_and, if_false]

/-- A replay ring's first one waits and sets the place that the next must come after. -/
theorem Dev.injTaken_of_first (d : Dev) (n : Nat) (l : List InjStage) (y : InjDesc) (h : SMap.find d.hst.order n = none) :
    d.injTaken n l true (some y) =
      (Dev.setInj { d with hst := { d.hst with order := SMap.ins d.hst.order n (y.tick * 32768 + y.pipe * 512 + y.slot) } } n
        (replaceFirst (· = .fetch) (some (.wait y)) l)).injFetchAll := by
  unfold Dev.injTaken
  rw [h]
  exact if_neg fun hbehind => Bool.false_ne_true hbehind.2

section
variable {d : Dev} {tag n : Nat} {bs : List Byte} {h : HostRd} (hread : SMap.find d.hst.reads tag = some h) (hfresh : h.stale = false)
include hread hfresh

/-- A descriptor of an inject ring, by whether the ring is served. -/
theorem Dev.injDescriptor_of_read (hdesc : h.frame = false) (hring : h.ring = 64 + n) :
    d.injDescriptor tag bs =
      if !(d.endRead tag).injServed n then (d.endRead tag).setInj n (replaceFirst (· = .fetch) none (SMap.get [] d.hst.inj n))
      else (d.endRead tag).injTaken n (SMap.get [] d.hst.inj n) ((d.endRead tag).on (HST_INJ_CFG.REPLAY n))
        (if (d.endRead tag).on (HST_INJ_CFG.REPLAY n) then replayParse bs else injParse bs) := by
  rw [Dev.injDescriptor, hread]
  dsimp only
  rw [if_neg (Bool.eq_false_iff.mp hfresh), hdesc, hring, Nat.add_sub_cancel_left, if_neg (by simp)]
  rfl

theorem Dev.injFrame_of_read (hframe : h.frame = true) (hring : h.ring = 64 + n) :
    d.injFrame tag bs = ((d.endRead tag).setInj n ((SMap.get [] d.hst.inj n).map (fillStage tag d.tck.now bs))).injFetchAll := by
  rw [Dev.injFrame, hread]
  dsimp only
  rw [if_neg (Bool.eq_false_iff.mp hfresh), hframe, hring, Nat.add_sub_cancel_left]
  rfl

end

theorem Dev.injDescriptor_of_none {d : Dev} {tag : Nat} (bs : List Byte) (h : SMap.find d.hst.reads tag = none) :
    d.injDescriptor tag bs = (d.bump HST_UNEXP_CPL.COUNT).emit (.aer 2) := by
  rw [Dev.injDescriptor, h]
  rfl

theorem Dev.injFrame_of_none {d : Dev} {tag : Nat} (bs : List Byte) (h : SMap.find d.hst.reads tag = none) :
    d.injFrame tag bs = (d.bump HST_UNEXP_CPL.COUNT).emit (.aer 2) := by
  rw [Dev.injFrame, h]
  rfl

section
variable {d : Dev} {tag : Nat} {x : HostRd} (hread : SMap.find d.hst.reads tag = some x) (hstale : x.stale = true)
include hread hstale

theorem Dev.injDescriptor_of_stale (bs : List Byte) : d.injDescriptor tag bs = d.endRead tag := by
  rw [Dev.injDescriptor, hread]
  exact if_pos hstale

theorem Dev.injFrame_of_stale (bs : List Byte) : d.injFrame tag bs = d.endRead tag := by
  rw [Dev.injFrame, hread]
  exact if_pos hstale

end

/-- A frame read in one part is staged by its bytes. -/
theorem fillStage_single (x : InjDesc) (tag now n : Nat) (bs : List Byte) (h : x.prefix_ = false) :
    fillStage tag now bs (.read x [InjPart.mk 0 n (some tag) none]) = .staged x (fitBytes bs n) now := by
  simp [fillStage, h, b2n]

/-! ### The CFG register -/

/-- An arm sets bit 1 of what is written, and nothing else of it counts for the other fields. -/
theorem bits_or_two (v : Nat) {low width : Nat} (h : 2 ≤ low ∨ low + width ≤ 1) : bits (v ||| 2) low width = bits v low width := by
  unfold bits
  rw [Nat.shiftRight_or_distrib]
  rcases h with h | h
  · have hgone : 2 >>> low = 0 := by
      rw [Nat.shiftRight_eq_div_pow]
      exact Nat.div_eq_of_lt (lt_of_lt_of_le (by decide) (Nat.pow_le_pow_right (by decide) h))
    rw [hgone, Nat.or_zero]
  · rw [Nat.or_mod_two_pow]
    have hgone : 2 >>> low % 2 ^ width = 0 := by
      have hcases : width = 0 ∨ low = 0 ∧ width = 1 := by omega
      rcases hcases with rfl | ⟨rfl, rfl⟩
      · exact Nat.mod_one _
      · rfl
    rw [hgone, Nat.or_zero]

theorem bit_one_or_two (v : Nat) : bit (v ||| 2) 1 = true := by
  have hone : (v >>> 1 ||| 1) % 2 = 1 := by
    rw [show (2 : Nat) = 2 ^ 1 from rfl, Nat.or_mod_two_pow]
    have h := Nat.mod_two_eq_zero_or_one (v >>> 1)
    rcases h with h | h <;> simp [h]
  unfold bit bits
  rw [Nat.shiftRight_or_distrib]
  exact decide_eq_true hone

/-- A disable clears the two low bits of what is written. -/
theorem bits_div_four (v : Nat) {low width : Nat} (h : 2 ≤ low) : bits (v / 4 * 4) low width = bits v low width := by
  obtain ⟨k, rfl⟩ := Nat.exists_eq_add_of_le h
  unfold bits
  rw [Nat.shiftRight_add, Nat.shiftRight_add, show (v / 4 * 4) >>> 2 = v >>> 2 by simp [Nat.shiftRight_eq_div_pow]]

theorem bits_div_four_low (v : Nat) : bits (v / 4 * 4) 0 1 = 0 ∧ bit (v / 4 * 4) 0 = false ∧ bit (v / 4 * 4) 1 = false := by
  have hlow : v / 4 * 4 % 2 = 0 := by omega
  have hnext : (v / 4 * 4) >>> 1 % 2 = 0 := by
    rw [Nat.shiftRight_eq_div_pow]
    omega
  refine ⟨hlow, decide_eq_false ?_, decide_eq_false ?_⟩
  · exact fun h => by cases hlow.symm.trans h
  · exact fun h => by cases hnext.symm.trans h

/-- The CFG fields of a ring take a value. -/
def Dev.cfgTaken (d : Dev) (r en v : Nat) : Dev :=
  let e := d.wrs [(rEn r, en), (rLog2 r, bits v 2 4), (rVec r, bits v 16 10), (rIrqEn r, bits v 26 1)]
  if r < 64 then e else e.wr (HST_INJ_CFG.REPLAY (r - 64)) (bits v 6 1)

theorem Dev.ringCfg_arm (d : Dev) (r v : Nat) : d.ringCfg r (v ||| 2) = (d.cfgTaken r (bits v 0 1) v).ringArm r := by
  unfold Dev.ringCfg
  rw [bits_or_two v (low := 0) (.inr (by decide)), bits_or_two v (low := 2) (.inl (by decide)), bits_or_two v (low := 16) (.inl (by decide)),
    bits_or_two v (low := 26) (.inl (by decide)), bits_or_two v (low := 6) (.inl (by decide)), bit_one_or_two]
  rfl

theorem Dev.ringCfg_disable (d : Dev) (r v : Nat) : d.ringCfg r (v / 4 * 4) = (d.cfgTaken r 0 v).ringDisable r := by
  obtain ⟨hen, hzero, hone⟩ := bits_div_four_low v
  unfold Dev.ringCfg
  rw [hen, bits_div_four v (low := 2) (by decide), bits_div_four v (low := 16) (by decide), bits_div_four v (low := 26) (by decide),
    bits_div_four v (low := 6) (by decide), hzero, hone]
  rfl

/-! ### The obligation -/

/-- Settles O32: a ring by its state, and a descriptor by the read that its tag names. -/
theorem puntAndInjectRings : Obligations.PuntAndInjectRings := by
  refine ⟨fun s hready hnone => ?noPunt, fun s p hready hdue => ?handoff, fun s r addr ctl hready hr hnone => ?noRecord,
    fun s r addr ctl tag x h hready hr hrec hread hserved hposted hdone hbad => ?badBuffer,
    fun s r addr ctl tag x h hready hr hrec hread hserved hposted hdone hgood hfits hhead => ?written,
    fun s r x hready hr hrec => ?expire, fun s r tail hopen hr htail => ?puntBell, fun s n tail hopen hn htail => ?injBell,
    fun s tag bs hready htag hnone => ?unexpected, fun s tag bs h hready htag hread hstale => ?discarded,
    fun s tag n bs h hready htag hlen hread hfresh hdesc hring => ?descriptor,
    fun s tag n bs h hready htag hread hfresh hframe hring => ?frame, fun x tag now n bs hprefix => fillStage_single x tag now n bs hprefix,
    fun s r v hopen hr hv => ?cfg, fun s r hready hr hwait => ?armWaits, fun s r hready hr harming hidle => ?armed, fun d r => ?arming⟩
  case noPunt => exact hready.does rfl rfl (by rw [Dev.puntHandoff, hnone]) rfl
  case handoff => exact ⟨hready.runs rfl rfl rfl, Dev.puntHandoff_hst hdue⟩
  case noRecord => exact hready.does rfl (decide_eq_true hr) (by rw [Dev.puntWrite, hnone]) rfl
  case badBuffer =>
    exact hready.runs rfl (decide_eq_true hr) (Dev.puntWrite_of_bad hrec hread hserved hposted hdone hbad)
  case written =>
    have hwrite := Dev.puntWrite_of_good hrec hread hserved hposted hdone hgood hfits hhead
    exact hready.runs rfl (decide_eq_true hr) hwrite
  case expire =>
    have hexpire := Dev.puntExpire_of_record hrec
    refine ⟨fun hold => ?_, fun hyoung => ?_⟩
    · exact hready.does rfl (decide_eq_true hr) (hexpire.trans (if_pos hold)) (Dev.todo_wr _ _ _)
    · exact hready.does rfl (decide_eq_true hr) (hexpire.trans (if_neg (Nat.not_lt.mpr hyoung))) rfl
  case puntBell =>
    have hwf : decide (r < 64 ∧ tail < 65536) = true := decide_eq_true ⟨hr, htail⟩
    have hstate : rState r = HST_PUNT_STATE.STATE r := if_pos hr
    have htailField : rTail r = HST_PUNT_TAIL.COUNT r := if_pos hr
    rw [← hstate, ← htailField]
    refine ⟨fun hstopped => ?_, fun hrun => ?_⟩
    · exact hopen.does rfl hwf (Dev.doorbell_of_stopped tail hstopped) (Dev.todo_wr _ _ _)
    · have hbell := Dev.doorbell_of_running tail hrun
      refine ⟨fun hover => ?_, fun hfits => ?_⟩
      · exact hopen.runs rfl hwf (hbell.trans (if_pos hover))
      · exact hopen.runs rfl hwf (hbell.trans ((if_neg (Nat.not_lt.mpr hfits)).trans (if_pos hr)))
  case injBell =>
    have hwf : decide (n < 16 ∧ tail < 65536) = true := decide_eq_true ⟨hn, htail⟩
    rw [← rState_inj, ← rTail_inj]
    refine ⟨fun hstopped => ?_, fun hrun => ?_⟩
    · exact hopen.does rfl hwf (Dev.doorbell_of_stopped tail hstopped) (Dev.todo_wr _ _ _)
    · have hbell := Dev.doorbell_of_running tail hrun
      refine ⟨fun hover => ?_, fun hfits => ?_⟩
      · exact hopen.runs rfl hwf (hbell.trans (if_pos hover))
      · exact hopen.runs rfl hwf (hbell.trans ((if_neg (Nat.not_lt.mpr hfits)).trans (if_neg (by omega))))
  case unexpected =>
    exact ⟨fun hlen => hready.does rfl (decide_eq_true ⟨htag, hlen⟩) (Dev.injDescriptor_of_none bs hnone) (by simp [Dev.bump]),
      hready.does rfl (decide_eq_true htag) (Dev.injFrame_of_none bs hnone) (by simp [Dev.bump])⟩
  case discarded =>
    exact ⟨fun hlen => hready.does rfl (decide_eq_true ⟨htag, hlen⟩) (Dev.injDescriptor_of_stale hread hstale bs) rfl,
      hready.does rfl (decide_eq_true htag) (Dev.injFrame_of_stale hread hstale bs) rfl⟩
  case descriptor =>
    have hwf : decide (tag < 16384 ∧ bs.length = 32) = true := decide_eq_true ⟨htag, hlen⟩
    have heff := Dev.injDescriptor_of_read (bs := bs) hread hfresh hdesc hring
    intro d l
    refine ⟨fun hoff => ?_, fun hon hnormal hparse => ?_, fun y hon hnormal hparse => ?_, fun y hon hreplay hparse hfirst => ?_⟩
    · exact hready.does rfl hwf (heff.trans (if_pos (congrArg Bool.not hoff))) rfl
    all_goals have htaken := heff.trans (if_neg (Bool.eq_false_iff.mp (congrArg Bool.not hon)))
    · rw [show (s.dev.endRead tag).on (HST_INJ_CFG.REPLAY n) = false from hnormal, if_neg Bool.false_ne_true, hparse] at htaken
      exact hready.runs rfl hwf htaken
    · rw [show (s.dev.endRead tag).on (HST_INJ_CFG.REPLAY n) = false from hnormal, if_neg Bool.false_ne_true, hparse,
        Dev.injTaken_of_normal] at htaken
      exact hready.runs rfl hwf htaken
    · rw [show (s.dev.endRead tag).on (HST_INJ_CFG.REPLAY n) = true from hreplay, if_pos rfl, hparse,
        Dev.injTaken_of_first _ _ _ _ hfirst] at htaken
      exact hready.runs rfl hwf htaken
  case frame => exact hready.runs rfl (decide_eq_true htag) (Dev.injFrame_of_read hread hfresh hframe hring)
  case cfg =>
    have hwf : decide (r < 80 ∧ v < 4294967296) = true := decide_eq_true ⟨hr, hv⟩
    have harm := hopen.runs (c := .ringArm r v) rfl hwf (Dev.ringCfg_arm s.dev r v)
    have hdisable := hopen.runs (c := .ringDisable r v) rfl hwf (Dev.ringCfg_disable s.dev r v)
    refine ⟨fun hpunt => ?_, fun hinj => ?_⟩
    · rw [Dev.cfgTaken, if_pos hpunt] at harm hdisable
      exact ⟨harm, hdisable⟩
    · rw [Dev.cfgTaken, if_neg (Nat.not_lt.mpr hinj)] at harm hdisable
      exact ⟨harm, hdisable⟩
  case armWaits =>
    refine hready.does rfl (decide_eq_true hr) (if_pos ?_) rfl
    rcases hwait with h | h
    · rw [h]
      rfl
    · rw [h, Bool.or_true]
  case armed =>
    have hgo : ¬ (!s.dev.hst.arming.contains r || s.dev.hst.reads.any fun p => p.2.ring == r) = true := by
      rw [harming, hidle]
      decide
    refine ⟨fun hpunt => ?_, fun hinj => ?_⟩
    · exact hready.does rfl (decide_eq_true hr) ((if_neg hgo).trans (if_pos hpunt)) ((Dev.todo_wr _ _ _).trans (Dev.todo_wrs _ _))
    · exact hready.does rfl (decide_eq_true hr) ((if_neg hgo).trans (if_neg (Nat.not_lt.mpr hinj))) (Dev.todo_wrs _ _)
  case arming =>
    have hkeep : (d.ringDiscard r).hst.arming = d.hst.arming := by
      unfold Dev.ringDiscard Dev.dropRecs
      dsimp only
      split
      · rfl
      · rfl
    show r :: (d.ringDiscard r).hst.arming.filter (· != r) = _
    rw [hkeep]

end Sys2Proof.Machine
end

section
/-!
The host endpoint (spec/13_host_endpoint_and_cages.md, R305 to R307, R318, R319, R322, R323; R352).
-/
namespace Sys2Proof.Machine

/-- A read of the host that the device acts on, and whose effect may log a fault. -/
theorem State.Open.runsGet {s : State} {c : Instr} {a : Nat} {f : Dev → Dev} {e : Dev} (h : s.Open)
    (hexec : exec c s = s.act c fun d => d.hostGet a f) (hwf : Instr.wf c = true) (heff : f s.dev = e) : s.Runs c e :=
  heff ▸ State.runs_hostGet h hexec hwf

@[simp] theorem Dev.setFunc_flt (d : Dev) (fn : Nat) (f : Func) : (d.setFunc fn f).flt = d.flt := by
  unfold Dev.setFunc
  split <;> rfl

/-! ### Completions and timeouts -/

theorem Dev.hostCompletion_of_none {d : Dev} {tag : Nat} (st : Nat) (h : SMap.find d.hst.reads tag = none) :
    d.hostCompletion tag st = (d.bump HST_UNEXP_CPL.COUNT).emit (.aer 2) := by
  rw [Dev.hostCompletion, h]
  rfl

section
variable {d : Dev} {tag : Nat} {x : HostRd} (h : SMap.find d.hst.reads tag = some x)
include h

/-- A completion of an outstanding read, by whether the read was discarded and the status good. -/
theorem Dev.hostCompletion_of_read (st : Nat) :
    d.hostCompletion tag st = if x.stale then d.endRead tag else if st = 0 then d else (d.endRead tag).ringFail x.ring (st + 1) := by
  rw [Dev.hostCompletion, h]

theorem Dev.hostTimeout_of_early (hearly : tickSub d.tck.now x.tick < usTicks (timeoutUs d.hst.pf1.timeout)) : d.hostTimeout tag = d := by
  rw [Dev.hostTimeout, h]
  exact if_pos hearly

theorem Dev.hostTimeout_of_late (hlate : usTicks (timeoutUs d.hst.pf1.timeout) ≤ tickSub d.tck.now x.tick) :
    let e := ((d.endRead tag).bump HST_CPL_TO.COUNT).emit (.aer 1)
    let back := tickAdd d.tck.now (usTicks (max (2 * timeoutUs d.hst.pf1.timeout) 1000000))
    d.hostTimeout tag = Dev.ringFail { e with hst := { e.hst with withheld := e.hst.withheld ++ [(tag, back)] } } x.ring 0x01 := by
  rw [Dev.hostTimeout, h]
  exact if_neg (Nat.not_lt.mpr hlate)

end

/-! ### The memory windows -/

theorem Dev.winRead_of_closed {d : Dev} {off a : Nat} {w : Bool} (len : Nat) (h : d.bar2Window off = (a, false, w)) :
    d.winRead off len = d.emit (.cpl 1 []) := by
  unfold Dev.winRead
  rw [h]
  exact if_pos rfl

theorem Dev.winRead_of_up {d : Dev} {off a p : Nat} {w : Bool} (len : Nat) (h : d.bar2Window off = (a, true, w))
    (hport : d.cxlPort a = some p) (hup : d.cxlUp p = true) :
    let rd : CxlRd := { port := p, addr := a, len, tick := d.tck.now, who := 0 }
    d.winRead off len = Dev.cxlIssue { d with cxl := { d.cxl with reads := d.cxl.reads ++ [rd] } } p a len := by
  unfold Dev.winRead
  rw [h]
  dsimp only
  rw [hport]
  exact (if_neg (by decide)).trans (if_pos hup)

theorem Dev.winWrite_of_closed {d : Dev} {off a : Nat} {r w : Bool} (bs : List Byte) (h : d.bar2Window off = (a, r, w))
    (hclosed : (r && w) = false) : d.winWrite off bs = (d.bump HST_WIN_DROP.COUNT).emit (.aer 0) := by
  unfold Dev.winWrite
  rw [h]
  exact if_pos (congrArg Bool.not hclosed)

theorem Dev.winWrite_of_up {d : Dev} {off a p : Nat} {r w : Bool} (bs : List Byte) (h : d.bar2Window off = (a, r, w))
    (hopen : (r && w) = true) (hport : d.cxlPort a = some p) (hup : d.cxlUp p = true) :
    d.winWrite off bs = d.emit (.cxlWrite p a bs) := by
  unfold Dev.winWrite
  rw [h]
  dsimp only
  rw [hopen, hport]
  exact (if_neg (by decide)).trans (if_pos hup)

/-! ### Resets of the functions and the link -/

theorem Dev.setReg_foldl_hst {α : Type} (l : List α) (f : α → Nat) (d : Dev) :
    (l.foldl (fun (d : Dev) k => d.setReg (f k) 0) d).hst = d.hst :=
  List.foldlRecOn (motive := fun e : Dev => e.hst = d.hst) _ _ rfl fun _ he _ _ => he

theorem Dev.ringDiscard_perst (d : Dev) (r : Nat) : (d.ringDiscard r).hst.perst = d.hst.perst := by
  unfold Dev.ringDiscard Dev.dropRecs
  dsimp only
  split <;> rfl

theorem Dev.foldl_ringDisabled_perst (d : Dev) (l : List Nat) :
    (l.foldl (fun (d : Dev) r => (d.ringDiscard r).wr (rState r) ringDisabled) d).hst.perst = d.hst.perst :=
  List.foldlRecOn (motive := fun e : Dev => e.hst.perst = d.hst.perst) l _ rfl fun e he r _ => (Dev.ringDiscard_perst e r).trans he

theorem Dev.flr1_perst (d : Dev) : d.flr1.hst.perst = d.hst.perst := by
  rw [Dev.flr1, Dev.wr_hst]
  exact Dev.foldl_ringDisabled_perst d _

theorem Dev.flr0_perst (d : Dev) : d.flr0.hst.perst = d.hst.perst := by
  unfold Dev.flr0
  rw [Dev.wr_hst]
  refine List.foldlRecOn (motive := fun e : Dev => e.hst.perst = d.hst.perst) (List.range 14) _ ?_ fun e he n _ => ?_
  · exact congrArg Hst.perst (Dev.setReg_foldl_hst _ _ d)
  · exact (congrArg Hst.perst (Dev.setReg_foldl_hst _ (fun a => a) e)).trans he

theorem Dev.flr_shown (d : Dev) : (d.wr HST_STATUS.FLR 1).on HST_STATUS.FLR = true := by
  unfold Dev.on
  rw [Dev.rd_wr_same _ _ _ (by decide)]
  rfl

theorem Dev.linkDown_linkUp (d : Dev) : d.linkDown.rd HST_STATUS.LINK_UP = 0 := by
  have hkeep (e : Dev) (f : Field) (h : HST_STATUS.LINK_UP.low + 1 ≤ f.low) (haddr : f.addr = HST_STATUS.addr) (hw : f.low + f.width ≤ 32) :
      (e.wr f 0).rd HST_STATUS.LINK_UP = e.rd HST_STATUS.LINK_UP := Dev.rd_wr_of_apartB e f _ 0 hw (by simp [Field.apartB, h])
  show ((((d.wr HST_STATUS.LINK_UP 0).wr HST_STATUS.SPEED 0).wr HST_STATUS.WIDTH 0).wr HST_STATUS.FLIT 0).rd HST_STATUS.LINK_UP = 0
  rw [hkeep _ HST_STATUS.FLIT (by decide) rfl (by decide), hkeep _ HST_STATUS.WIDTH (by decide) rfl (by decide),
    hkeep _ HST_STATUS.SPEED (by decide) rfl (by decide), Dev.rd_wr_same _ _ _ (by decide)]
  rfl

theorem Dev.hostReset_down (d : Dev) (perst : Bool) : (d.hostReset perst).on HST_STATUS.LINK_UP = false := by
  have hregs : (d.hostReset perst).regs = d.flr0.flr1.linkDown.regs := by rw [Dev.hostReset]
  rw [Dev.on, Dev.rd_of_regs hregs, Dev.linkDown_linkUp]
  rfl

theorem Dev.hostReset_perst (d : Dev) (perst : Bool) : (d.hostReset perst).hst.perst = (d.hst.perst || perst) := by
  have hkeep : d.flr0.flr1.linkDown.hst.perst = d.hst.perst := by
    rw [Dev.linkDown, Dev.wrs_hst, Dev.flr1_perst, Dev.flr0_perst]
  rw [← hkeep]
  rfl

/-- A link that has trained shows itself; with no recovery of its source awaited, that is all. -/
theorem Dev.pcieUp_of_none (d : Dev) (speed width : Nat) (flit : Bool) (h : d.flt.recov = []) :
    d.pcieUp speed width flit = d.pcieTrained speed width flit := by
  have hflt : (d.pcieTrained speed width flit).flt = d.flt := by
    unfold Dev.pcieTrained
    split
    · rfl
    · exact Dev.wrs_flt _ _
  unfold Dev.pcieUp
  dsimp only
  rw [Dev.recovered_of_none _ _ (by rw [hflt, h]), ite_self]

/-! ### Configuration requests -/

theorem Dev.configReq_of_unbooted {d : Dev} (q : CfgReq) (hready : d.on GLB_BOOT_STATUS.READY = false)
    (herr : d.on GLB_BOOT_STATUS.BOOT_ERR = false) : d.configReq q = d.emit (.cpl 4 []) :=
  if_pos (by rw [Dev.booted, hready, herr]; rfl)

theorem Dev.booted_of_ready {d : Dev} (h : d.on GLB_BOOT_STATUS.READY = true) : ¬ (!d.booted) = true := by
  rw [Dev.booted, h, Bool.true_or]
  decide

/-- Settles O33: a completion by the read that its tag names, a window by whether it is in force, and the resets of the functions. -/
theorem hostEndpoint : Obligations.HostEndpoint := by
  refine ⟨fun s hready hoff => ?clear, fun s hready hon => ?masterOff, fun s tag st hready hnone htag => ?noRead,
    fun s tag st h hready htag hread => ?completion, fun s tag hready htag => ?tagBack, fun s off len a w hopen hoff hlen hfits => ?winRead,
    fun s off a r w bs hopen hoff hlen hfits hwin => ?winWrite, fun s hopen => ?commit, fun s hready => ?flr,
    fun s perst hdead => ?reset, fun s hready hdown => ?alreadyDown, fun s hready hup => ?linkLoss,
    fun s q hready hnot herr hfn => ?unbooted, fun s fn v what hready hfn hbooted => ?config, fun s hdead htodo => ?perstOff,
    fun s speed width flit hready hspeed hwidth hrecov => ?trained⟩
  case clear => exact hready.does rfl rfl (if_neg (Bool.eq_false_iff.mp hoff)) rfl
  case masterOff => exact hready.runs rfl rfl (if_pos hon)
  case noRead =>
    refine ⟨hready.does rfl (decide_eq_true htag) (Dev.hostCompletion_of_none st hnone) (by simp [Dev.bump]),
      hready.does rfl (decide_eq_true htag) ?_ rfl⟩
    rw [Dev.hostTimeout, hnone]
  case completion =>
    have hcpl := fun st => Dev.hostCompletion_of_read (d := s.dev) hread st
    intro d e us back
    refine ⟨fun hstale => ?_, fun hfresh hbad => ?_, fun hfresh => ?_, fun hearly => ?_, fun hlate => ?_⟩
    · exact hready.does rfl (decide_eq_true htag) ((hcpl st).trans (if_pos hstale)) rfl
    · exact hready.runs rfl (decide_eq_true htag) ((hcpl st).trans ((if_neg (Bool.eq_false_iff.mp hfresh)).trans (if_neg hbad)))
    · exact hready.does rfl (decide_eq_true htag) ((hcpl 0).trans ((if_neg (Bool.eq_false_iff.mp hfresh)).trans (if_pos rfl))) rfl
    · exact hready.does rfl (decide_eq_true htag) (Dev.hostTimeout_of_early hread hearly) rfl
    · have htimeout := Dev.hostTimeout_of_late hread hlate
      exact hready.runs rfl (decide_eq_true htag) htimeout
  case tagBack => exact hready.runs rfl (decide_eq_true htag) rfl
  case winRead =>
    have hwf : decide (off < 14680064 ∧ 1 ≤ len ∧ off % 4096 + len ≤ 4096) = true := decide_eq_true ⟨hoff, hlen, hfits⟩
    refine ⟨fun hclosed => ?_, fun p hwin hport hup => ?_⟩
    · exact hopen.doesGet rfl hwf (Dev.winRead_of_closed len hclosed) rfl
    · have hread := Dev.winRead_of_up len hwin hport hup
      exact hopen.runsGet rfl hwf hread
  case winWrite =>
    have hwf : decide (off < 14680064 ∧ 1 ≤ bs.length ∧ off % 4096 + bs.length ≤ 4096) = true := decide_eq_true ⟨hoff, hlen, hfits⟩
    refine ⟨fun hclosed => ?_, fun p hlet hport hup => ?_⟩
    · exact hopen.does rfl hwf (Dev.winWrite_of_closed bs hwin hclosed) (by simp [Dev.bump])
    · exact hopen.does rfl hwf (Dev.winWrite_of_up bs hwin hlet hport hup) rfl
  case commit => exact hopen.does rfl rfl rfl (Dev.todo_wr _ _ _)
  case flr =>
    exact ⟨hready.runs rfl rfl rfl, hready.runs rfl rfl rfl, Dev.flr_shown _, rfl, Dev.flr_shown _, rfl, rfl⟩
  case reset => exact ⟨State.runs_of_alive hdead rfl rfl rfl, Dev.hostReset_down _ _, Dev.hostReset_perst _ _⟩
  case alreadyDown => exact hready.does rfl rfl (if_pos (Bool.eq_false_iff.mp hdown)) rfl
  case linkLoss => exact hready.runs rfl rfl (if_neg (not_not.mpr hup))
  case unbooted => exact hready.does rfl (decide_eq_true hfn) (Dev.configReq_of_unbooted q hnot herr) rfl
  case config =>
    have hgo := Dev.booted_of_ready hbooted
    refine ⟨hready.does rfl (decide_eq_true hfn) (if_neg hgo) rfl, hready.does rfl (decide_eq_true hfn) (if_neg hgo) ?_,
      hready.does rfl (decide_eq_true hfn) (if_neg hgo) ?_⟩
    · exact congrArg Flt.todo (Dev.setFunc_flt _ _ _)
    · exact congrArg Flt.todo (Dev.setFunc_flt _ _ _)
  case perstOff => exact State.does_of_alive hdead htodo rfl rfl rfl rfl
  case trained =>
    have hup := Dev.pcieUp_of_none s.dev speed width flit hrecov
    have hwf : decide (speed < 16 ∧ width < 16) = true := decide_eq_true ⟨hspeed, hwidth⟩
    refine ⟨fun hidle => ?_, fun htraining => ?_⟩
    · exact hready.does rfl hwf (hup.trans (if_pos (congrArg Bool.not hidle))) rfl
    · exact hready.does rfl hwf (hup.trans (if_neg (Bool.eq_false_iff.mp (congrArg Bool.not htraining)))) (Dev.todo_wrs _ _)

end Sys2Proof.Machine
end

section
/-!
Cage sideband frames and slot control (spec/13_host_endpoint_and_cages.md, R324 to R327), and the host's accesses to registers (R3, R4, R305,
R309, R353, R455).
-/
namespace Sys2Proof.Machine

/-! ### Cages -/

/-- A write of a cage's control register, with no power fault latched. -/
theorem Dev.slotControl_of_unlatched {d : Dev} {c : Nat} (v : Nat) (h : d.on (CGE_SLOT_STS.PFLT c) = false) :
    d.slotControl c v =
      let e := d.wrs [(CGE_SLOT_CTL.ABP_EN c, bits v 0 1), (CGE_SLOT_CTL.PFD_EN c, bits v 1 1), (CGE_SLOT_CTL.PDC_EN c, bits v 2 1),
        (CGE_SLOT_CTL.MIC_EN c, bits v 3 1), (CGE_SLOT_CTL.CC_EN c, bits v 4 1), (CGE_SLOT_CTL.AIC c, bits v 6 2),
        (CGE_SLOT_CTL.PIC c, bits v 8 2), (CGE_SLOT_CTL.PCC c, bits v 10 1), (CGE_SLOT_CTL.RESET c, bits v 11 1),
        (CGE_SLOT_CTL.LPMODE c, bits v 12 1)]
      e.setCage c { e.cage c with cc := (e.cage c).cc ||| 1 } := by
  rw [Dev.slotControl, if_neg (Bool.eq_false_iff.mp h)]

@[simp] theorem Dev.setCage_flt (d : Dev) (c : Nat) (x : Cage) : (d.setCage c x).flt = d.flt := rfl

/-! ### Accesses -/

theorem Dev.oddAccess_of_odd {d : Dev} {kind a len : Nat} (hheld : d.held = false) (hkind : kind ≠ 2) (hodd : a % 4 ≠ 0 ∨ len ≠ 4) :
    d.oddAccess kind a len = d.badAccess (kind == 1) :=
  (if_neg (Bool.eq_false_iff.mp hheld)).trans ((if_neg hkind).trans (if_neg fun h => hodd.elim (fun k => k h.1) fun k => k h.2))

theorem Dev.badAccess_todo (d : Dev) (write : Bool) : (d.badAccess write).flt.todo = d.flt.todo := by
  simp [Dev.badAccess, Dev.bump]

theorem Dev.unmapped_of_beyond {d : Dev} {a : Nat} (write : Bool) (hheld : d.held = false) (hword : a % 4 = 0) (hbeyond : 0x3200000 ≤ a) :
    d.unmapped 0 write a = d.badAccess write := by
  unfold Dev.unmapped
  rw [if_neg (by simp [hheld, hword]), if_neg (by decide), if_pos (.inl hbeyond)]

section
variable {d : Dev} {a : Nat} (hheld : d.held = false) (hbar : d.barred a = false) (hinside : a < 0x2380000) (hword : a % 4 = 0)
include hheld hbar hinside hword

theorem Dev.unmapped_of_write : d.unmapped 0 true a = d := by
  unfold Dev.unmapped
  rw [if_neg (by simp [hheld, hword]), if_neg (by decide), if_neg (by simp [hbar]; omega), if_pos rfl]

theorem Dev.unmapped_of_read : d.unmapped 0 false a = (d.emit (.cpl 0 (leBytes 4 (d.regRead a)))).readEffect a := by
  have hread : d.pf0Read a = d.regRead a := (if_neg (by omega)).trans (if_neg (by omega))
  unfold Dev.unmapped
  rw [if_neg (by simp [hheld, hword]), if_neg (by decide), if_neg (by simp [hbar]; omega), if_neg Bool.false_ne_true, hread]

end

/-- What a read also does, it does at registers that Table 21.2 lists. -/
theorem Dev.readEffect_of_unlisted (d : Dev) {a : Nat} (h : regRow a = none) : d.readEffect a = d := by
  have hne (b : Nat) (hb : (regRow b).isSome = true) : a ≠ b := by
    rintro rfl
    rw [h] at hb
    cases hb
  exact (if_neg (hne _ (by decide +kernel))).trans ((if_neg (hne _ (by decide +kernel))).trans (if_neg (hne _ (by decide +kernel))))

/-- A read of a ring's doorbell page at offset 4. -/
theorem Dev.unmapped_of_doorbell {d : Dev} {n : Nat} (hheld : d.held = false) (hbar : d.barred 0x2300000 = false) (hn : n < 80) :
    d.unmapped 1 false (0x1000 * n + 4) = d.emit (.cpl 0 (leBytes 4 (d.rd (rHead n)))) := by
  have hpage : (0x1000 * n + 4) / 0x1000 = n := by omega
  have hread : d.pf1Read (0x1000 * n + 4) = d.rd (rHead n) := by
    rw [Dev.pf1Read, if_pos (by omega), Dev.doorbellRead, if_pos ⟨by omega, by omega⟩, hpage]
  unfold Dev.unmapped
  rw [if_neg (by simp [hheld]; omega), if_pos rfl, if_neg (by simp [hbar]; omega), if_neg Bool.false_ne_true, hread]

/-- A write of the host through BAR0 of PF0, in a device open to it. -/
theorem State.Open.access {s : State} (h : s.Open) (a v : Nat) :
    s.dev.access 0 a v = if a % 4 ≠ 0 ∨ 0x3200000 ≤ a then s.dev.badAccess true
      else if 0x2380000 ≤ a ∧ a < 0x2384000 then s.dev.msixWrite 0 ((a - 0x2380000) / 16) ((a - 0x2380000) / 4 % 4) (v % 2 ^ 32)
      else s.dev.regWrite 0x0001 a v := by
  rw [Dev.access, if_neg (by decide), if_neg (by decide), if_neg (by decide)]
  exact h.host a _

/-- Settles O34: the chains and the slot control by their tick, and an access by the block and the register that it reaches. -/
theorem cagesAndAccesses : Obligations.CagesAndAccesses := by
  refine ⟨fun s l hready => ?frame, fun s hready htick => ?offTick, fun s hready htick => ?applied, fun s c v hopen hc hv hpflt => ?slot,
    fun s a len hready hodd => ?odd, fun s a len hready => ?atomic, fun s a hready hbeyond ha hword => ?beyond,
    fun s a hopen ha hword hnone => ?unlisted, fun s a r hopen ha hword hrow => ?listed, fun s n hopen hn => ?doorbell,
    fun s a v hopen hbeyond ha hv => ?writeBeyond, fun s a v hopen ha hv hword => ?write⟩
  case frame => exact ⟨fun htick => hready.runs rfl rfl (if_pos htick), fun htick => hready.does rfl rfl (if_neg htick) rfl⟩
  case offTick => exact hready.does rfl rfl (if_pos htick) rfl
  case applied => exact hready.runs rfl rfl (if_neg (not_not.mpr htick))
  case slot =>
    exact hopen.does rfl (decide_eq_true ⟨hc, hv⟩) (Dev.slotControl_of_unlatched v hpflt) (Dev.todo_wrs _ _)
  case odd =>
    obtain ⟨hdead, hheld, htodo⟩ := hready
    exact ⟨State.does_of_alive hdead htodo rfl (decide_eq_true ⟨by decide, .inr hodd⟩) (Dev.oddAccess_of_odd hheld (by decide) hodd)
        (Dev.badAccess_todo _ true),
      State.does_of_alive hdead htodo rfl (decide_eq_true ⟨by decide, .inr hodd⟩) (Dev.oddAccess_of_odd hheld (by decide) hodd)
        (Dev.badAccess_todo _ false)⟩
  case atomic =>
    obtain ⟨hdead, hheld, htodo⟩ := hready
    have hwf : decide (2 < 3 ∧ (2 = 2 ∨ a % 4 ≠ 0 ∨ len ≠ 4)) = true := decide_eq_true ⟨by decide, .inl rfl⟩
    exact State.does_of_alive hdead htodo rfl hwf
      ((if_neg (Bool.eq_false_iff.mp hheld)).trans (if_pos rfl)) rfl
  case beyond =>
    obtain ⟨hdead, hheld, htodo⟩ := hready
    have hwf : decide (0 < 2 ∧ a < 67108864) = true := decide_eq_true ⟨by decide, ha⟩
    exact ⟨State.does_of_alive hdead htodo rfl hwf (Dev.unmapped_of_beyond true hheld hword hbeyond)
        (Dev.badAccess_todo _ true),
      State.does_of_alive hdead htodo rfl hwf (Dev.unmapped_of_beyond false hheld hword hbeyond)
        (Dev.badAccess_todo _ false)⟩
  case unlisted =>
    obtain ⟨hdead, hheld, htodo⟩ := hopen.1
    have hwf : decide (0 < 2 ∧ a < 67108864) = true := decide_eq_true ⟨by decide, by omega⟩
    have hread := Dev.unmapped_of_read hheld (hopen.barred a) ha hword
    have hzero : s.dev.regRead a = 0 := by rw [Dev.regRead, hnone]
    rw [Dev.readEffect_of_unlisted _ hnone, hzero] at hread
    exact ⟨State.does_of_alive hdead htodo rfl hwf (Dev.unmapped_of_write hheld (hopen.barred a) ha hword) rfl,
      State.runs_of_alive hdead rfl hwf hread⟩
  case listed =>
    obtain ⟨hdead, hheld, htodo⟩ := hopen.1
    have hwf : decide (0 < 2 ∧ a < 67108864) = true := decide_eq_true ⟨by decide, by omega⟩
    have hread := Dev.unmapped_of_read hheld (hopen.barred a) ha hword
    rw [Dev.regRead, hrow] at hread
    exact State.runs_of_alive hdead rfl hwf hread
  case doorbell =>
    obtain ⟨hdead, hheld, htodo⟩ := hopen.1
    exact State.does_of_alive hdead htodo rfl (decide_eq_true ⟨by decide, by omega⟩)
      (Dev.unmapped_of_doorbell hheld (hopen.barred _) hn) rfl
  case writeBeyond =>
    obtain ⟨hdead, hheld, htodo⟩ := hopen.1
    exact State.does_of_alive hdead htodo rfl (decide_eq_true ⟨by decide, ha, hv⟩) ((hopen.access a v).trans (if_pos (.inr hbeyond)))
      (Dev.badAccess_todo _ true)
  case write =>
    obtain ⟨hdead, hheld, htodo⟩ := hopen.1
    refine State.runs_of_alive hdead rfl (decide_eq_true ⟨by decide, by omega, hv⟩) ((hopen.access a v).trans ((if_neg ?_).trans (if_neg ?_)))
    · omega
    · omega

end Sys2Proof.Machine
end

section
/-!
The CXL ports (spec/14_cxl_memory_ports.md, R331, R335, R336, R338, R339).
-/
namespace Sys2Proof.Machine

/-! ### Training and states -/

/-- EN written leaves the state that the port will have. -/
theorem Dev.cxlNext_wr_en (d : Dev) (n v : Nat) : (d.wr (CXL_PORT_CTL.EN n) v).cxlNext n = d.cxlNext n := by
  unfold Dev.cxlNext
  rw [Dev.wr_cxl, Dev.rd_wr_addr _ _ _ _ (show 0x02400104 + 32 * n ≠ 0x02400100 + 32 * n by omega)]

theorem Dev.cxlRetrain_of_other {d : Dev} {n : Nat} {en : Bool} (h : en = false ∨ d.cxlNext n ≠ 0) :
    d.cxlRetrain n en = d.wr (CXL_PORT_CTL.EN n) (b2n en) := by
  refine if_neg fun hstart => ?_
  rw [Dev.cxlNext_wr_en] at hstart
  exact h.elim (fun hoff => Bool.false_ne_true (hoff.symm.trans hstart.1)) fun hbusy => hbusy hstart.2

theorem Dev.cxlRetrain_of_down {d : Dev} {n : Nat} (hnext : SMap.find d.cxl.next n = none) (hdown : d.rd (CXL_PORT_ST.STATE n) = 0) :
    d.cxlRetrain n true = { d.wr (CXL_PORT_CTL.EN n) 1 with cxl := { d.cxl with
      next := SMap.ins d.cxl.next n 1, since := SMap.ins d.cxl.since n d.tck.now } } := by
  have hidle : (d.wr (CXL_PORT_CTL.EN n) (b2n true)).cxlNext n = 0 := by
    rw [Dev.cxlNext_wr_en, Dev.cxlNext, hnext]
    exact hdown
  exact if_pos ⟨rfl, hidle⟩

@[simp] theorem Dev.cxlGo_flt (d : Dev) (n st : Nat) : (d.cxlGo n st).flt = d.flt := rfl

theorem Dev.cxlTrained_of_training {d : Dev} {n : Nat} (mem allowed flit : Bool) (speed width : Nat)
    (h : d.rd (CXL_PORT_ST.STATE n) = 1) :
    d.cxlTrained n mem allowed flit speed width = if !allowed then d.cxlLose n 0x0A else if mem then
      (d.wrs [(CXL_PORT_ST.FLIT n, b2n flit), (CXL_PORT_ST.SPEED n, speed), (CXL_PORT_ST.WIDTH n, width)]).cxlGo n 2 else d :=
  if_neg (not_not.mpr h)

/-! ### Losses -/

theorem Dev.cxlLose_of_up {d : Dev} {n : Nat} (event : Nat) (hup : d.rd (CXL_PORT_ST.STATE n) ≠ 0)
    (hlost : d.cxl.lost.any (fun p => p.1 == n) = false) :
    d.cxlLose n event = { d with cxl := { d.cxl with lost := d.cxl.lost ++ [(n, event)] } } :=
  if_neg fun h => h.elim hup fun hgone => Bool.false_ne_true (hlost.symm.trans hgone)

@[simp] theorem Dev.cxlLose_flt (d : Dev) (n event : Nat) : (d.cxlLose n event).flt = d.flt := by
  unfold Dev.cxlLose
  split <;> rfl

/-! ### Reads -/

theorem Dev.cxlReadDone_of_none {d : Dev} (n who : Nat) (poison err : Bool) (ns : Nat) (data : List Byte) (h : d.cxl.reads = []) :
    d.cxlReadDone n who poison err ns data = d := by
  unfold Dev.cxlReadDone Dev.winReturn
  rw [h, List.find?_nil, List.find?_nil]
  exact ite_self _

/-- A good read of a window answers its bytes and shows its latency. -/
theorem Dev.winReturn_of_good {d : Dev} {n : Nat} {r : CxlRd} (ns : Nat) (data : List Byte)
    (h : d.cxl.reads.find? (fun r => r.port = n && r.who = 0) = some r) :
    d.winReturn n false false ns data =
      (({ d with cxl := { d.cxl with reads := d.cxl.reads.erase r } } : Dev).wr (CXL_PORT_LAT.NS n)
        (max (d.rd (CXL_PORT_LAT.NS n)) (min ns 0xFFFF))).emit (winCpl false false (fitBytes data r.len)) := by
  rw [Dev.winReturn, h]
  rfl

theorem Dev.cxlTimedOut_of_none {d : Dev} {n : Nat} (hwalks : d.t2Outstanding n = []) (hreads : d.cxl.reads = []) : d.cxlTimedOut n = d := by
  refine if_neg ?_
  rw [hwalks, hreads]
  exact Bool.false_ne_true

/-- A read outstanding for CXL_TIMEOUT ticks loses its port. -/
theorem Dev.cxlTimedOut_of_read {d : Dev} {n : Nat} {r : CxlRd} (hmem : r ∈ d.cxl.reads) (hport : r.port = n)
    (hlate : max 1 (d.rd CXL_TIMEOUT.TICKS) ≤ tickSub d.tck.now r.tick) :
    d.cxlTimedOut n = (d.bump (CXL_PORT_TO.COUNT n)).cxlLose n 0x05 := by
  refine if_pos (List.any_eq_true.mpr ⟨r.tick, List.mem_append_right _ (List.mem_map.mpr ⟨r, ?_, rfl⟩), decide_eq_true hlate⟩)
  exact List.mem_filter.mpr ⟨hmem, beq_iff_eq.mpr hport⟩

/-- Settles O35: each command by the state of the port that it finds. -/
theorem cxlPorts : Obligations.CxlPorts := by
  refine ⟨fun s n en hopen hn => ?retrain, fun s n sp w mem al fl hready hn hsp hw => ?trained, fun s n hready hn => ?trainTimeout,
    fun s n hopen hn => ?ready, fun s n ns po er data hready hn hnone => ?noRead, fun s n ns data r hready hn hread => ?goodRead,
    fun s n hready hn => ?written, fun s n hready hn => ?lost⟩
  case retrain =>
    refine ⟨fun hother => ?_, fun hnext hdown => ?_⟩
    · exact hopen.does rfl (decide_eq_true hn) (Dev.cxlRetrain_of_other hother) (Dev.todo_wr _ _ _)
    · exact hopen.does rfl (decide_eq_true hn) (Dev.cxlRetrain_of_down hnext hdown) (by simp)
  case trained =>
    have hwf : decide (n < 4 ∧ sp < 16 ∧ w < 32) = true := decide_eq_true ⟨hn, hsp, hw⟩
    refine ⟨fun hidle => ?_, fun htraining hlost => ?_, fun htraining => ?_⟩
    · exact hready.does rfl hwf (if_pos hidle) rfl
    · have hlose := Dev.cxlLose_of_up (d := s.dev) (n := n) 0x0A (by omega) (by rw [hlost]; rfl)
      rw [hlost] at hlose
      exact hready.does rfl hwf ((Dev.cxlTrained_of_training mem false fl sp w htraining).trans ((if_pos rfl).trans hlose)) rfl
    · have hgo := (Dev.cxlTrained_of_training true true fl sp w htraining).trans ((if_neg (by decide)).trans (if_pos rfl))
      exact hready.does rfl hwf hgo (by simp)
  case trainTimeout =>
    refine ⟨fun htraining hlate => ?_, fun hother => ?_⟩
    · exact hready.does rfl (decide_eq_true hn) (if_pos ⟨htraining, hlate⟩) rfl
    · exact hready.does rfl (decide_eq_true hn)
        (if_neg fun h => hother.elim (fun hidle => hidle h.1) fun hearly => Nat.not_lt.mpr h.2 hearly) rfl
  case ready =>
    exact ⟨fun hconfig => hopen.does rfl (decide_eq_true hn) (if_pos hconfig) rfl,
      fun hother => hopen.does rfl (decide_eq_true hn) (if_neg hother) rfl⟩
  case noRead =>
    exact ⟨hready.does rfl (decide_eq_true ⟨hn, by decide⟩) (Dev.cxlReadDone_of_none n 0 po er ns data hnone) rfl,
      hready.does rfl (decide_eq_true ⟨hn, by decide⟩) (Dev.cxlReadDone_of_none n 1 po er ns data hnone) rfl⟩
  case goodRead =>
    have hreturn := Dev.winReturn_of_good ns data hread
    exact hready.does rfl (decide_eq_true ⟨hn, by decide⟩) ((if_pos rfl).trans hreturn) (by simp)
  case written =>
    exact ⟨hready.does rfl (decide_eq_true hn) (if_neg Bool.false_ne_true) rfl, hready.runs rfl (decide_eq_true hn) (if_pos rfl)⟩
  case lost =>
    refine ⟨fun hgone => ?_, fun hup hlost => ?_, fun hwalks hreads => ?_, fun r hmem hport hlate => ?_⟩
    · exact hready.does rfl (decide_eq_true hn) (if_pos hgone) rfl
    · exact hready.does rfl (decide_eq_true hn) (Dev.cxlLose_of_up 0x0A hup hlost) rfl
    · exact hready.does rfl (decide_eq_true hn) (Dev.cxlTimedOut_of_none hwalks hreads) rfl
    · exact hready.does rfl (decide_eq_true hn) (Dev.cxlTimedOut_of_read hmem hport hlate) (by simp [Dev.bump])

end Sys2Proof.Machine
end

section
/-!
The convoy's links (spec/15_convoy_and_start_up.md, R345 to R347). The first SYNC that loads a member's time also restarts the helm's watchdog
from the tick loaded (`Hlm.kicked`), which the obligation's device leaves as it was.
-/
namespace Sys2Proof.Machine

/-- A command is answered with one state only. -/
theorem State.Runs.settle_eq {s : State} {c : Instr} {d e : Dev} (h : s.Runs c d) (k : s.Runs c e) : d.settle = e.settle := by
  have hnext := h.symm.trans k
  injection hnext with hstate
  exact congrArg State.dev hstate

/-- A calibrated member with its CVU port in use and its hop measured, before the first load of the time. -/
def unloadedMember : State :=
  { State.reset with dev := State.reset.dev.wrs [(CVY_PORT_CTL.EN 0, 1), (CVY_PORT_ST.MEASURED 0, 1)] }

theorem unloadedMember_waits :
    unloadedMember.dev.dead = false ∧ unloadedMember.dev.hears 0 = true ∧ (unloadedMember.dev.heard 0).on (CVY_PORT_ST.MEASURED 0) = true ∧
      (unloadedMember.dev.heard 0).cvy.stuck = false ∧ (unloadedMember.dev.heard 0).cvy.loaded = false := by decide +kernel

/-- A SYNC that left at tick 5 restarts the watchdog at tick 5. -/
theorem unloadedMember_sync_kicked :
    (unloadedMember.dev.sync 0 7680 0).hlm.kicked = 5 ∧ (unloadedMember.dev.sync 0 7680 0).flt.todo = [] := by decide +kernel

theorem unloadedMember_heard : (unloadedMember.dev.heard 0).hlm.kicked = 0 ∧ (unloadedMember.dev.heard 0).flt.todo = [] := by
  decide +kernel

/-- Refutes O36: the first SYNC of a member restarts the helm's watchdog, which the clause on it leaves out. -/
theorem not_convoyLinks : ¬ Obligations.ConvoyLinks := by
  intro h
  obtain ⟨_, _, _, _, _, hheard, _⟩ := h
  obtain ⟨hdead, hhears, hmeasured, hstuck, hunloaded⟩ := unloadedMember_waits
  obtain ⟨hkicked, htodo⟩ := unloadedMember_sync_kicked
  obtain ⟨hzero, hnone⟩ := unloadedMember_heard
  have hruns : unloadedMember.Runs (.sync 0 7680 0) (unloadedMember.dev.sync 0 7680 0) := State.runs_of_alive hdead rfl rfl rfl
  have hclaim := (hheard unloadedMember 0 7680 0 0 0 hdead (by decide) hhears).2.2.2 rfl hmeasured hstuck hunloaded
  have hsame := congrArg (fun d : Dev => d.hlm.kicked) (hruns.settle_eq hclaim)
  dsimp only at hsame
  rw [(Calm.settle _ htodo).hlm, hkicked, (Calm.settle _ (by simpa [Dev.showOffset] using hnone)).hlm] at hsame
  exact absurd (hsame.trans hzero) (by decide)

end Sys2Proof.Machine
end

section
/-!
The convoy's tree, its announced actions and navigator messages (spec/15_convoy_and_start_up.md, R343, R344, R347 to R351).
-/
namespace Sys2Proof.Machine

/-! ### Messages received -/

/-- On a port that is not looked at a message does nothing. -/
theorem Dev.cvyRx_of_deaf {d : Dev} {port : Nat} (f : Dev → Dev) (h : d.hears port = false) : d.cvyRx port f = d := by
  refine if_pos ?_
  unfold Dev.hears at h
  revert h
  cases d.on (CVY_PORT_CTL.EN port) <;> cases (port == cvuPort && d.isRoot) <;> simp

theorem State.does_of_deaf {s : State} {c : Instr} {port : Nat} {f : Dev → Dev} (hdead : s.dev.dead = false) (htodo : s.dev.flt.todo = [])
    (hdeaf : s.dev.hears port = false) (hexec : exec c s = s.act c fun d => d.cvyRx port f) (hwf : Instr.wf c = true) : s.Does c s.dev :=
  State.does_of_alive hdead htodo hexec hwf (Dev.cvyRx_of_deaf f hdeaf) rfl

/-- On any other it is counted and acted on. -/
theorem Dev.cvyRx_of_hears {d : Dev} {port : Nat} (f : Dev → Dev) (h : d.hears port = true) : d.cvyRx port f = f (d.heard port) := by
  refine if_neg ?_
  unfold Dev.hears at h
  revert h
  cases d.on (CVY_PORT_CTL.EN port) <;> cases (port == cvuPort && d.isRoot) <;> simp

/-- A broadcast is passed on over the other ports and consumed. -/
theorem Dev.cvyCarry_all (d : Dev) (port mtype src seq : Nat) (payload : List Byte) (consume : Dev → Dev) (len : Nat)
    (hlen : ceilDiv (payload.length + 4) 8 = len) :
    d.cvyCarry port mtype dstAll src seq payload consume =
      consume ((d.cvyUp.filter (· != port)).foldl (fun d p => d.cvyPut p false mtype dstAll src seq len payload) d) := by
  subst hlen
  unfold Dev.cvyCarry
  exact if_pos rfl

/-- A message to the neighbour is consumed here. -/
theorem Dev.cvyCarry_local (d : Dev) (port mtype src seq : Nat) (payload : List Byte) (consume : Dev → Dev) :
    d.cvyCarry port mtype 0 src seq payload consume = consume d := by
  have hhere : d.cvyRoute 0 = .here := by
    unfold Dev.cvyRoute
    exact if_pos rfl
  unfold Dev.cvyCarry
  dsimp only
  rw [if_neg (by decide), hhere]

/-! ### The size phase -/

theorem Dev.heard_rd (d : Dev) (port : Nat) (f : Field) (hcalm : f.calm = true) (haddr : f.addr < 0x02600118) :
    (d.heard port).rd f = d.rd f :=
  ((Calm.evt _ 0x34 0x21 (some port) 1).rd f hcalm).trans
    (Dev.rd_wr_addr d _ _ _ (show f.addr ≠ 0x02600118 + 32 * port by omega))

/-- A message received leaves the device's place in the tree. -/
theorem Dev.heard_isRoot (d : Dev) (port : Nat) : (d.heard port).isRoot = d.isRoot := by
  unfold Dev.isRoot Dev.on
  rw [d.heard_rd port _ (by decide +kernel) (by decide)]

/-- The hop and the presence that a SIZE shows. -/
def Dev.sizeShown (d : Dev) (port hop : Nat) : Dev := (d.wr (CVY_PORT_HOP.HOP port) hop).wr (CVY_PORT_ST.PRESENT port) 1

theorem Dev.sizeShown_isRoot (d : Dev) (port hop v : Nat) : ((d.sizeShown port hop).wr CVY_STATUS.LATE_JOIN v).isRoot = d.isRoot := by
  unfold Dev.isRoot Dev.on Dev.sizeShown
  rw [Dev.rd_wr_addr _ _ _ _ (show (0x10 : Nat) ≠ 0x02600000 by decide),
    Dev.rd_wr_addr _ _ _ _ (show 0x10 ≠ 0x02600104 + 32 * port by omega),
    Dev.rd_wr_addr _ _ _ _ (show 0x10 ≠ 0x02600108 + 32 * port by omega)]

/-- An ACTION passed on over the other ports and counted. -/
def Dev.actionPassed (d : Dev) (port src seq ac tg arg : Nat) : Dev :=
  ((d.cvyUp.filter (· != port)).foldl (fun d q => d.cvyPut q true 0x08 dstAll src seq 2
    (beBytes 1 ac ++ beBytes 6 tg ++ beBytes 4 arg)) d).bump CVY_ACT_RX.COUNT

/-- The number of the action last taken from a source. -/
def Dev.actionNoted (d : Dev) (src seq : Nat) : Dev := { d with cvy := { d.cvy with taken := SMap.ins d.cvy.taken src seq } }

section
variable {d : Dev} {port : Nat} (hhears : d.hears port = true)
include hhears

/-- A SIZE that is looked at, on a downstream port. -/
theorem Dev.sizeRx_of_downstream (hport : port ≠ 0) (count height hopmax hop : Nat) (late : Bool) :
    let e := (d.heard port).sizeShown port hop
    d.sizeRx port count height hopmax late hop = if late ∨ e.cvy.sent then
        (if (e.wr CVY_STATUS.LATE_JOIN 1).isRoot then e.wr CVY_STATUS.LATE_JOIN 1
          else (e.wr CVY_STATUS.LATE_JOIN 1).sizeSend count height hopmax true)
      else Dev.sizeDone { e with cvy := { e.cvy with kids := SMap.ins e.cvy.kids port { count, height, hopmax } } } := by
  intro e
  rw [Dev.sizeRx, Dev.cvyRx_of_hears _ hhears, if_neg hport]
  rfl

/-- An ACTION that is looked at passes on and counts, and the first copy is taken or counted bad. -/
theorem Dev.action_of_hears (src seq ac tg arg : Nat) :
    d.action port src seq ac tg arg =
      let e := (d.heard port).actionPassed port src seq ac tg arg
      if SMap.find e.cvy.taken src = some seq then e
      else if ac = 0 ∨ 4 ≤ ac then (e.actionNoted src seq).bump CVY_MSG_BAD.COUNT
      else if ac = 1 then (e.actionNoted src seq).takeSwap src seq tg arg
      else if ac = 2 then (e.actionNoted src seq).takeActivate tg arg else (e.actionNoted src seq).takeNavEvent tg arg := by
  rw [Dev.action, Dev.actionRx, Dev.cvyRx_of_hears _ hhears]
  rfl

/-- Of a copy not yet taken, by its code. -/
theorem Dev.action_of_first {src seq : Nat} (ac tg arg : Nat)
    (hfirst : SMap.find ((d.heard port).actionPassed port src seq ac tg arg).cvy.taken src ≠ some seq) :
    d.action port src seq ac tg arg =
      let f := ((d.heard port).actionPassed port src seq ac tg arg).actionNoted src seq
      if ac = 0 ∨ 4 ≤ ac then f.bump CVY_MSG_BAD.COUNT else if ac = 1 then f.takeSwap src seq tg arg
      else if ac = 2 then f.takeActivate tg arg else f.takeNavEvent tg arg :=
  (Dev.action_of_hears hhears src seq ac tg arg).trans (if_neg hfirst)

end

theorem Dev.action_of_deaf {d : Dev} {port : Nat} (h : d.hears port = false) (src seq ac tg arg : Nat) :
    d.action port src seq ac tg arg = d := by
  rw [Dev.action, Dev.actionRx, Dev.cvyRx_of_deaf _ h]

theorem Dev.sizeExpire_of_none {d : Dev} (port : Nat) (h : d.cvy.sizing = none) : d.sizeExpire port = d := by
  rw [Dev.sizeExpire, h]

/-- A silent downstream port counts as absent. -/
theorem Dev.sizeExpire_of_silent {d : Dev} {port t : Nat} (h : d.cvy.sizing = some t) (hport : port = 1 ∨ port = 2)
    (hsilent : SMap.find d.cvy.kids port = none) (hlate : d.rd CVY_CTRL.WAIT ≤ tickSub d.tck.now t) :
    d.sizeExpire port = Dev.sizeDone { d with cvy := { d.cvy with absent := d.cvy.absent ++ [port] } } := by
  rw [Dev.sizeExpire, h]
  exact if_pos ⟨hport, by rw [hsilent]; rfl, hlate⟩

/-! ### What an action does -/

theorem Dev.takeSwap_held {d : Dev} {t : Nat} (src seq id : Nat) (hfree : d.cht.held = none) (hfuture : tickFuture t d.tck.now = true) :
    (d.takeSwap src seq t id).cht.held = some { src, seq, target := t, chartId := id, receipt := d.tck.now } := by
  have hnone : ¬ d.cht.held.any (fun h => tickFuture h.target d.tck.now) = true := by
    rw [hfree]
    exact Bool.false_ne_true
  rw [Dev.takeSwap, if_neg hnone, if_pos hfuture]

theorem Dev.takeNavEvent_of_inTime {d : Dev} {t : Nat} (arg : Nat) (h : d.inTime t = true) :
    d.takeNavEvent t arg = d.emit (.firmware 2 t (beBytes 4 arg)) := if_pos h

/-- Settles O37: each message by `Dev.cvyRx_of_deaf` or `Dev.cvyRx_of_hears`, and an action by its code (`Dev.action_of_first`). -/
theorem convoyTree : Obligations.ConvoyTree := by
  refine ⟨fun s p a b c e l pl hdead htodo hp hdeaf => ?deaf, fun s p count height hopmax hop late hdead hp hhears => ?size,
    fun s p hdead hp => ?expire, fun s p src a k g hdead hp hhears => ?assign, fun s p src seq k hdead hp hhears => ?passed,
    fun s hopen => ?enumerate, fun s p src seq ac tg arg hdead hp hac hhears => ?action,
    fun d src seq t id hfree hfuture => Dev.takeSwap_held src seq id hfree hfuture, fun s p src seq pl hdead hp hhears => ?nav,
    fun d => ⟨rfl, rfl, rfl⟩⟩
  case deaf =>
    exact ⟨State.does_of_deaf hdead htodo hdeaf rfl (decide_eq_true hp),
      State.does_of_deaf hdead htodo hdeaf rfl (decide_eq_true hp),
      State.does_of_deaf hdead htodo hdeaf rfl (decide_eq_true hp),
      State.does_of_deaf hdead htodo hdeaf rfl (decide_eq_true hp),
      State.does_of_deaf hdead htodo hdeaf rfl (decide_eq_true hp),
      fun k hk => State.does_of_alive hdead htodo rfl (decide_eq_true ⟨hp, hk⟩) (Dev.action_of_deaf hdeaf a b k c e) rfl⟩
  case size =>
    intro d e
    refine ⟨fun hroot => ?_, fun hport hontime hunsent => ?_, fun hport hlate hroot => ?_⟩
    · refine State.runs_of_alive hdead rfl (decide_eq_true hp) ((Dev.cvyRx_of_hears _ hhears).trans (if_pos hroot))
    · have hsize := Dev.sizeRx_of_downstream hhears hport count height hopmax hop late
      refine State.runs_of_alive hdead rfl (decide_eq_true hp) (hsize.trans (if_neg ?_))
      rintro (h | h)
      · exact Bool.false_ne_true (hontime.symm.trans h)
      · exact Bool.false_ne_true (hunsent.symm.trans h)
    · have hsize := Dev.sizeRx_of_downstream hhears hport count height hopmax hop late
      refine State.runs_of_alive hdead rfl (decide_eq_true hp) (hsize.trans ((if_pos (.inl hlate)).trans (if_pos ?_)))
      rw [Dev.sizeShown_isRoot, Dev.heard_isRoot, hroot]
  case expire =>
    refine ⟨fun htodo hnone => ?_, fun t hsizing hport hsilent hlate => ?_⟩
    · exact State.does_of_alive hdead htodo rfl (decide_eq_true hp) (Dev.sizeExpire_of_none p hnone) rfl
    · exact State.runs_of_alive hdead rfl (decide_eq_true hp) (Dev.sizeExpire_of_silent hsizing (by omega) hsilent hlate)
  case assign =>
    have hrx (f : Dev → Dev) := Dev.cvyRx_of_hears f hhears
    refine ⟨fun hroot => ?_, fun hport => ?_⟩
    · exact State.runs_of_alive hdead rfl (decide_eq_true hp) ((hrx _).trans (if_pos hroot))
    · exact State.runs_of_alive hdead rfl (decide_eq_true hp) ((hrx _).trans (if_neg hport))
  case passed =>
    have hrx (f : Dev → Dev) := Dev.cvyRx_of_hears f hhears
    refine ⟨?_, ?_⟩
    · exact State.runs_of_alive hdead rfl (decide_eq_true hp)
        ((hrx _).trans (Dev.cvyCarry_all _ p 0x06 src seq (beBytes 2 k) _ 1 (by rw [length_beBytes]; rfl)))
    · exact State.runs_of_alive hdead rfl (decide_eq_true hp)
        ((hrx _).trans (Dev.cvyCarry_all _ p 0x07 src seq (beBytes 4 0) _ 1 (by rw [length_beBytes]; rfl)))
  case enumerate =>
    exact ⟨fun hmember => hopen.does rfl rfl (if_neg (Bool.eq_false_iff.mp hmember)) rfl, fun hroot => hopen.runs rfl rfl (if_pos hroot)⟩
  case action =>
    have hwf : decide (p < 3 ∧ ac < 256) = true := decide_eq_true ⟨hp, hac⟩
    have hruns {e : Dev} (h : s.dev.action p src seq ac tg arg = e) : s.Runs (.action p src seq ac tg arg) e :=
      State.runs_of_alive hdead rfl hwf h
    refine ⟨fun hagain => ?_, fun hfirst hbad => ?_, fun hfirst => ⟨fun hcode => ?_, fun hcode => ?_, fun hcode hontime => ?_⟩⟩
    · exact hruns ((Dev.action_of_hears hhears src seq ac tg arg).trans (if_pos hagain))
    all_goals have htaken := Dev.action_of_first hhears ac tg arg hfirst
    · exact hruns (htaken.trans (if_pos hbad))
    all_goals rw [if_neg (show ¬ (ac = 0 ∨ 4 ≤ ac) by omega)] at htaken
    · exact hruns (htaken.trans (if_pos hcode))
    · exact hruns (htaken.trans ((if_neg (by omega)).trans (if_pos hcode)))
    · exact hruns (htaken.trans ((if_neg (by omega)).trans ((if_neg (by omega)).trans (Dev.takeNavEvent_of_inTime arg hontime))))
  case nav =>
    exact State.runs_of_alive hdead rfl (decide_eq_true hp) ((Dev.cvyRx_of_hears _ hhears).trans (Dev.cvyCarry_local _ _ _ _ _ _ _))

end Sys2Proof.Machine
end

section
/-!
Health reports of helm pairs (spec/16_helm_pairs_and_redundancy.md, R344, R369, R374).
-/
namespace Sys2Proof.Machine

/-! ### Reports received -/

theorem Dev.health_of_local {d : Dev} {p : Nat} (hhears : d.hears p = true) (src seq : Nat) (pl : List Byte) :
    d.health p 0 src seq pl =
      if src ≠ (d.heard p).rd HLM_PARTNER.ADDR ∨ (pl.getD 0 0).toNat / 16 ≠ 1 then (d.heard p).bump HLM_RPT_BAD.COUNT
      else (d.heard p).healthTake pl :=
  (Dev.cvyRx_of_hears _ hhears).trans (Dev.cvyCarry_local _ _ _ _ _ _ _)

/-! ### Reports sent -/

/-- The wait to restore writes HLM_STATUS alone. -/
theorem Dev.wtrUpdate_rd (d : Dev) (f : Field) (h : f.addr ≠ HLM_STATUS.addr) : d.wtrUpdate.rd f = d.rd f := by
  unfold Dev.wtrUpdate
  refine (apply_ite (fun e : Dev => e.rd f) _ _ _).trans ?_
  exact (ite_congr rfl (fun _ => rfl) fun _ => Dev.rd_wr_addr _ HLM_STATUS.RECLAIM f 0 h).trans (ite_self _)

/-- What the report shows leaves the routes of the convoy. -/
theorem Dev.cvyRoute_cleanShown (d : Dev) (v dst : Nat) : ((d.wr HLM_STATUS.CLEAN v).wtrUpdate).cvyRoute dst = d.cvyRoute dst := by
  have hrd (f : Field) (h : f.addr ≠ HLM_STATUS.addr) : ((d.wr HLM_STATUS.CLEAN v).wtrUpdate).rd f = d.rd f :=
    (Dev.wtrUpdate_rd _ f h).trans (Dev.rd_wr_addr _ HLM_STATUS.CLEAN f v h)
  unfold Dev.cvyRoute Dev.cvyAddr Dev.isRoot Dev.on
  rw [hrd CVY_ADDR.ADDR (by decide), hrd CVY_TREE0.SIZE0 (by decide), hrd CVY_TREE0.SIZE1 (by decide), hrd GLB_BOOT_STATUS.ROOT (by decide)]

/-- The account that the report of a block shows. -/
def Dev.sentBlk (d : Dev) : Blk :=
  let j := tickSub d.tck.now 264 / 256
  (d.hlm.blk j).getD { j, adm := 0, out := 0, exposed := false, steady := false, selfOk := false }

/-- The device whose own CLEAN shows, before its report goes. -/
def Dev.cleanShown (d : Dev) : Dev := (d.wr HLM_STATUS.CLEAN (b2n (d.ownClean d.sentBlk))).wtrUpdate

section
variable {d : Dev} (htick : d.tck.now % 256 = 8) (hpartner : d.rd HLM_PARTNER.ADDR ≠ 0) (hready : d.on GLB_BOOT_STATUS.READY = true)
  (hblock : d.blockWas 264 = true)
include htick hpartner hready hblock

/-- A report that is due goes by the route to the partner. -/
theorem Dev.healthSend_of_due :
    d.healthSend = Dev.bump (match d.cvyRoute (d.rd HLM_PARTNER.ADDR) with
      | .out p => d.cleanShown.cvySend [p] false 0x09 (d.rd HLM_PARTNER.ADDR) 6 (d.cleanShown.healthBytes d.sentBlk (d.ownClean d.sentBlk))
      | .here => d.cleanShown
      | .lost => d.cleanShown.bump CVY_UNROUTE.COUNT) HLM_RPT_TX.COUNT := by
  have hdue : ¬ (d.tck.now % 256 ≠ 8 ∨ d.rd HLM_PARTNER.ADDR = 0 ∨ (d.helmState = hInit ∧ ¬ d.on GLB_BOOT_STATUS.READY) ∨
      d.blockWas 264 = false) := by
    rintro (h | h | ⟨_, h⟩ | h)
    · exact h htick
    · exact hpartner h
    · exact h hready
    · exact Bool.false_ne_true (h.symm.trans hblock)
  rw [← Dev.cvyRoute_cleanShown d (b2n (d.ownClean d.sentBlk))]
  exact if_neg hdue

theorem Dev.healthSend_of_out {p : Nat} (hroute : d.cvyRoute (d.rd HLM_PARTNER.ADDR) = .out p) :
    d.healthSend = (d.cleanShown.cvySend [p] false 0x09 (d.rd HLM_PARTNER.ADDR) 6
      (d.cleanShown.healthBytes d.sentBlk (d.ownClean d.sentBlk))).bump HLM_RPT_TX.COUNT := by
  rw [Dev.healthSend_of_due htick hpartner hready hblock, hroute]

theorem Dev.healthSend_of_lost (hroute : d.cvyRoute (d.rd HLM_PARTNER.ADDR) = .lost) :
    d.healthSend = (d.cleanShown.bump CVY_UNROUTE.COUNT).bump HLM_RPT_TX.COUNT := by
  rw [Dev.healthSend_of_due htick hpartner hready hblock, hroute]

end

theorem Dev.healthSend_of_none {d : Dev} (h : d.tck.now % 256 ≠ 8 ∨ d.rd HLM_PARTNER.ADDR = 0 ∨ d.blockWas 264 = false) :
    d.healthSend = d :=
  if_pos (h.imp_right (Or.imp_right .inr))

/-! ### Reports missed -/

/-- A missed report is counted, with the misses in a row. -/
def Dev.missCounted (d : Dev) : Dev :=
  let e := d.bump HLM_RPT_MISS.COUNT
  { e with hlm := { e.hlm with misses := d.hlm.misses + 1 } }

theorem Dev.missCounted_rd (d : Dev) (f : Field) (h : f.addr ≠ HLM_RPT_MISS.COUNT.addr) : d.missCounted.rd f = d.rd f :=
  Dev.rd_wr_addr _ _ _ _ h

theorem Dev.healthMiss_of_due {d : Dev} (htick : d.tck.now % 256 = 0) (hpartner : d.rd HLM_PARTNER.ADDR ≠ 0)
    (hnone : d.hlm.rpt (tickSub d.tck.now 512) = none) (hblock : d.blockWas 512 = true) :
    d.healthMiss = Dev.wtrUpdate (if max 1 (d.rd HLM_CTRL.MISS) ≤ d.hlm.misses + 1 ∧ ¬ d.on HLM_STATUS.PLOST then
      (d.missCounted.wr HLM_STATUS.PLOST 1).fault srcHelm contained 0x05 else d.missCounted) := by
  have hdue : ¬ (d.tck.now % 256 ≠ 0 ∨ d.rd HLM_PARTNER.ADDR = 0 ∨ (d.hlm.rpt (tickSub d.tck.now 512)).isSome ∨ d.blockWas 512 = false) := by
    rintro (h | h | h | h)
    · exact h htick
    · exact hpartner h
    · rw [hnone] at h
      cases h
    · exact Bool.false_ne_true (h.symm.trans hblock)
  have hon : d.missCounted.on HLM_STATUS.PLOST = d.on HLM_STATUS.PLOST := by
    unfold Dev.on
    rw [d.missCounted_rd _ (by decide)]
  rw [← d.missCounted_rd HLM_CTRL.MISS (by decide), ← hon]
  exact if_neg hdue

/-- Settles O39: a report by its address (`Dev.health_of_local`), and the sending and the miss by the tick of the block. -/
theorem helmReports : Obligations.HelmReports := by
  refine ⟨fun s p dst src seq pl hdead htodo hp hdeaf => ?deaf, fun s p src seq pl hdead hp hhears => ?taken,
    fun s hready hnot => ?notDue, fun s hready htick hpartner hboot hblock => ?sent, fun s hready hnot => ?noMiss,
    fun s hready htick hpartner hnone hblock => ?missed⟩
  case deaf => exact State.does_of_deaf hdead htodo hdeaf rfl (decide_eq_true hp)
  case taken =>
    have hhealth := Dev.health_of_local hhears src seq pl
    refine ⟨fun hbad => ?_, fun hgood => ?_⟩
    · exact State.runs_of_alive hdead rfl (decide_eq_true hp) (hhealth.trans (if_pos (not_and_or.mp hbad)))
    · exact State.runs_of_alive hdead rfl (decide_eq_true hp)
        (hhealth.trans (if_neg fun h => h.elim (fun k => k hgood.1) fun k => k hgood.2))
  case notDue => exact hready.does rfl rfl (Dev.healthSend_of_none hnot) rfl
  case sent =>
    refine ⟨fun p hroute => ?_, fun hroute => ?_⟩
    · exact hready.runs rfl rfl (Dev.healthSend_of_out htick hpartner hboot hblock hroute)
    · exact hready.runs rfl rfl (Dev.healthSend_of_lost htick hpartner hboot hblock hroute)
  case noMiss => exact hready.does rfl rfl (if_pos hnot) rfl
  case missed =>
    have hmiss := Dev.healthMiss_of_due htick hpartner hnone hblock
    refine ⟨fun hlost => ?_, fun hthere hmany => ?_⟩
    · rw [if_neg fun h => h.2 hlost] at hmiss
      exact hready.runs rfl rfl hmiss
    · rw [if_pos ⟨hmany, Bool.eq_false_iff.mp hthere⟩] at hmiss
      exact hready.runs rfl rfl hmiss

end Sys2Proof.Machine
end

section
/-!
The helm's line, release, kick, watchdog, backoff, reclaim and planned handover, and the navigator pairs
(spec/16_helm_pairs_and_redundancy.md, R361, R365, R366, R372, R373).
-/
namespace Sys2Proof.Machine

/-! ### The partner's line -/

section
variable {d : Dev} {pat at_ : Nat} (hnew : pat ≠ d.hlm.pat)
include hnew

/-- A pattern that has lasted is kept when another follows. -/
theorem Dev.helmIn_of_lasted (hlong : timeReached (d.hlm.since + 80) at_ = true) :
    d.helmIn pat at_ = { d.wr HLM_STATUS.LINE pat with hlm :=
      { d.hlm with pat, since := at_, old := d.hlm.pat, oldSince := d.hlm.since } } :=
  (if_neg hnew).trans (if_neg (by rw [hlong]; decide))

theorem Dev.helmIn_of_short (hshort : timeReached (d.hlm.since + 80) at_ = false) :
    d.helmIn pat at_ = if pat = d.hlm.old then { d.wr HLM_STATUS.LINE pat with hlm := { d.hlm with pat, since := d.hlm.oldSince } }
      else { d.wr HLM_STATUS.LINE pat with hlm := { d.hlm with pat, since := at_ } } :=
  (if_neg hnew).trans (if_pos (by rw [hshort]; rfl))

end

/-! ### The watchdog and the wait to restore -/

theorem Dev.helmWatchdog_of_idle {d : Dev} (h : d.rd HLM_WD.TICKS = 0 ∨ d.hlm.expired = true ∨
    tickSub d.tck.now d.hlm.kicked < d.rd HLM_WD.TICKS) : d.helmWatchdog = d := by
  refine if_neg fun ⟨hon, hfresh, hlate⟩ => ?_
  rcases h with h | h | h
  · exact hon h
  · exact hfresh h
  · exact Nat.not_lt.mpr hlate h

/-- Not to revert, the wait does not run. -/
theorem Dev.wtrUpdate_of_stay {d : Dev} (h : d.on HLM_CTRL.REVERT = false) :
    d.wtrUpdate = ({ d with hlm := { d.hlm with wtr := none } } : Dev).wr HLM_STATUS.RECLAIM 0 :=
  if_neg (by simp [h])

/-- With its terms met, a wait that runs goes on. -/
theorem Dev.wtrUpdate_of_running {d : Dev} {t : Nat} (hrevert : d.on HLM_CTRL.REVERT = true) (hpref : d.on HLM_STATUS.PREF = true)
    (hstandby : d.rd HLM_STATUS.STATE = hStandby) (hclean : d.on HLM_STATUS.CLEAN = true) (hmiss : d.hlm.misses = 0)
    (hpartner : ∃ r l, d.hlm.reports = r :: l ∧ r.clean = true ∧ r.state = hActive) (hruns : d.hlm.wtr = some t) : d.wtrUpdate = d := by
  obtain ⟨r, l, hreports, hrclean, hrstate⟩ := hpartner
  have hgo : d.wtrUpdate = { d with hlm := { d.hlm with wtr := d.hlm.wtr.or (some d.tck.now) } } := by
    unfold Dev.wtrUpdate
    rw [hreports]
    exact if_pos (by simp [hrevert, hpref, Dev.helmState, hstandby, hclean, hmiss, hrclean, hrstate])
  rw [hgo, hruns, Option.some_or, ← hruns]

theorem Dev.reclaimSet_of_stay {d : Dev} (h : d.on HLM_CTRL.REVERT = false) :
    d.reclaimSet = ({ d with hlm := { d.hlm with wtr := none } } : Dev).wr HLM_STATUS.RECLAIM 0 := by
  rw [Dev.reclaimSet, Dev.wtrUpdate_of_stay h]
  rfl

theorem Dev.reclaimSet_of_running {d : Dev} {t : Nat} (hsame : d.wtrUpdate = d) (hruns : d.hlm.wtr = some t) :
    d.reclaimSet = if d.wtrTicks ≤ tickSub d.tck.now t then d.wr HLM_STATUS.RECLAIM 1 else d := by
  rw [Dev.reclaimSet, hsame, hruns]

/-! ### Planned handovers -/

theorem Dev.plannedHandover_of_due {d : Dev} (hnamed : d.rdPair HLM_HANDOVER_LO.TICK HLM_HANDOVER_HI.TICK ≠ 0)
    (hdue : d.rdPair HLM_HANDOVER_LO.TICK HLM_HANDOVER_HI.TICK = d.tck.now) :
    d.plannedHandover =
      (if d.helmState = hActive then d.helmRelease 6 8 else d).wrTick HLM_HANDOVER_LO.TICK HLM_HANDOVER_HI.TICK 0 :=
  if_pos ⟨hnamed, hdue⟩

/-! ### Navigator pairs -/

/-- With no pair being reloaded both change drivers. -/
theorem Dev.navRoleSwap_of_none {d : Dev} (htick : d.tck.now % 16777216 = 0) (hwhole : d.fwu.split = false) (hnone : d.hlm.navSync = []) :
    d.navRoleSwap = (d.wr HLM_NAV_STATUS.DRIVER_A (1 - d.rd HLM_NAV_STATUS.DRIVER_A)).wr HLM_NAV_STATUS.DRIVER_T
      (1 - d.rd HLM_NAV_STATUS.DRIVER_T) := by
  have hother (v : Nat) : (d.wr HLM_NAV_STATUS.DRIVER_A v).rd HLM_NAV_STATUS.DRIVER_T = d.rd HLM_NAV_STATUS.DRIVER_T :=
    Dev.rd_wr_of_apartB d HLM_NAV_STATUS.DRIVER_A HLM_NAV_STATUS.DRIVER_T v (by decide) (by decide)
  unfold Dev.navRoleSwap
  rw [if_neg (by simp [htick, hwhole])]
  simp only [List.foldl_cons, List.foldl_nil, Dev.wr_hlm, hnone, List.contains_nil, Bool.false_eq_true, if_false, navDriver, if_true,
    one_ne_zero, hother]

/-- A pair that is whole: both in error is FATAL, and a mismatch without errors reloads the pair. -/
theorem Dev.navError_of_both {d : Dev} (die : Nat) (hwhole : d.fwu.split = false) :
    d.navError die true true = d.fault (0x340 + die) fatal 0x04 :=
  (if_pos (by rw [hwhole]; rfl)).trans (if_pos rfl)

theorem Dev.navError_of_clean {d : Dev} (die : Nat) (hwhole : d.fwu.split = false) :
    d.navError die false false =
      ((({ d with hlm := { d.hlm with navSync := die :: d.hlm.navSync.filter (· != die) } } : Dev).wr HLM_NAV_STATUS.RESYNC 1).bump
        HLM_NAV_FAULT.COUNT).fault (0x340 + die) corrected 0x04 :=
  (if_pos (by rw [hwhole]; rfl)).trans (if_neg (by decide))

/-- Settles O40: the helm's timers by whether they are due, and a navigator pair by its twins' errors. -/
theorem helmControl : Obligations.HelmControl := by
  refine ⟨fun s pat at_ hdead htodo hpat => ?line, fun s hopen => ?release, fun s key hopen hkey => ?kick, fun s hready hidle => ?noExpiry,
    fun s hready hon hfresh hlate => ?expiry, fun s hready => ?backoff, fun s hready hstay => ?stay,
    fun s t hready hrevert hpref hstandby hclean hmiss hruns hpartner => ?reclaim, fun s hready => ?handover, fun s hready => ?roles,
    fun s die hready hdie hwhole => ?mismatch, fun s die hready hdie hrecov => ?resync⟩
  case line =>
    have hwf : decide (pat < 4) = true := decide_eq_true hpat
    refine ⟨fun hsame => ?_, fun hnew hlong => ?_, fun hnew hshort hold => ?_, fun hnew hshort hold => ?_⟩
    · exact State.does_of_alive hdead htodo rfl hwf (if_pos hsame) (Dev.todo_wr _ _ _)
    · exact State.does_of_alive hdead htodo rfl hwf (Dev.helmIn_of_lasted hnew hlong) (by simp)
    · exact State.does_of_alive hdead htodo rfl hwf ((Dev.helmIn_of_short hnew hshort).trans (if_pos hold)) (by simp)
    · exact State.does_of_alive hdead htodo rfl hwf ((Dev.helmIn_of_short hnew hshort).trans (if_neg hold)) (by simp)
  case release => exact hopen.does rfl rfl rfl rfl
  case kick =>
    exact ⟨fun hright => hopen.does rfl (decide_eq_true hkey) (if_pos hright) rfl,
      fun hwrong => hopen.does rfl (decide_eq_true hkey) (if_neg hwrong) rfl⟩
  case noExpiry => exact hready.does rfl rfl (Dev.helmWatchdog_of_idle hidle) rfl
  case expiry => exact hready.runs rfl rfl (if_pos ⟨hon, Bool.eq_false_iff.mp hfresh, hlate⟩)
  case backoff =>
    exact ⟨fun hstate hover => hready.does rfl rfl (if_pos ⟨hstate, hover⟩) (Dev.todo_wr _ _ _),
      fun hstate => hready.does rfl rfl (if_neg fun h => hstate h.1) rfl⟩
  case stay => exact hready.does rfl rfl (Dev.reclaimSet_of_stay hstay) (Dev.todo_wr _ _ _)
  case reclaim =>
    have hset := Dev.reclaimSet_of_running (Dev.wtrUpdate_of_running hrevert hpref hstandby hclean hmiss hpartner hruns) hruns
    exact ⟨fun hover => hready.does rfl rfl (hset.trans (if_pos hover)) (Dev.todo_wr _ _ _),
      fun hearly => hready.does rfl rfl (hset.trans (if_neg (Nat.not_le.mpr hearly))) rfl⟩
  case handover =>
    intro x
    refine ⟨fun hnot => ?_, fun hnamed hdue hstate => ?_, fun hnamed hdue hstate => ?_⟩
    · exact hready.does rfl rfl (if_neg fun h => hnot.elim (fun k => h.1 k) fun k => k h.2) rfl
    · have hover := Dev.plannedHandover_of_due hnamed hdue
      rw [Dev.helmState, if_neg hstate] at hover
      exact hready.does rfl rfl hover (by simp [Dev.wrTick])
    · have hover := Dev.plannedHandover_of_due hnamed hdue
      rw [Dev.helmState, if_pos hstate] at hover
      exact hready.runs rfl rfl hover
  case roles =>
    refine ⟨fun hnot => ?_, fun htick hwhole hnone => ?_⟩
    · exact hready.does rfl rfl (if_pos (by simpa using hnot)) rfl
    · exact hready.does rfl rfl (Dev.navRoleSwap_of_none htick hwhole hnone) (by simp)
  case mismatch =>
    exact ⟨hready.runs rfl (decide_eq_true hdie) (Dev.navError_of_both die hwhole),
      hready.runs rfl (decide_eq_true hdie) (Dev.navError_of_clean die hwhole)⟩
  case resync =>
    refine ⟨fun hother => ?_, fun hreloaded => ?_⟩
    · have hsame : s.dev.navResync die = s.dev := if_neg (Bool.eq_false_iff.mp hother)
      exact hready.does rfl (decide_eq_true hdie)
        ((congrArg (Dev.recovered · (0x340 + die)) hsame).trans (Dev.recovered_of_none _ _ hrecov)) rfl
    · intro l
      have hgone : s.dev.navResync die = ({ s.dev with hlm := { s.dev.hlm with navSync := l } } : Dev).wr HLM_NAV_STATUS.RESYNC
        (b2n (!l.isEmpty)) := if_pos hreloaded
      exact hready.does rfl (decide_eq_true hdie)
        ((congrArg (Dev.recovered · (0x340 + die)) hgone).trans (Dev.recovered_of_none _ _ (by simpa using hrecov))) (Dev.todo_wr _ _ _)

end Sys2Proof.Machine
end

section
/-!
Fault control (spec/17_fault_collector.md, R385, R387, R391 to R394).
-/
namespace Sys2Proof.Machine

/-- Register writes do not depend on the collector. -/
theorem Dev.wrs_setFlt (d : Dev) (x : Flt) (l : List (Field × Nat)) : ({ d with flt := x } : Dev).wrs l = { d.wrs l with flt := x } := by
  induction l generalizing d with
  | nil => rfl
  | cons p l ih => exact ih (d.wr p.1 p.2)

/-! ### Clearing -/

/-- Records of a half changed wait for no reaction. -/
theorem Flt.mapHalf_todo (f : Flt) (die : Nat) (g : FltRec → FltRec) : (f.mapHalf die g).todo = f.todo := by
  unfold Flt.mapHalf
  split <;> rfl

theorem Dev.clearAll_atkor (d : Dev) (cs : Nat) :
    let g (r : FltRec) : FltRec := if bit cs (r.cls - 1) then { r with cleared := true } else r
    d.clearAll 0 cs = { d with flt := { d.flt with
      logA := d.flt.logA.map (fun p => (p.1, g p.2)), fatA := if bit cs 2 then [] else d.flt.fatA.map g } } := by
  unfold Dev.clearAll
  dsimp only
  split <;> rfl

theorem Dev.clearAll_trelier (d : Dev) (cs : Nat) :
    let g (r : FltRec) : FltRec := if bit cs (r.cls - 1) then { r with cleared := true } else r
    d.clearAll 1 cs = { d with flt := { d.flt with
      logT := d.flt.logT.map (fun p => (p.1, g p.2)), fatT := if bit cs 2 then [] else d.flt.fatT.map g } } := by
  unfold Dev.clearAll
  dsimp only
  split <;> rfl

/-! ### Revocation and reactions -/

theorem Dev.softRevoke_of_key {d : Dev} {h k : Nat} (hkey : k = 0xC3E1) (hgrant : grantable h = true) (htodo : d.flt.todo = []) :
    d.softRevoke h k = { d with flt := { d.flt with todo := [.revoke h true] } } := by
  rw [Dev.softRevoke, if_pos ⟨hkey, hgrant⟩, htodo]
  rfl

theorem Dev.softRevoke_of_bad {d : Dev} {h k : Nat} (hbad : k ≠ 0xC3E1 ∨ grantable h = false) :
    d.softRevoke h k = d.wr FLT_STATUS.CFG_ERR 1 :=
  if_neg fun hgood => hbad.elim (fun hkey => hkey hgood.1) fun hgrant => Bool.false_ne_true (hgrant.symm.trans hgood.2)

/-- A listed source's entry takes codes that are allowed. -/
theorem Dev.reactWrite_of_listed {d : Dev} {src : Nat} (v : Nat) (h : srcListed src = true) :
    d.reactWrite src v =
      if reactOk src (bits v 0 3) = true ∧ reactOk src (bits v 4 3) = true ∧ (bits v 8 3 = 4 ∨ bits v 8 3 = 5) then
        d.setReg (FLT_REACT.addr src) (BitVec.ofNat 32 (v &&& 0x1777))
      else d.wr FLT_STATUS.CFG_ERR 1 := by
  rw [Dev.reactWrite, if_neg (by rw [h]; decide)]
  simp only [Bool.and_eq_true, Bool.or_eq_true, decide_eq_true_eq, and_assoc]

/-! ### Injection -/

section
variable {d : Dev} (h : d.injOpen = true)
include h

theorem Dev.injRecord_of_open (src cls ev : Nat) :
    d.injRecord src cls ev = if faultOk src cls ev then ((d.injShow src cls 0 ev).bump FLT_INJECTED.COUNT).faultInj src cls ev 0 true
      else (d.injShow src cls 0 ev).wr FLT_STATUS.CFG_ERR 1 :=
  if_neg (by rw [h]; decide)

theorem Dev.injBits_of_store {src : Nat} (cls ev type : Nat) (hstore : srcStore src = true) :
    d.injBits src cls ev type =
      Dev.bump { d.injShow src cls type ev with flt := { d.flt with injArm := d.flt.injArm ++ [(src, type)] } } FLT_INJECTED.COUNT := by
  rw [Dev.injBits, if_neg (by rw [h]; decide), if_pos hstore, Dev.injShow, Dev.wrs_flt]

theorem Dev.injBits_of_other {src : Nat} (cls ev type : Nat) (hstore : srcStore src = false) :
    d.injBits src cls ev type = (d.injShow src cls type ev).wr FLT_STATUS.CFG_ERR 1 :=
  (if_neg (by rw [h]; decide)).trans (if_neg (Bool.eq_false_iff.mp hstore))

end

theorem Dev.inj_of_closed {d : Dev} (h : d.injOpen = false) (src cls ev : Nat) :
    d.injRecord src cls ev = d ∧ d.injBits src cls ev 1 = d ∧ d.injBits src cls ev 2 = d :=
  ⟨if_pos (by rw [h]; rfl), if_pos (by rw [h]; rfl), if_pos (by rw [h]; rfl)⟩

@[simp] theorem Dev.injShow_flt (d : Dev) (src cls type ev : Nat) : (d.injShow src cls type ev).flt = d.flt := Dev.wrs_flt _ _

/-! ### The test token -/

theorem Dev.tokenDone_of_none {d : Dev} (h : d.flt.tokenBusy = none) : d.tokenDone = d := by
  rw [Dev.tokenDone, h]

/-- A check that ends shows its code. -/
def Dev.tokenShown (d : Dev) (code : Nat) : Dev :=
  d.wrs [(FLT_TEST_STATUS.BUSY, 0), (FLT_TEST_STATUS.DONE, 1), (FLT_TEST_STATUS.CODE, code)]

theorem Dev.tokenDone_of_check {d : Dev} {v : Nat} (h : d.flt.tokenBusy = some v) :
    d.tokenDone = if v % 256 = 0 then
        Dev.wrs { d.tokenShown (v % 256) with flt := { d.flt with tokenBusy := none, perms := v / 256 } } [(FLT_STATUS.TESTMODE, 1), (HLM_CTRL.HOLD, 1)]
      else Dev.wr { d.tokenShown (v % 256) with flt := { d.flt with
        tokenBusy := none, tokenRefused := min 8 (d.flt.tokenRefused + 1) } } FLT_TEST_STATUS.ERR 1 := by
  have hshown : ({ d with flt := { d.flt with tokenBusy := none } } : Dev).wrs
      [(FLT_TEST_STATUS.BUSY, 0), (FLT_TEST_STATUS.DONE, 1), (FLT_TEST_STATUS.CODE, v % 256)] =
        { d.tokenShown (v % 256) with flt := { d.flt with tokenBusy := none } } := Dev.wrs_setFlt _ _ _
  rw [Dev.tokenDone, h]
  simp only [hshown]

/-- Settles O42: the clears, the revocation, the injection and the token, each by the check that lets it through. -/
theorem faultControl : Obligations.FaultControl := by
  refine ⟨fun s hopen => ?clearOne, fun s cs hopen hcs => ?clearAll, fun s h k hopen hh hk => ?revoke, fun s hready => ?regrant,
    fun s src v hopen hsrc hv => ?react, fun s src cls ev hopen hsrc hcls hev => ?inject, fun s hopen => ?check, fun s hready => ?checked⟩
  case clearOne => exact ⟨hopen.does rfl rfl rfl rfl, hopen.does rfl rfl rfl rfl⟩
  case clearAll =>
    exact ⟨hopen.does rfl (decide_eq_true ⟨by decide, hcs⟩) (Dev.clearAll_atkor s.dev cs) rfl,
      hopen.does rfl (decide_eq_true ⟨by decide, hcs⟩) (Dev.clearAll_trelier s.dev cs) rfl⟩
  case revoke =>
    have hwf : decide (h < 65536 ∧ k < 65536) = true := decide_eq_true ⟨hh, hk⟩
    exact ⟨fun hkey hgrant => hopen.runs rfl hwf (Dev.softRevoke_of_key hkey hgrant hopen.1.2.2),
      fun hbad => hopen.does rfl hwf (Dev.softRevoke_of_bad hbad) (Dev.todo_wr _ _ _)⟩
  case regrant =>
    refine ⟨fun hslot hphase hwanted => ?_, fun hnot => ?_⟩
    · exact hready.does rfl rfl (if_pos ⟨hslot, hphase, Bool.eq_false_iff.mp hwanted⟩) rfl
    · refine hready.does rfl rfl (if_neg fun ⟨hslot, hphase, hwanted⟩ => ?_) rfl
      rcases hnot with h | h | h
      · exact h hslot
      · exact h hphase
      · exact hwanted h
  case react =>
    have hwf : decide (src < 4096 ∧ v < 4294967296) = true := decide_eq_true ⟨hsrc, hv⟩
    refine ⟨fun hnone => ?_, fun hlisted hgood => ?_, fun hlisted hbad => ?_⟩
    · exact hopen.does rfl hwf (if_pos (by rw [hnone]; rfl)) rfl
    · exact hopen.does rfl hwf ((Dev.reactWrite_of_listed v hlisted).trans (if_pos hgood)) rfl
    · exact hopen.does rfl hwf ((Dev.reactWrite_of_listed v hlisted).trans (if_neg hbad)) (Dev.todo_wr _ _ _)
  case inject =>
    have hwf : decide (src < 4096 ∧ cls < 4 ∧ ev < 256) = true := decide_eq_true ⟨hsrc, hcls, hev⟩
    refine ⟨fun hclosed => ?_, fun hinj => ?_⟩
    · obtain ⟨hrecord, hsingle, hdouble⟩ := Dev.inj_of_closed hclosed src cls ev
      exact ⟨hopen.does rfl hwf hrecord rfl, hopen.does rfl hwf hsingle rfl, hopen.does rfl hwf hdouble rfl⟩
    · have hrecord := Dev.injRecord_of_open hinj src cls ev
      refine ⟨fun hbad => ?_, fun hgood => ?_, fun hother => ⟨?_, ?_⟩, fun hstore => ⟨?_, ?_⟩⟩
      · exact hopen.does rfl hwf (hrecord.trans (if_neg (Bool.eq_false_iff.mp hbad))) (by simp)
      · exact hopen.runs rfl hwf (hrecord.trans (if_pos hgood))
      · exact hopen.does rfl hwf (Dev.injBits_of_other hinj cls ev 1 hother) (by simp)
      · exact hopen.does rfl hwf (Dev.injBits_of_other hinj cls ev 2 hother) (by simp)
      · exact hopen.does rfl hwf (Dev.injBits_of_store hinj cls ev 1 hstore) (by simp [Dev.bump])
      · exact hopen.does rfl hwf (Dev.injBits_of_store hinj cls ev 2 hstore) (by simp [Dev.bump])
  case check =>
    refine ⟨fun hbusy => ?_, fun hidle => ?_⟩
    · exact hopen.does rfl rfl (if_pos (Option.isSome_iff_ne_none.mpr hbusy)) rfl
    · exact hopen.does rfl rfl (if_neg (by rw [hidle]; decide)) (Dev.todo_wr _ _ _)
  case checked =>
    refine ⟨fun hidle => ?_, fun v hcheck => ?_⟩
    · exact hready.does rfl rfl (Dev.tokenDone_of_none hidle) rfl
    · have hdone := Dev.tokenDone_of_check hcheck
      exact ⟨fun hgood => hready.does rfl rfl (hdone.trans (if_pos hgood)) (Dev.todo_wrs _ _),
        fun hbad => hready.does rfl rfl (hdone.trans (if_neg hbad)) (Dev.todo_wr _ _ _)⟩

end Sys2Proof.Machine
end

section
/-!
Sweeps, user pages and the sextant (spec/18_soundings_and_counters.md, R402, R403, R406, R407, R409 to R411).
-/
namespace Sys2Proof.Machine

/-! ### Sweeps -/

theorem Dev.sweepPeriodic_of_due {d : Dev} (h : d.sweepDue = true) :
    d.sweepPeriodic = if d.variantOf d.tck.now ≠ 0 then d.sweepSkip else if d.snd.sweep.isNone then d.sweepBegin else d :=
  if_neg (by rw [h]; decide)

theorem Dev.sweepDone_of_none {d : Dev} (h : d.snd.sweep = none) : d.sweepDone = d := by
  rw [Dev.sweepDone, h]

/-- A sweep ends once its readings are made. -/
theorem Dev.sweepDone_of_sweep {d : Dev} {w : Sweep} (h : d.snd.sweep = some w) :
    d.sweepDone = if w.pos < w.len then d
      else ((({ d with snd := { d.snd with sweep := none, wrapped := [] } } : Dev).wr SND_STATUS.BUSY 0).bump SND_SWEEPS.COUNT).sndRecord 0 0x01
        (b2n w.snap + 2 * b2n (d.sweepWrapped w.len)) 0 w.tick (if w.snap then 0 else w.cyc.getD 0)
        (w.vals.reverse.flatMap (beBytes 8)) := by
  rw [Dev.sweepDone, h]

/-! ### User pages -/

theorem Dev.pageRead_of_closed {d : Dev} {off : Nat} (len : Nat) (h : d.pageOpen ((off - 14680064) / 4096) = false) :
    d.pageRead off len = ((d.bump SND_USER_DENY.COUNT).wr SND_STATUS.DENY 1).emit (.cpl 0 (List.replicate len 0#8)) :=
  if_neg (Bool.eq_false_iff.mp h)

/-- The four bytes of a word, off the bytes that begin with them. -/
theorem sliceD_leBytes_four (x : Nat) (r : List Byte) : sliceD 0#8 (leBytes 4 x ++ r) 0 4 = leBytes 4 x := rfl

/-- A word read from an open page. -/
theorem Dev.pageRead_of_open {d : Dev} {off : Nat} (h : d.pageOpen ((off - 14680064) / 4096) = true) (hword : off % 4 = 0) :
    d.pageRead off 4 = d.emit (.cpl 0 (leBytes 4 (d.pageWord ((off - 14680064) / 4096) (off % 4096)))) := by
  have hlow : off % 4096 % 4 = 0 := by omega
  have hround : off % 4096 / 4 * 4 = off % 4096 := by omega
  have hrange : List.range (4 / 4 + 2) = 0 :: [1, 2] := rfl
  refine (if_pos h).trans ?_
  rw [hlow, hround, hrange, List.flatMap_cons, sliceD_leBytes_four, Nat.mul_zero, Nat.add_zero]

/-! ### The time pins -/

/-- The whole second that comes in the tick is the next one. -/
theorem ceilDiv_mul_lt {a b c k : Nat} (hle : a ≤ b * k) (hlt : b * k < c) (hb : 0 < b) : ceilDiv a b * b < c := by
  have hk : ceilDiv a b ≤ k := by
    unfold ceilDiv
    have hsum : a + b - 1 < b * (k + 1) := by
      rw [Nat.mul_succ]
      omega
    exact Nat.le_of_lt_succ (Nat.div_lt_of_lt_mul hsum)
  exact lt_of_le_of_lt ((Nat.mul_le_mul_right b hk).trans_eq (Nat.mul_comm k b)) hlt

theorem Dev.ppsRise_of_second {d : Dev} {k : Nat} (hon : d.on SXT_CTRL.PPS_OUT_EN = true) (hle : d.todUnits ≤ 4000000000 * k)
    (hlt : 4000000000 * k < d.todUnits + 1536) :
    d.ppsRise = Dev.emit { d with sxt := { d.sxt with rise := some d.tck.now } } (.pps true d.tck.now) := by
  have hin := ceilDiv_mul_lt hle hlt (by decide)
  exact if_pos (by rw [hon, decide_eq_true hin]; rfl)

theorem Dev.ppsFall_of_rise {d : Dev} {t : Nat} (h : d.sxt.rise = some t) :
    d.ppsFall = if max 1 (d.rd SXT_PPS_WIDTH.TICKS) ≤ tickSub d.tck.now t then
      Dev.emit { d with sxt := { d.sxt with rise := none } } (.pps false d.tck.now) else d := by
  rw [Dev.ppsFall, h]

/-- Settles O43: a sweep by its state, a page by its grant, and a pin by its edge and the second. -/
theorem soundingsAndSextant : Obligations.SoundingsAndSextant := by
  refine ⟨fun s hopen => ?start, fun s hready => ?periodic, fun s hready hnone => ?noSweep, fun s w hready hsweep => ?done,
    fun s off len hopen hlo hhi hlen => ?page, fun s hopen => ?pageWrite, fun s adj hopen hadj => ?phase, fun s hopen => ?offset,
    fun s f t hdead htodo => ?edges, fun s hdead htodo => ?rise, fun s hdead htodo => ?fall⟩
  case start =>
    exact ⟨fun hbusy => hopen.does rfl rfl (if_pos hbusy) (Dev.todo_wr _ _ _),
      fun hidle => hopen.does rfl rfl (if_neg (Bool.eq_false_iff.mp hidle)) rfl⟩
  case periodic =>
    refine ⟨fun hnot => ?_, fun hdue hlean => ?_, fun hdue hfull hnone => ?_⟩
    · exact hready.does rfl rfl (if_pos (by rw [hnot]; rfl)) rfl
    · exact hready.does rfl rfl ((Dev.sweepPeriodic_of_due hdue).trans (if_pos hlean)) (by simp [Dev.bump])
    · refine hready.does rfl rfl ((Dev.sweepPeriodic_of_due hdue).trans ((if_neg (not_not.mpr hfull)).trans (if_pos ?_))) ?_
      · rw [hnone]
        rfl
      · simp [Dev.sweepBegin]
  case noSweep => exact hready.does rfl rfl (Dev.sweepDone_of_none hnone) rfl
  case done =>
    have hdone := Dev.sweepDone_of_sweep hsweep
    exact ⟨fun hmore => hready.does rfl rfl (hdone.trans (if_pos hmore)) rfl,
      fun hread => hready.runs rfl rfl (hdone.trans (if_neg (Nat.not_lt.mpr hread)))⟩
  case page =>
    have hwf : decide (14680064 ≤ off ∧ off < 16777216 ∧ 1 ≤ len) = true := decide_eq_true ⟨hlo, hhi, hlen⟩
    refine ⟨fun hclosed => ?_, fun hpage hword hfour => ?_⟩
    · exact hopen.doesGet rfl hwf (Dev.pageRead_of_closed len hclosed) (by simp [Dev.bump])
    · subst hfour
      exact hopen.doesGet rfl hwf (Dev.pageRead_of_open hpage hword) rfl
  case pageWrite => exact hopen.does rfl rfl rfl (by simp [Dev.bump])
  case phase =>
    exact ⟨fun hmember => hopen.does rfl (decide_eq_true hadj) (if_neg (Bool.eq_false_iff.mp hmember)) rfl,
      fun hroot => hopen.does rfl (decide_eq_true hadj) (if_pos hroot) (Dev.todo_wr _ _ _)⟩
  case offset => exact hopen.does rfl rfl rfl (Dev.todo_wr _ _ _)
  case edges =>
    refine ⟨fun hon hpol => ?_, fun hnot => ?_, fun hon => ?_, fun hoff => ?_⟩
    · exact State.does_of_alive hdead htodo rfl rfl (if_pos (by rw [hon, hpol]; exact beq_self_eq_true f)) (by simp [Dev.wrTick])
    · refine State.does_of_alive hdead htodo rfl rfl (if_neg ?_) rfl
      rcases hnot with h | h
      · simp [h]
      · simp [h]
    · exact State.does_of_alive hdead htodo rfl rfl (if_pos hon) (Dev.todo_wr _ _ _)
    · exact State.does_of_alive hdead htodo rfl rfl (if_neg (Bool.eq_false_iff.mp hoff)) rfl
  case rise =>
    exact ⟨fun k hon hle hlt => State.does_of_alive hdead htodo rfl rfl (Dev.ppsRise_of_second hon hle hlt) rfl,
      fun hoff => State.does_of_alive hdead htodo rfl rfl (if_neg (by simp [hoff])) rfl⟩
  case fall =>
    refine ⟨fun hnone => ?_, fun t hrise hlate => ?_, fun t hrise hearly => ?_⟩
    · refine State.does_of_alive hdead htodo rfl rfl ?_ rfl
      rw [Dev.ppsFall, hnone]
    · exact State.does_of_alive hdead htodo rfl rfl ((Dev.ppsFall_of_rise hrise).trans (if_pos hlate)) rfl
    · exact State.does_of_alive hdead htodo rfl rfl ((Dev.ppsFall_of_rise hrise).trans (if_neg (Nat.not_le.mpr hearly))) rfl

end Sys2Proof.Machine
end

section
/-!
The staging of a firmware image and the boot flash commands (spec/19_firmware_update.md, R416, R418, R419).
-/
namespace Sys2Proof.Machine

/-! ### The engine's registers -/

/-- A write elsewhere leaves the engine's state. -/
theorem Dev.fState_wr (d : Dev) (f : Field) (v : Nat) (h : FWU_STATUS.addr ≠ f.addr) : (d.wr f v).fState = d.fState :=
  Dev.rd_wr_addr _ _ _ _ h

@[simp] theorem Dev.setFState_flt (d : Dev) (x : Nat) : (d.setFState x).flt = d.flt := by simp [Dev.setFState]

@[simp] theorem Dev.fwuFail_flt (d : Dev) (code : Nat) : (d.fwuFail code).flt = d.flt := by simp [Dev.fwuFail]

@[simp] theorem Dev.fwuRefuse_flt (d : Dev) (code : Nat) : (d.fwuRefuse code).flt = d.flt := by simp [Dev.fwuRefuse, Dev.bump]

@[simp] theorem Dev.fwuDone_flt (d : Dev) : d.fwuDone.flt = d.flt := by simp [Dev.fwuDone]

/-! ### The header -/

theorem Dev.fwGoHdr_of_busy {d : Dev} (src : Nat) (h : d.fState ≠ fIdle) : d.fwGoHdr src = d.fwuRefuse 0x0F := if_pos h

theorem Dev.fwGoHdr_of_convoy {d : Dev} (h : d.fState = fIdle) : d.fwGoHdr 2 = d := (if_neg (not_not.mpr h)).trans (if_pos rfl)

/-- From IDLE the header of a window (0) or of CXL (1) is taken up. -/
theorem Dev.fwGoHdr_of_idle {d : Dev} {src : Nat} (h : d.fState = fIdle) (hsrc : src < 2) :
    d.fwGoHdr src = Dev.setFState { d with fwu := { d.fwu with
      src, hdr := if src = 0 then (List.range 2048).flatMap fun n => beBytes 4 (d.rd (FWU_HDR.DATA n)) else [], blocks := [],
      next := 0, reading := false, cxlErr := false, boot := d.bootWaits } } fHdrCheck := by
  have hone : (if src = 1 then 1 else 0) = src := by
    split <;> omega
  rw [Dev.fwGoHdr, if_neg (not_not.mpr h), if_neg (by omega), hone]

section
variable {d : Dev} (hstate : d.fState = fHdrCheck) (hsrc : d.fwu.src ≠ 2) (herr : d.fwu.cxlErr = false) (hlen : 8192 ≤ d.fwu.hdr.length)
include hstate hsrc herr hlen

/-- A whole header of no transfer is checked. -/
theorem Dev.fwHdrDone_of_bad (hbad : d.hdrCheck d.fwu.boot d.fwu.hdr ≠ 0) :
    d.fwHdrDone = (d.fwuRefuse (d.hdrCheck d.fwu.boot d.fwu.hdr)).setFState fIdle := by
  rw [Dev.fwHdrDone, if_neg (not_not.mpr hstate), if_neg (Bool.eq_false_iff.mp herr), if_neg (Nat.not_lt.mpr hlen), if_pos hbad]
  exact if_neg hsrc

/-- The state in which an image's payload moves. -/
def Dev.stagingStarted (d : Dev) : Dev :=
  (Dev.setFState { d with fwu := { d.fwu with blocks := [], next := 0, mem := [], memOk := false } } fStaging).wr FWU_PROGRESS.BLOCKS 0

theorem Dev.fwHdrDone_of_good (hgood : d.hdrCheck d.fwu.boot d.fwu.hdr = 0) :
    d.fwHdrDone = if d.fwu.boot then d.stagingStarted
      else (d.stagingStarted.flashErase (bankBase d.stagingStarted.secondary) 8192).flashErase (bankBase d.stagingStarted.secondary + 0x2000)
        (ceilDiv (0x2000 + (hdrImg d.fwu.hdr).payload) 65536 * 65536 - 0x2000) := by
  rw [Dev.fwHdrDone, if_neg (not_not.mpr hstate), if_neg (Bool.eq_false_iff.mp herr), if_neg (Nat.not_lt.mpr hlen),
    if_neg (not_not.mpr hgood), if_neg hsrc]
  rfl

end

/-! ### The payload -/

theorem Dev.fwDataBlock_of_other {d : Dev} (b : Nat) (h : d.fState ≠ fStaging ∨ d.fwu.src ≠ 0) : d.fwDataBlock b = d.fwuRefuse 0x0F :=
  if_pos h

theorem Dev.fwDataBlock_of_window {d : Dev} (b : Nat) (hstate : d.fState = fStaging) (hsrc : d.fwu.src = 0) :
    d.fwDataBlock b = if (hdrImg d.fwu.hdr).payload ≤ 4096 * b then d
      else
        let e := d.putPayload (4096 * b) ((List.range 1024).flatMap fun n => beBytes 4 (d.rd (FWU_DATA.DATA n)))
        let blocks := b :: e.fwu.blocks.filter (· != b)
        Dev.wr { e with fwu := { e.fwu with blocks } } FWU_PROGRESS.BLOCKS blocks.length :=
  if_neg fun h => h.elim (fun k => k hstate) fun k => k hsrc

section
variable {d : Dev} (hstate : d.fState = fStaging) (herr : d.fwu.cxlErr = false)
include hstate herr

theorem Dev.fwStagingDone_of_more (ok : Bool) (hmore : d.payloadIn = false) : d.fwStagingDone ok = d := by
  rw [Dev.fwStagingDone, if_neg (not_not.mpr hstate), if_neg (Bool.eq_false_iff.mp herr), if_pos (by rw [hmore]; rfl)]

/-- A whole payload for the secondary bank, of no transfer, is checked. -/
theorem Dev.fwStagingDone_of_whole (hin : d.payloadIn = true) (hboot : d.fwu.boot = false) (hsrc : d.fwu.src ≠ 2) :
    d.fwStagingDone true = if digestOk d.fwu.hdr d.payloadMoved then
        ((d.flashProgram (bankBase d.secondary) d.fwu.hdr).setFState fStaged).fwuDone.wr FWU_STG_VER.VERSION (hdrImg d.fwu.hdr).version
      else (d.fwuRefuse 0x0A).setFState fIdle := by
  rw [Dev.fwStagingDone, if_neg (not_not.mpr hstate), if_neg (Bool.eq_false_iff.mp herr), if_neg (by rw [hin]; decide),
    if_neg (by simp)]
  cases digestOk d.fwu.hdr d.payloadMoved with
  | false => simp only [Bool.not_false, Bool.false_eq_true, if_true, if_false, if_neg hsrc]
  | true =>
    rw [if_neg (by decide : ¬ (!true) = true), if_pos rfl, if_neg hsrc]
    exact if_neg (Bool.eq_false_iff.mp hboot)

end

/-! ### The boot flash -/

/-- The command that an OP of FWU_FL_CMD starts. -/
def Dev.flCmd (d : Dev) (op : Nat) : FlCmd :=
  { op, addr := d.rd FWU_FL_ADDR.ADDR, data := (List.range 64).flatMap fun n => beBytes 4 (d.rd (FWU_DATA.DATA n)),
    code := if op = 1 then 0 else d.flashRefusal (d.rd FWU_FL_ADDR.ADDR) }

section
variable {d : Dev} (a op : Nat)

/-- The address written leaves BUSY. -/
theorem Dev.on_busy_wr_addr : (d.wr FWU_FL_ADDR.ADDR a).on FWU_FL_STATUS.BUSY = d.on FWU_FL_STATUS.BUSY := by
  unfold Dev.on
  rw [Dev.rd_wr_addr _ _ _ _ (by decide)]

theorem Dev.flashCmd_of_busy (h : d.on FWU_FL_STATUS.BUSY = true) :
    (d.wr FWU_FL_ADDR.ADDR a).flashCmd op = ((d.wr FWU_FL_ADDR.ADDR a).wr FWU_FL_STATUS.ERR 1).wr FWU_FL_STATUS.CODE 0x03 :=
  if_pos ((d.on_busy_wr_addr a).trans h)

theorem Dev.flashCmd_of_idle (h : d.on FWU_FL_STATUS.BUSY = false) :
    (d.wr FWU_FL_ADDR.ADDR a).flashCmd op =
      Dev.wr { d.wr FWU_FL_ADDR.ADDR a with fwu := { (d.wr FWU_FL_ADDR.ADDR a).fwu with fl := some ((d.wr FWU_FL_ADDR.ADDR a).flCmd op) } }
        FWU_FL_STATUS.BUSY 1 :=
  if_neg (by rw [d.on_busy_wr_addr a, h]; decide)

end

theorem Dev.flashDone_of_none {d : Dev} (ok : Bool) (h : d.fwu.fl = none) : d.flashDone ok = d := by
  rw [Dev.flashDone, h]

/-- A command that ends is no longer in progress. -/
def Dev.flashIdle (d : Dev) : Dev := ({ d with fwu := { d.fwu with fl := none } } : Dev).wr FWU_FL_STATUS.BUSY 0

theorem Dev.flashDone_of_cmd {d : Dev} {c : FlCmd} (ok : Bool) (h : d.fwu.fl = some c) :
    d.flashDone ok = if c.code ≠ 0 then (d.flashIdle.wr FWU_FL_STATUS.ERR 1).wr FWU_FL_STATUS.CODE c.code
      else if !ok then (d.flashIdle.wr FWU_FL_STATUS.ERR 1).wr FWU_FL_STATUS.CODE 0x02
      else ((if c.op = 1 then d.flashIdle.showData (d.flashIdle.fwu.flashRead c.addr 256)
        else if c.op = 2 then d.flashIdle.flashProgram c.addr c.data
        else d.flashIdle.flashErase (c.addr / 65536 * 65536) 65536).wr FWU_FL_STATUS.DONE 1).wr FWU_FL_STATUS.CODE 0 := by
  rw [Dev.flashDone, h]
  rfl

@[simp] theorem Dev.flashIdle_flt (d : Dev) : d.flashIdle.flt = d.flt := Dev.wr_flt _ _ _

/-- Settles O44: each command by the engine's state, then by the check of the header, of the payload or of the flash. -/
theorem updateStaging : Obligations.UpdateStaging := by
  refine ⟨fun s src hopen hsrc hbusy => ?busy, fun s hopen hidle => ?header, fun s hready => ?checked, fun s b hopen hb => ?block,
    fun s ok hready => ?staged, fun s a hopen ha => ?flash, fun s ok hready => ?flashDone⟩
  case busy =>
    have hstate := (s.dev.fState_wr FWU_CTRL.SRC src (by decide)).trans_ne hbusy
    exact hopen.does rfl (decide_eq_true hsrc) (Dev.fwGoHdr_of_busy src hstate) (by simp)
  case header =>
    have hstate (src : Nat) : (s.dev.wr FWU_CTRL.SRC src).fState = fIdle := (s.dev.fState_wr FWU_CTRL.SRC src (by decide)).trans hidle
    refine ⟨?_, ?_, ?_⟩
    · exact hopen.does rfl rfl (Dev.fwGoHdr_of_convoy (hstate 2)) (by simp)
    · have hdone := Dev.fwGoHdr_of_idle (src := 1) (hstate 1) (by decide)
      rw [if_neg (by decide)] at hdone
      exact hopen.does rfl rfl hdone (by simp)
    · have hdone := Dev.fwGoHdr_of_idle (src := 0) (hstate 0) (by decide)
      rw [if_pos rfl] at hdone
      exact hopen.does rfl rfl hdone (by simp)
  case checked =>
    refine ⟨fun hother => ?_, fun hstate hsrc herr hlen hbad => ?_, fun hstate hsrc herr hlen hgood => ?_⟩
    · exact hready.does rfl rfl (if_pos hother) rfl
    · exact hready.does rfl rfl (Dev.fwHdrDone_of_bad hstate hsrc herr hlen hbad) (by simp)
    · have hdone := Dev.fwHdrDone_of_good hstate hsrc herr hlen hgood
      refine ⟨fun hboot => ?_, fun hboot => ?_⟩
      · exact hready.runs rfl rfl (hdone.trans (if_pos hboot))
      · exact hready.runs rfl rfl (hdone.trans (if_neg (Bool.eq_false_iff.mp hboot)))
  case block =>
    have hsame := s.dev.fState_wr FWU_DATA_CMD.BLOCK b (by decide)
    intro d
    refine ⟨fun hother => ?_, fun hstate hsrc hbeyond => ?_, fun hstate hsrc hinside => ?_⟩
    · exact hopen.does rfl (decide_eq_true hb) (Dev.fwDataBlock_of_other b (hother.imp_left hsame.trans_ne)) (by simp [d])
    · exact hopen.does rfl (decide_eq_true hb) ((Dev.fwDataBlock_of_window b (hsame.trans hstate) hsrc).trans (if_pos hbeyond)) (by simp [d])
    · exact hopen.runs rfl (decide_eq_true hb)
        ((Dev.fwDataBlock_of_window b (hsame.trans hstate) hsrc).trans (if_neg (Nat.not_le.mpr hinside)))
  case staged =>
    refine ⟨fun hother => ?_, fun hstate herr hmore => ?_, fun hstate herr hin hboot hsrc => ?_⟩
    · exact hready.does rfl rfl (if_pos hother) rfl
    · exact hready.does rfl rfl (Dev.fwStagingDone_of_more hstate herr ok hmore) rfl
    · have hdone := Dev.fwStagingDone_of_whole hstate herr hin hboot hsrc
      refine ⟨fun hbad => ?_, fun hgood => ?_⟩
      · exact hready.does rfl rfl (hdone.trans (if_neg (Bool.eq_false_iff.mp hbad))) (by simp)
      · exact hready.runs rfl rfl (hdone.trans (if_pos hgood))
  case flash =>
    simp only [List.forall_mem_cons, List.not_mem_nil, false_implies, implies_true, and_true]
    refine ⟨fun hbusy => ⟨?_, ?_, ?_⟩, fun hidle => ⟨?_, ?_, ?_⟩⟩
    · exact hopen.does rfl (decide_eq_true ha) (Dev.flashCmd_of_busy a 1 hbusy) (by simp)
    · exact hopen.does rfl (decide_eq_true ha) (Dev.flashCmd_of_busy a 2 hbusy) (by simp)
    · exact hopen.does rfl (decide_eq_true ha) (Dev.flashCmd_of_busy a 3 hbusy) (by simp)
    · exact hopen.does rfl (decide_eq_true ha) (Dev.flashCmd_of_idle a 1 hidle) (by simp)
    · exact hopen.does rfl (decide_eq_true ha) (Dev.flashCmd_of_idle a 2 hidle) (by simp)
    · exact hopen.does rfl (decide_eq_true ha) (Dev.flashCmd_of_idle a 3 hidle) (by simp)
  case flashDone =>
    refine ⟨fun hnone => ?_, fun c hcmd => ?_⟩
    · exact hready.does rfl rfl (Dev.flashDone_of_none ok hnone) rfl
    · have hdone := fun ok => Dev.flashDone_of_cmd ok hcmd
      intro d
      refine ⟨fun hrefused => ?_, fun hgood => ?_, fun hgood hop => ?_, fun hgood hop => ?_⟩
      · exact hready.does rfl rfl ((hdone ok).trans (if_pos hrefused)) (by simp [d])
      · exact hready.does rfl rfl ((hdone false).trans ((if_neg (not_not.mpr hgood)).trans (if_pos rfl))) (by simp [d])
      all_goals have htrue := (hdone true).trans ((if_neg (not_not.mpr hgood)).trans (if_neg (by decide)))
      · rw [if_neg (by omega), if_pos hop] at htrue
        exact hready.runs rfl rfl htrue
      · rw [if_neg (by omega), if_neg (by omega)] at htrue
        exact hready.runs rfl rfl htrue

end Sys2Proof.Machine
end

section
/-!
The load, the activation, the trial and the confirmation of a staged image (spec/19_firmware_update.md, R422, R425 to R431).
-/
namespace Sys2Proof.Machine

/-! ### The load -/

@[simp] theorem Dev.loadEnd_flt (d : Dev) (code : Nat) : (d.loadEnd code).flt = d.flt := by simp [Dev.loadEnd]

theorem Dev.fwLoad_of_staged {d : Dev} (h : d.fState = fStaged) : d.fwLoad = d.loadStart false := if_pos h

theorem Dev.fwLoad_of_other {d : Dev} (h : d.fState ≠ fStaged) : d.fwLoad = d.fwuRefuse 0x0F := if_neg h

@[simp] theorem Dev.loadStart_flt (d : Dev) (revert : Bool) : (d.loadStart revert).flt = d.flt := by simp [Dev.loadStart]

theorem Dev.fwLoadDone_of_other {d : Dev} (err : Bool) (h : d.fState ≠ fLoading) : d.fwLoadDone err = d := if_pos h

theorem Dev.fwLoadDone_of_error {d : Dev} (h : d.fState = fLoading) : d.fwLoadDone true = d.loadEnd 0x10 :=
  (if_neg (not_not.mpr h)).trans (if_pos rfl)

/-- The state in which the cores hold the new image. -/
def Dev.loadedImage (d : Dev) (i : Img) : Dev :=
  ((Dev.setFState { d with fwu := { d.fwu with load := some i } } fLoaded).wr FWU_PROGRESS.BLOCKS (i.payload / 4096)).fwuDone

@[simp] theorem Dev.loadedImage_flt (d : Dev) (i : Img) : (d.loadedImage i).flt = d.flt := by simp [Dev.loadedImage]

theorem Dev.fwLoadDone_of_bad {d : Dev} (h : d.fState = fLoading) (hbad : digestOk (d.bankHdr d.loadBank) (d.bankPayload d.loadBank) = false) :
    d.fwLoadDone false = d.loadEnd 0x0A :=
  (if_neg (not_not.mpr h)).trans ((if_neg Bool.false_ne_true).trans (if_pos (by rw [hbad]; rfl)))

theorem Dev.fwLoadDone_of_good {d : Dev} (h : d.fState = fLoading) (hgood : digestOk (d.bankHdr d.loadBank) (d.bankPayload d.loadBank) = true) :
    d.fwLoadDone false = d.loadedImage (hdrImg (d.bankHdr d.loadBank)) :=
  (if_neg (not_not.mpr h)).trans ((if_neg Bool.false_ne_true).trans (if_neg (by rw [hgood]; decide)))

/-! ### The activation -/

theorem Dev.fwActivate_of_refused {d : Dev} (h : d.fwu.load = none ∨ d.fState ≠ fLoaded) : d.fwActivate = d.fwuRefuse 0x0F := by
  unfold Dev.fwActivate
  split
  next i hload => exact if_pos (h.resolve_left (by simp [hload]))
  next => rfl

theorem Dev.fwActivate_of_loaded {d : Dev} {i : Img} (hload : d.fwu.load = some i) (hstate : d.fState = fLoaded) (hgood : d.hdrCheckEnv i = 0) :
    d.fwActivate =
      if (!tickFuture (d.rdPair FWU_ACT_TICK_LO.TICK FWU_ACT_TICK_HI.TICK) d.tck.now ||
          tickSub (d.rdPair FWU_ACT_TICK_LO.TICK FWU_ACT_TICK_HI.TICK) d.tck.now < d.holead + 2) then d.fwuRefuse 0x16
      else { d with fwu := { d.fwu with x := some (d.rdPair FWU_ACT_TICK_LO.TICK FWU_ACT_TICK_HI.TICK) } } := by
  rw [Dev.fwActivate, hload]
  exact (if_neg (not_not.mpr hstate)).trans (if_neg (not_not.mpr hgood))

theorem Dev.fwAbort_of_idle {d : Dev} (h : d.fState = fIdle) : d.fwAbort = d.fwuRefuse 0x0F := by
  rw [Dev.fwAbort, h, if_neg (by decide), if_neg (by decide)]

theorem Dev.fwAbort_of_staging {d : Dev} (h : d.fState = fStaging) (hsrc : d.fwu.src ≠ 2) :
    d.fwAbort = (d.fwuFail 0x12).setFState fIdle := by
  rw [Dev.fwAbort, if_pos h, if_neg hsrc]
  rfl

theorem Dev.fwAbort_of_load {d : Dev} (h : d.fState = fLoading ∨ d.fState = fLoaded ∨ d.fState = fHandover) : d.fwAbort = d.loadEnd 0x12 := by
  have hother : d.fState ≠ fStaging := by
    rcases h with h | h | h <;> rw [h] <;> decide
  rw [Dev.fwAbort, if_neg hother, if_pos h]

theorem Dev.fwRevert_of_other {d : Dev} (h : d.fState ≠ fTrial) : d.fwRevert = d.fwuRefuse 0x0F := if_pos h

theorem Dev.fwRevert_of_trial {d : Dev} {o r : Img} (h : d.fState = fTrial) (hold : d.fwu.old = some o) (hrun : d.fwu.run = some r) :
    d.fwRevert = if o.setfLow ≤ r.setfProd ∧ r.setfProd ≤ o.setfHigh then d.loadStart true else d.fwuRefuse 0x14 := by
  rw [Dev.fwRevert, if_neg (not_not.mpr h), hold, hrun]

/-! ### The transfer to a neighbour -/

theorem Dev.txStart_of_busy {d : Dev} (peer bank : Nat) (h : d.fwu.tx ≠ none) : d.txStart peer bank = d.fwuRefuse 0x0F :=
  if_pos (Option.isSome_iff_ne_none.mpr h)

/-- The transfer of a bank's image to a device, before its first message. -/
def Dev.txNew (d : Dev) (peer bank : Nat) : TxXfer :=
  { peer, xid := d.fwu.xid, bank, len := 8192 + (hdrImg (d.bankHdr bank)).payload, next := 0, acked := 0, accepted := false, last := d.tck.now,
    tries := 0 }

theorem Dev.txStart_of_idle {d : Dev} (peer bank : Nat) (h : d.fwu.tx = none) :
    d.txStart peer bank =
      Dev.txPump { d with fwu := { d.fwu with tx := some (d.txNew peer bank), xid := (d.fwu.xid + 1) % 65536 } } 74 :=
  if_neg (by rw [h]; decide)

/-! ### The handover and the switch -/

theorem Dev.fwHandoverStart_of_none {d : Dev} (h : d.fwu.x = none) : d.fwHandoverStart = d := by
  rw [Dev.fwHandoverStart, h]

theorem Dev.fwHandoverStart_of_due {d : Dev} (hstate : d.fState = fLoaded) (hx : d.fwu.x = some (tickAdd d.tck.now d.holead)) :
    d.fwHandoverStart = (d.setFState fHandover).wr FWU_STATUS.HO_REQ 1 := by
  rw [Dev.fwHandoverStart, hx]
  exact if_pos ⟨hstate, rfl⟩

/-- A record of at most 4 MiB is kept whole. -/
theorem Dev.fwHandoverReady_of_handover {d : Dev} (die : Nat) {r : List Byte} (h : d.fState = fHandover) (hlen : r.length ≤ 4194304) :
    d.fwHandoverReady die r = if die = 0 then Dev.wr { d with fwu := { d.fwu with hoA := r } } FWU_HO.READY_A 1
      else Dev.wr { d with fwu := { d.fwu with hoT := r } } FWU_HO.READY_T 1 := by
  rw [Dev.fwHandoverReady, if_neg (not_not.mpr h), List.take_of_length_le hlen]

/-- The handover over, before its success is looked at. -/
def Dev.handoverOver (d : Dev) : Dev :=
  Dev.wrs { d with fwu := { d.fwu with x := none } } [(FWU_STATUS.HO_REQ, 0), (FWU_HO.READY_A, 0), (FWU_HO.READY_T, 0)]

@[simp] theorem Dev.handoverOver_flt (d : Dev) : d.handoverOver.flt = d.flt := Dev.wrs_flt _ _

theorem Dev.fwSwitch_of_other {d : Dev} (h : d.fState ≠ fHandover ∨ d.fwu.x ≠ some d.tck.now) : d.fwSwitch = d := if_pos h

section
variable {d : Dev} (hstate : d.fState = fHandover) (hx : d.fwu.x = some d.tck.now)
include hstate hx

theorem Dev.fwSwitch_of_unready (h : d.on FWU_HO.READY_A = false ∨ d.on FWU_HO.READY_T = false) :
    d.fwSwitch = (d.handoverOver.fwuFail 0x11).setFState fLoaded := by
  have hready : (d.on FWU_HO.READY_A && d.on FWU_HO.READY_T) = false := Bool.and_eq_false_iff.mpr h
  rw [Dev.fwSwitch, if_neg (by simp [hstate, hx]), hready]
  rfl

/-- The new image is the one that runs, and the old one is kept. -/
def Dev.imageSwitched (d : Dev) (i : Img) : Dev :=
  { d.handoverOver with fwu := { d.handoverOver.fwu with
    old := d.fwu.run, run := some i, load := none, held := d.fwu.run.bind fun r => d.handoverOver.heldSlot r.setfProd } }

theorem Dev.fwSwitch_of_ready {i : Img} (ha : d.on FWU_HO.READY_A = true) (ht : d.on FWU_HO.READY_T = true) (hload : d.fwu.load = some i)
    (hrevert : d.fwu.revert = false) :
    d.fwSwitch = ((([0, 1].foldl (fun (d : Dev) die => d.wr (navDriver die) (1 - d.rd (navDriver die))) (d.imageSwitched i)).wr
      FWU_RUN_VER.VERSION i.version).setFState fResync).versionSend := by
  have hready : (d.on FWU_HO.READY_A && d.on FWU_HO.READY_T) = true := by rw [ha, ht]; rfl
  rw [Dev.fwSwitch, if_neg (by simp [hstate, hx]), hready]
  simp only [Dev.imageSwitched, Dev.handoverOver, Dev.wrs_cons, Dev.wrs_nil, Dev.wr_fwu, hload, hrevert, Bool.false_eq_true, if_false]

end

theorem Dev.fwResyncDone_of_other {d : Dev} (h : d.fState ≠ fResync) : d.fwResyncDone = d := if_pos h

/-- After a new image's switch the pairs are whole again; nothing else of the engine changes. -/
theorem Dev.fwResyncDone_of_new {d : Dev} (h : d.fState = fResync) (hrevert : d.fwu.revert = false) :
    d.fwResyncDone = (Dev.setFState { d with fwu := { d.fwu with split := false } } fTrial).fwuDone := by
  rw [Dev.fwResyncDone, if_neg (not_not.mpr h)]
  simp only [hrevert, Bool.false_eq_true, if_false]

/-! ### The confirmation -/

theorem Dev.fwConfirm_of_other {d : Dev} {k : Nat} (ok : Bool) (h : k ≠ 0x7E3B) : d.fwConfirm k ok = d := if_pos h

/-- The fuses of an image that is confirmed, blown. -/
def Dev.fusesBlown (d : Dev) (i : Img) : Dev :=
  Dev.wrs { d with fwu := { d.fwu with svn := max d.fwu.svn i.svn, revoked := d.fwu.revoked ||| i.revoke } }
    [(FWU_FUSE.SVN, max d.fwu.svn i.svn), (FWU_FUSE.REVOKED, d.fwu.revoked ||| i.revoke)]

@[simp] theorem Dev.fusesBlown_flt (d : Dev) (i : Img) : (d.fusesBlown i).flt = d.flt := Dev.wrs_flt _ _

@[simp] theorem Dev.flashErase_flt (d : Dev) (a n : Nat) : (d.flashErase a n).flt = d.flt := rfl

theorem Dev.fwConfirm_of_trial {d : Dev} (h : d.fState = fTrial) :
    d.fwConfirm 0x7E3B true = ((d.fusesBlown (hdrImg (d.bankHdr d.secondary))).flashErase
      (bankBase (d.fusesBlown (hdrImg (d.bankHdr d.secondary))).primary) 8192).setFState fConfirming := by
  rw [Dev.fwConfirm, if_neg (by decide), if_pos h]
  rfl

theorem Dev.fwConfirmDone_of_other {d : Dev} (h : d.fState ≠ fConfirming) : d.fwConfirmDone = d := if_pos h

/-- Settles O45: each command by the engine's state, then by what it checks before it changes it. -/
theorem updateActivation : Obligations.UpdateActivation := by
  refine ⟨fun s hopen => ?load, fun s err hready => ?loadDone, fun s hopen => ?activate, fun s hopen => ?abort, fun s hopen => ?revert,
    fun s dst b hopen hdst hb => ?send, fun s hready => ?handover, fun s r hready hlen hstate => ?record, fun s hready => ?switch,
    fun s hready => ?resync, fun s k ok hopen hk => ?confirm, fun s hready => ?confirmed⟩
  case load =>
    refine ⟨fun hstaged => ?_, fun hother => ?_⟩
    · exact hopen.does rfl rfl (Dev.fwLoad_of_staged hstaged) (by simp)
    · exact hopen.does rfl rfl (Dev.fwLoad_of_other hother) (by simp)
  case loadDone =>
    refine ⟨fun hother => ?_, fun hloading => ?_, fun hloading => ⟨fun hbad => ?_, fun hgood => ?_⟩⟩
    · exact hready.does rfl rfl (Dev.fwLoadDone_of_other err hother) rfl
    · exact hready.does rfl rfl (Dev.fwLoadDone_of_error hloading) (by simp)
    · exact hready.does rfl rfl (Dev.fwLoadDone_of_bad hloading hbad) (by simp)
    · exact hready.does rfl rfl (Dev.fwLoadDone_of_good hloading hgood) (by simp)
  case activate =>
    refine ⟨fun hrefused => ?_, fun i hload hstate hgood => ?_⟩
    · exact hopen.does rfl rfl (Dev.fwActivate_of_refused hrefused) (by simp)
    · have hdone := Dev.fwActivate_of_loaded hload hstate hgood
      refine ⟨fun hnear => ?_, fun hfuture hfar => ?_⟩
      · exact hopen.does rfl rfl (hdone.trans (if_pos (by simpa using hnear))) (by simp)
      · exact hopen.does rfl rfl (hdone.trans (if_neg (by simpa using ⟨hfuture, hfar⟩))) rfl
  case abort =>
    refine ⟨fun hidle => ?_, fun hstaging hsrc => ?_, fun hload => ?_⟩
    · exact hopen.does rfl rfl (Dev.fwAbort_of_idle hidle) (by simp)
    · exact hopen.does rfl rfl (Dev.fwAbort_of_staging hstaging hsrc) (by simp)
    · exact hopen.does rfl rfl (Dev.fwAbort_of_load hload) (by simp)
  case revert =>
    refine ⟨fun hother => ?_, fun o r htrial hold hrun => ?_⟩
    · exact hopen.does rfl rfl (Dev.fwRevert_of_other hother) (by simp)
    · have hdone := Dev.fwRevert_of_trial htrial hold hrun
      refine ⟨fun hlow hhigh => ?_, fun hout => ?_⟩
      · exact hopen.does rfl rfl (hdone.trans (if_pos ⟨hlow, hhigh⟩)) (by simp)
      · exact hopen.does rfl rfl (hdone.trans (if_neg (by omega))) (by simp)
  case send =>
    have hwf : decide (dst < 65536 ∧ b < 2) = true := decide_eq_true ⟨hdst, hb⟩
    intro d
    refine ⟨fun hbusy => ?_, fun hidle => ?_⟩
    · exact hopen.does rfl hwf (Dev.txStart_of_busy dst _ hbusy) (by simp [d])
    · exact hopen.runs rfl hwf (Dev.txStart_of_idle dst _ hidle)
  case handover =>
    refine ⟨fun hnone => ?_, fun hstate hx => ?_⟩
    · exact hready.does rfl rfl (Dev.fwHandoverStart_of_none hnone) rfl
    · exact hready.does rfl rfl (Dev.fwHandoverStart_of_due hstate hx) (by simp)
  case record =>
    have hdone := fun die => Dev.fwHandoverReady_of_handover die hstate hlen
    refine ⟨?_, ?_⟩
    · exact hready.does rfl (decide_eq_true ⟨by decide, hlen⟩) ((hdone 0).trans (if_pos rfl)) (by simp)
    · exact hready.does rfl (decide_eq_true ⟨by decide, hlen⟩) ((hdone 1).trans (if_neg (by decide))) (by simp)
  case switch =>
    refine ⟨fun hother => ?_, fun hstate hx => ?_⟩
    · exact hready.does rfl rfl (Dev.fwSwitch_of_other hother) rfl
    · intro d
      refine ⟨fun hunready => ?_, fun i ha ht hload hrevert => ?_⟩
      · exact hready.does rfl rfl (Dev.fwSwitch_of_unready hstate hx hunready) (by simp [d])
      · exact hready.runs rfl rfl (Dev.fwSwitch_of_ready hstate hx ha ht hload hrevert)
  case resync =>
    refine ⟨fun hother => ?_, fun hstate hrevert => ?_⟩
    · exact hready.does rfl rfl (Dev.fwResyncDone_of_other hother) rfl
    · exact hready.does rfl rfl (Dev.fwResyncDone_of_new hstate hrevert) (by simp)
  case confirm =>
    refine ⟨fun hkey => ?_, fun hkey htrial => ?_⟩
    · exact hopen.does rfl (decide_eq_true hk) (Dev.fwConfirm_of_other ok hkey) rfl
    · subst hkey
      exact hopen.does rfl (decide_eq_true hk) (Dev.fwConfirm_of_trial htrial) (by simp)
  case confirmed =>
    refine ⟨fun hother => ?_, fun hstate => ?_⟩
    · exact hready.does rfl rfl (Dev.fwConfirmDone_of_other hother) rfl
    · exact hready.runs rfl rfl (if_neg (not_not.mpr hstate))

end Sys2Proof.Machine
end

section
/-!
The relay of a firmware image along the convoy (spec/19_firmware_update.md, R420 to R423).
-/
namespace Sys2Proof.Machine

/-- On a port that is not looked at a relay message does nothing. -/
theorem Dev.fwrRx_of_deaf {d : Dev} {m : FwrMsg} (h : d.hears m.port = false) (op : Nat) (f : Dev → Dev) : d.fwrRx op m f = d :=
  Dev.cvyRx_of_deaf _ h

/-- A relay message for this device, on a port that is looked at, is counted and consumed. -/
theorem Dev.fwrRx_here {d : Dev} {m : FwrMsg} (hhears : d.hears m.port = true) (hdst : m.dst = 0) (op : Nat) (f : Dev → Dev) :
    d.fwrRx op m f = f (d.heard m.port) := by
  rw [Dev.fwrRx, Dev.cvyRx_of_hears _ hhears, hdst, Dev.cvyCarry_local]

/-! ### What each message does

`d` receives the message and consumes it as `e`. -/

section
variable {d e : Dev} {m : FwrMsg} (hhere : ∀ op f, d.fwrRx op m f = f e)
include hhere

theorem Dev.fwrVersion_of_stranger (h : e.nbrPort m.src = none) : d.fwrVersion m = e := by
  rw [Dev.fwrVersion, hhere]
  simp only [h]

/-- The version that a neighbour's message shows. -/
def Dev.versionShown (d : Dev) (m : FwrMsg) (n : Nat) : Dev :=
  d.wrs [(FWU_NBR_VER.VERSION n, m.arg), (FWU_NBR_INFO.PROTO n, ofBe (sliceD 0#8 m.data 4 2)), (FWU_NBR_INFO.VALID n, 1)]

/-- A device that runs no image keeps a neighbour's version and compares nothing with it. -/
theorem Dev.fwrVersion_of_neighbour {n : Nat} (h : e.nbrPort m.src = some n) (hrun : e.fwu.run = none) :
    d.fwrVersion m = { e.versionShown m n with fwu := { (e.versionShown m n).fwu with
      nbrMin := SMap.set 0 (e.versionShown m n).fwu.nbrMin n (ofBe (sliceD 0#8 m.data 0 4)) } } := by
  rw [Dev.fwrVersion, hhere]
  simp only [h, Dev.versionShown, Dev.wrs_cons, Dev.wrs_nil, Dev.wr_fwu, hrun]

/-! #### OFFER and DATA, to a receiver -/

/-- The receiver's transfer that an offer starts. -/
def Dev.offerTaken (d : Dev) (m : FwrMsg) : Dev :=
  Dev.setFState { d with fwu := { d.fwu with
    src := 2, hdr := m.data, blocks := [], next := 0, reading := false, cxlErr := false, boot := d.bootWaits,
    rx := some { peer := m.src, xid := m.xid, last := d.tck.now, chunks := 0 } } } fHdrCheck

theorem Dev.fwrOffer_of_first {n : Nat} (hnew : e.rxOf m = none) (hnbr : e.nbrPort m.src = some n) (hrx : e.fwu.rx = none)
    (hstate : e.fState = fIdle) (hoffset : m.offset = 0) : d.fwrOffer m = e.offerTaken m := by
  rw [Dev.fwrOffer, hhere]
  simp only [hnew]
  rw [if_neg (by simp [hnbr, hrx, hstate]), if_neg (not_not.mpr hoffset)]
  rfl

theorem Dev.fwrOffer_of_stranger (hnew : e.rxOf m = none) (hnbr : e.nbrPort m.src = none) :
    d.fwrOffer m = (e.bump FWU_REFUSED.COUNT).fwrSend m.src 0x04 0x0F m.xid 0 0 [] := by
  rw [Dev.fwrOffer, hhere]
  simp only [hnew]
  rw [if_pos (by simp [hnbr])]

theorem Dev.fwrOffer_of_next {r : RxXfer} (h : e.rxOf m = some r) (hstate : e.fState = fHdrCheck) (hoffset : m.offset = e.fwu.hdr.length) :
    d.fwrOffer m = { e with fwu := { e.fwu with
      hdr := e.fwu.hdr ++ m.data.take (8192 - m.offset), rx := some { r with last := e.tck.now } } } := by
  rw [Dev.fwrOffer, hhere]
  simp only [h]
  rw [if_pos ⟨hstate, hoffset⟩]

theorem Dev.fwrData_of_none (h : e.rxOf m = none) : d.fwrData m = e := by
  rw [Dev.fwrData, hhere]
  simp only [h]

theorem Dev.fwrData_of_notStaging {r : RxXfer} (h : e.rxOf m = some r) (hstate : e.fState ≠ fStaging) :
    d.fwrData m = { e with fwu := { e.fwu with rx := some { r with last := e.tck.now } } } := by
  rw [Dev.fwrData, hhere]
  simp only [h]
  rw [if_neg fun hin => hstate hin.1]

/-- The part of a DATA message that lies in the payload. -/
def Dev.chunkOf (d : Dev) (m : FwrMsg) : List Byte := m.data.take ((hdrImg d.fwu.hdr).payload - d.fwu.next)

/-- A chunk moved, of a transfer that goes on as `r` without an ACK. -/
def Dev.chunkTaken (d : Dev) (m : FwrMsg) (r : RxXfer) : Dev :=
  let e := d.putPayload d.fwu.next (d.chunkOf m)
  Dev.wr { e with fwu := { e.fwu with
    next := d.fwu.next + (d.chunkOf m).length, rx := some { r with last := e.tck.now, chunks := r.chunks + 1 } } }
    FWU_PROGRESS.BLOCKS ((d.fwu.next + (d.chunkOf m).length) / 4096)

theorem Dev.fwrData_of_next {r : RxXfer} (h : e.rxOf m = some r) (hstate : e.fState = fStaging) (hsrc : e.fwu.src = 2)
    (hoffset : m.offset = 8192 + e.fwu.next) (hmore : e.fwu.next + (e.chunkOf m).length < (hdrImg e.fwu.hdr).payload)
    (hchunks : r.chunks ≠ 15) : d.fwrData m = e.chunkTaken m r := by
  have hinside : e.fwu.next < (hdrImg e.fwu.hdr).payload := by omega
  have hack : (decide (r.chunks = 15) || decide ((hdrImg e.fwu.hdr).payload ≤ e.fwu.next + (e.chunkOf m).length)) = false := by
    simp [hchunks, Nat.not_le.mpr hmore]
  unfold Dev.chunkOf at hack
  rw [Dev.fwrData, hhere]
  simp only [h]
  rw [if_pos ⟨hstate, hsrc, hoffset, hinside⟩, hack]
  rfl

/-! #### ACCEPT, ACK and the ends, to a sender -/

theorem Dev.fwrAccept_of_none (h : e.txOf m = none) : d.fwrAccept m = e := by
  rw [Dev.fwrAccept, hhere]
  simp only [h]

theorem Dev.fwrAccept_of_some {x : TxXfer} (h : e.txOf m = some x) :
    d.fwrAccept m = if x.accepted then e else Dev.txPump { e with fwu := { e.fwu with
      tx := some { x with accepted := true, next := 8192, acked := 8192, last := e.tck.now, tries := 0 } } } 74 := by
  rw [Dev.fwrAccept, hhere]
  simp only [h]

theorem Dev.fwrRefuse_of_none (h : e.txOf m = none) : d.fwrRefuse m = e := (hhere _ _).trans (if_neg (by rw [h]; decide))

theorem Dev.fwrRefuse_of_some {x : TxXfer} (h : e.txOf m = some x) : d.fwrRefuse m = e.txEnd m.code := (hhere _ _).trans (if_pos (by rw [h]; rfl))

theorem Dev.fwrAck_of_none (h : e.txOf m = none) : d.fwrAck m = e := by
  rw [Dev.fwrAck, hhere]
  simp only [h]

theorem Dev.fwrAck_of_progress {x : TxXfer} (h : e.txOf m = some x) (hbeyond : x.acked < m.arg) (hwithin : m.arg ≤ x.len) :
    d.fwrAck m = Dev.txPump { e with fwu := { e.fwu with
      tx := some { x with acked := m.arg, next := max x.next m.arg, last := e.tck.now, tries := 0 } } } 74 := by
  rw [Dev.fwrAck, hhere]
  simp only [h]
  rw [if_pos ⟨hbeyond, hwithin⟩]

theorem Dev.fwrDone_of_none (h : e.txOf m = none) : d.fwrDone m = e := (hhere _ _).trans (if_neg (by rw [h]; decide))

theorem Dev.fwrDone_of_some {x : TxXfer} (h : e.txOf m = some x) : d.fwrDone m = e.txEnd m.code := (hhere _ _).trans (if_pos (by rw [h]; rfl))

/-- An ABORT that names no incoming transfer. -/
theorem Dev.fwrAbort_of_sender (h : e.rxOf m = none) : d.fwrAbort m = if (e.txOf m).isSome then e.txEnd m.code else e := by
  rw [Dev.fwrAbort, hhere]
  simp only [h, Option.isSome_none, Bool.false_eq_true, if_false]

theorem Dev.fwrRequest_of_busy (h : e.fwu.tx ≠ none) : d.fwrRequest m = e := (hhere _ _).trans (if_pos (Option.isSome_iff_ne_none.mpr h))

theorem Dev.fwrRequest_of_idle (h : e.fwu.tx = none) : d.fwrRequest m = e.txStart m.src e.primary :=
  (hhere _ _).trans (if_neg (by rw [h]; decide))

end

/-! ### The timeouts -/

theorem Dev.fwRelayResend_of_none {d : Dev} (h : d.fwu.tx = none) : d.fwRelayResend = d := by
  rw [Dev.fwRelayResend, h]

theorem Dev.fwRelayResend_of_some {d : Dev} {x : TxXfer} (h : d.fwu.tx = some x) :
    d.fwRelayResend = if tickSub d.tck.now x.last < d.rto then d
      else if x.tries < d.rd FWU_RELAY.RETRY then
        Dev.txPump { d with fwu := { d.fwu with tx := some { x with next := x.acked, last := d.tck.now, tries := x.tries + 1 } } } 74
      else (d.fwrSend x.peer 0x08 0x15 x.xid 0 0 []).txEnd 0x15 := by
  rw [Dev.fwRelayResend, h]

theorem Dev.fwRelayRxTimeout_of_none {d : Dev} (h : d.fwu.rx = none) : d.fwRelayRxTimeout = d := by
  rw [Dev.fwRelayRxTimeout, h]

theorem Dev.fwRelayRxTimeout_of_some {d : Dev} {r : RxXfer} (h : d.fwu.rx = some r) :
    d.fwRelayRxTimeout = if tickSub d.tck.now r.last < (d.rd FWU_RELAY.RETRY + 1) * d.rto then d
      else ((d.rxTell 0x08 0x15).rxEnd).stageAbort 0x15 := by
  rw [Dev.fwRelayRxTimeout, h]

/-- Settles O46: a message that is not looked at does nothing, and one for this device acts on what was heard (`Dev.fwrRx_here`). -/
theorem relay : Obligations.Relay := by
  refine ⟨fun s m hdead htodo hport hdeaf => ?deaf, fun s m hdead hport hhears hdst => ?here, fun s hready => ?resend, fun s hready => ?expire⟩
  case deaf =>
    have hwf : decide (m.port < 3) = true := decide_eq_true hport
    simp only [List.forall_mem_cons, List.not_mem_nil, false_implies, implies_true, and_true]
    refine ⟨?_, ?_, ?_, ?_, ?_, ?_, ?_, ?_, ?_⟩ <;> exact State.does_of_alive hdead htodo rfl hwf (Dev.fwrRx_of_deaf hdeaf _ _) rfl
  case here =>
    have hhere := Dev.fwrRx_here hhears hdst
    have hwf : decide (m.port < 3) = true := decide_eq_true hport
    refine ⟨fun hnbr => ?_, fun n hnbr hrun => ?_, fun n hnew hnbr hrx hstate hoffset => ?_, fun r hrx hstate hsrc hoffset => ?_,
      fun hnew hnbr => ?_, fun htx => ⟨?_, ?_, ?_, ?_⟩, fun hrx => ?_, fun htx hrx => ?_,
      fun x htx => ⟨fun haccepted => ?_, fun haccepted => ?_, ?_, ?_, fun hrx => ?_, fun hbeyond hwithin => ?_⟩, fun r hrx hstate => ?_,
      fun r hrx hstate hoffset => ?_, fun hbusy => ?_, fun hidle => ?_⟩
    · exact State.runs_of_alive hdead rfl hwf (Dev.fwrVersion_of_stranger hhere hnbr)
    · exact State.runs_of_alive hdead rfl hwf (Dev.fwrVersion_of_neighbour hhere hnbr hrun)
    · exact State.runs_of_alive hdead rfl hwf (Dev.fwrOffer_of_first hhere hnew hnbr hrx hstate hoffset)
    · intro p next hmore hchunks
      have htaken := Dev.fwrData_of_next hhere hrx hstate hsrc hoffset hmore hchunks
      exact State.runs_of_alive hdead rfl hwf htaken
    · exact State.runs_of_alive hdead rfl hwf (Dev.fwrOffer_of_stranger hhere hnew hnbr)
    · exact State.runs_of_alive hdead rfl hwf (Dev.fwrAccept_of_none hhere htx)
    · exact State.runs_of_alive hdead rfl hwf (Dev.fwrRefuse_of_none hhere htx)
    · exact State.runs_of_alive hdead rfl hwf (Dev.fwrAck_of_none hhere htx)
    · exact State.runs_of_alive hdead rfl hwf (Dev.fwrDone_of_none hhere htx)
    · exact State.runs_of_alive hdead rfl hwf (Dev.fwrData_of_none hhere hrx)
    · exact State.runs_of_alive hdead rfl hwf ((Dev.fwrAbort_of_sender hhere hrx).trans (if_neg (by rw [htx]; decide)))
    · exact State.runs_of_alive hdead rfl hwf ((Dev.fwrAccept_of_some hhere htx).trans (if_neg (Bool.eq_false_iff.mp haccepted)))
    · exact State.runs_of_alive hdead rfl hwf ((Dev.fwrAccept_of_some hhere htx).trans (if_pos haccepted))
    · exact State.runs_of_alive hdead rfl hwf (Dev.fwrRefuse_of_some hhere htx)
    · exact State.runs_of_alive hdead rfl hwf (Dev.fwrDone_of_some hhere htx)
    · exact State.runs_of_alive hdead rfl hwf ((Dev.fwrAbort_of_sender hhere hrx).trans (if_pos (by rw [htx]; rfl)))
    · exact State.runs_of_alive hdead rfl hwf (Dev.fwrAck_of_progress hhere htx hbeyond hwithin)
    · exact State.runs_of_alive hdead rfl hwf (Dev.fwrData_of_notStaging hhere hrx hstate)
    · exact State.runs_of_alive hdead rfl hwf (Dev.fwrOffer_of_next hhere hrx hstate hoffset)
    · exact State.runs_of_alive hdead rfl hwf (Dev.fwrRequest_of_busy hhere hbusy)
    · exact State.runs_of_alive hdead rfl hwf (Dev.fwrRequest_of_idle hhere hidle)
  case resend =>
    refine ⟨fun hnone => ?_, fun x hx => ?_⟩
    · exact hready.does rfl rfl (Dev.fwRelayResend_of_none hnone) rfl
    · have hdone := Dev.fwRelayResend_of_some hx
      refine ⟨fun hearly => ?_, fun hlate htries => ?_, fun hlate htries => ?_⟩
      · exact hready.does rfl rfl (hdone.trans (if_pos hearly)) rfl
      · exact hready.runs rfl rfl (hdone.trans ((if_neg (Nat.not_lt.mpr hlate)).trans (if_pos htries)))
      · exact hready.runs rfl rfl (hdone.trans ((if_neg (Nat.not_lt.mpr hlate)).trans (if_neg (Nat.not_lt.mpr htries))))
  case expire =>
    refine ⟨fun hnone => ?_, fun r hr => ?_⟩
    · exact hready.does rfl rfl (Dev.fwRelayRxTimeout_of_none hnone) rfl
    · have hdone := Dev.fwRelayRxTimeout_of_some hr
      refine ⟨fun hearly => ?_, fun hlate => ?_⟩
      · exact hready.does rfl rfl (hdone.trans (if_pos hearly)) rfl
      · exact hready.runs rfl rfl (hdone.trans (if_neg (Nat.not_lt.mpr hlate)))

end Sys2Proof.Machine
end
